-- ==== Sys2Proof/Word.lean ====
section
/-! DEFINITION. The word types of the Sareradon (R2 to R5): bit vectors for what the manual treats as bits,
and nothing else. Bit-field helpers stand in Machine/Bits.lean. -/

namespace Sys2Proof

/-- A byte, eight bits (R4). -/
abbrev Byte := BitVec 8

/-- A 64-bit scalar register, CSR or doubleword (R188). -/
abbrev Word := BitVec 64

/-- A 32-bit slot of a bundle, a lane of a vector register, or a command word (R174, R152, R353). -/
abbrev Word32 := BitVec 32

/-- The 2048 bits of a vector register (R188). -/
abbrev Vec := BitVec 2048

/-- One 64-byte line (R28). -/
abbrev LineBits := BitVec 512

end Sys2Proof
end

