-- ==== Sys2Proof/Machine/Bits.lean ====
section
/-! DEFINITION. Bit fields, sign extension and byte order (R2, R3, R10, R12). -/

namespace Sys2Proof.Machine

/-- Bits `hi` to `lo` of a bit vector as a number. -/
def bits {n : Nat} (x : BitVec n) (hi lo : Nat) : Nat := (x.extractLsb' lo (hi + 1 - lo)).toNat

/-- `x` with bits `hi` to `lo` replaced by the low bits of `v` (R3). -/
def setBits {n : Nat} (x : BitVec n) (hi lo v : Nat) : BitVec n :=
  let m : BitVec n := BitVec.ofNat n (2 ^ (hi + 1 - lo) - 1) <<< lo
  (x &&& ~~~m) ||| (BitVec.ofNat n (v % 2 ^ (hi + 1 - lo)) <<< lo)

/-- `sign_extend(x, n)` of R12 on a bit vector: its two's complement value in `m` bits. -/
def sext {n : Nat} (m : Nat) (x : BitVec n) : BitVec m := x.signExtend m

/-- The little-endian bytes of the low `n` bytes of a number (R2). -/
def toBytes (x : Nat) : Nat → List Byte
  | 0 => []
  | n + 1 => BitVec.ofNat 8 x :: toBytes (x / 256) n

/-- The number that little-endian bytes hold (R2). -/
def ofBytes : List Byte → Nat
  | [] => 0
  | b :: bs => b.toNat + 256 * ofBytes bs

/-- The number that big-endian bytes hold. -/
def ofBytesBE (bs : List Byte) : Nat := bs.foldl (fun acc b => 256 * acc + b.toNat) 0

/-- The `n` big-endian bytes of a number. -/
def toBytesBE (x n : Nat) : List Byte := (toBytes x n).reverse

/-- A number as a 64-bit word, modulo 2^64: `wrap(x, 64)` of R12. -/
def word (n : Nat) : Word := BitVec.ofNat 64 n

/-- An integer as a 64-bit word, modulo 2^64. -/
def wordI (n : Int) : Word := BitVec.ofInt 64 n

/-- A flag as the number 0 or 1. -/
def b2n (b : Bool) : Nat := if b then 1 else 0

/-- The smallest number of units of `u` that hold `n`. -/
def ceilDiv (n u : Nat) : Nat := (n + u - 1) / u

end Sys2Proof.Machine
end

