-- ==== Sys2Proof/Syntax.lean ====
section
/-! DEFINITION. The instructions of the Sareradon as syntax: one constructor for every row of the opcode table
(230 slots of Dexzor and 157 events, commands and requests), with the data the event rows carry from outside. -/

namespace Sys2Proof

/-- A frame at an Ethernet port (R322, R323): what the port, the parser and the packet crypto unit see of it. `tags` are its
IEEE 802.1Q tags, `udp6` says that it holds a UDP/IPv6 datagram, and `hdr` is the 64-byte Sareradon header, byte 0 in
bits 7:0. -/
structure Datagram where
  port : BitVec 1
  fcsOk : Bool
  tags : List (BitVec 16) := []
  udp6 : Bool := true
  udpOk : Bool
  saddr : BitVec 128
  sport : BitVec 16
  daddr : BitVec 128
  dport : BitVec 16
  hdr : BitVec 512
  body : List Byte
  tag : BitVec 128
  deriving DecidableEq, Repr

/-- Where a patrol read finds its line (R400): in L2, there newer than HBM or not, in the weight SRAM of a stack, or in
HBM. -/
inductive PatrolSite where
  | l2 (newer : Bool)
  | sram (stack : Nat)
  | hbm
  deriving DecidableEq, Repr

/-- The line that the patrol reads: what holds it, and its number (R400). -/
structure PatrolLine where
  site : PatrolSite
  num : Nat
  deriving DecidableEq, Repr

/-- How a fetch of the Pilot ended (R345, R463): a peer's copy of a shared-weight page arrived, or the peer failed; the page
was read from flash, or the drive failed, or its copy of a shared-weight page no longer has its digest. -/
inductive FetchResult where
  | peer (bytes : List Byte)
  | peerFailed
  | flash
  | flashFailed
  | flashBad
  deriving DecidableEq, Repr

/-- What the tiers firmware allots to a drain (R147, R363): the drive of the first extent, the extents of 2 MiB in order,
and the manifest's place, in logical blocks. -/
structure Allotment where
  first : Bool
  extents : List (BitVec 63)
  mlba : BitVec 63
  deriving DecidableEq, Repr

/-- The causes of a failed drain (R457). -/
inductive DrainFault where
  | drive | extent | broken | poisoned
  deriving DecidableEq, Repr

/-- What an engine operation met when it faulted (R437). -/
inductive EngineCause where
  | nomap | rights | spaddr | poison | absent
  deriving DecidableEq, Repr

/-- The two paths of a matrix queue (R300). -/
inductive MatrixPath where
  | transfer | array
  deriving DecidableEq, Repr

/-- A storage error that a structure of R398 detects: `struct` as the table numbers it, the context and the register or
operand slot it names where the structure belongs to one (for a queue entry the engine context with 8 times its number),
the physical address for a memory structure, whether the code corrected it, and the syndrome. -/
structure EccEvent where
  struct : Nat
  agent : Nat
  unit : Nat
  pa : Nat
  corrected : Bool
  synd : BitVec 32
  deriving DecidableEq, Repr

/-- A command packet with the agent that issues it (R353, R357): `who` is 0 to 3 for the management agents of R359,
4 + f for virtual function f (1 to 255), and 260 + t for a device ring of tenant t; `q` the host queue (16384 + agent
for an agent channel), `level` the nesting of R354. -/
structure Cmd where
  who : Nat
  q : Nat
  level : Nat
  cpl : Bool
  arg : BitVec 13
  words : List Word32
  deriving DecidableEq, Repr

/-- The host access that failed (R467). -/
inductive HostAccess where
  | ringFetch | dataAccess | completionWrite
  deriving DecidableEq, Repr

/-- An SPDM request as the security firmware receives it (R366): the slot or measurement index it names, an offset
and length, its nonce, and the context that its requester has echoed. -/
structure SpdmRequest where
  param1 : BitVec 8
  param2 : BitVec 8
  offset : BitVec 16
  len : BitVec 16
  nonce : List Byte
  context : BitVec 64
  deriving DecidableEq, Repr

/-- One operation of a remote task's publication (R81, R255): stored bytes, or a reduction numbered as `RED` selects it. -/
inductive RemoteOp where
  | store (bytes : List Byte)
  | red (f : BitVec 2) (v : Word)
  deriving DecidableEq, Repr

/-- What a remote access does at the peer (R126, R369): a load, the publication of a task's operations by address, or a
returning atomic of `n` bytes, `op` 0 to 7 as R253 numbers them, 8 for compare-and-swap with `w`, and 9 for the change of
a task record's count by `v` with its re-arming under the binding number in `w` (R44, R45, R260). -/
inductive RemoteKind where
  | load (n : Nat)
  | publish (ops : List (Nat × RemoteOp))
  | atomic (n : Nat) (op : BitVec 4) (v w : Word)
  deriving DecidableEq, Repr

/-- A remote access that reaches this device (R369). -/
structure RemoteAccess where
  sdev : BitVec 9
  ten : BitVec 12
  pa : Nat
  kind : RemoteKind
  port : Nat
  deriving DecidableEq, Repr

/-- A launch packet that reaches this device (R370, R371). -/
structure LaunchPacket where
  sdev : BitVec 9
  ten : BitVec 12
  id : Nat
  blk : Nat
  gen : BitVec 8
  pcls : BitVec 3
  gang : Bool
  payload : List Byte
  deriving DecidableEq, Repr

/-- A part of a migrated block's copy (R346): control-block words, snapshot-table words, the ranges of memory it covers and
their bytes, zero where none is listed; `last` marks the part that completes the copy. -/
structure MigrationCopy where
  sdev : BitVec 9
  srcBlk : Nat
  blk : Nat
  words : List Word
  snaps : List (BitVec 128)
  snapGen : BitVec 32
  shared : List (Nat × List (List Byte))
  cover : List (Nat × Nat)
  bytes : List (Nat × Byte)
  last : Bool
  deriving DecidableEq, Repr

/-- The instructions: the 230 slot forms of R184 and the 157 device events, commands and requests. -/
inductive Instr where
  /-- `NOP` (R176): Does nothing and uses no resource; the stop bit may end the bundle. -/
  | nop
  /-- `ADD` (R207): Writes the 64-bit wrapped sum of two scalars. -/
  | add (d a b : BitVec 6)
  /-- `SUB` (R207): Writes the 64-bit wrapped difference of two scalars. -/
  | sub (d a b : BitVec 6)
  /-- `AND` (R207): Writes the bitwise and of two scalars. -/
  | and (d a b : BitVec 6)
  /-- `OR` (R207): Writes the bitwise or of two scalars. -/
  | or (d a b : BitVec 6)
  /-- `XOR` (R207): Writes the bitwise exclusive or of two scalars. -/
  | xor (d a b : BitVec 6)
  /-- `ANDN` (R207): Writes a and not b. -/
  | andn (d a b : BitVec 6)
  /-- `MUL` (R207): Writes the low 64 bits of the product. -/
  | mul (d a b : BitVec 6)
  /-- `MULH` (R207): Writes the high 64 bits of the signed product. -/
  | mulh (d a b : BitVec 6)
  /-- `MULHU` (R207): Writes the high 64 bits of the unsigned product. -/
  | mulhu (d a b : BitVec 6)
  /-- `DIV` (R208): Writes the signed quotient, without trapping on zero or overflow. -/
  | div (d a b : BitVec 6)
  /-- `DIVU` (R208): Writes the unsigned quotient. -/
  | divu (d a b : BitVec 6)
  /-- `REM` (R208): Writes the signed remainder. -/
  | rem (d a b : BitVec 6)
  /-- `REMU` (R208): Writes the unsigned remainder. -/
  | remu (d a b : BitVec 6)
  /-- `SHL` (R207): Shifts left by b[5:0]. -/
  | shl (d a b : BitVec 6)
  /-- `SHR` (R207): Shifts right logically by b[5:0]. -/
  | shr (d a b : BitVec 6)
  /-- `SRA` (R207): Shifts right arithmetically by b[5:0]. -/
  | sra (d a b : BitVec 6)
  /-- `MIN` (R207): Writes the signed minimum. -/
  | min (d a b : BitVec 6)
  /-- `MAX` (R207): Writes the signed maximum. -/
  | max (d a b : BitVec 6)
  /-- `MINU` (R207): Writes the unsigned minimum. -/
  | minu (d a b : BitVec 6)
  /-- `MAXU` (R207): Writes the unsigned maximum. -/
  | maxu (d a b : BitVec 6)
  /-- `CLZ` (R209): Counts leading zero bits. -/
  | clz (d a : BitVec 6)
  /-- `CTZ` (R209): Counts trailing zero bits. -/
  | ctz (d a : BitVec 6)
  /-- `POPC` (R209): Counts one bits. -/
  | popc (d a : BitVec 6)
  /-- `MOV` (R209): Copies a scalar. -/
  | mov (d a : BitVec 6)
  /-- `BFX` (R210): Extracts a bit field described by s[b]. -/
  | bfx (d a b : BitVec 6)
  /-- `BFI` (R210): Inserts a bit field into d described by s[b]. -/
  | bfi (d a b : BitVec 6)
  /-- `SEL` (R211): Writes a or b according to a predicate. -/
  | sel (d a b : BitVec 6) (c : BitVec 3)
  /-- `CMP_EQ` (R212): Sets a predicate if the scalars are equal. -/
  | cmpEq (d : BitVec 3) (a b : BitVec 6)
  /-- `CMP_NE` (R212): Sets a predicate if the scalars differ. -/
  | cmpNe (d : BitVec 3) (a b : BitVec 6)
  /-- `CMP_LT` (R212): Sets a predicate on signed less-than. -/
  | cmpLt (d : BitVec 3) (a b : BitVec 6)
  /-- `CMP_GE` (R212): Sets a predicate on signed greater-or-equal. -/
  | cmpGe (d : BitVec 3) (a b : BitVec 6)
  /-- `CMP_LTU` (R212): Sets a predicate on unsigned less-than. -/
  | cmpLtu (d : BitVec 3) (a b : BitVec 6)
  /-- `CMP_GEU` (R212): Sets a predicate on unsigned greater-or-equal. -/
  | cmpGeu (d : BitVec 3) (a b : BitVec 6)
  /-- `PAND` (R213): Writes the and of two predicates. -/
  | pand (d a b : BitVec 3)
  /-- `POR` (R213): Writes the or of two predicates. -/
  | por (d a b : BitVec 3)
  /-- `PNOT` (R213): Writes the negation of a predicate. -/
  | pnot (d a : BitVec 3)
  /-- `ADDI` (R214): Adds a sign-extended immediate. -/
  | addi (d a : BitVec 6) (imm : BitVec 9)
  /-- `ANDI` (R214): Ands with a sign-extended immediate. -/
  | andi (d a : BitVec 6) (imm : BitVec 9)
  /-- `ORI` (R214): Ors with a sign-extended immediate. -/
  | ori (d a : BitVec 6) (imm : BitVec 9)
  /-- `XORI` (R214): Exclusive-ors with a sign-extended immediate. -/
  | xori (d a : BitVec 6) (imm : BitVec 9)
  /-- `SHLI` (R215): Shifts left by an immediate amount. -/
  | shli (d a sh : BitVec 6)
  /-- `SHRI` (R215): Shifts right logically by an immediate amount. -/
  | shri (d a sh : BitVec 6)
  /-- `SRAI` (R215): Shifts right arithmetically by an immediate amount. -/
  | srai (d a sh : BitVec 6)
  /-- `LI` (R216): Loads a sign-extended immediate. -/
  | li (d : BitVec 6) (imm : BitVec 15)
  /-- `LIH` (R216): Writes bits 63:28 of d from an unsigned immediate, keeping bits 27:0. -/
  | lih (d : BitVec 6) (imm : BitVec 15)
  /-- `CMPI_EQ` (R212): Sets a predicate if the scalar equals the immediate. -/
  | cmpiEq (d : BitVec 3) (a : BitVec 6) (imm : BitVec 9)
  /-- `CMPI_NE` (R212): Sets a predicate if the scalar differs from the immediate. -/
  | cmpiNe (d : BitVec 3) (a : BitVec 6) (imm : BitVec 9)
  /-- `CMPI_LT` (R212): Signed less-than against the immediate. -/
  | cmpiLt (d : BitVec 3) (a : BitVec 6) (imm : BitVec 9)
  /-- `CMPI_GE` (R212): Signed greater-or-equal against the immediate. -/
  | cmpiGe (d : BitVec 3) (a : BitVec 6) (imm : BitVec 9)
  /-- `CMPI_LTU` (R212): Unsigned less-than against the sign-extended immediate. -/
  | cmpiLtu (d : BitVec 3) (a : BitVec 6) (imm : BitVec 9)
  /-- `CMPI_GEU` (R212): Unsigned greater-or-equal against the sign-extended immediate. -/
  | cmpiGeu (d : BitVec 3) (a : BitVec 6) (imm : BitVec 9)
  /-- `TREE` (R218): Tests up to four predicates and selects the taken leaf of the bundle. -/
  | tree (t1 t2 t3 t4 : BitVec 4) (n : BitVec 3)
  /-- `TGT` (R219): Gives the branch target of one leaf of the bundle's tree. -/
  | tgt (leaf : BitVec 3) (off : BitVec 18)
  /-- `JMP` (R221): Jumps to a bundle-relative target. -/
  | jmp (off : BitVec 18)
  /-- `CALL` (R221): Jumps and writes the continuation address to lk. -/
  | call (off : BitVec 18)
  /-- `LOOP` (R223): Opens a counted loop level, or skips its body when the count is zero. -/
  | loop (d : BitVec 6) (imm : BitVec 15)
  /-- `SLOOP` (R224): Opens a stream-terminated loop level on a queue and predicate. -/
  | sloop (d : BitVec 3) (q : BitVec 6) (imm : BitVec 9)
  /-- `RET` (R221): Jumps to the address in lk. -/
  | ret
  /-- `END` (R228): Commits the running task at the bundle's commit, validating versioned writes and publishing its
  buffer; the context becomes VACANT. -/
  | endTask
  /-- `YIELD` (R229): Commits the bundle and passes issue to another READY context. -/
  | yield
  /-- `RDV` (R231): Rendezvous slot that waits only while a pair of the group is rewinding. -/
  | rdv (n : BitVec 6)
  /-- `SEGB` (R230): Opens a static schedule segment and records its rewind point. -/
  | segb
  /-- `SEGE` (R230): Closes a segment; in protected mode the segment buffer drains. -/
  | sege
  /-- `BRK` (R232): Raises a BRK trap with the code in tval. -/
  | brk (n : BitVec 6)
  /-- `LDB` (R245): Loads a sign-extended byte from global memory. -/
  | ldb (t base : BitVec 6) (off : BitVec 8)
  /-- `LDBZ` (R245): Loads a zero-extended byte. -/
  | ldbz (t base : BitVec 6) (off : BitVec 8)
  /-- `LDH` (R245): Loads a sign-extended halfword. -/
  | ldh (t base : BitVec 6) (off : BitVec 8)
  /-- `LDHZ` (R245): Loads a zero-extended halfword. -/
  | ldhz (t base : BitVec 6) (off : BitVec 8)
  /-- `LDW` (R245): Loads a sign-extended word. -/
  | ldw (t base : BitVec 6) (off : BitVec 8)
  /-- `LDWZ` (R245): Loads a zero-extended word. -/
  | ldwz (t base : BitVec 6) (off : BitVec 8)
  /-- `LDD` (R245): Loads a doubleword at a new stamp. -/
  | ldd (t base : BitVec 6) (off : BitVec 8)
  /-- `STB` (R245): Buffers a byte store. -/
  | stb (t base : BitVec 6) (off : BitVec 8)
  /-- `STH` (R245): Buffers a halfword store. -/
  | sth (t base : BitVec 6) (off : BitVec 8)
  /-- `STW` (R245): Buffers a word store. -/
  | stw (t base : BitVec 6) (off : BitVec 8)
  /-- `STD` (R245): Buffers a doubleword store. -/
  | std (t base : BitVec 6) (off : BitVec 8)
  /-- `SPL` (R246): Loads a doubleword from a scratchpad. -/
  | spl (t base : BitVec 6) (off : BitVec 8) (ma : Bool)
  /-- `SPS` (R246): Stores a doubleword to a scratchpad. -/
  | sps (t base : BitVec 6) (off : BitVec 8) (ma : Bool)
  /-- `VLDP` (R246): Loads a vector register from a scratchpad and sets its tag. -/
  | vldp (t base : BitVec 6) (tag : BitVec 4) (off : BitVec 4) (ma : Bool)
  /-- `VSTP` (R246): Stores a vector register to a scratchpad. -/
  | vstp (t base : BitVec 6) (off : BitVec 8) (ma : Bool)
  /-- `VLD` (R247): Loads 256 bytes of global memory at one stamp into a vector register. -/
  | vld (t base : BitVec 6) (tag : BitVec 4) (off : BitVec 4)
  /-- `VST` (R247): Buffers a 256-byte vector store. -/
  | vst (t base : BitVec 6) (off : BitVec 4)
  /-- `VLDS` (R248): Loads eight strided 32-byte rows at one stamp. -/
  | vlds (t base : BitVec 6) (st tag : BitVec 4)
  /-- `VSTS` (R248): Buffers eight strided 32-byte rows. -/
  | vsts (t base : BitVec 6) (st : BitVec 4)
  /-- `SLD` (R249): Issues a slotted read of one line through the memory calendar. -/
  | sld (t base : BitVec 6) (tag : BitVec 4) (off : BitVec 4)
  /-- `TRANS` (R250): Translates an address and writes the physical line and calendar position. -/
  | trans (d a b : BitVec 6)
  /-- `PREF` (R251): Requests a line into L1 or L2 without trapping. -/
  | pref (a b : BitVec 6)
  /-- `FENCE` (R252): Stalls until earlier far scratchpad accesses and atomics are complete. -/
  | fence
  /-- `AMOADD` (R253): Returning atomic add on a doubleword; pins the task. -/
  | amoadd (d a b : BitVec 6)
  /-- `AMOMIN` (R253): Returning atomic signed minimum on a doubleword. -/
  | amomin (d a b : BitVec 6)
  /-- `AMOMAX` (R253): Returning atomic signed maximum on a doubleword. -/
  | amomax (d a b : BitVec 6)
  /-- `AMOMINU` (R253): Returning atomic unsigned minimum on a doubleword. -/
  | amominu (d a b : BitVec 6)
  /-- `AMOAND` (R253): Returning atomic and on a doubleword. -/
  | amoand (d a b : BitVec 6)
  /-- `AMOOR` (R253): Returning atomic or on a doubleword. -/
  | amoor (d a b : BitVec 6)
  /-- `AMOXOR` (R253): Returning atomic exclusive or on a doubleword. -/
  | amoxor (d a b : BitVec 6)
  /-- `AMOSWP` (R253): Returning atomic swap on a doubleword. -/
  | amoswp (d a b : BitVec 6)
  /-- `AMOADD_W` (R253): Returning atomic add on a word. -/
  | amoaddW (d a b : BitVec 6)
  /-- `AMOMIN_W` (R253): Returning atomic signed minimum on a word. -/
  | amominW (d a b : BitVec 6)
  /-- `AMOMAX_W` (R253): Returning atomic signed maximum on a word. -/
  | amomaxW (d a b : BitVec 6)
  /-- `AMOMINU_W` (R253): Returning atomic unsigned minimum on a word. -/
  | amominuW (d a b : BitVec 6)
  /-- `AMOAND_W` (R253): Returning atomic and on a word. -/
  | amoandW (d a b : BitVec 6)
  /-- `AMOOR_W` (R253): Returning atomic or on a word. -/
  | amoorW (d a b : BitVec 6)
  /-- `AMOXOR_W` (R253): Returning atomic exclusive or on a word. -/
  | amoxorW (d a b : BitVec 6)
  /-- `AMOSWP_W` (R253): Returning atomic swap on a word. -/
  | amoswpW (d a b : BitVec 6)
  /-- `AMOCAS` (R253): Doubleword compare-and-swap; pins the task whether or not it writes. -/
  | amocas (d a b : BitVec 6)
  /-- `AMOCAS_W` (R253): Word compare-and-swap. -/
  | amocasW (d a b : BitVec 6)
  /-- `RED_ADD` (R255): Buffers a non-returning integer add applied at publication. -/
  | redAdd (a b : BitVec 6)
  /-- `RED_MIN` (R255): Buffers a non-returning signed minimum. -/
  | redMin (a b : BitVec 6)
  /-- `RED_MAX` (R255): Buffers a non-returning signed maximum. -/
  | redMax (a b : BitVec 6)
  /-- `RED_FADD` (R255): Buffers a non-returning FP32 add rounded at publication. -/
  | redFadd (a b : BitVec 6)
  /-- `TSPAWN` (R259): Names a further successor to be decremented at the task's commit. -/
  | tspawn (a : BitVec 6)
  /-- `TDEC` (R260): Decrements a task record's count at once, enqueuing it at zero. -/
  | tdec (a : BitVec 6)
  /-- `TADD` (R260): Adds a signed value to a task record's count at once. -/
  | tadd (a b : BitVec 6)
  /-- `NTR` (R261): Commits the task, takes the next tile and begins a new task on the context. -/
  | ntr
  /-- `BARR` (R262): Arrives at a barrier without waiting. -/
  | barr (h : BitVec 8)
  /-- `BWAIT` (R262): Waits for the phase of the context's latest arrival. -/
  | bwait (h : BitVec 8)
  /-- `BARW` (R262): Arrives at a barrier and then waits for the phase. -/
  | barw (h : BitVec 8)
  /-- `QPUT` (R264): Puts a vector into a stream queue, blocking while full. -/
  | qput (q b : BitVec 6)
  /-- `QGET` (R264): Gets an entry from a stream queue, handling the end-of-stream token. -/
  | qget (d q : BitVec 6)
  /-- `QEOS` (R264): Puts the end-of-stream token into a queue. -/
  | qeos (q : BitVec 6)
  /-- `VFPUT` (R265): Puts a vector into the outgoing vertical FIFO and returns the free count. -/
  | vfput (d b : BitVec 6)
  /-- `VFGET` (R265): Takes the oldest entry of the incoming vertical FIFO. -/
  | vfget (d : BitVec 6)
  /-- `TLW` (R266): Waits until an engine context's timeline reaches a value. -/
  | tlw (e : BitVec 3) (a : BitVec 6)
  /-- `TLR` (R266): Reads an engine context's timeline counter with ordering. -/
  | tlr (d : BitVec 6) (e : BitVec 3)
  /-- `TXB` (R268): Opens a transaction with its own snapshot stamp. -/
  | txb
  /-- `TXC` (R268): Validates and publishes or drops the transaction's stores. -/
  | txc (d : BitVec 6)
  /-- `TXA` (R268): Drops the open transaction's stores. -/
  | txa
  /-- `SNAP` (R269): Takes a snapshot handle, optionally starting a drain. -/
  | snap (d : BitVec 6) (drain : Bool)
  /-- `SNAPREL` (R270): Releases a snapshot handle. -/
  | snaprel (a : BitVec 6)
  /-- `SNAPSEL` (R270): Selects a snapshot handle for later versioned loads, or returns to S. -/
  | snapsel (a : BitVec 6)
  /-- `VADD` (R275): Floating-point vector add. -/
  | vadd (d a b : BitVec 6) (k : BitVec 3)
  /-- `VSUB` (R275): Floating-point vector subtract. -/
  | vsub (d a b : BitVec 6) (k : BitVec 3)
  /-- `VMUL` (R275): Floating-point vector multiply. -/
  | vmul (d a b : BitVec 6) (k : BitVec 3)
  /-- `VFMA` (R275): Fused multiply-add into d. -/
  | vfma (d a b : BitVec 6) (k : BitVec 3)
  /-- `VFMS` (R275): Fused multiply-subtract of d. -/
  | vfms (d a b : BitVec 6) (k : BitVec 3)
  /-- `VMIN` (R275): Floating-point vector minimum. -/
  | vmin (d a b : BitVec 6) (k : BitVec 3)
  /-- `VMAX` (R275): Floating-point vector maximum. -/
  | vmax (d a b : BitVec 6) (k : BitVec 3)
  /-- `VNEG` (R276): Inverts the sign of each active element. -/
  | vneg (d a : BitVec 6) (k : BitVec 3)
  /-- `VABS` (R276): Clears the sign of each active element. -/
  | vabs (d a : BitVec 6) (k : BitVec 3)
  /-- `VRCP` (R276): Faithfully rounded reciprocal. -/
  | vrcp (d a : BitVec 6) (k : BitVec 3)
  /-- `VRSQ` (R276): Faithfully rounded reciprocal square root. -/
  | vrsq (d a : BitVec 6) (k : BitVec 3)
  /-- `VSQRT` (R276): Correctly rounded square root. -/
  | vsqrt (d a : BitVec 6) (k : BitVec 3)
  /-- `VEXP` (R276): Faithfully rounded exponential. -/
  | vexp (d a : BitVec 6) (k : BitVec 3)
  /-- `VLOG` (R276): Faithfully rounded natural logarithm. -/
  | vlog (d a : BitVec 6) (k : BitVec 3)
  /-- `VTANH` (R276): Faithfully rounded hyperbolic tangent. -/
  | vtanh (d a : BitVec 6) (k : BitVec 3)
  /-- `VCLASS` (R277): Writes the class code of each active element. -/
  | vclass (d a : BitVec 6) (k : BitVec 3)
  /-- `VNOT` (R276): Inverts every bit of each active lane. -/
  | vnot (d a : BitVec 6) (k : BitVec 3)
  /-- `VREDSUM` (R289): Sums the active elements into element 0. -/
  | vredsum (d a : BitVec 6) (k : BitVec 3)
  /-- `VREDMAX` (R289): Writes the largest active element into element 0. -/
  | vredmax (d a : BitVec 6) (k : BitVec 3)
  /-- `VREDMIN` (R289): Writes the smallest active element into element 0. -/
  | vredmin (d a : BitVec 6) (k : BitVec 3)
  /-- `VREDARG` (R289): Writes the index of the first largest active element. -/
  | vredarg (d a : BitVec 6) (k : BitVec 3)
  /-- `VSCAN` (R290): Writes inclusive prefix sums. -/
  | vscan (d a : BitVec 6) (k : BitVec 3)
  /-- `VMOVS` (R276): Copies active lanes bit for bit. -/
  | vmovs (d a : BitVec 6) (k : BitVec 3)
  /-- `VHASH` (R292): Hashes each active 32-bit lane. -/
  | vhash (d a : BitVec 6) (k : BitVec 3)
  /-- `VIADD` (R278): Integer vector add with clamp or wrap. -/
  | viadd (d a b : BitVec 6) (k : BitVec 3)
  /-- `VISUB` (R278): Integer vector subtract. -/
  | visub (d a b : BitVec 6) (k : BitVec 3)
  /-- `VIMUL` (R278): Integer vector multiply. -/
  | vimul (d a b : BitVec 6) (k : BitVec 3)
  /-- `VIMAD` (R278): Integer multiply-add into d. -/
  | vimad (d a b : BitVec 6) (k : BitVec 3)
  /-- `VIMIN` (R278): Integer vector minimum. -/
  | vimin (d a b : BitVec 6) (k : BitVec 3)
  /-- `VIMAX` (R278): Integer vector maximum. -/
  | vimax (d a b : BitVec 6) (k : BitVec 3)
  /-- `VSHL` (R279): Per-element left shift. -/
  | vshl (d a b : BitVec 6) (k : BitVec 3)
  /-- `VSHR` (R279): Per-element logical right shift. -/
  | vshr (d a b : BitVec 6) (k : BitVec 3)
  /-- `VSRA` (R279): Per-element arithmetic right shift. -/
  | vsra (d a b : BitVec 6) (k : BitVec 3)
  /-- `VAND` (R280): Bitwise and of active lanes. -/
  | vand (d a b : BitVec 6) (k : BitVec 3)
  /-- `VOR` (R280): Bitwise or of active lanes. -/
  | vor (d a b : BitVec 6) (k : BitVec 3)
  /-- `VXOR` (R280): Bitwise exclusive or of active lanes. -/
  | vxor (d a b : BitVec 6) (k : BitVec 3)
  /-- `VCMP_EQ` (R281): Writes a mask of lanes whose elements are equal. -/
  | vcmpEq (kd : BitVec 3) (a b : BitVec 6) (k : BitVec 3)
  /-- `VCMP_NE` (R281): Writes a mask of lanes whose elements differ. -/
  | vcmpNe (kd : BitVec 3) (a b : BitVec 6) (k : BitVec 3)
  /-- `VCMP_LT` (R281): Writes a mask of lanes with a less than b. -/
  | vcmpLt (kd : BitVec 3) (a b : BitVec 6) (k : BitVec 3)
  /-- `VCMP_LE` (R281): Writes a mask of lanes with a at most b. -/
  | vcmpLe (kd : BitVec 3) (a b : BitVec 6) (k : BitVec 3)
  /-- `VCMP_GT` (R281): Writes a mask of lanes with a greater than b. -/
  | vcmpGt (kd : BitVec 3) (a b : BitVec 6) (k : BitVec 3)
  /-- `VCMP_GE` (R281): Writes a mask of lanes with a at least b. -/
  | vcmpGe (kd : BitVec 3) (a b : BitVec 6) (k : BitVec 3)
  /-- `VCMP_UN` (R281): Writes a mask of lanes where either element is NaN. -/
  | vcmpUn (kd : BitVec 3) (a b : BitVec 6) (k : BitVec 3)
  /-- `VSEL` (R282): Selects lanes of a or b by a mask. -/
  | vsel (d a b : BitVec 6) (k : BitVec 3)
  /-- `VCVT` (R283): Converts or retags elements to a destination format. -/
  | vcvt (d a : BitVec 6) (u : BitVec 4) (k : BitVec 3)
  /-- `VQNT` (R284): Quantises a register group into a block format and its scale plane. -/
  | vqnt (d a : BitVec 6) (u : BitVec 4)
  /-- `VDQNT` (R285): Dequantises a block format into an FP32 register group. -/
  | vdqnt (d a b : BitVec 6)
  /-- `VPACKTS` (R286): Builds TS8 codes from high and low term codes. -/
  | vpackts (d a b : BitVec 6) (k : BitVec 3)
  /-- `VSHUF` (R287): Permutes lanes by an index vector. -/
  | vshuf (d a b : BitVec 6) (k : BitVec 3)
  /-- `VROT` (R287): Rotates lanes by an immediate count. -/
  | vrot (d a n : BitVec 6)
  /-- `VSLIDE` (R287): Slides lanes by a scalar count, filling with zero. -/
  | vslide (d a b : BitVec 6)
  /-- `VBCAST` (R287): Broadcasts a scalar's low word to every lane. -/
  | vbcast (d a : BitVec 6)
  /-- `VINS` (R287): Inserts a scalar's low word into one lane. -/
  | vins (d a n : BitVec 6)
  /-- `VEXT` (R287): Extracts one lane into a scalar. -/
  | vext (d a n : BitVec 6)
  /-- `VGATHER` (R288): Loads one word per active lane at one stamp. -/
  | vgather (d a b : BitVec 6) (k : BitVec 3)
  /-- `VSCAT` (R288): Buffers one word store per active lane. -/
  | vscat (d a b : BitVec 6) (k : BitVec 3)
  /-- `VDOT` (R291): Adds per-lane dot products into d. -/
  | vdot (d a b : BitVec 6) (k : BitVec 3)
  /-- `KAND` (R293): And of two masks. -/
  | kand (d a b : BitVec 3)
  /-- `KOR` (R293): Or of two masks. -/
  | kor (d a b : BitVec 3)
  /-- `KNOT` (R293): Negation of a mask. -/
  | knot (d a : BitVec 3)
  /-- `KPOP` (R293): Counts the set bits of a mask into a scalar. -/
  | kpop (d : BitVec 6) (a : BitVec 3)
  /-- `MCALL_MM` (R306): Queues a matrix multiply-accumulate into an accumulator bank. -/
  | mcallMm (acc : BitVec 1) (sa sb : BitVec 6)
  /-- `MCALL_ACCOUT` (R307): Queues conversion of a bank into operand slots. -/
  | mcallAccout (acc : BitVec 1) (sa : BitVec 6)
  /-- `MCALL_ACCLD` (R305): Queues loading a bank from four slots. -/
  | mcallAccld (acc : BitVec 1) (sa : BitVec 6)
  /-- `MCALL_ACCADD` (R305): Queues adding four slots into a bank. -/
  | mcallAccadd (acc : BitVec 1) (sa : BitVec 6)
  /-- `MCALL_TRANSP` (R305): Queues a slot transpose. -/
  | mcallTransp (sa sb : BitVec 6)
  /-- `MPAR` (R303): Writes a matrix parameter register. -/
  | mpar (d : BitVec 3) (a : BitVec 6)
  /-- `OCLM` (R303): Claims an operand slot for the context. -/
  | oclm (o : BitVec 6)
  /-- `OREL` (R303): Releases an operand slot claim. -/
  | orel (o : BitVec 6)
  /-- `OLD` (R303): Queues a scratchpad-to-slot transfer and sets the slot tag. -/
  | old (o a : BitVec 6) (tag : BitVec 4)
  /-- `OST` (R303): Queues a slot-to-scratchpad transfer. -/
  | ost (o a : BitVec 6)
  /-- `MACZ` (R303): Queues zeroing of an accumulator bank. -/
  | macz (acc : BitVec 1)
  /-- `MLIM` (R313): Sets the core's current limit, never above the ceiling. -/
  | mlim (a : BitVec 6)
  /-- `MUPLD` (R310): Checks and installs a signed routine library image. -/
  | mupld (a : BitVec 6)
  /-- `ESET` (R317): Writes an engine shadow register. -/
  | eset (eng : BitVec 4) (r : BitVec 3) (a : BitVec 6)
  /-- `EGO_COPY_MOVE` (R318): Launches a copy of bytes between spaces. -/
  | egoCopyMove (d : BitVec 6) (e : BitVec 3)
  /-- `EGO_COPY_FILL` (R318): Launches a fill with a repeated doubleword. -/
  | egoCopyFill (d : BitVec 6) (e : BitVec 3)
  /-- `EGO_COPY_MOVE2D` (R318): Launches a two-dimensional strided copy. -/
  | egoCopyMove2d (d : BitVec 6) (e : BitVec 3)
  /-- `EGO_GATHER_GATH` (R318): Launches an indexed gather. -/
  | egoGatherGath (d : BitVec 6) (e : BitVec 3)
  /-- `EGO_GATHER_SCAT` (R318): Launches an indexed scatter. -/
  | egoGatherScat (d : BitVec 6) (e : BitVec 3)
  /-- `EGO_HASH_SHA384` (R318): Launches a SHA-384 digest. -/
  | egoHashSha384 (d : BitVec 6) (e : BitVec 3)
  /-- `EGO_CRYPTO_SEAL` (R318): Launches AES-256-GCM encryption. -/
  | egoCryptoSeal (d : BitVec 6) (e : BitVec 3)
  /-- `EGO_CRYPTO_OPEN` (R318): Launches AES-256-GCM decryption with tag status. -/
  | egoCryptoOpen (d : BitVec 6) (e : BitVec 3)
  /-- `EGO_COLL_BCAST` (R318): Launches a scratchpad broadcast to named cores. -/
  | egoCollBcast (d : BitVec 6) (e : BitVec 3)
  /-- `EGO_COLL_SUMF` (R318): Launches an FP32 sum over named cores. -/
  | egoCollSumf (d : BitVec 6) (e : BitVec 3)
  /-- `EGO_COLL_SUMI` (R318): Launches an INT32 sum over named cores. -/
  | egoCollSumi (d : BitVec 6) (e : BitVec 3)
  /-- `EGO_NET_PART` (R342): Launches a partial reply to the current request. -/
  | egoNetPart (d : BitVec 6) (e : BitVec 3)
  /-- `EGO_NET_REPLY` (R342): Launches the final reply to the current request. -/
  | egoNetReply (d : BitVec 6) (e : BitVec 3)
  /-- `EDEP` (R319): Attaches a successor record to the next operation of an engine context. -/
  | edep (e : BitVec 3) (a : BitVec 6)
  /-- `EBAR` (R319): Binds the next operation of an engine context to a barrier. -/
  | ebar (e : BitVec 3) (a : BitVec 6)
  /-- `ECAN` (R319): Cancels uncompleted operations from a number upward. -/
  | ecan (e : BitVec 3) (a : BitVec 6)
  /-- `CSRR` (R233): Reads a CSR. -/
  | csrr (d : BitVec 6) (csr : BitVec 12)
  /-- `CSRW` (R233): Writes a CSR. -/
  | csrw (d : BitVec 6) (csr : BitVec 12)
  /-- `CSRS` (R233): Sets CSR bits. -/
  | csrs (d : BitVec 6) (csr : BitVec 12)
  /-- `CSRC` (R233): Clears CSR bits. -/
  | csrc (d : BitVec 6) (csr : BitVec 12)
  /-- `TRAP` (R234): Commits its bundle and then traps with cause TRAPI. -/
  | trap (n : BitVec 15)
  /-- `TRET` (R237): Returns from a trap routine to tepc, or restarts or kills when tepc is 0. -/
  | tret
  /-- `WFE` (R238): Waits for the context's event flag and clears it. -/
  | wfe
  /-- `HALT` (R239): Commits the task and places the context in HALTED. -/
  | halt
  /-- `WIDE` (R179): Extends the immediate of the slot before it. -/
  | wide (imm : BitVec 21)
  /-- `TASK_TAKE` (R46): A VACANT context takes the oldest matching ready-queue entry and loads it. -/
  | taskTake (agent : Nat)
  /-- `CONTEXT_UNBLOCK` (R51): A BLOCKED context whose queue or condition unblocks becomes READY and re-issues. -/
  | contextUnblock (agent : Nat)
  /-- `TASK_PUBLICATION_COMPLETE` (R53): A committing task's publication completes and it retires. -/
  | taskPublicationComplete (blk : Nat)
  /-- `DEFERRED_ENQUEUE` (R440): An enqueue waiting on a full ready queue is made when room appears. -/
  | deferredEnqueue (cluster : Nat)
  /-- `RQFULL_TIMEOUT` (R440): Waiting enqueues reach 1 ms; they are dropped with a RQFULL delivery. -/
  | rqfullTimeout (blk : Nat)
  /-- `NT_ROTATION` (R56): 24 cycles after NTR issues, the tile registers rotate. -/
  | ntRotation (agent : Nat)
  /-- `QUEUE_ENLARGE` (R60): After 64 blocked cycles a full stream queue doubles, or QPOOL is delivered. -/
  | queueEnlarge (blk : Nat)
  /-- `SERVICE_DATAGRAM_RECEIVE` (R327): A received frame is parsed, its block found and a request record allocated. -/
  | serviceDatagramReceive (g : Datagram)
  /-- `SEGMENT_VERIFY` (R327): The packet crypto unit verifies a segment's tag and writes its plaintext; the record may
  become done. -/
  | segmentVerify
  /-- `RECORD_ABANDON` (R461): A record not done within 100 ms of arrival is abandoned. -/
  | recordAbandon (blk slot : Nat)
  /-- `HARBOURMASTER_PICK` (R333): Every 20 cycles chooses a candidate and binds, recalls or pre-empts for it. -/
  | harbourmasterPick
  /-- `CANDIDATE_HELD` (R333): A candidate first in its list for 4,096 picks without binding becomes held. -/
  | candidateHeld (blk : Nat)
  /-- `RECALL_GRACE_EXPIRY` (R335): The recall wait ends and remaining borrowers are pre-empted. -/
  | recallGraceExpiry (blk : Nat)
  /-- `ENTRY_TASK_ENQUEUE` (R338): Once the head record is done, the binding hardware enqueues the entry task. -/
  | entryTaskEnqueue (blk : Nat)
  /-- `BINDING_RECORD_TIMEOUT` (R328): The head record is not done within 20 µs; the binding ends and the record is
  deferred. -/
  | bindingRecordTimeout (blk : Nat)
  /-- `BINDING_END` (R38): A binding with no remaining work ends, advancing the queue and changing state. -/
  | bindingEnd (blk : Nat)
  /-- `PREEMPTION_COMPLETE` (R65): The save area is written, cells are released and the micro-context is PREEMPTED. -/
  | preemptionComplete (blk : Nat)
  /-- `PREEMPTION_TIMEOUT` (R464): A pre-emption past its bound discards unsaved contexts. -/
  | preemptionTimeout (blk : Nat)
  /-- `PILOT_FETCH_COMPLETE` (R345): A page fetch ends; the page is made resident and parked tasks enqueued. -/
  | pilotFetchComplete (blk va : Nat) (res : FetchResult)
  /-- `FIRMWARE_LEAF_ANSWER` (R444): Firmware installs a valid leaf or declares the address unmappable. -/
  | firmwareLeafAnswer (blk va : Nat) (leaf : Option (Nat × BitVec 64))
  /-- `SHOOTDOWN_ACK` (R97): Pinned tasks and earlier engine operations done, the shoot-down is acknowledged with a stamp. -/
  | shootdownAck (blk : Nat)
  /-- `SHOOTDOWN_TIMEOUT` (R445): After 10 ms the binding is pre-empted under save and then acknowledged. -/
  | shootdownTimeout (blk : Nat)
  /-- `QQFS_WRITE` (R101): Pushes a page with its free stamp onto the quarantine ring. -/
  | qqfsWrite (v : BitVec 64)
  /-- `QUARANTINE_RELEASE` (R99): Once qsc exceeds the head free stamp, the page leaves and becomes pending clear. -/
  | quarantineRelease
  /-- `QUARANTINE_HEAD_TIMEOUT` (R446): A head entry waiting more than 10 ms writes a class-7 record. -/
  | quarantineHeadTimeout
  /-- `PENDING_CLEAR_DONE` (R100): Background clearing of a page finishes and its pending state clears. -/
  | pendingClearDone (page : Nat)
  /-- `POOL_PAGE_ZEROED` (R73): Background zeroing of an unzeroed pool page finishes. -/
  | poolPageZeroed (core page : Nat)
  /-- `CALSW_WRITE` (R107): Makes a calendar plan exchange pending or re-arms it after a refusal. -/
  | calswWrite (hbm : Nat) (v : BitVec 64)
  /-- `CALENDAR_EXCHANGE` (R107): At a rotation boundary the controller checks and exchanges plan banks. -/
  | calendarExchange (hbm : Nat)
  /-- `CHANNEL_SLOT_START` (R113): At each slot start the controller serves the slot and applies refresh balance rules. -/
  | channelSlotStart (hbm pch slot : Nat)
  /-- `FORCED_REFRESH_END` (R113): After 630 cycles the forced refresh ends with balance 0. -/
  | forcedRefreshEnd (hbm pch : Nat)
  /-- `HOT_ROW_WINDOW_END` (R451): A 32 ms window ends and activation counts and hot marks reset. -/
  | hotRowWindowEnd (hbm : Nat)
  /-- `HIGH_RANGE_ENTRY` (R453): An HBM stack entering the high range adds a second refresh slot where needed. -/
  | highRangeEntry (hbm : Nat)
  /-- `SLD_RETURN` (R109): A slotted read returns its line and updates refbal. -/
  | sldReturn (agent : Nat)
  /-- `STAMP_RAISE` (R118): Every 256 cycles each context's next stamp is raised past completed publications. -/
  | stampRaise
  /-- `DREDGE_RECLAIM` (R149): The Dredge frees versions and pre-images no longer reachable. -/
  | dredgeReclaim (line : Nat)
  /-- `SNAP_RETURN` (R142): SNAP returns once preceding publications and pre-images are complete. -/
  | snapReturn (agent : Nat)
  /-- `DRAIN_COMMIT` (R147): After drives acknowledge, the root record is written and msel inverted. -/
  | drainCommit (blk : Nat) (m : Allotment)
  /-- `DRAIN_FAIL` (R457): A drain fails on error, deadline or broken generation and its extents are freed. -/
  | drainFail (blk : Nat) (why : DrainFault)
  /-- `ENGINE_OP_COMPLETE` (R320): An engine operation completes, decrementing successors and arriving at its barrier. -/
  | engineOpComplete (agent e : Nat)
  /-- `ENGINE_FAULT` (R437): An engine operation faults, completes at a fault stamp and affects its issuer. -/
  | engineFault (agent e : Nat) (cause : EngineCause)
  /-- `K_DELIVERY_TASK_START` (R427): A K delivery with no failed task starts on the first VACANT context of logical cell
  0. -/
  | kDeliveryTaskStart (blk : Nat)
  /-- `K_DELIVERY_TIMEOUT` (R427): No context becomes VACANT within 64 cycles and the micro-context is killed. -/
  | kDeliveryTimeout (blk : Nat)
  /-- `REPLY_COUNTER_EXHAUSTED` (R460): A key's reply counter reaches 2^63 and further replies under it are dropped. -/
  | replyCounterExhausted (rkid : Nat)
  /-- `MATRIX_ENTRY_START` (R300): A matrix-queue entry starts on its path once its dependences allow. -/
  | matrixEntryStart (core : Nat) (path : MatrixPath)
  /-- `MATRIX_ENTRY_COMPLETE` (R300): A matrix-queue entry completes and its timeline number becomes visible. -/
  | matrixEntryComplete (core : Nat) (path : MatrixPath)
  /-- `LOCKSTEP_COMPARE` (R402): The follower's bundle commit is compared with the leader's signature. -/
  | lockstepCompare (agent : Nat) (same : Bool) (synd : BitVec 32)
  /-- `REWIND_REISSUE` (R404): At cycle 40 the leader re-issues the segment from SEGB with replay. -/
  | rewindReissue (agent : Nat)
  /-- `ECC_ERROR_DETECT` (R398): A structure detects an error and acts by its protection row. -/
  | eccErrorDetect (e : EccEvent)
  /-- `PATROL_READ` (R400): Periodic patrol reads correct and write back lines. -/
  | patrolRead (line : PatrolLine) (bad : Bool)
  /-- `ERROR_RECORD_TAKE` (R408): Firmware takes a record, assigns seq and acts on thresholds. -/
  | errorRecordTake
  /-- `STACK_RESET_COMPLETE` (R418): The reset stack returns to service. -/
  | stackResetComplete (stack : Nat)
  /-- `RAIL_FAULT` (R419): A rail leaves tolerance; FAULT_N is asserted and the device held in reset. -/
  | railFault
  /-- `THERMAL_TRIP` (R419): A die reaches 115 °C; THERMTRIP_N is asserted and the device held in reset. -/
  | thermalTrip
  /-- `WATCHDOG_RESET` (R475): The hardware watchdog resets the device when the security firmware is silent. -/
  | watchdogReset
  /-- `POWER_ON` (R378): Rising PWROK resets the device and runs the boot sequence. -/
  | powerOn
  /-- `RST_N_RESET` (R377): RST_N held low resets the whole device with rails up. -/
  | rstNReset
  /-- `PCIE_RESET` (R377): PERST# or hot reset resets only the PCIe endpoint. -/
  | pcieReset
  /-- `STANDBY` (R375): The board controller removes every rail and all state is lost. -/
  | standby
  /-- `CURRENT_CEILING_WRITE` (R373): Power firmware writes per-core current ceilings from power and temperature. -/
  | currentCeilingWrite (core : Nat) (v : BitVec 16)
  /-- `UGREQ_WRITE` (R380): Requests or cancels upper-core gates, or opens a gate. -/
  | ugreqWrite (w : Nat) (v : BitVec 64)
  /-- `UPPER_GATE_APPLY` (R380): A pending gate is applied once no binding uses the upper core. -/
  | upperGateApply (cell : Nat)
  /-- `UPPER_UNGATE_COMPLETE` (R380): An ungated core becomes usable with zeroed state. -/
  | upperUngateComplete (cell : Nat)
  /-- `COFF_WRITE` (R417): Writing 1 to a coff bit returns a cell to service. -/
  | coffWrite (w : Nat) (v : BitVec 64)
  /-- `FAQPOP_READ` (R410): The control owner's read removes the oldest fault-address entry. -/
  | faqpopRead
  /-- `BPADD_WRITE` (R411): Appends a granule to the bad-page list in flash. -/
  | bpaddWrite (v : BitVec 64)
  /-- `PAGE_RETIREMENT` (R448): After the bad-page entry reaches flash, the page holding it is retired. -/
  | pageRetirement (gran fresh : Nat)
  /-- `VHEAP_PARK_RELEASE` (R455): A task parked for VHEAP is enqueued when an entry frees or after 1 ms. -/
  | vheapParkRelease (blk : Nat)
  /-- `DOORBELL_WRITE` (R352): A function announces new ring words for its host queue. -/
  | doorbellWrite (fn q : Nat) (wptr : BitVec 32)
  /-- `REGISTER_WRITE` (R349): A write to a device register that has no behaviour of its own. -/
  | registerWrite (off : Nat) (v : BitVec 64)
  /-- `CMD_NOP` (R357): Command that is skipped. -/
  | cmdNop (c : Cmd)
  /-- `INDIRECT` (R354): Runs a buffer of command words at the next level. -/
  | indirect (c : Cmd)
  /-- `SIGNAL` (R131): Writes a value after the previous command completes. -/
  | signal (c : Cmd)
  /-- `WAIT` (R357): Waits until a doubleword meets a test. -/
  | wait (c : Cmd)
  /-- `WAIT_SATISFIED` (R357): The watched doubleword meets the test and WAIT completes. -/
  | waitSatisfied (q : Nat)
  /-- `WAIT_TIMEOUT` (R466): A WAIT times out with status 13. -/
  | waitTimeout (q : Nat)
  /-- `CB_CREATE` (R37): Creates a control block from FREE to IDLE and adds its hash pair. -/
  | cbCreate (c : Cmd)
  /-- `CB_WRITE` (R35): Writes masked RW bits of a control block. -/
  | cbWrite (c : Cmd)
  /-- `CB_READ` (R357): Copies a control block and its snapshot table to a destination. -/
  | cbRead (c : Cmd)
  /-- `CB_SUSPEND` (R37): Suspends a micro-context. -/
  | cbSuspend (c : Cmd)
  /-- `CB_RESUME` (R37): Resumes a SUSPENDED micro-context to QUEUED or IDLE. -/
  | cbResume (c : Cmd)
  /-- `CB_KILL` (R416): Kills a micro-context, making it DEAD. -/
  | cbKill (c : Cmd)
  /-- `CB_RELEASE` (R37): Releases a DEAD block once quiescence passes bstamp. -/
  | cbRelease (c : Cmd)
  /-- `CB_RELEASE_COMPLETE` (R37): The held release takes effect when the quiescence counter passes bstamp. -/
  | cbReleaseComplete (blk : Nat)
  /-- `CB_MIGRATE` (R346): Starts migrating an IDLE or SUSPENDED block to a peer. -/
  | cbMigrate (c : Cmd)
  /-- `EVENT` (R238): Sets the event flag of every context of a block's binding. -/
  | event (c : Cmd)
  /-- `IMG_INSTALL` (R204): Checks and loads an image and starts the Pilot. -/
  | imgInstall (c : Cmd)
  /-- `IMG_RETIRE` (R341): Retires a base-model generation and suspends its blocks. -/
  | imgRetire (c : Cmd)
  /-- `HASH_SET` (R341): Sets or removes a context hash-table pair in one write. -/
  | hashSet (c : Cmd)
  /-- `RESV_WRITE` (R330): Writes a reservation's weight, lend bit and optionally cells. -/
  | resvWrite (c : Cmd)
  /-- `POLICY_RGRACE` (R335): Sets the recall grace register. -/
  | policyRgrace (c : Cmd)
  /-- `POLICY_WCLK` (R407): Sets the firmware wall-clock time. -/
  | policyWclk (c : Cmd)
  /-- `SHOOTDOWN` (R97): Marks matching window entries absent and starts a shoot-down. -/
  | shootdown (c : Cmd)
  /-- `DEVSNAP_TAKE` (R146): Takes a device-wide snapshot handle. -/
  | devsnapTake (c : Cmd)
  /-- `DEVSNAP_RELEASE` (R145): Releases a device snapshot handle. -/
  | devsnapRelease (c : Cmd)
  /-- `CHECKPOINT` (R147): Starts a drain of a HELD handle. -/
  | checkpoint (c : Cmd)
  /-- `METER_READ` (R343): Copies a tenant's meter record. -/
  | meterRead (c : Cmd)
  /-- `METER_REPORT` (R344): Produces a signed meter report. -/
  | meterReport (c : Cmd)
  /-- `DIAG_READ` (R90): Reads a translation window entry. -/
  | diagRead (c : Cmd)
  /-- `OWNER_CLAIM` (R360): Claims control ownership. -/
  | ownerClaim (c : Cmd)
  /-- `OWNER_HANDOVER` (R361): Names a target for a pending ownership handover. -/
  | ownerHandover (c : Cmd)
  /-- `OWNER_ACCEPT` (R361): Accepts a pending handover and becomes owner. -/
  | ownerAccept (c : Cmd)
  /-- `HANDOVER_LAPSE` (R361): A pending handover lapses after 1 s. -/
  | handoverLapse
  /-- `OWNER_CHANNEL_LOST` (R469): The owner's channel is lost and ownership clears. -/
  | ownerChannelLost
  /-- `FW_STAGE` (R364): Writes and checks a firmware image in the idle slot. -/
  | fwStage (c : Cmd)
  /-- `FW_ACTIVATE` (R364): Stops a function and starts its staged slot on probation. -/
  | fwActivate (c : Cmd)
  /-- `FIRST_BEACON` (R476): The new image's first beacon ends probation and applies staged writes. -/
  | firstBeacon (fn : Nat)
  /-- `FW_ACTIVATE_TIMEOUT` (R364): No beacon within 50 ms; the previous slot resumes with status 9. -/
  | fwActivateTimeout (fn : Nat)
  /-- `FIRMWARE_SILENT` (R475): A running image silent for 50 ms is reset or replaced. -/
  | firmwareSilent (fn : Nat)
  /-- `MAILBOX_FULL_TIMEOUT` (R475): A sender held 100 ms by a full mailbox makes the receiver silent. -/
  | mailboxFullTimeout (src dst : Nat)
  /-- `REG_READ` (R357): Returns a BAR0 register value. -/
  | regRead (c : Cmd)
  /-- `REG_WRITE` (R357): Writes a BAR0 register on the owner's behalf. -/
  | regWrite (c : Cmd)
  /-- `ACL_WRITE` (R369): Writes an access-control table entry. -/
  | aclWrite (c : Cmd)
  /-- `SYS_LAUNCH` (R186): Starts a binding of a system image. -/
  | sysLaunch (c : Cmd)
  /-- `LAUNCH` (R370): Sends a launch packet to a device's block. -/
  | launch (c : Cmd)
  /-- `GANG_LAUNCH` (R371): Launches several members as one unit. -/
  | gangLaunch (c : Cmd)
  /-- `RING_OVERRUN_TIMEOUT` (R467): A packet past wptr for 10 ms completes with status 11 and stops the queue. -/
  | ringOverrunTimeout (q : Nat)
  /-- `HOST_ACCESS_FAIL` (R467): A failed host access completes a command with status 12 or stops the queue. -/
  | hostAccessFail (q : Nat) (kind : HostAccess)
  /-- `ATS_INVALIDATION` (R468): A whole-PASID invalidation makes matching queues dead. -/
  | atsInvalidation (pasid : Nat)
  /-- `FUNCTION_LEVEL_RESET` (R450): A virtual function reset disables its queues and function entry. -/
  | functionLevelReset (fn : Nat)
  /-- `GET_VERSION` (R366): SPDM version request. -/
  | getVersion (r : SpdmRequest)
  /-- `GET_CAPABILITIES` (R366): SPDM capabilities request. -/
  | getCapabilities (r : SpdmRequest)
  /-- `NEGOTIATE_ALGORITHMS` (R366): SPDM algorithm negotiation. -/
  | negotiateAlgorithms (r : SpdmRequest)
  /-- `GET_DIGESTS` (R366): SPDM certificate digests request. -/
  | getDigests (r : SpdmRequest)
  /-- `GET_CERTIFICATE` (R366): SPDM certificate chain request for slot 0. -/
  | getCertificate (r : SpdmRequest)
  /-- `CHALLENGE` (R366): SPDM challenge signed by the attestation key. -/
  | challenge (r : SpdmRequest)
  /-- `GET_MEASUREMENTS` (R366): SPDM measurement request. -/
  | getMeasurements (r : SpdmRequest)
  /-- `DEVICE_NUMBERING` (R368): Fabric manager flits number the device and firmware sets devno and routes. -/
  | deviceNumbering (devno : BitVec 9) (routes : List (Nat × List Nat))
  /-- `LINK_TRAINING` (R368): A scale-up link trains and agrees flit keys. -/
  | linkTraining (port : Nat)
  /-- `FLIT_ERROR` (R470): A flit fails CRC or authentication and is retried. -/
  | flitError (port : Nat)
  /-- `LINK_DOWN` (R470): A link goes down and its port leaves every route set. -/
  | linkDown (port : Nat)
  /-- `REMOTE_ACCESS_RECEIVE` (R369): A remote access is checked against the access-control table and served or denied. -/
  | remoteAccessReceive (r : RemoteAccess)
  /-- `REMOTE_ACCESS_TIMEOUT` (R471): A remote access unanswered within 2 ms fails. -/
  | remoteAccessTimeout (agent : Nat)
  /-- `LAUNCH_PACKET_RECEIVE` (R370): An arriving launch is checked and appended as a request record. -/
  | launchPacketReceive (l : LaunchPacket)
  /-- `LAUNCH_REPLY_RECEIVE` (R370, R472): A launched binding's reply, or the refusal of the launch, reaches the originator,
which completes the command. -/
  | launchReplyReceive (id : Nat) (payload : List (BitVec 8)) (final : Bool) (refused : Option (BitVec 16))
  /-- `GANG_ACK_RECEIVE` (R371): A member's acknowledgement reaches the originator; all acks send confirmation. -/
  | gangAckReceive (id dev : Nat)
  /-- `GANG_CONFIRM_RECEIVE` (R371): A member receives confirmation and releases held traffic. -/
  | gangConfirmReceive (blk : Nat)
  /-- `GANG_ACK_TIMEOUT` (R473): Missing acknowledgements after 20 µs abort the gang. -/
  | gangAckTimeout (id : Nat)
  /-- `GANG_ABORT_RECEIVE` (R473): A member drops held traffic and aborts its binding. -/
  | gangAbortReceive (blk origin : Nat)
  /-- `GANG_MEMBER_TIMEOUT` (R473): A member with no confirmation or abort for 1 ms aborts itself. -/
  | gangMemberTimeout (blk : Nat)
  /-- `MIGRATION_CUTOVER` (R346): The destination acknowledges; the source block becomes FREE and a buoy is installed. -/
  | migrationCutover (blk dst : Nat)
  /-- `MIGRATION_ACK_TIMEOUT` (R465): A missing acknowledgement leads to queries and, after 10 s, abort. -/
  | migrationAckTimeout (blk : Nat)
  /-- `BUOY_EXPIRY` (R347): The buoy is removed 100 ms after cut-over. -/
  | buoyExpiry (blk : Nat)
  /-- `FREEZE_CYCLE` (R312): A core cycle whose weight plus the last 63 cycles' weight would exceed the limit is frozen:
  nothing issues or advances, and frzcnt counts it. -/
  | freezeCycle (core : Nat)
  /-- `ILLEGAL_ENCODING` (R185): A bundle whose word matches no assigned opcode or selector is decoded and traps with
  ILLEGAL. -/
  | illegalEncoding (agent : Nat)
  /-- `INSTRUCTION_FETCH_FAULT` (R431): At issue, a bundle fetched outside every x entry raises FETCH, and one on an
  absent or poisoned line aborts its task. -/
  | instructionFetchFault (agent : Nat)
  /-- `BEACON_RAISE` (R364): A running firmware image raises a beacon, incrementing its beacf.cnt and restarting its
  silence interval. -/
  | beaconRaise (fn : Nat)
  /-- `KEY_LOAD` (R84): The security firmware loads a key, with its reply counter, into the key table. -/
  | keyLoad (kid : Nat) (key : BitVec 256) (ctr : Nat)
  /-- `FUSE_CHANGE` (R365): A change of the fuse configuration makes layer 1 extend the log and derive CDI2 and the
  layer-2 keys again. -/
  | fuseChange (cfg : List (BitVec 8))
  /-- `HIGH_RANGE_EXIT` (R374): An HBM4E stack's temperature falls below 85 °C and the stack leaves its high range. -/
  | highRangeExit (hbm : Nat)
  /-- `ETHERNET_LINK_CHANGE` (R459): An Ethernet port loses or regains its link. -/
  | ethernetLinkChange (port : Nat) (up : Bool)
  /-- `MIGRATION_ABORT` (R465): Before the acknowledgement, the destination refuses the migration or a copy error occurs,
  and the source aborts it with status 10. -/
  | migrationAbort (blk : Nat)
  /-- `MIGRATION_COPY_RECEIVE` (R346): The destination receives a migrated block's copy and, once it holds the whole copy,
  acknowledges cut-over. -/
  | migrationCopyReceive (m : MigrationCopy)
  /-- `CUTOVER_CONFIRM_RECEIVE` (R465): The destination receives the source's confirmation, or a buoy's answer of
  confirmed, and may then bind the block. -/
  | cutoverConfirmReceive (blk : Nat)
  /-- `UNCONFIRMED_COPY_DROP` (R465): The destination drops an unconfirmed migrated copy 10 s after acknowledging it. -/
  | unconfirmedCopyDrop (blk : Nat)
  /-- `FIRMWARE_MEMORY_WRITE` (R482): A firmware core writes device memory, such as a page-table entry or task-record
  field, as a committed store with its own stamp. -/
  | firmwareMemoryWrite (agent pa : Nat) (bytes : List (BitVec 8))
  /-- `WEIGHT_SRAM_PLACEMENT` (R80): The memory-management firmware copies a shared-weight page into a stack's weight
  SRAM, setting its placement-mask bit. -/
  | weightSramPlacement (page size : Nat) (mask : BitVec 4)
  deriving DecidableEq, Repr

/-- A decoded slot (R174): its stop bit, its path tag (0 always, 1 to 5 a leaf) and its instruction. -/
structure Slot where
  stop : Bool
  path : BitVec 3
  instr : Instr
  deriving DecidableEq, Repr

/-- The names under which the decoder rejects a word (R185): an unassigned opcode, an unassigned selector, a field
marked 0 that is not, a field value out of its range (R181), a reserved path tag or a tag on a slot that takes none
(R178). -/
inductive Reject where
  | opcode | selector | zeroField | range | path
  deriving DecidableEq, Repr

end Sys2Proof
end

