-- ==== Sys2Proof/Machine/State.lean ====
section
/-! DEFINITION. The state of the Sareradon as plain data: everything the manual gives the device, from a context's
registers to the fabric's buoys, and the device right after reset. Log entries 1 to 9 name what the model adds. -/

namespace Sys2Proof.Machine

/-- A finite map from numbers to values in one canonical form: keys strictly rising, no entry equal to the value an
unlisted key reads as (Machine/Map.lean). Memory is a `Map Byte`, which is a list of `Host.Cell`. -/
abbrev Map (α : Type) := List (Nat × α)

/-! ## Hardware contexts (R50, R188, R190) -/

/-- A vector register: 2048 bits and a format tag (R188). -/
structure VReg where
  bits : Vec := 0
  tag : BitVec 4 := 0
  deriving DecidableEq, Repr

/-- The registers a restart point records (R58) and the loop levels (R194). `s0` and `p0` are never listed as
written; `p` holds predicate i in bit i. -/
structure Regs where
  pc : Word := 0
  s : Map Word := []
  p : BitVec 8 := 0
  k : Map Word := []
  lk : Word := 0
  fcsr : Word := 0
  nt0 : Word := 0
  nt1 : Word := 0
  nt2 : Word := 0
  nt3 : Word := 0
  lps0 : Word := 0
  lpe0 : Word := 0
  lpc0 : Word := 0
  lps1 : Word := 0
  lpe1 : Word := 0
  lpc1 : Word := 0
  deriving DecidableEq, Repr

/-- The trap registers and the mode (R193): `mode` 0 task, 1 trap, 2 system. -/
structure TrapRegs where
  mode : BitVec 2 := 0
  tcause : Word := 0
  tepc : Word := 0
  tval : Word := 0
  tscr : Word := 0
  deriving DecidableEq, Repr

/-- The restart point of a task (R58); a K-delivery task restarts in trap mode with its cause (R427). -/
structure Restart where
  regs : Regs := {}
  trap : TrapRegs := {}
  deriving DecidableEq, Repr

/-- A buffered operation of a task on global memory (R52, R256): a store of bytes, or a non-returning reduction. -/
inductive BufKind where
  | store (bytes : List Byte)
  | redAdd (n : Nat) (v : Word)
  | redMin (n : Nat) (v : Word)
  | redMax (n : Nat) (v : Word)
  | redFadd (vs : List Word32)
  deriving DecidableEq, Repr

/-- One entry of a task store buffer, in program order: the virtual and physical address of its first byte; `stale` while the
address of a restored entry has still to be translated again (R97). -/
structure BufOp where
  va : Nat
  pa : Nat
  kind : BufKind
  versioned : Bool := false
  kid : Nat := 0
  stale : Bool := false
  deriving DecidableEq, Repr

/-- The pin of a task (R257, R436). -/
inductive Pin where
  | none | provisional | firm
  deriving DecidableEq, Repr

/-- An open transaction (R138): its snapshot stamp and its stores, held apart. -/
structure Span where
  sx : Nat
  buf : List BufOp := []
  deriving DecidableEq, Repr

/-- A store that a protected segment holds (R62): to a scratchpad (`core`, offset) or to global memory. -/
inductive HeldOp where
  | sp (core off : Nat) (bytes : List Byte)
  | mem (op : BufOp) (inSpan : Bool)
  deriving DecidableEq, Repr

/-- An entry of the replay log (R403): the operation's kind and operands, and the result it delivered. -/
structure LogEntry where
  kind : Nat
  key : List Word
  res : Word := 0
  vres : VReg := {}
  deriving DecidableEq, Repr

/-- A snapshot handle that a context has selected (R144): `dev` for the device table. -/
structure Selection where
  dev : Bool := false
  handle : Nat
  deriving DecidableEq, Repr

/-- An open static schedule segment (R62, R230, R402 to R406). -/
structure Segment where
  entry : Regs := {}
  entryV : Map VReg := []
  entryMp : Map Word := []
  entrySpan : Option Span := none
  entrySel : Option Selection := none
  entrySpawns : List Nat := []
  bundles : Nat := 0
  held : List HeldOp := []
  log : List LogEntry := []
  ext : Nat := 0
  replay : Option Nat := none
  rewinds : Nat := 0
  matrix : Bool := false
  stopped : Option Nat := none
  deriving DecidableEq, Repr

/-- The task a context holds (R47, R49, R52, R58, R135 to R139, R257, R259, R415). `recVa` is the record's virtual
address, 0 for a K-delivery task; `snapS` the snapshot stamp once the task has taken its first stamp, and `began` the
cycle of the `NTR` that began it. -/
structure Task where
  blk : Nat
  recVa : Nat := 0
  restart : Restart := {}
  kdel : Bool := false
  buf : List BufOp := []
  span : Option Span := none
  snapS : Option Nat := none
  sel : Option Selection := none
  pin : Pin := .none
  spawns : List Nat := []
  errAborts : Nat := 0
  vheapAborts : Nat := 0
  prov : List Nat := []
  tiled : Bool := false
  tile : Word := 0
  lclus : Nat := 0
  cmask : BitVec 8 := 255
  tier : Bool := false
  began : Option Nat := none
  deriving DecidableEq, Repr

/-- What a BLOCKED context waits on (R51, and the rules that block as on an engine queue). -/
inductive Wait where
  | engineQueue (eng : Nat)
  | matrixQueue
  | barrier (h : Nat)
  | barrierThen (h slot : Nat)
  | faulted (h : Nat)
  | queueFull (q : Nat)
  | queueEmpty (q : Nat)
  | fifoFull
  | fifoEmpty
  | timeline (e n : Nat)
  | eventFlag
  | absent (va : Nat)
  | rendezvous
  | snapshot
  | library
  | gang
  deriving DecidableEq, Repr

/-- The state of a hardware context (R50). -/
inductive RunState where
  | vacant
  | ready
  | issuing
  | blocked (w : Wait)
  | halted
  deriving DecidableEq, Repr

/-- One engine context's timeline (R128, R317, R319, R437): the last number issued, the numbers issued and not yet
complete, the completion stamps and flags of completed operations that no wait has observed, the faulted numbers with
their causes, and what waits for the next `EGO`. -/
structure Timeline where
  issued : Nat := 0
  live : List Nat := []
  stamps : List (Nat × Nat) := []
  fault : List (Nat × BitVec 8) := []
  flags : List (Nat × BitVec 6) := []
  succ : List Nat := []
  bar : Option Nat := none
  deriving DecidableEq, Repr

/-- A context's standing at one barrier handle (R262); `bfault` is set while its next wait is to trap (R438). -/
structure Mine where
  mine : BitVec 32 := 0
  owed : Bool := false
  bfault : Bool := false
  deriving DecidableEq, Repr

/-- A slotted read in flight (R109): the line, its issue cycle, the vector register it loads and its stamp, the
pseudo-channel that serves it (`none` from weight SRAM) with its number in the order of arrival there, the slot index it
claimed and whether as the slot's owner, how many shared requests of other traffic stand before it, whether its core
owned a slot at issue (R107), the cycle it returns, its lateness, the cycles that hot-row throttling holds it (R452), and
the `refbal` its serving slot left, and how many of the context's reads were in flight before it. -/
structure PendSld where
  line : Nat
  issue : Nat
  dest : Nat := 0
  st : Nat := 0
  chan : Option (Nat × Nat) := none
  ord : Nat := 0
  win : Option Nat := none
  owner : Bool := false
  skip : Nat := 0
  owned : Bool := false
  ret : Nat
  late : Nat := 0
  held : Nat := 0
  refbal : Option Word := none
  pos : Nat := 0
  deriving DecidableEq, Repr

/-- A far scratchpad store of the context that may not have completed (R133): the bytes it overwrote. -/
structure FarStore where
  core : Nat
  off : Nat
  old : List Byte
  deriving DecidableEq, Repr

/-- A trap that is held pending across a save (R236, R428). -/
structure PendTrap where
  slot : Nat
  cause : BitVec 8
  val : Word
  epc : Word
  deriving DecidableEq, Repr

/-- A trap that a context took (R424), with what a pre-emption request of the same cycle gives back before it holds the
trap pending (R236, R428): the trap registers and the `pc` before it. -/
structure TrapNote where
  cycle : Nat
  pend : PendTrap
  trap : TrapRegs
  pc : Word
  deriving DecidableEq, Repr

/-- A register as R177 counts it; `csr` stands for a CSR that no other constructor names. -/
inductive RegName where
  | s (n : Nat) | p (n : Nat) | k (n : Nat) | v (n : Nat) | mp (n : Nat) | nt (n : Nat) | lk | csr (n : Nat)
  deriving DecidableEq, Repr

/-- A hardware context. `stamp` is its most recent stamp (`lstamp`), `floor` the stamp its next one must exceed
(R116, R118); `lastPc` is the start of the last bundle committed while its follower's copy has still to be compared
(R402); `drains` are the scratchpad stores of segments that have closed, with the cycle in which each drains (R62);
`thenWaits` lists the waits that follow the one the context is BLOCKED on, when a bundle left several; `due` the results of
its last bundles that are not usable yet, with the cycle from which each is (R217, R271, R294); a context that `END` left
takes no task before `vacantAt` (R53). -/
structure Ctx where
  run : RunState := .vacant
  regs : Regs := {}
  v : Map VReg := []
  mp : Map Word := []
  trap : TrapRegs := {}
  stamp : Nat := 0
  floor : Nat := 0
  slat : Word := 0
  refbal : Word := 0
  refAt : Nat × Nat × Nat := (0, 0, 0)
  task : Option Task := none
  segOpen : Bool := false
  seg : Segment := {}
  event : Bool := false
  bars : Map Mine := []
  tls : Map Timeline := []
  shadow : Map Word := []
  slds : List PendSld := []
  far : List FarStore := []
  ntDue : List (Nat × Word) := []
  pend : Option PendTrap := none
  trapAt : Option TrapNote := none
  resumeWait : Option Wait := none
  thenWaits : List Wait := []
  lastPc : Option Word := none
  drains : List (Nat × List HeldOp) := []
  due : List (RegName × Nat) := []
  vacantAt : Nat := 0
  deriving DecidableEq, Repr

/-! ## Cores, cells and clusters (R14 to R20, R69 to R76, R295 to R300, R311 to R314) -/

/-- A line in an L1 with its lease (R78, R117). -/
structure L1Line where
  data : LineBits
  wts : Nat
  lease : Nat
  kid : Nat := 0
  deriving DecidableEq, Repr

/-- An operand slot (R295, R297): 16,384 bytes, the scale plane, the tag and the claiming context. -/
structure OpSlot where
  data : BitVec 131072 := 0
  plane : BitVec 8192 := 0
  tag : BitVec 4 := 0
  claim : Option Nat := none
  deriving DecidableEq, Repr

/-- An accumulator bank (R296): 128 by 128 elements of 32 bits, element (i, j) in lane 128 i + j, and its tag. -/
structure Bank where
  data : BitVec 524288 := 0
  tag : BitVec 4 := 0
  deriving DecidableEq, Repr

/-- What a matrix-queue entry does (R299, R303, R305), with the tags its issue captured. -/
inductive MOp where
  | old (o addr : Nat) (tag : BitVec 4)
  | ost (o addr : Nat) (tag : BitVec 4)
  | macz (acc : Nat)
  | mm (acc sa sb ns : Nat) (ta tb : BitVec 4)
  | accout (acc sa : Nat) (bt : BitVec 4)
  | accld (acc sa : Nat)
  | accadd (acc sa : Nat) (tag : BitVec 4)
  | transp (sa sb : Nat) (tag : BitVec 4)
  deriving DecidableEq, Repr

/-- An entry of a matrix queue (R299, R300): number, issuing context, captured parameters, issue cycle, whether it
has started, the working cycles it still needs, and the scratchpad bytes an `OLD` found at its start. -/
structure MEntry where
  ctx : Nat
  e : Nat
  num : Nat
  op : MOp
  mp0 : Word := 0
  mp1 : Word := 0
  fcsr : Word := 0
  issued : Nat := 0
  started : Bool := false
  due : Nat := 0
  tasked : Bool := true
  inSeg : Bool := false
  cap : List Byte := []
  deriving DecidableEq, Repr

/-- A core: the pool's boundaries and its scratchpad and L1 regions, the current limit, and, on an upper core, the
matrix unit. `unzeroed` lists the pool pages the binding hardware has still to zero (R73); their bytes read as
zero. `recent` holds the weights of the last cycles, newest first (R312); `spent`, `issued` and `frozen` say what the
core has done of the current cycle. -/
structure Core where
  pb1 : BitVec 11 := 0
  pb2 : BitVec 11 := 0
  pb3 : BitVec 11 := 0
  scratch : Map Byte := []
  unzeroed : List Nat := []
  l1 : Map L1Line := []
  ceiling : BitVec 16 := 65535
  limit : BitVec 16 := 0
  frzcnt : BitVec 48 := 0
  recent : List Nat := []
  spent : Nat := 0
  issued : Bool := false
  frozen : Bool := false
  slots : Map OpSlot := []
  banks : Map Bank := []
  mq : List MEntry := []
  deriving DecidableEq, Repr

/-- An entry of a stream queue or a vertical FIFO (R264, R265): a vector with its tag, or the end-of-stream token.
`stamp` orders the getter after the putter (R124); `cyc` is the cycle of the put (R265). -/
structure QEnt where
  token : Bool := false
  v : VReg := {}
  stamp : Nat := 0
  cyc : Nat := 0
  deriving DecidableEq, Repr

/-- A put of a vertical FIFO whose free count later commits of its cycle may still change (R387): the cycle, the context,
the register that took the count, and the entry of the context's replay log that holds it. -/
structure PutNote where
  cyc : Nat
  agent : Nat
  reg : BitVec 6
  entry : Option Nat := none
  deriving DecidableEq, Repr

/-- A vertical FIFO (R265): its entries, the cycles of its last removals, and its last puts (R387). -/
structure Fifo where
  ents : List QEnt := []
  took : List Nat := []
  notes : List PutNote := []
  deriving DecidableEq, Repr

/-- A cell: its two vertical FIFOs, whether its upper core is gated or being ungated, whether it is offline, and the
block that holds it, and the cycles of its uncorrectable errors and of the rewinds of its pairs, each with whether it is the
upper cores' pair (R33, R333, R380, R417). -/
structure Cell where
  up : Fifo := {}
  down : Fifo := {}
  gated : Bool := false
  ungating : Bool := false
  ugreq : Bool := false
  offline : Bool := false
  held : Option Nat := none
  errs : List Nat := []
  rewinds : List (Nat × Bool) := []
  deriving DecidableEq, Repr

/-- An entry of a ready queue, or a parked task (R46, R95, R415, R433). `resume` is the restart point of a task that
does not start from its record; `floor` the stamp its first stamp must exceed (R122). -/
structure ReadyEnt where
  blk : Nat
  recVa : Nat := 0
  lclus : Nat := 0
  cmask : BitVec 8 := 255
  tier : Bool := false
  floor : Nat := 0
  resume : Option Restart := none
  kdel : Bool := false
  tiled : Bool := false
  tile : Word := 0
  errAborts : Nat := 0
  vheapAborts : Nat := 0
  deriving DecidableEq, Repr

/-- A write that an engine operation has still to make, within one line (R128, R317, R437, R478): to offset `dst` of the
scratchpad of logical core `sp`, or to virtual address `dst`. `need` is a gathered element to translate before it (address
and length), `into` the same of a scattered element, `late` the address of the source bytes of a whole element that no
load at issue gave, which is cut at lines once they are read, `bad` the physical address of a poisoned source byte. -/
structure EngWrite where
  sp : Option Nat := none
  dst : Nat
  bytes : List Byte := []
  need : Option (Word × Nat) := none
  into : Option (Word × Nat) := none
  late : Option (Word × Nat) := none
  bad : Option Nat := none
  deriving DecidableEq, Repr

/-- An engine operation in flight (R317 to R321): the engine kind and operation, the shadow registers captured at issue,
its stamp, the largest stamp of its writes, its cycle of issue, the writes still to be made with the bytes it read, the
contents at its stamp, each with whether it is poisoned, of lines that it may still read and that have been written since
(R127), its flags, and what completes with it. `held` until its task's commit, `tasked` while that task runs, `waited`
once it has been held at an absent page (R446). -/
structure EngOp where
  blk : Nat
  agent : Nat
  e : Nat
  num : Nat
  eng : Nat
  op : Nat
  regs : List Word := []
  stamp : Nat := 0
  wst : Nat := 0
  issued : Nat := 0
  work : List EngWrite := []
  olds : Map (LineBits × Bool) := []
  flags : BitVec 6 := 0
  held : Bool := true
  tasked : Bool := true
  waited : Bool := false
  succ : List Nat := []
  bar : Option Nat := none
  deriving DecidableEq, Repr

/-! ## Memory (R77, R100, R117, R135, R143, R401) -/

/-- An older committed version of a versioned line (R135), with its stamp; `poison` as R447. -/
structure Version where
  st : Nat
  writer : Nat := 0
  data : LineBits
  poison : Bool := false
  deriving DecidableEq, Repr

/-- A pre-image of a live line (R143), tagged with the handle's table index and generation, and with the stamp of the write
that had left it. -/
structure PreImage where
  owner : Nat
  gen : BitVec 32
  data : LineBits
  st : Nat := 0
  deriving DecidableEq, Repr

/-- How a line stands in HBM (R84, R100): `blank` reads the same under every key (never written, or pending clear), `plain`
was written without a key, `under` was encrypted with a key. -/
inductive Cipher where
  | blank
  | plain
  | under (key : BitVec 256)
  deriving DecidableEq, Repr

/-- What the device keeps of a line beside its bytes: write stamp and lease end (R117), the writing agent, the older
versions (newest first), the pre-images, the tenant they are charged to, the poison bit and whether an agent has met it
since (R420), the key identifier that tags the line in L2 (R79), and how it is encrypted; `first` says that its oldest
version is the first one of a page that was pending clear, before which the line is zero (R450). Memory holds a line's
bytes as its own key decrypts them. -/
structure Line where
  wts : Nat := 0
  writer : Nat := 0
  lease : Nat := 0
  versions : List Version := []
  pre : List PreImage := []
  tenant : Nat := 0
  poison : Bool := false
  met : Bool := false
  kid : Nat := 0
  cipher : Cipher := .blank
  first : Bool := false
  deriving DecidableEq, Repr

/-- A slot claimed (R108, R109): the slot index from reset, the line, whether the slot's owner reads it, for a shared read
the slot index at which its turn came, from which hot-row spacing may have held it (R451), and whether it carries other
traffic. -/
structure Claim where
  slot : Nat
  line : Nat
  owner : Bool := true
  turn : Nat := 0
  other : Bool := false
  deriving DecidableEq, Repr

/-- One pseudo-channel of an HBM stack (R113, R451): bank pointer, balance, the end of a forced refresh with the end
of the one before (both as cycles of issue windows), the slots claimed by slotted reads, how many slotted reads have
arrived, the activation counts by row, the hot rows with the slot index of their last access, the rows whose neighbours a
targeted refresh is to refresh, and how many slots from reset on have begun. -/
structure Chan where
  ptr : BitVec 4 := 0
  bal : Int := 0
  forced : Option Nat := none
  lastForced : Option Nat := none
  claims : List Claim := []
  arrived : Nat := 0
  counts : Map Nat := []
  hot : Map Nat := []
  targeted : List Nat := []
  begun : Nat := 0
  deriving DecidableEq, Repr

/-- The controller of an HBM stack (R106, R107, R374): two plan banks, which is in force, the slot index from which it is
with the plan before it, whose last slots the channels may still have to begin (R104), `calsw`, the high range, and
whether the second refresh slot that it brought is still in use (R453). A plan lists the entries that differ from the
default plan of R378. -/
structure Hbm where
  plan0 : Map (BitVec 16) := []
  plan1 : Map (BitVec 16) := []
  force1 : Bool := false
  since : Nat := 0
  prev : Map (BitVec 16) := []
  calsw : BitVec 2 := 0
  high : Bool := false
  extra : Bool := false
  chans : Map Chan := []
  deriving DecidableEq, Repr

/-! ## Bindings (R38, R59, R89, R95, R201, R262, R338, R427) -/

/-- An entry of a translation window, field by field as R90 lists them, with the cycle of its last change from absent to
present (R96). -/
structure WinEnt where
  vpn : BitVec 41
  sz : BitVec 2
  pfn : BitVec 36 := 0
  ab : Bool := true
  kind : BitVec 2 := 0
  e : Bool := false
  x : Bool := false
  w : Bool := false
  kid : BitVec 12 := 0
  madeAt : Option Nat := none
  deriving DecidableEq, Repr

/-- A stream queue of a binding (R59, R203, R264): capacity, producer and consumer logical cores, entries, and the
cycles of its last removals (R387). -/
structure StreamQ where
  cap : Nat
  prod : Nat
  cons : Nat
  ents : List QEnt := []
  took : List Nat := []
  deriving DecidableEq, Repr

/-- A barrier of a binding (R262, R438); `arr` is the largest arrival stamp of the phase, `stamp` the stamp of the
last completed phase. -/
structure Barrier where
  need : Nat
  got : Nat := 0
  done : BitVec 32 := 0
  arr : Nat := 0
  stamp : Nat := 0
  faulted : Bool := false
  deriving DecidableEq, Repr

/-- A task parked on an absent window entry (R95) or for the version heap (R455): `va` is `none` for the latter, which
notes since when it waits and whether the Dredge has freed an entry of its tenant since. -/
structure Parked where
  va : Option Nat
  ent : ReadyEnt
  since : Nat := 0
  freed : Bool := false
  deriving DecidableEq, Repr

/-- A delivery at rung 3 of kind K that waits (R427, R444): to a parked task (`ent`), to the pinned task that is BLOCKED on
context `pinned`, or to a task of its own; `ctx` once its routine has been entered. -/
structure KDel where
  cause : BitVec 8
  val : Word
  since : Nat
  ent : Option ReadyEnt := none
  pinned : Option Nat := none
  ctx : Option Nat := none
  deriving DecidableEq, Repr

/-- An enqueue that waits on a full ready queue (R440). -/
structure Deferred where
  cluster : Nat
  ent : ReadyEnt
  since : Nat
  deriving DecidableEq, Repr

/-- A pre-emption under way (R64, R65): whether it saves, since when, and what follows it. -/
structure Preempt where
  save : Bool
  since : Nat
  suspend : Bool := false
  deriving DecidableEq, Repr

/-- A shoot-down of a bound micro-context (R97, R445): when it began, the pinned tasks (context and first stamp) and the
engine operations (context, engine context and number) that it waits for, and the queue that issued it. -/
structure Shoot where
  since : Nat
  pins : List (Nat × Option Nat) := []
  ops : List (Nat × Nat × Nat) := []
  q : Nat
  deriving DecidableEq, Repr

/-- What a task's commit or an engine sends to a peer as one event (R81, R126): its operations by address, or the
decrement of one record under a binding number (R44, R45). -/
structure PeerSend where
  peer : Nat
  ops : List (Nat × BufKind) := []
  dec : Option (Nat × BitVec 31) := none
  deriving DecidableEq, Repr

/-- A gang member's hold on remote traffic (R371): the originator and its launch, since when the acknowledgement was
sent, and what is held at the fabric ports, in commit order. -/
structure GangHold where
  origin : Nat
  id : Nat
  since : Nat
  sends : List PeerSend := []
  deriving DecidableEq, Repr

/-- A task whose publication is in progress (R49, R53): its agent, its commit stamp and its snapshot stamp (R149). -/
structure Committing where
  agent : Nat
  st : Nat
  snap : Option Nat := none
  deriving DecidableEq, Repr

/-- A binding (R38): group, mode, window, tile dispenser, queues, barriers and everything that waits on it. `running` is
false through the binding steps; `committing` lists every task whose publication is in progress (R49, R53); `stuck` counts
the consecutive cycles in which every context was BLOCKED or VACANT (R60), and `gone` lists the cells that a pre-emption
has released already (R65). -/
structure Binding where
  gbase : Nat
  shape : BitVec 5 := 0
  prot : Bool := false
  sys : Bool := false
  since : Nat := 0
  running : Bool := false
  bseq : BitVec 31 := 0
  win : List WinEnt := []
  tx : Nat := 0
  ty : Nat := 0
  tz : Nat := 0
  tile : Nat := 0
  queues : Map StreamQ := []
  bars : Map Barrier := []
  parked : List Parked := []
  kdel : List KDel := []
  deferred : List Deferred := []
  preempt : Option Preempt := none
  shoots : List Shoot := []
  rewinding : List Nat := []
  msgs : Nat := 0
  replied : Bool := false
  committing : List Committing := []
  gang : Option GangHold := none
  stuck : Nat := 0
  gone : List Nat := []
  deriving DecidableEq, Repr

/-! ## Micro-contexts and the serving path (R34, R141, R326 to R347) -/

/-- A request record in a block's queue (R327, R328, R461, R370): its units, the request it came from, which segments
have arrived, and, for a launched request, the originator. -/
structure Rec where
  unit : Nat
  units : Nat
  rkid : BitVec 12
  fnid : Word32
  reqid : Word
  pcls : BitVec 3 := 0
  tlen : Nat := 0
  nseg : Nat := 1
  got : List Nat := []
  saddr : BitVec 128 := 0
  sport : BitVec 16 := 0
  eport : Bool := false
  arrived : Nat := 0
  arrst : Nat := 0
  done : Bool := false
  abandoned : Bool := false
  deferred : Bool := false
  origin : Option (Nat × Nat) := none
  gang : Bool := false
  deriving DecidableEq, Repr

/-- A context as a save area holds it (R339 kinds 2 and 3), with whether it had halted by a trap pending. -/
structure SavedCtx where
  lcore : Nat
  ctx : Nat
  body : Ctx
  deriving DecidableEq, Repr

/-- A core and a cell as a save area holds them (R339 kinds 4 to 6). -/
structure SavedCore where
  lcore : Nat
  body : Core
  deriving DecidableEq, Repr

/-- The two FIFOs of a cell as a save area holds them (R339 kind 6, R442). -/
structure SavedCell where
  lcell : Nat
  up : List QEnt
  down : List QEnt
  deriving DecidableEq, Repr

/-- The sections of the cells that a pre-emption has saved and released before the others (R65). -/
structure SavedPart where
  ctxs : List SavedCtx := []
  cores : List SavedCore := []
  cells : List SavedCell := []
  deriving DecidableEq, Repr

/-- The sections of a save area (R339), whose contents belong to the device. -/
structure Saved where
  group : Binding
  ready : List ReadyEnt := []
  ctxs : List SavedCtx := []
  cores : List SavedCore := []
  cells : List SavedCell := []
  ops : List EngOp := []
  deriving DecidableEq, Repr

/-- A control block (R34): doublewords 0 to 14 as the firmware reads them, and the Harbourmaster's private scheduling
state of words 0x78 to 0xBF: the queue's records, the age of a pre-emption, the saved state and what a pre-emption under
way has saved of released cells (R65), a retire that waits (R341),
the consecutive picks it came first in and whether it is held (R333), its claimed group and when the recall began
(R335), since when a migrated copy waits for its confirmation and the source's device and index (R465),
the handles whose drains are under way, oldest first, and the digests by which a migration named its shared-weight pages
(R346). -/
structure Block where
  words : Map Word := []
  recs : List Rec := []
  age : Nat := 0
  saved : Option Saved := none
  part : SavedPart := {}
  retire : Bool := false
  firsts : Nat := 0
  isHeld : Bool := false
  claim : Option Nat := none
  recallAt : Option Nat := none
  unconfirmed : Option Nat := none
  copyFrom : Option (Nat × Nat) := none
  drains : List Nat := []
  shared : List (Nat × List (List Byte)) := []
  deriving DecidableEq, Repr

/-- An entry of a snapshot table (R141); `broken` as R456, and the drain in progress. -/
structure Snap where
  st : Nat := 0
  gen : BitVec 32 := 0
  dres : BitVec 2 := 0
  state : BitVec 2 := 0
  broken : Bool := false
  deriving DecidableEq, Repr

/-- An entry of the reservation table (R330). -/
structure Resv where
  lend : Bool := false
  wt : BitVec 16 := 0
  vt : Word := 0
  cells : BitVec 256 := 0
  used : Word := 0
  backlogged : Bool := false
  deriving DecidableEq, Repr

/-- A meter record (R343). -/
structure Meter where
  ccyc : Word := 0
  ibyt : Word := 0
  obyt : Word := 0
  nreq : Word := 0
  nrep : Word := 0
  mbyt : Word := 0
  thr : Word := 0
  nabt : Word := 0
  deriving DecidableEq, Repr

/-- A buffer of an installed image (R202), with the initial contents that the image holds of it. -/
structure Buffer where
  va : Nat
  size : Nat
  psz : BitVec 2
  kind : BitVec 2 := 0
  w : Bool := false
  x : Bool := false
  e : Bool := false
  init : List Byte := []
  deriving DecidableEq, Repr

/-- An installed image (R200 to R204, R341, R345): the header's fields, its tables, its generation and sharing
domain, and the pages the Pilot has still to fetch. -/
structure Image where
  shape : BitVec 5 := 0
  modes : BitVec 2 := 1
  sys : Bool := false
  lpb1 : BitVec 11 := 1
  lpb2 : BitVec 11 := 1
  lpb3 : BitVec 11 := 1
  upb1 : BitVec 11 := 0
  upb2 : BitVec 11 := 0
  upb3 : BitVec 11 := 0
  fcsr : Word := 0
  entry : Nat := 0
  tx : Nat := 0
  ty : Nat := 0
  tz : Nat := 0
  buffers : List Buffer := []
  queues : Map StreamQ := []
  bars : Map Nat := []
  touch : List Nat := []
  gen : Word32 := 0
  sdom : Word32 := 0
  deriving DecidableEq, Repr

/-- A page fetch of the Pilot (R95, R345, R463): asked for, in flight once `started`, or failed with the `seq` of its record;
`again` once it has failed and is repeated from flash. -/
structure Fetch where
  blk : Nat
  va : Nat
  failed : Option Word := none
  started : Bool := false
  again : Bool := false
  deriving DecidableEq, Repr

/-- A buoy (R346, R347), by the old index and generation: where the block went, since when, the key of its pair in the
context hash table, the pages (address and bytes) that were the block's own, and the peers whose access-control entries
have been rewritten. -/
structure Buoy where
  dev : Nat
  blk : Nat
  since : Nat
  pair : Nat := 0
  pages : List (Nat × Nat) := []
  rewritten : List Nat := []
  deriving DecidableEq, Repr

/-- A migration under way at the source (R346, R465): the destination, whether the block was SUSPENDED, when the copy
ended, and when the destination was last queried. -/
structure Migration where
  dev : Nat
  susp : Bool
  since : Nat
  asked : Option Nat := none
  deriving DecidableEq, Repr

/-! ## Host, firmware and fabric (R348 to R371) -/

/-- A host queue's descriptor, its four doublewords (R351), and the command processor's private state for it: the
number of the next command, the completion ring's next entry and phase, the levels of `INDIRECT` it is inside
(address, words left), since when a packet overruns the ring's window (R467), up to which word a lost owner's commands
are not to start (R469), and whether the next completion record cannot be written (R467). -/
structure HostQ where
  d0 : Word := 0
  d1 : Word := 0
  d2 : Word := 0
  rptr : Word32 := 0
  wptr : Word32 := 0
  seq : Word32 := 0
  cidx : Nat := 0
  ph : Bool := true
  levels : List (Nat × Nat) := []
  since : Option Nat := none
  revoked : Option Word32 := none
  lose : Bool := false
  deriving DecidableEq, Repr

/-- A command that has started and not completed (R37, R97, R346, R357, R364, R370, R371). A shoot-down of a MIGRATING
block is held until its cut-over, then forwarded, and is the destination's to acknowledge (R445). -/
inductive PendKind where
  | wait (dev : Bool) (addr : Nat) (val : Word) (eq : Bool) (limit : Option Nat)
  | release (blk : Nat)
  | shoot (blk : Nat)
  | heldShoot (blk va pages : Nat)
  | sentShoot (blk : Nat)
  | farShoot (dev src blk : Nat)
  | migrate (blk : Nat)
  | activate (fn : Nat)
  | launch (id : Nat)
  | suspend (blk : Nat)
  deriving DecidableEq, Repr

/-- A pending command with what its completion record needs. -/
structure Pending where
  q : Nat
  seq : Word32
  type : BitVec 6
  cpl : Bool
  kind : PendKind
  deriving DecidableEq, Repr

/-- An access-control entry (R369): its four doublewords. -/
structure Acl where
  w0 : Word := 0
  w1 : Word := 0
  w2 : Word := 0
  w3 : Word := 0
  deriving DecidableEq, Repr

/-- A launch that waits for its replies (R370, R472): the queue, the reply address, the bytes written there, its members'
devices and blocks, and of a gang the members that have acknowledged, since when it waits for the others, and the length
of the first member's final reply, if that came before (R371). -/
structure Launch where
  q : Nat
  reply : Option Nat
  bytes : Nat := 0
  members : List (Nat × Nat) := []
  acks : List Nat := []
  gang : Bool := false
  since : Nat := 0
  final : Option Nat := none
  deriving DecidableEq, Repr

/-- A message in a mailbox (R362). -/
abbrev Message := BitVec 512

/-- A write that a firmware function makes of its own accord to a table it owns (R476): masked bits of a control block's
doubleword, a pair of the context hash table, a reservation's `lend`, `wt` and cells, a policy register (`rgrace`,
`wclk`), or a doubleword of the plan not in force in a stack's controller. -/
inductive FirmWrite where
  | block (b i : Nat) (v mask : Word)
  | hash (rkid fnid : Nat) (b : Option Nat)
  | resv (r : Nat) (lend : Bool) (wt : BitVec 16) (cells : BitVec 256)
  | rgrace (v : Word)
  | wclk (v : Word)
  | plan (stack off : Nat) (v : Word)
  deriving DecidableEq, Repr

/-- The probation of an activated image (R364, R476): since when, the slot it replaces with the beacons that it had raised
and the messages that it had still to send, the messages read of each mailbox, and the writes it has staged. -/
structure Probation where
  since : Nat
  slot : Bool
  cnt : Word32
  sends : List (Nat × Message) := []
  read : Map Nat := []
  staged : List FirmWrite := []
  deriving DecidableEq, Repr

/-- A firmware function (R362 to R364, R378, R475, R476): its two slots, the digests of the images they hold, which runs,
the beacons raised, when the last was raised, the silences of the last ten minutes, and the probation it is on; `up` once
an image has raised its first beacon since the device's reset, `started` when the image that has still to do so was
started (`none` for the start of R378); `sends` are the messages that have still to enter their mailboxes, `held` since
when a full one holds the first of them. -/
structure Firm where
  running : Bool := false
  validA : Bool := true
  validB : Bool := false
  digA : Option (List Byte) := none
  digB : Option (List Byte) := none
  cnt : Word32 := 0
  last : Nat := 0
  silent : List Nat := []
  probation : Option Probation := none
  up : Bool := false
  started : Option Nat := none
  sends : List (Nat × Message) := []
  held : Option Nat := none
  deriving DecidableEq, Repr

/-- An Ethernet port's configuration (R322): its addresses and its service port. -/
structure EthPort where
  addrs : List (BitVec 128) := []
  service : Option (BitVec 16) := none
  deriving DecidableEq, Repr

/-- An MSI-X vector of a function (R348): the address and data of its message, its mask, and whether one is pending. -/
structure Vector where
  addr : Word := 0
  data : Word32 := 0
  masked : Bool := true
  pending : Bool := false
  deriving DecidableEq, Repr

/-- The PCIe endpoint (R348, R377): its link, whether function 0 has taken a function-level reset (R469), the number of
enabled virtual functions, the MSI-X vectors by function × 2048 + vector, and the translations that its ATS cache holds,
by function, PASID and 4 KiB page. -/
structure Pcie where
  link : Bool := true
  reset0 : Bool := false
  vfs : Nat := 0
  vectors : Map Vector := []
  atc : List (Nat × Nat × Nat × Word) := []
  deriving DecidableEq, Repr

/-- What the telemetry firmware reads of its sensors (R373, R379): package power over the last 1 ms and module input power in
watts, and the temperatures of the hottest compute die and of the hottest HBM4E stack. -/
structure Sensors where
  pwr : BitVec 16 := 0
  module : BitVec 16 := 0
  tdie : BitVec 8 := 0
  thbm : BitVec 8 := 0
  deriving DecidableEq, Repr

/-- An error record before and after the error-handling firmware takes it (R407). Its `va` field shows a virtual address,
which is then valid, or else the `pc` of a bundle. -/
structure ErrRec where
  cls : BitVec 8
  rung : BitVec 3 := 0
  agent : BitVec 16 := 0
  struct : BitVec 16 := 0
  cause : BitVec 8 := 0
  rwc : BitVec 8 := 0
  synd : Word32 := 0
  stamp : Word := 0
  pa : Option (BitVec 52) := none
  va : Option (BitVec 57) := none
  pc : BitVec 57 := 0
  mctx : Option (Nat × BitVec 8 × BitVec 12) := none
  aux : Word := 0
  cnt : BitVec 16 := 0
  seq : Word32 := 0
  ov : Bool := false
  prev : Bool := false
  time : Word := 0
  deriving DecidableEq, Repr

/-- Whom a remote access names as its source: the device, and the micro-context's tenant (R369). -/
structure Source where
  dev : BitVec 9
  ten : BitVec 12
  deriving DecidableEq, Repr

/-- What leaves the device: reply datagrams, interrupts, SPDM answers, management and fabric messages, pins. -/
inductive Out where
  | reply (port : Bool) (saddr : BitVec 128) (sport : BitVec 16) (hdr : BitVec 512) (body : List Byte) (tag : BitVec 128)
  | frame (port : BitVec 1)
  | msix (fn : Nat) (vec : Nat) (addr : Word) (data : Word32)
  | completion (agent : Nat) (rec : BitVec 128)
  | spdm (code : BitVec 8) (body : List Byte)
  | launch (dev : Nat) (l : LaunchPacket)
  | launchReply (dev id : Nat) (payload : List Byte) (final : Bool)
  | launchFail (dev id : Nat) (reason : BitVec 16)
  | gangAck (dev id : Nat)
  | gangConfirm (dev blk : Nat)
  | gangAbort (dev blk : Nat)
  | remoteWrite (dev : Nat) (ports : List (Option Nat)) (src : Source) (ops : List (Nat × BufKind))
  | remoteAtomic (dev : Nat) (port : Option Nat) (src : Source) (pa n : Nat) (op : BitVec 4) (v w : Word)
  | remoteRead (dev : Nat) (port : Option Nat) (src : Source) (pa n : Nat)
  | remoteData (dev : Nat) (bytes : List Byte) (poison : Bool)
  | remoteDenied (dev : Nat)
  | forward (dev : Nat) (g : Datagram)
  | forwardAccess (dev : Nat) (r : RemoteAccess)
  | migrate (dev : Nat) (m : MigrationCopy)
  | migrateAck (dev blk : Nat)
  | migrateConfirm (dev blk : Nat)
  | migrateQuery (dev blk : Nat)
  | migrateDrop (dev blk : Nat)
  | linkOffer (port : Nat) (share sig : List Byte)
  | confirmQuery (dev srcBlk blk : Nat)
  | shootDown (dev src blk va pages : Nat)
  | shootAck (dev src st : Nat)
  | aclMoved (dev oldBlk newDev newBlk : Nat)
  | invalidationDone (pasid : Nat)
  | leafInvalid (blk va : Nat)
  | pageFreed (page : Word)
  | faultN
  | thermtripN
  deriving DecidableEq, Repr

/-- The power and reset state (R372, R375, R378, R419): off, held in reset, or running. -/
inductive Power where
  | off | held | on
  deriving DecidableEq, Repr

/-- A write of an agent of R482 that waits for the version heap: agent, the block it writes for, key identifier, and the
stamp its own must exceed. -/
structure HeldWrite where
  agent : Nat
  blk : Option Nat := none
  kid : Nat := 0
  least : Nat := 0
  pa : Nat
  bytes : List Byte
  deriving DecidableEq, Repr

/-- A leaf that maps a page: its block, the base address of its page, its size code and its value. -/
structure Mapping where
  blk : Nat
  va : Nat
  sz : BitVec 2
  pte : Word
  deriving DecidableEq, Repr

/-- A page retirement under way (R448): its granule, the granule at which the new page begins, the leaves that mapped the
page, which carry `ab` = 1 now, and the queues and save areas that lie in its granule or page, by base address and length. -/
structure Retire where
  gran : Nat
  fresh : Nat
  maps : List Mapping := []
  areas : List (Nat × Nat) := []
  deriving DecidableEq, Repr

/-- The memory-management register block's own state (R101, R150, R412, R454): a quarantine entry holds its page word, its
free stamp and, at the head until it is reported (R446), since when it waits; `unpushed` lists the pages, with their free
stamps, that the firmware keeps because the ring was full; `clearing` lists the pages pending clear by PA[51:16] with
their size codes; `retire` is the page retirement under way (R448); `horizon` holds per tenant the stamp up to which the
Dredge has reclaimed (R149), `retiring` the blocks SUSPENDED while a page of theirs is retired (R448), and `waiting` the
writes that wait for the version heap, oldest first (R482). -/
structure Mm where
  qqbase : Word := 0
  qqpg : Word := 0
  ring : List (Word × Word × Option Nat) := []
  head : BitVec 14 := 0
  lastAck : Nat := 0
  vtsel : BitVec 12 := 0
  vhbase : Word := 0
  vhlen : Word32 := 0
  vquota : Map Word32 := []
  vlowm : Word32 := 0
  faq : List Word := []
  faqovf : Bool := false
  bpidx : BitVec 13 := 0
  unpushed : List (Word × Word) := []
  clearing : Map Nat := []
  retire : Option Retire := none
  horizon : Map Nat := []
  retiring : List Nat := []
  waiting : List HeldWrite := []
  deriving DecidableEq, Repr

/-- The error-handling state (R399, R408, R415 to R419): records waiting, the 32 newest, the host ring's registers, the
count of records, the newest one's `seq`, whether one was lost, corrected counts per structure and stack, and stack
resets. -/
structure Err where
  queue : List ErrRec := []
  window : Map (BitVec 512) := []
  seq : Word32 := 0
  newest : Word32 := 0
  lost : Bool := false
  elbase : Word := 0
  elcfg : Word := 0
  corrected : Map Nat := []
  firstAt : Map Nat := []
  lineErrs : Map (List Nat) := []
  stackReset : Map Nat := []
  stackLast : Map Nat := []
  deriving DecidableEq, Repr

/-- A page of a checkpoint in the flash tier (R147, R363): its virtual address and size, the extents that hold it with their
drives, where in the first it begins, and its bytes by offset, zero where none is listed. -/
structure CkptPage where
  va : Nat
  size : Nat
  place : List (Bool × BitVec 63) := []
  off : Nat := 0
  data : List Host.Cell := []
  deriving DecidableEq, Repr

/-- A checkpoint in the flash tier (R147): its pages and its manifest; `stale` once a reset has ended the stamps by which a
later drain could tell what has changed since. -/
structure Ckpt where
  pages : List CkptPage := []
  manifest : List Byte := []
  stale : Bool := false
  deriving DecidableEq, Repr

/-- Boot flash, the flash tier and the security root (R365, R411, R419): what survives a reset or a loss of power. `roots`
and `ckpts` are keyed by twice the block index plus the side (R148), and `udsBad` says that the UDS cannot be read (R474).
-/
structure Flash where
  bad : List Word := []
  bpBusy : List Word := []
  kept : List ErrRec := []
  roots : Map (BitVec 512) := []
  ckpts : Map Ckpt := []
  fuses : Option (List Byte) := none
  udsBad : Bool := false
  deriving DecidableEq, Repr

/-- A routine library being installed by a `MUPLD` (R310): the context that waits for it, the upper cores that have not taken
it, its version and its digest. -/
structure LibInstall where
  agent : Nat
  cores : List Nat
  ver : Word32
  dig : List Byte
  deriving DecidableEq, Repr

/-- The DICE chain and the installed routine library (R310, R365, R366): the digest of layer 1 and the measurements of
layer 2 at the last boot, `none` for those of the factory's images, and what has extended the log since. -/
structure Dice where
  layer1 : Option (List Byte) := none
  base : Option (List (List Byte)) := none
  log : List (List Byte) := []
  libVer : Word32 := 0
  libDig : Option (List Byte) := none
  installs : List LibInstall := []
  reportSeq : Word := 0
  negotiated : BitVec 2 := 0
  deriving DecidableEq, Repr

/-- The host, firmware and fabric side of the device. `lastQ` is the queue that the command processor served last, and
`lastFirst` the last of the four agent channels' (R355), `claimed` the cycle and agent of the last claim of ownership
(R360). -/
structure Outside where
  hostMem : List Host.Cell := []
  hostq : Map HostQ := []
  pend : List Pending := []
  lastQ : Nat := 0
  lastFirst : Nat := 0
  owner : BitVec 8 := 0
  handover : Nat := 0
  claimed : Option (Nat × Nat) := none
  funcs : Map Word := []
  firm : Map Firm := []
  mail : Map (List Message) := []
  bootOk : Bool := true
  acl : Map Acl := []
  devno : BitVec 9 := 0
  routes : Map (List Nat) := []
  linkUp : BitVec 24 := 0
  linkKeys : Map (BitVec 256) := []
  flitTries : Map Nat := []
  mgmtLast : Map Nat := []
  ethUp : BitVec 2 := 3
  eth : Map EthPort := []
  pcie : Pcie := {}
  sensors : Sensors := {}
  buoys : Map Buoy := []
  migs : Map Migration := []
  launches : Map Launch := []
  nextLaunch : Nat := 1
  outbox : List Out := []
  dropped : Nat := 0
  segWait : List Datagram := []
  tagErrAt : Map Nat := []
  deriving DecidableEq, Repr

/-- A page in weight SRAM (R22, R80, R398): its placement mask, the read-only copy's bytes by the physical addresses that
they keep, and the lines found uncorrectable in it, each with its stack. -/
structure SramPage where
  mask : BitVec 4 := 0
  data : List Host.Cell := []
  bad : List (Nat × Nat) := []
  deriving DecidableEq, Repr

/-- A physical copy of a shared-weight page (R85): its size code, sharing domain, the SHA-384 digests of its 2 MiB pieces in
order (of the whole of a 64 KiB page), the pages that map it (block and virtual address; the reference count is their
number), whether it is resident, and the granule whose retirement ends when it is fetched (R449). -/
structure SharedCopy where
  sz : BitVec 2 := 0
  sdom : Nat := 0
  digests : List (List Byte) := []
  maps : List (Nat × Nat) := []
  here : Bool := false
  retire : Option Nat := none
  deriving DecidableEq, Repr

/-- The serving tables: control blocks, snapshot tables, hash table, reservations, images, policy, meters, keys with their
reply counters, and the keys whose exhaustion has been recorded (R460). -/
structure Tables where
  blocks : Map Block := []
  snaps : Map Snap := []
  snapGen : Map (BitVec 32) := []
  hash : Map Nat := []
  resv : Map Resv := []
  images : Map Image := []
  rgrace : Word := 57600
  wclk : Option (Word × Nat) := none
  meters : Map Meter := []
  keys : Map (BitVec 256 × Nat) := []
  exhausted : List Nat := []
  domains : Map Nat := []
  fetches : List Fetch := []
  copies : Map SharedCopy := []
  placed : Map SramPage := []
  bindings : Map Binding := []
  retired : List Word32 := []
  deriving DecidableEq, Repr

/-- The device. `ctxs` is keyed by agent identifier (core × 4 + context), `cores` by core, `cells` by cell, `ready`
by physical cluster (R17, R26). `top` is the largest stamp taken, `pub` the largest stamp of a commit or engine write
whose publication has completed (R118), `qlow` the largest value of the quiescence counter so far (R98), and `snapLow` the
largest stamp of a snapshot, above which every later write takes its stamp (R142). `l2` lists the lines that each home
slice holds (R79); their bytes and what is kept beside them are those of `mem` and `lines`. -/
structure Device where
  cycle : Nat := 0
  power : Power := .on
  top : Nat := 0
  pub : Nat := 0
  qlow : Nat := 0
  snapLow : Nat := 0
  ctxs : Map Ctx := []
  cores : Map Core := []
  cells : Map Cell := []
  ready : Map (List ReadyEnt) := []
  ops : List EngOp := []
  mem : List Host.Cell := []
  lines : Map Line := []
  l2 : Map (List Nat) := []
  hbms : Map Hbm := []
  tab : Tables := {}
  mm : Mm := {}
  err : Err := {}
  flash : Flash := {}
  dice : Dice := {}
  out : Outside := {}
  deriving DecidableEq, Repr

/-! ## The machine -/

/-- The bundle being executed (R175 to R179, R205, R225): the device before it, its start, the address after its last
slot, the slot at hand and the immediate that a `WIDE` adds to it, the taken leaf, the target of a taken transfer, whether
it holds `END`, the flags to raise, the seed after the bundle's stochastic draws, whether a slot wrote `fcsr`, whether a
slot did what is done only once the follower's copy has compared (R62, R403), and what follows the commit: a trap, or
waits in slot order. -/
structure Bundle where
  pre : Device
  agent : Nat
  start : Word
  next : Word
  slot : Nat := 0
  word : Word32 := 0
  wide : Option (BitVec 21) := none
  leaf : Nat := 0
  jump : Option Word := none
  flags : BitVec 6 := 0
  seed : Option (BitVec 32) := none
  fcsrWritten : Bool := false
  called : Bool := false
  exits : Bool := false
  ends : Bool := false
  opens : Bool := false
  compared : Bool := false
  after : Option PendTrap := none
  waits : List Wait := []
  blockedBy : Option Wait := none
  deriving DecidableEq, Repr

/-- An act of the firmware or of the host that is no row of the opcode table: function `src` sends a message to another
(R362), function `dst` reads the oldest message of one of its mailboxes that it has not read, function `fn` writes a table
it owns (R476), the network firmware configures an Ethernet port (R322) or has a peer's access-control entry follow a
buoy (R347), the telemetry firmware reads its sensors (R373), the control owner sets the number of virtual functions and
the host an MSI-X vector, a translation enters the ATS cache, the PCIe link trains (R348), and L2 moves a line between
itself and HBM on a tenant's behalf, into its home slice or out of it, held for some cycles by hot-row throttling (R79,
R343, R452). The source of a migration asks the destination for its acknowledgement, the destination asks the source for
its confirmation, and each is asked (R465); a pending handover's target loses its channel (R469); a stack's controllers or
HBM pair report a failure that they cannot contain (R418); a peer denies a task's stores or does not answer (R471); and
the UDS becomes unreadable (R474). -/
inductive Act where
  | send (src dst : Nat) (m : Message)
  | read (dst src : Nat)
  | write (fn : Nat) (w : FirmWrite)
  | ethPort (port : BitVec 1) (p : EthPort)
  | aclMoved (key peer : Nat)
  | sense (x : Sensors)
  | enableVfs (n : Nat)
  | vector (fn vec : Nat) (addr : Word) (data : Word32) (masked : Bool)
  | translated (fn pasid page : Nat) (host : Word)
  | pcieLink (up : Bool)
  | ownerReset
  | mgmtResponse (agent : Nat)
  | flitPassed (port : Nat)
  | dropCopy (dev src blk : Nat)
  | traffic (tenant line arrived : Nat) (fill : Bool)
  | askConfirm (blk : Nat)
  | ackAsked (dev srcBlk blk : Nat)
  | confirmAsked (dev srcBlk blk : Nat)
  | shootAsked (dev src blk va pages : Nat)
  | shootAcked (src st : Nat)
  | handoverLost
  | stackFailure (stack : Nat)
  | storesFailed (blk : Nat)
  | udsLost
  deriving DecidableEq, Repr

/-- What the next step does: a core issues, an event of the opcode table happens, the command processor takes the next
packet of a host queue or of an agent's buffer, a packet arrives on an agent's channel, an engine operation makes its next
`n` writes, a pre-emption saves and releases a logical cell of a block's group, the firmware or the host acts, or cycles
pass. Plain data says which agent moves next (log entry 2). -/
inductive Turn where
  | issue (core : Nat)
  | event (e : Instr)
  | command (q : Nat)
  | packet (agent : Nat) (head : Word32) (words : List Word32)
  | engine (agent e n : Nat)
  | saveCell (blk lcell : Nat)
  | act (a : Act)
  | pass (n : Nat)
  deriving DecidableEq, Repr

/-- How the last slot, bundle or event ended; the model's own field, for statements and tests to read. -/
inductive Result where
  | done
  | trapped (cause : BitVec 8)
  | aborted (cause : BitVec 8)
  | blocked
  | idle
  | ignored
  deriving DecidableEq, Repr

/-- The reasons a step stops with a fault. -/
inductive Fault where
  /-- Raised by a step of a core while the device is without power or held in reset and no event is scheduled: no
  domain is clocked (R375, R419). Safe: nothing happens in the hardware either. -/
  | heldInReset
  /-- Raised by a firmware or command-processor access to a physical address that R77 reserves, which names no
  storage. Safe: the model stops where the manual gives no byte. -/
  | reservedPhysical
  deriving DecidableEq, Repr

/-- The reasons for which an instruction has no meaning. -/
inductive Refusal where
  /-- Raised by an arm of `exec` whose instruction has no meaning yet. Safe: nothing is claimed of it. -/
  | notModelled (mnemonic : String)
  deriving DecidableEq, Repr

/-- The machine: the device, the bundle at hand, the turns to come, the core that issues when none is scheduled, the
counter that names free values, and how the last step ended. -/
structure State where
  dev : Device := {}
  bundle : Option Bundle := none
  agenda : List Turn := []
  focus : Nat := 0
  free : Nat := 0
  last : Result := .done
  deriving DecidableEq, Repr

/-- The device after the power-on sequence of R378: every context VACANT, every block FREE, every table zero, the
default calendar plan in force (a plan with no entry listed), `owner.v` 0, slot A of every firmware function started
and no first beacon raised yet (log entries 3 and 4). -/
def State.reset : State := {}

end Sys2Proof.Machine
end

