-- ==== Sys2Proof/Machine/Map.lean ====
section
/-! DEFINITION. Finite maps and memory in one canonical form: keys strictly rising and no entry equal to what an
unlisted key reads as, so equal maps are equal lists. -/

namespace Sys2Proof.Machine

/-- What key `k` reads as: its entry, or `d` when it has none. -/
def mget {α : Type} (d : α) (m : Map α) (k : Nat) : α :=
  match m with
  | [] => d
  | e :: r => if e.1 = k then e.2 else mget d r k

/-- `m` without key `k`. -/
def mdel {α : Type} (m : Map α) (k : Nat) : Map α := m.filter fun e => e.1 != k

/-- The entry `(k, v)` placed before the first larger key. -/
def mins {α : Type} (m : Map α) (k : Nat) (v : α) : Map α :=
  match m with
  | [] => [(k, v)]
  | e :: r => if e.1 < k then e :: mins r k v else (k, v) :: e :: r

/-- `m` with key `k` reading as `v`; an entry equal to the default `d` is not listed. -/
def mput {α : Type} [DecidableEq α] (d : α) (m : Map α) (k : Nat) (v : α) : Map α :=
  if v = d then mdel m k else mins (mdel m k) k v

/-- `m` with key `k` listed with value `v`, whatever the value. -/
def mset {α : Type} (m : Map α) (k : Nat) (v : α) : Map α := mins (mdel m k) k v

/-- The entry of key `k`, if it has one. -/
def mfind {α : Type} (m : Map α) (k : Nat) : Option α :=
  match m with
  | [] => none
  | e :: r => if e.1 = k then some e.2 else mfind r k

/-- The canonical form of a map with default `d`. -/
def mwf {α : Type} [DecidableEq α] (d : α) (m : Map α) : Bool :=
  match m with
  | [] => true
  | e :: r => e.2 != d && r.all (fun x => decide (e.1 < x.1)) && mwf d r

/-- The first key from a list that satisfies a test. -/
def firstSuch (l : List Nat) (p : Nat → Bool) : Option Nat := l.find? p

/-- The canonical form of memory, whose unlisted bytes read as zero (log entry 5). -/
abbrev Memory.wf (m : List Host.Cell) : Bool := mwf (0 : Byte) m

/-- One byte of memory. -/
def rdByte (m : List Host.Cell) (a : Nat) : Byte := mget 0 m a

/-- Memory with one byte written. -/
def wrByte (m : List Host.Cell) (a : Nat) (b : Byte) : List Host.Cell := mput 0 m a b

/-- The `n` bytes of memory from address `a` up. -/
def rdBytes (m : List Host.Cell) (a : Nat) : Nat → List Byte
  | 0 => []
  | n + 1 => rdByte m a :: rdBytes m (a + 1) n

/-- Memory with the bytes `bs` written from address `a` up. -/
def wrBytes (m : List Host.Cell) (a : Nat) : List Byte → List Host.Cell
  | [] => m
  | b :: bs => wrBytes (wrByte m a b) (a + 1) bs

/-- A list with its element at index `i` replaced; shorter lists are unchanged. -/
def lset {α : Type} (l : List α) (i : Nat) (v : α) : List α :=
  match l, i with
  | [], _ => []
  | _ :: r, 0 => v :: r
  | x :: r, j + 1 => x :: lset r j v

/-- A list with each element kept once, at its last place. -/
def uniq (l : List Nat) : List Nat := l.foldr (fun x acc => if acc.contains x then acc else x :: acc) []

/-- An element placed in a list in rising order of a key, after its equals. -/
def insertBy {α : Type} (key : α → Nat) (x : α) : List α → List α
  | [] => [x]
  | y :: r => if key x < key y then x :: y :: r else y :: insertBy key x r

/-- A list in rising order of a key. -/
def sortBy {α : Type} (key : α → Nat) (l : List α) : List α := l.foldl (fun acc x => insertBy key x acc) []

/-- A list of pairs with each first component kept once, at its last place. -/
def uniqFst {α : Type} (l : List (Nat × α)) : List (Nat × α) :=
  l.foldr (fun x acc => if acc.any (fun y => y.1 == x.1) then acc else x :: acc) []

/-- The numbers from `a` to `a + n − 1`. -/
def span (a n : Nat) : List Nat := (List.range n).map (a + ·)

end Sys2Proof.Machine
end

