-- ==== Sys2Proof/Machine/Fields.lean ====
section
/-! DEFINITION. Access to the parts of the device by number, and the named fields of control blocks (R34), task records
(R43), queue descriptors (R351) and access-control entries (R369). -/

namespace Sys2Proof.Machine

/-! ## Parts of the device -/

/-- The hardware context with agent identifier `a` (R26). -/
def Device.ctx (d : Device) (a : Nat) : Ctx := mget {} d.ctxs a

/-- The device with context `a` replaced. -/
def Device.setCtx (d : Device) (a : Nat) (c : Ctx) : Device := { d with ctxs := mset d.ctxs a c }

/-- The device with context `a` changed by `f`. -/
def Device.updCtx (d : Device) (a : Nat) (f : Ctx → Ctx) : Device := d.setCtx a (f (d.ctx a))

/-- Core `n` (R17). -/
def Device.core (d : Device) (n : Nat) : Core := mget {} d.cores n

/-- The device with core `n` replaced. -/
def Device.setCore (d : Device) (n : Nat) (c : Core) : Device := { d with cores := mset d.cores n c }

/-- The device with core `n` changed by `f`. -/
def Device.updCore (d : Device) (n : Nat) (f : Core → Core) : Device := d.setCore n (f (d.core n))

/-- Cell `n` (R17). -/
def Device.cell (d : Device) (n : Nat) : Cell := mget {} d.cells n

/-- The device with cell `n` changed by `f`. -/
def Device.updCell (d : Device) (n : Nat) (f : Cell → Cell) : Device :=
  { d with cells := mset d.cells n (f (d.cell n)) }

/-- The ready queue of physical cluster `n`, oldest first (R46). -/
def Device.readyQ (d : Device) (n : Nat) : List ReadyEnt := mget [] d.ready n

/-- The device with the ready queue of cluster `n` replaced. -/
def Device.setReady (d : Device) (n : Nat) (q : List ReadyEnt) : Device := { d with ready := mset d.ready n q }

/-- The serving tables changed by `f`. -/
def Device.updTab (d : Device) (f : Tables → Tables) : Device := { d with tab := f d.tab }

/-- The host, firmware and fabric side changed by `f`. -/
def Device.updOut (d : Device) (f : Outside → Outside) : Device := { d with out := f d.out }

/-- Control block `n` (R34). -/
def Device.block (d : Device) (n : Nat) : Block := mget {} d.tab.blocks n

/-- The device with control block `n` changed by `f`. -/
def Device.updBlock (d : Device) (n : Nat) (f : Block → Block) : Device :=
  d.updTab fun t => { t with blocks := mset t.blocks n (f (mget {} t.blocks n)) }

/-- The binding of block `n`, while it has one (R38). -/
def Device.binding (d : Device) (n : Nat) : Option Binding := mfind d.tab.bindings n

/-- The device with the binding of block `n` replaced. -/
def Device.setBinding (d : Device) (n : Nat) (b : Binding) : Device :=
  d.updTab fun t => { t with bindings := mset t.bindings n b }

/-- The device with the binding of block `n`, if there is one, changed by `f`. -/
def Device.updBinding (d : Device) (n : Nat) (f : Binding → Binding) : Device :=
  match d.binding n with
  | some b => d.setBinding n (f b)
  | none => d

/-- The device without a binding of block `n`. -/
def Device.dropBinding (d : Device) (n : Nat) : Device :=
  d.updTab fun t => { t with bindings := mdel t.bindings n }

/-- The HBM controller of stack `n` (R106). -/
def Device.hbm (d : Device) (n : Nat) : Hbm := mget {} d.hbms n

/-- The device with the controller of stack `n` changed by `f`. -/
def Device.updHbm (d : Device) (n : Nat) (f : Hbm → Hbm) : Device := { d with hbms := mset d.hbms n (f (d.hbm n)) }

/-- Pseudo-channel `c` of a controller (R113). -/
def Hbm.chan (h : Hbm) (c : Nat) : Chan := mget {} h.chans c

/-- A controller with pseudo-channel `c` changed by `f`. -/
def Hbm.updChan (h : Hbm) (c : Nat) (f : Chan → Chan) : Hbm := { h with chans := mset h.chans c (f (h.chan c)) }

/-- What the device keeps of the line with PA[51:6] = `n`. -/
def Device.line (d : Device) (n : Nat) : Line := mget {} d.lines n

/-- The device with the record of line `n` changed by `f`. -/
def Device.updLine (d : Device) (n : Nat) (f : Line → Line) : Device :=
  { d with lines := mset d.lines n (f (d.line n)) }

/-- A message added to what leaves the device. -/
def Device.send (d : Device) (o : Out) : Device := d.updOut fun x => { x with outbox := x.outbox ++ [o] }

/-- The device with its PCIe endpoint changed (R348). -/
def Device.updPcie (d : Device) (f : Pcie → Pcie) : Device := d.updOut fun x => { x with pcie := f x.pcie }

/-- Whether a PCIe function is there: the physical one, and the enabled virtual ones (R348). -/
def Pcie.has (p : Pcie) (fn : Nat) : Bool := p.link && decide (fn ≤ p.vfs)

/-- The vectors and translations of some functions as after a reset of theirs (R348, R377). -/
def Pcie.clear (p : Pcie) (f : Nat → Bool) : Pcie :=
  { p with vectors := p.vectors.filter fun e => !f (e.1 / 2048), atc := p.atc.filter fun e => !f e.1 }

/-- An MSI-X vector of a function raised (R348): its message, or, while it is masked, its pending bit. -/
def Device.interrupt (d : Device) (fn vec : Nat) : Device :=
  let k := 2048 * fn + vec
  let v := mget {} d.out.pcie.vectors k
  if !d.out.pcie.has fn then d
  else if v.masked then d.updPcie fun p => { p with vectors := mset p.vectors k { v with pending := true } }
  else d.send (.msix fn vec v.addr v.data)

/-- The meter record of a tenant changed by `f` (R343). -/
def Device.updMeter (d : Device) (t : Nat) (f : Meter → Meter) : Device :=
  d.updTab fun x => { x with meters := mset x.meters t (f (mget {} x.meters t)) }

/-- Snapshot table entry `h` of block `b`; block 32768 is the device's own table (R141, R146). -/
def Device.snap (d : Device) (b h : Nat) : Snap := mget {} d.tab.snaps (b * 16 + h)

/-- The device with snapshot table entry `h` of block `b` changed by `f`. -/
def Device.updSnap (d : Device) (b h : Nat) (f : Snap → Snap) : Device :=
  d.updTab fun x => { x with snaps := mset x.snaps (b * 16 + h) (f (mget {} x.snaps (b * 16 + h))) }

/-- The index that stands for the device in the snapshot tables. -/
def devTable : Nat := 32768

/-! ## Numbering (R17, R26) -/

/-- The core of a context. -/
def coreOf (a : Nat) : Nat := a / 4

/-- The cell of a core. -/
def cellOf (core : Nat) : Nat := core / 2

/-- The cluster of a cell. -/
def clusterOf (cell : Nat) : Nat := cell / 8

/-- The stack of a cell. -/
def stackOf (cell : Nat) : Nat := cell / 64

/-- Whether a core is an upper core. -/
def isUpper (core : Nat) : Bool := core % 2 == 1

/-- The hops between two compute stacks in the ring 0-1, 1-3, 3-2, 2-0 (R16). -/
def hops (a b : Nat) : Nat := if a = b then 0 else if a + b = 3 then 2 else 1

/-! ## Control-block fields (R34) -/

/-- A field of a control block: its doubleword and its bits. -/
structure Fld where
  dw : Nat
  hi : Nat
  lo : Nat
  deriving DecidableEq, Repr

def fGen : Fld := ⟨0, 63, 56⟩
def fTenant : Fld := ⟨0, 43, 32⟩
def fResv : Fld := ⟨0, 31, 22⟩
def fShape : Fld := ⟨0, 20, 16⟩
def fProt : Fld := ⟨0, 15, 15⟩
def fPol : Fld := ⟨0, 14, 14⟩
def fPrio : Fld := ⟨0, 13, 11⟩
def fState : Fld := ⟨0, 3, 0⟩
def fFnid : Fld := ⟨1, 63, 32⟩
def fImage : Fld := ⟨1, 31, 0⟩
def fPtroot : Fld := ⟨2, 51, 12⟩
def fSdom : Fld := ⟨3, 43, 32⟩
def fDkid : Fld := ⟨3, 27, 16⟩
def fRkid : Fld := ⟨3, 11, 0⟩
def fQbase : Fld := ⟨4, 51, 6⟩
def fQlog : Fld := ⟨4, 3, 0⟩
def fQcnt : Fld := ⟨5, 47, 32⟩
def fQtail : Fld := ⟨5, 31, 16⟩
def fQhead : Fld := ⟨5, 15, 0⟩
def fRoota : Fld := ⟨6, 51, 6⟩
def fMsel : Fld := ⟨6, 0, 0⟩
def fRootb : Fld := ⟨7, 51, 6⟩
def fSavea : Fld := ⟨8, 51, 16⟩
def fSavelen : Fld := ⟨9, 31, 0⟩
def fEntry : Fld := ⟨10, 56, 6⟩
def fTrapva : Fld := ⟨11, 56, 5⟩
def fBnum : Fld := ⟨12, 63, 32⟩
def fBound : Fld := ⟨12, 8, 8⟩
def fGbase : Fld := ⟨12, 7, 0⟩
def fBstamp : Fld := ⟨13, 63, 0⟩
def fAcnt : Fld := ⟨14, 63, 32⟩
def fLcause : Fld := ⟨14, 7, 0⟩

/-- Doubleword `i` of a control block. -/
def Block.dw (b : Block) (i : Nat) : Word := mget 0 b.words i

/-- A field of a control block. -/
def Block.get (b : Block) (f : Fld) : Nat := bits (b.dw f.dw) f.hi f.lo

/-- A control block with a field written. -/
def Block.set (b : Block) (f : Fld) (v : Nat) : Block :=
  { b with words := mset b.words f.dw (setBits (b.dw f.dw) f.hi f.lo v) }

/-- The states of R36. -/
def sFree : Nat := 0
def sIdle : Nat := 1
def sQueued : Nat := 2
def sBinding : Nat := 3
def sRunning : Nat := 4
def sPreempted : Nat := 5
def sSuspended : Nat := 6
def sMigrating : Nat := 7
def sDead : Nat := 8

/-- The state of block `n` (R36). -/
def Device.mstate (d : Device) (n : Nat) : Nat := (d.block n).get fState

/-- The device with block `n` in state `st`. -/
def Device.setMstate (d : Device) (n st : Nat) : Device := d.updBlock n fun b => b.set fState st

/-- The cells of a group of a shape code (R39). -/
def shapeCells (shape : Nat) : Nat :=
  match shape % 16 with
  | 0 => 1 | 1 => 2 | 2 => 4 | 3 => 8 | 4 => 16 | 5 => 32 | 6 => 64 | 7 => 128 | 8 => 256
  | _ => 0

/-- Whether a shape uses lower cores only (R39). -/
def lowerOnly (shape : Nat) : Bool := shape / 16 % 2 == 1

/-- The physical cells that a group occupies: twice the shape's in protected mode (R40). -/
def groupCells (shape : Nat) (prot : Bool) : Nat := if prot then 2 * shapeCells shape else shapeCells shape

/-- The physical cells of a binding's group, those that a pre-emption has released already apart (R65). -/
def Binding.cells (b : Binding) : List Nat :=
  (span b.gbase (groupCells b.shape.toNat b.prot)).filter fun c => !b.gone.contains c

/-- The cores of a binding's group that the shape uses, in increasing number. -/
def Binding.cores (b : Binding) : List Nat :=
  b.cells.flatMap fun c => if lowerOnly b.shape.toNat then [2 * c] else [2 * c, 2 * c + 1]

/-- The contexts of a binding's group, in increasing agent identifier. -/
def Binding.agents (b : Binding) : List Nat := b.cores.flatMap fun c => [4 * c, 4 * c + 1, 4 * c + 2, 4 * c + 3]

/-- The logical cell of a physical cell of the group (R40). -/
def Binding.lcell (b : Binding) (cell : Nat) : Nat := if b.prot then (cell - b.gbase) / 2 else cell - b.gbase

/-- The physical cell of a logical cell: its leader's in protected mode (R40). -/
def Binding.pcell (b : Binding) (lcell : Nat) : Nat := if b.prot then b.gbase + 2 * lcell else b.gbase + lcell

/-- Whether a cell is a follower's in protected mode (R61). -/
def Binding.follower (b : Binding) (cell : Nat) : Bool := b.prot && (cell - b.gbase) % 2 == 1

/-- The physical cluster that holds the ready queue of logical cluster `l` (R41, R46). -/
def Binding.cluster (b : Binding) (l : Nat) : Nat := clusterOf (b.pcell (8 * l))

/-- The block that holds a core, if any. -/
def Device.holder (d : Device) (core : Nat) : Option Nat := (d.cell (cellOf core)).held

end Sys2Proof.Machine
end

