-- ==== Sys2Proof/Machine/MatrixBase.lean ====
section
/-! DEFINITION. What the matrix queue knows of its entries (R295, R299 to R301, R305): shapes of slots, operand pairs,
paths, durations, weights and the slots and banks an entry reads or writes. -/

namespace Sys2Proof.Machine

/-- The width of an element of a tag in bits (R151, R295). -/
def tagWidth (tag : Nat) : Nat :=
  match tag with
  | 1 => 8 | 2 => 8 | 8 => 8 | 9 => 8 | 10 => 8 | 12 => 8
  | 3 => 16 | 6 => 16 | 7 => 16
  | 11 => 4 | 13 => 4
  | _ => 32

/-- Elements of a row of an operand slot (R295). -/
def kslot (tag : Nat) : Nat := 1024 / tagWidth tag

/-- The bytes of the scale plane that a tag uses (R295). -/
def planeBytes (tag : Nat) : Nat := if tag = 11 then 1024 else if tag = 10 ∨ tag = 12 then 512 else 0

/-- An operand pair of `mm` (R305): the accumulator's tag, twice the rate q, and the weight per cycle. -/
structure Pair where
  acc : BitVec 4
  q2 : Nat
  weight : Nat
  deriving DecidableEq, Repr

/-- The operand pairs of `mm` (R305). -/
def mmPair (ta tb : Nat) : Option Pair :=
  if (ta = 8 ∨ ta = 9) ∧ (tb = 8 ∨ tb = 9) then some ⟨5, 2, 40⟩
  else if ta = 10 ∧ tb = 10 then some ⟨5, 2, 40⟩
  else if (ta = 1 ∨ ta = 8 ∨ ta = 9 ∨ ta = 10) ∧ tb = 12 then some ⟨5, 8, 36⟩
  else if ta = 6 ∧ tb = 6 then some ⟨5, 1, 40⟩
  else if ta = 7 ∧ tb = 7 then some ⟨5, 1, 40⟩
  else if ta = 11 ∧ tb = 11 then some ⟨5, 4, 44⟩
  else if (ta = 1 ∨ ta = 2) ∧ (tb = 1 ∨ tb = 2) then some ⟨4, 2, 40⟩
  else if ta = 13 ∧ tb = 13 then some ⟨4, 4, 44⟩
  else none

/-- Whether an entry runs on the transfer path (R300). -/
def MOp.transfer : MOp → Bool
  | .old _ _ _ => true
  | .ost _ _ _ => true
  | _ => false

/-- The reduction length `kn` of a captured `mp0` (R304). -/
def mpKn (mp0 : Word) : Nat := bits mp0 47 32

/-- The rows `mr` of a captured `mp0` (R304). -/
def mpMr (mp0 : Word) : Nat := bits mp0 23 16

/-- The columns `nc` of a captured `mp0` (R304). -/
def mpNc (mp0 : Word) : Nat := bits mp0 15 8

/-- The engine context `tle` of an `mp0` (R304). -/
def mpTle (mp0 : Word) : Nat := bits mp0 2 0

/-- The working cycles of an entry (R300). -/
def MEntry.cycles (m : MEntry) : Nat :=
  match m.op with
  | .old _ _ tag => if planeBytes tag.toNat = 0 then 32 else 34
  | .ost _ _ tag => if planeBytes tag.toNat = 0 then 32 else 34
  | .macz _ => 4
  | .mm _ _ _ _ ta tb =>
    match mmPair ta.toNat tb.toNat with
    | some p => 16 + ceilDiv (2 * mpKn m.mp0) p.q2
    | none => 16
  | .accout _ _ _ => 144
  | .transp _ _ _ => 144
  | .accld _ _ => 80
  | .accadd _ _ _ => 80

/-- The weight per cycle of a working entry (R300, R305). -/
def MOp.weight : MOp → Nat
  | .old _ _ _ => 4
  | .ost _ _ _ => 4
  | .mm _ _ _ _ ta tb => match mmPair ta.toNat tb.toNat with | some p => p.weight | none => 0
  | _ => 10

/-- The slots an `accout` writes (R307). -/
def accoutSlots (mp1 : Word) : Nat := tagWidth (bits mp1 3 0) / 8

/-- The slots (numbers 0 to 63) and banks (64 and 65) that an entry reads or writes (R300). -/
def MEntry.touches (m : MEntry) : List Nat :=
  match m.op with
  | .old o _ _ => [o]
  | .ost o _ _ => [o]
  | .macz acc => [64 + acc]
  | .mm acc sa sb ns _ _ => (64 + acc) :: (span sa ns ++ span sb ns)
  | .accout acc sa _ => (64 + acc) :: span sa (accoutSlots m.mp1)
  | .accld acc sa => (64 + acc) :: span sa 4
  | .accadd acc sa _ => (64 + acc) :: span sa 4
  | .transp sa sb _ => [sa, sb]

/-- The slots and banks whose contents an entry reads (R303, R305 to R307). -/
def MEntry.reads (m : MEntry) : List Nat :=
  match m.op with
  | .old _ _ _ => []
  | .ost o _ _ => [o]
  | .macz _ => []
  | .mm acc sa sb ns _ _ => (64 + acc) :: (span sa ns ++ span sb ns)
  | .accout acc _ _ => [64 + acc]
  | .accld _ sa => span sa 4
  | .accadd acc sa _ => (64 + acc) :: span sa 4
  | .transp sa _ _ => [sa]

/-- Whether the entry at the end of a list of earlier ones may start (R300): no earlier entry of its path is unfinished,
and none that shares a slot or bank with it. -/
def MEntry.free (before : List MEntry) (m : MEntry) : Bool :=
  before.all fun x => x.op.transfer != m.op.transfer && x.touches.all fun i => !m.touches.contains i

end Sys2Proof.Machine
end

