-- ==== Sys2Proof/Machine/Clock.lean ====
section
/-! DEFINITION. Cycles (R29, R30, R311 to R314): a core's effective limit, the weight of a cycle, freeze cycles, and the
passing of a cycle for every core. -/

namespace Sys2Proof.Machine

/-- The effective limit L of a core (R313). -/
def Core.effective (k : Core) : Nat :=
  if k.limit = 0 then k.ceiling.toNat else Nat.max 128 (Nat.min k.limit.toNat k.ceiling.toNat)

/-- The weight per cycle of a core's busy matrix paths (R311). -/
def Core.pathWeight (k : Core) : Nat := k.mq.foldl (fun n m => if m.started ∧ 0 < m.due then n + m.op.weight else n) 0

/-- Whether a cycle in which the core would issue slots of weight `w` is a freeze cycle (R312). -/
def Core.freezes (k : Core) (w : Nat) : Bool :=
  decide (k.effective < w + k.pathWeight + k.recent.foldl (· + ·) 0)

/-- The core with the current cycle frozen: `frzcnt` counts it (R312). -/
def Core.freeze (k : Core) : Core := { k with frzcnt := k.frzcnt + 1, frozen := true, issued := true }

/-- The weight of a vertical FIFO entry moved (R311). -/
def entryWeight : Nat := 3

/-- The core with slots of weight `w` issued in the current cycle. -/
def Core.spend (k : Core) (w : Nat) : Core := { k with spent := k.spent + w, issued := true }

/-- The end of a core's cycle: its weight enters the window, and its paths have worked a cycle unless it was frozen. -/
def Core.tick (k : Core) : Core :=
  let w := if k.frozen then 0 else k.spent + k.pathWeight
  { k with
    recent := (w :: k.recent).take 63
    mq := if k.frozen then k.mq else k.mq.map fun m => if m.started then { m with due := m.due - 1 } else m
    spent := 0, issued := false, frozen := false }

/-- Whether a core does anything by itself as cycles pass. -/
def Core.busy (k : Core) : Bool := k.issued || k.freezes 0 || k.mq.any fun m => m.started && decide (0 < m.due)

/-- A context of a core whose present cycle is frozen: results due from now on become usable a cycle later (R312). -/
def Ctx.delay (c : Ctx) (cycle : Nat) : Ctx :=
  { c with due := c.due.map fun x => if cycle ≤ x.2 then (x.1, x.2 + 1) else x }

/-- A core's present cycle frozen (R312). -/
def Device.freezeCore (d : Device) (core : Nat) : Device :=
  let late (x : Device) (i : Nat) : Device :=
    if (x.ctx (4 * core + i)).due.isEmpty then x else x.updCtx (4 * core + i) fun c => c.delay d.cycle
  [0, 1, 2, 3].foldl late (d.updCore core Core.freeze)

/-- The cores that have issued nothing in the cycle and that it freezes all the same (R312). -/
def Device.freezing (d : Device) : List Nat :=
  (d.cores.filter fun e => !e.2.issued && e.2.freezes 0).map (·.1)

/-! ## Scratchpad bytes written (R73, R76), and segments that drain (R62) -/

/-- A core with scratchpad bytes written; a write to an unzeroed page finds it zero already (R73). -/
def Core.spWrite (k : Core) (off : Nat) : List Byte → Core
  | [] => k
  | b :: r => ({ k with scratch := mput 0 k.scratch off b }).spWrite (off + 1) r

/-- Scratchpad bytes written to a core, and in protected mode to its pair's other core (R76). -/
def Device.spStore (d : Device) (prot : Bool) (core off : Nat) (bs : List Byte) : Device :=
  let d1 := d.updCore core fun k => k.spWrite off bs
  if prot then d1.updCore (core + 2) fun k => k.spWrite off bs else d1

/-- The scratchpad stores of a closed segment take effect, in program order (R62). -/
def Device.drainOps (d : Device) : List HeldOp → Device
  | [] => d
  | .sp core off bs :: r => (d.spStore true core off bs).drainOps r
  | .mem _ _ :: r => d.drainOps r

/-- The rewind episode of context `a`'s pair over (R405): its follower has committed the `SEGE` bundle. -/
def Device.episodeOver (d : Device) (a : Nat) : Device :=
  match d.holder (coreOf a) with
  | some b => d.updBinding b fun k =>
      { k with rewinding := if (d.ctx a).segOpen && (d.ctx a).seg.replay.isSome then k.rewinding
                             else k.rewinding.filter (· != a) }
  | none => d

/-- The closed segments of context `a` whose follower has committed by cycle `now` drain (R62). -/
def Device.drainDue (d : Device) (now a : Nat) : Device :=
  let c := d.ctx a
  let due := c.drains.filter fun x => decide (x.1 ≤ now)
  if due.isEmpty then d
  else
    let d1 := d.updCtx a fun c => { c with drains := c.drains.filter fun x => !decide (x.1 ≤ now) }
    (d1.drainOps (due.flatMap (·.2))).episodeOver a

/-- Every closed segment whose follower has committed drains. -/
def Device.drainAll (d : Device) : Device :=
  (d.ctxs.filter fun e => !e.2.drains.isEmpty).foldl (fun x e => x.drainDue x.cycle e.1) d

/-! ## The cycle of every core -/

/-- Whether every context of a binding's group is BLOCKED or VACANT, and none of its cores has issued in the cycle (R60). -/
def Device.stuck (d : Device) (k : Binding) : Bool :=
  k.agents.all (fun a => match (d.ctx a).run with
    | .blocked _ => true
    | .vacant => decide ((d.ctx a).vacantAt ≤ d.cycle)
    | _ => false) &&
    k.cores.all fun n => !(d.core n).issued

/-- The bindings after `n` cycles in which no context changes its state: the cycles for which each has been stuck (R60). -/
def Device.countStuck (d : Device) (n : Nat) : Device :=
  let count (k : Binding) : Binding := { k with stuck := if k.running ∧ d.stuck k then k.stuck + n else 0 }
  d.updTab fun t => { t with bindings := t.bindings.map fun e => (e.1, count e.2) }

/-- The routine libraries being installed after a cycle (R310): each upper core whose matrix queue is empty takes them. -/
def Device.takeLibraries (d : Device) : List LibInstall :=
  d.dice.installs.map fun x => { x with cores := x.cores.filter fun n => !(d.core n).mq.isEmpty }

/-- A library that every upper core of its group has taken is the installed one, and the measurement log is extended by it
(R310, R365). -/
def Dice.install (c : Dice) (x : LibInstall) : Dice :=
  { c with libVer := x.ver, libDig := some x.dig, log := c.log ++ [x.dig] }

/-- Routine libraries installed as far as the matrix queues let them (R310). -/
def Device.installLibraries (d : Device) : Device :=
  if d.dice.installs.isEmpty then d
  else
    let xs := d.takeLibraries
    let dice := (xs.filter fun x => x.cores.isEmpty).foldl Dice.install d.dice
    { d with dice := { dice with installs := xs.filter fun x => !x.cores.isEmpty } }

/-- One cycle passed. -/
def Device.tick (d : Device) : Device :=
  let d1 := (d.freezing.foldl Device.freezeCore d).countStuck 1
  let d2 : Device := { d1 with cycle := d1.cycle + 1, cores := d1.cores.map fun e => (e.1, e.2.tick) }
  d2.drainAll.installLibraries

/-- A core after `n` cycles in which it does nothing. -/
def Core.rest (k : Core) (n : Nat) : Core :=
  if k.recent.all (· == 0) then k else { k with recent := (List.replicate (Nat.min n 63) 0 ++ k.recent).take 63 }

/-- `n` cycles passed, cycle by cycle while a core is busy. -/
def Device.pass (d : Device) : Nat → Device
  | 0 => d
  | n + 1 =>
    if (d.cores.any fun e => e.2.busy) || (d.ctxs.any fun e => !e.2.drains.isEmpty) || !d.dice.installs.isEmpty then
      d.tick.pass n
    else
      let d1 := d.countStuck (n + 1)
      { d1 with cycle := d1.cycle + (n + 1), cores := d1.cores.map fun e => (e.1, e.2.rest (n + 1)) }

/-- `calpos` at a cycle (R104, R105). -/
def calposAt (cycle : Nat) : Word := word (cycle / 288 % 2 ^ 55 * 2 ^ 9 + cycle % 18 * 16 + cycle % 288 / 18)

/-! ## Rotation of the tile registers (R56) -/

/-- The registers rotated once, `nt0` taking the tile. -/
def Regs.rotate (r : Regs) (tile : Word) : Regs := { r with nt3 := r.nt2, nt2 := r.nt1, nt1 := r.nt0, nt0 := tile }

/-- A context with the oldest pending rotation made; the recorded entry of an open segment rotates with it. -/
def Ctx.rotate (c : Ctx) : Ctx :=
  match c.ntDue with
  | [] => c
  | (_, tile) :: r =>
    let seg : Segment := if c.segOpen then { c.seg with entry := c.seg.entry.rotate tile } else c.seg
    { c with ntDue := r, regs := c.regs.rotate tile, seg := seg }

/-- A context with the first `n` pending rotations made. -/
def Ctx.rotations (c : Ctx) : Nat → Ctx
  | 0 => c
  | n + 1 => c.rotate.rotations n

/-- A context with the rotations that are due by a cycle made (R56). -/
def Ctx.rotateDue (c : Ctx) (cycle : Nat) : Ctx := c.rotations (c.ntDue.filter fun x => decide (x.1 ≤ cycle)).length

/-- The rotations of context `a` that are due by the present cycle made (R56). -/
def Device.rotateDue (d : Device) (a : Nat) : Device :=
  if (d.ctx a).ntDue.any fun x => decide (x.1 ≤ d.cycle) then d.updCtx a fun c => c.rotateDue d.cycle else d

/-- A context with every pending rotation made. -/
def Ctx.rotateAll (c : Ctx) : Ctx := c.rotations c.ntDue.length

end Sys2Proof.Machine
end

