-- ==== Sys2Proof/Machine/Crypto.lean ====
section
/-! DEFINITION. SHA-384 (FIPS 180-4), HMAC-SHA-384 (RFC 2104) and AES-256-GCM (FIPS 197, SP 800-38D), which R318, R324
and R365 name: the standards fix every bit, so the engines' digests, ciphertexts and tags are computed. -/

namespace Sys2Proof.Machine

/-! ## SHA-384 -/

/-- The round constants of SHA-512 and SHA-384. -/
def shaK : List Word :=
  [0x428a2f98d728ae22, 0x7137449123ef65cd, 0xb5c0fbcfec4d3b2f, 0xe9b5dba58189dbbc] ++
  [0x3956c25bf348b538, 0x59f111f1b605d019, 0x923f82a4af194f9b, 0xab1c5ed5da6d8118] ++
  [0xd807aa98a3030242, 0x12835b0145706fbe, 0x243185be4ee4b28c, 0x550c7dc3d5ffb4e2] ++
  [0x72be5d74f27b896f, 0x80deb1fe3b1696b1, 0x9bdc06a725c71235, 0xc19bf174cf692694] ++
  [0xe49b69c19ef14ad2, 0xefbe4786384f25e3, 0x0fc19dc68b8cd5b5, 0x240ca1cc77ac9c65] ++
  [0x2de92c6f592b0275, 0x4a7484aa6ea6e483, 0x5cb0a9dcbd41fbd4, 0x76f988da831153b5] ++
  [0x983e5152ee66dfab, 0xa831c66d2db43210, 0xb00327c898fb213f, 0xbf597fc7beef0ee4] ++
  [0xc6e00bf33da88fc2, 0xd5a79147930aa725, 0x06ca6351e003826f, 0x142929670a0e6e70] ++
  [0x27b70a8546d22ffc, 0x2e1b21385c26c926, 0x4d2c6dfc5ac42aed, 0x53380d139d95b3df] ++
  [0x650a73548baf63de, 0x766a0abb3c77b2a8, 0x81c2c92e47edaee6, 0x92722c851482353b] ++
  [0xa2bfe8a14cf10364, 0xa81a664bbc423001, 0xc24b8b70d0f89791, 0xc76c51a30654be30] ++
  [0xd192e819d6ef5218, 0xd69906245565a910, 0xf40e35855771202a, 0x106aa07032bbd1b8] ++
  [0x19a4c116b8d2d0c8, 0x1e376c085141ab53, 0x2748774cdf8eeb99, 0x34b0bcb5e19b48a8] ++
  [0x391c0cb3c5c95a63, 0x4ed8aa4ae3418acb, 0x5b9cca4f7763e373, 0x682e6ff3d6b2b8a3] ++
  [0x748f82ee5defb2fc, 0x78a5636f43172f60, 0x84c87814a1f0ab72, 0x8cc702081a6439ec] ++
  [0x90befffa23631e28, 0xa4506cebde82bde9, 0xbef9a3f7b2c67915, 0xc67178f2e372532b] ++
  [0xca273eceea26619c, 0xd186b8c721c0c207, 0xeada7dd6cde0eb1e, 0xf57d4f7fee6ed178] ++
  [0x06f067aa72176fba, 0x0a637dc5a2c898a6, 0x113f9804bef90dae, 0x1b710b35131c471b] ++
  [0x28db77f523047d84, 0x32caab7b40c72493, 0x3c9ebe0a15c9bebc, 0x431d67c49c100d4c] ++
  [0x4cc5d4becb3e42b6, 0x597f299cfc657e2a, 0x5fcb6fab3ad6faec, 0x6c44198c4a475817]

/-- The initial hash value of SHA-384. -/
def shaH0 : List Word :=
  [0xcbbb9d5dc1059ed8, 0x629a292a367cd507, 0x9159015a3070dd17, 0x152fecd8f70e5939] ++
  [0x67332667ffc00b31, 0x8eb44a8768581511, 0xdb0c2e0d64f98fa7, 0x47b5481dbefa4fa4]

/-- The state of one SHA round. -/
structure ShaVars where
  a : Word
  b : Word
  c : Word
  d : Word
  e : Word
  f : Word
  g : Word
  h : Word
  deriving DecidableEq, Repr

/-- The big-endian doublewords of a byte list. -/
def shaWords (n : Nat) (bs : List Byte) : List Word :=
  match n with
  | 0 => []
  | n + 1 => word (ofBytesBE (bs.take 8)) :: shaWords n (bs.drop 8)

/-- The message schedule: `w` holds the words so far, newest first. -/
def shaSchedule (n : Nat) (w : List Word) : List Word :=
  match n with
  | 0 => w
  | n + 1 =>
    let w2 := w.getD 1 0
    let w7 := w.getD 6 0
    let w15 := w.getD 14 0
    let w16 := w.getD 15 0
    let s0 := w15.rotateRight 1 ^^^ w15.rotateRight 8 ^^^ (w15 >>> 7)
    let s1 := w2.rotateRight 19 ^^^ w2.rotateRight 61 ^^^ (w2 >>> 6)
    shaSchedule n ((w16 + s0 + w7 + s1) :: w)

/-- One round. -/
def shaRound (v : ShaVars) (kw : Word × Word) : ShaVars :=
  let s1 := v.e.rotateRight 14 ^^^ v.e.rotateRight 18 ^^^ v.e.rotateRight 41
  let ch := (v.e &&& v.f) ^^^ (~~~v.e &&& v.g)
  let t1 := v.h + s1 + ch + kw.1 + kw.2
  let s0 := v.a.rotateRight 28 ^^^ v.a.rotateRight 34 ^^^ v.a.rotateRight 39
  let maj := (v.a &&& v.b) ^^^ (v.a &&& v.c) ^^^ (v.b &&& v.c)
  ⟨t1 + (s0 + maj), v.a, v.b, v.c, v.d + t1, v.e, v.f, v.g⟩

/-- One 128-byte block added to the hash value. -/
def shaBlock (h : ShaVars) (blk : List Byte) : ShaVars :=
  let w := (shaSchedule 64 (shaWords 16 blk).reverse).reverse
  let v := (shaK.zip w).foldl shaRound h
  ⟨h.a + v.a, h.b + v.b, h.c + v.c, h.d + v.d, h.e + v.e, h.f + v.f, h.g + v.g, h.h + v.h⟩

/-- The blocks of a padded message. -/
def shaBlocks (n : Nat) (h : ShaVars) (bs : List Byte) : ShaVars :=
  match n with
  | 0 => h
  | n + 1 => shaBlocks n (shaBlock h (bs.take 128)) (bs.drop 128)

/-- SHA-384 of a message: 48 bytes in the order in which the hash produces them (R2). -/
def sha384 (m : List Byte) : List Byte :=
  let n := m.length
  let pad := (239 - n % 128) % 128
  let p := m ++ [0x80] ++ List.replicate pad 0 ++ toBytesBE (8 * n) 16
  let i := fun k => shaH0.getD k 0
  let h := shaBlocks (p.length / 128) ⟨i 0, i 1, i 2, i 3, i 4, i 5, i 6, i 7⟩ p
  [h.a, h.b, h.c, h.d, h.e, h.f].flatMap fun w => toBytesBE w.toNat 8

/-- HMAC-SHA-384 of a message under a key (R365). -/
def hmac384 (key m : List Byte) : List Byte :=
  let k0 := if key.length > 128 then sha384 key else key
  let k := k0 ++ List.replicate (128 - k0.length) 0
  sha384 (k.map (· ^^^ 0x5c) ++ sha384 (k.map (· ^^^ 0x36) ++ m))

/-! ## AES-256 -/

/-- The S-box of AES. -/
def aesBox : List Byte :=
  [0x63, 0x7c, 0x77, 0x7b, 0xf2, 0x6b, 0x6f, 0xc5, 0x30, 0x01, 0x67, 0x2b, 0xfe, 0xd7, 0xab, 0x76] ++
  [0xca, 0x82, 0xc9, 0x7d, 0xfa, 0x59, 0x47, 0xf0, 0xad, 0xd4, 0xa2, 0xaf, 0x9c, 0xa4, 0x72, 0xc0] ++
  [0xb7, 0xfd, 0x93, 0x26, 0x36, 0x3f, 0xf7, 0xcc, 0x34, 0xa5, 0xe5, 0xf1, 0x71, 0xd8, 0x31, 0x15] ++
  [0x04, 0xc7, 0x23, 0xc3, 0x18, 0x96, 0x05, 0x9a, 0x07, 0x12, 0x80, 0xe2, 0xeb, 0x27, 0xb2, 0x75] ++
  [0x09, 0x83, 0x2c, 0x1a, 0x1b, 0x6e, 0x5a, 0xa0, 0x52, 0x3b, 0xd6, 0xb3, 0x29, 0xe3, 0x2f, 0x84] ++
  [0x53, 0xd1, 0x00, 0xed, 0x20, 0xfc, 0xb1, 0x5b, 0x6a, 0xcb, 0xbe, 0x39, 0x4a, 0x4c, 0x58, 0xcf] ++
  [0xd0, 0xef, 0xaa, 0xfb, 0x43, 0x4d, 0x33, 0x85, 0x45, 0xf9, 0x02, 0x7f, 0x50, 0x3c, 0x9f, 0xa8] ++
  [0x51, 0xa3, 0x40, 0x8f, 0x92, 0x9d, 0x38, 0xf5, 0xbc, 0xb6, 0xda, 0x21, 0x10, 0xff, 0xf3, 0xd2] ++
  [0xcd, 0x0c, 0x13, 0xec, 0x5f, 0x97, 0x44, 0x17, 0xc4, 0xa7, 0x7e, 0x3d, 0x64, 0x5d, 0x19, 0x73] ++
  [0x60, 0x81, 0x4f, 0xdc, 0x22, 0x2a, 0x90, 0x88, 0x46, 0xee, 0xb8, 0x14, 0xde, 0x5e, 0x0b, 0xdb] ++
  [0xe0, 0x32, 0x3a, 0x0a, 0x49, 0x06, 0x24, 0x5c, 0xc2, 0xd3, 0xac, 0x62, 0x91, 0x95, 0xe4, 0x79] ++
  [0xe7, 0xc8, 0x37, 0x6d, 0x8d, 0xd5, 0x4e, 0xa9, 0x6c, 0x56, 0xf4, 0xea, 0x65, 0x7a, 0xae, 0x08] ++
  [0xba, 0x78, 0x25, 0x2e, 0x1c, 0xa6, 0xb4, 0xc6, 0xe8, 0xdd, 0x74, 0x1f, 0x4b, 0xbd, 0x8b, 0x8a] ++
  [0x70, 0x3e, 0xb5, 0x66, 0x48, 0x03, 0xf6, 0x0e, 0x61, 0x35, 0x57, 0xb9, 0x86, 0xc1, 0x1d, 0x9e] ++
  [0xe1, 0xf8, 0x98, 0x11, 0x69, 0xd9, 0x8e, 0x94, 0x9b, 0x1e, 0x87, 0xe9, 0xce, 0x55, 0x28, 0xdf] ++
  [0x8c, 0xa1, 0x89, 0x0d, 0xbf, 0xe6, 0x42, 0x68, 0x41, 0x99, 0x2d, 0x0f, 0xb0, 0x54, 0xbb, 0x16]

/-- The substitution of one byte. -/
def aesSub (b : Byte) : Byte := aesBox.getD b.toNat 0

/-- Multiplication by x in the field of AES. -/
def xtime (b : Byte) : Byte := (b <<< 1) ^^^ (if b.getLsbD 7 then 0x1b else 0)

/-- The key schedule: words of four bytes, newest first; `i` is the index of the next word. -/
def aesExpand (n i : Nat) (rcon : Byte) (w : List (List Byte)) : List (List Byte) :=
  match n with
  | 0 => w
  | n + 1 =>
    let p := w.getD 0 []
    let q := w.getD 7 []
    let t :=
      if i % 8 = 0 then
        let r := ((p.drop 1) ++ (p.take 1)).map aesSub
        match r with
        | x :: xs => (x ^^^ rcon) :: xs
        | [] => []
      else if i % 8 = 4 then p.map aesSub
      else p
    aesExpand n (i + 1) (if i % 8 = 0 then xtime rcon else rcon) (List.zipWith (· ^^^ ·) q t :: w)

/-- The `n` words of four bytes of a byte list. -/
def fourBytes (n : Nat) (bs : List Byte) : List (List Byte) :=
  match n with
  | 0 => []
  | n + 1 => bs.take 4 :: fourBytes n (bs.drop 4)

/-- The fifteen round keys of AES-256, 16 bytes each. -/
def aesKeys (key : List Byte) : List (List Byte) :=
  let w := (aesExpand 52 8 1 (fourBytes 8 key).reverse).reverse
  (List.range 15).map fun r => ((w.drop (4 * r)).take 4).flatten

/-- ShiftRows on 16 bytes in column order. -/
def aesShift (s : List Byte) : List Byte :=
  (List.range 16).map fun i => s.getD ((i + 4 * (i % 4)) % 16) 0

/-- MixColumns on one column. -/
def aesMix (c : List Byte) : List Byte :=
  let a := c.getD 0 0
  let b := c.getD 1 0
  let e := c.getD 2 0
  let f := c.getD 3 0
  [xtime a ^^^ xtime b ^^^ b ^^^ e ^^^ f, a ^^^ xtime b ^^^ xtime e ^^^ e ^^^ f,
    a ^^^ b ^^^ xtime e ^^^ xtime f ^^^ f, xtime a ^^^ a ^^^ b ^^^ e ^^^ xtime f]

/-- The rounds after the first key addition. -/
def aesRounds (s : List Byte) : List (List Byte) → List Byte
  | [] => s
  | [k] => List.zipWith (· ^^^ ·) (aesShift (s.map aesSub)) k
  | k :: ks => aesRounds (List.zipWith (· ^^^ ·) ((fourBytes 4 (aesShift (s.map aesSub))).flatMap aesMix) k) ks

/-- AES-256 of one 16-byte block under expanded keys. -/
def aesBlock (keys : List (List Byte)) (s : List Byte) : List Byte :=
  aesRounds (List.zipWith (· ^^^ ·) s (keys.getD 0 [])) (keys.drop 1)

/-- The inverse substitution of one byte. -/
def aesUnsub (b : Byte) : Byte := BitVec.ofNat 8 ((aesBox.findIdx? (· == b)).getD 0)

/-- The inverse of ShiftRows. -/
def aesUnshift (s : List Byte) : List Byte :=
  (List.range 16).map fun i => s.getD ((i + 16 - 4 * (i % 4)) % 16) 0

/-- The inverse of MixColumns on one column: the third power of MixColumns (FIPS 197, 4.2.3: its polynomial has order 4). -/
def aesUnmix (c : List Byte) : List Byte := aesMix (aesMix (aesMix c))

/-- The rounds undone, the round keys given last first, down to the first key. -/
def aesUnrounds (s : List Byte) : List (List Byte) → List Byte
  | [] => s
  | [k] => List.zipWith (· ^^^ ·) ((aesUnshift s).map aesUnsub) k
  | k :: ks =>
    aesUnrounds ((fourBytes 4 (List.zipWith (· ^^^ ·) ((aesUnshift s).map aesUnsub) k)).flatMap aesUnmix) ks

/-- The inverse of AES-256 on one 16-byte block under expanded keys. -/
def aesUnblock (keys : List (List Byte)) (s : List Byte) : List Byte :=
  let r := keys.reverse
  aesUnrounds (List.zipWith (· ^^^ ·) s (r.getD 0 [])) (r.drop 1)

/-! ## XTS (IEEE 1619) -/

/-- A tweak's 16 bytes multiplied by x in the field of XTS. -/
def xtsDouble (t : List Byte) : List Byte :=
  let n := ofBytes t
  let m := 2 * n % 2 ^ 128
  toBytes (if 2 ^ 127 ≤ n then m ^^^ 0x87 else m) 16

/-- The `n` blocks of a data unit under a block cipher, with the tweak of the first. -/
def xtsBlocks (cipher : List Byte → List Byte) : Nat → List Byte → List Byte → List Byte
  | 0, _, _ => []
  | n + 1, t, bs =>
    List.zipWith (· ^^^ ·) (cipher (List.zipWith (· ^^^ ·) (bs.take 16) t)) t ++
      xtsBlocks cipher n (xtsDouble t) (bs.drop 16)

/-- AES-XTS-256 of a 64-byte data unit with a data key, a tweak key and the unit's number (R84); `enc` to encrypt. -/
def xtsLine (enc : Bool) (key tweakKey : List Byte) (unit : Nat) (bs : List Byte) : List Byte :=
  let ks := aesKeys key
  xtsBlocks (if enc then aesBlock ks else aesUnblock ks) 4 (aesBlock (aesKeys tweakKey) (toBytes unit 16)) bs

/-! ## GCM -/

/-- One step of the GF(2^128) product of SP 800-38D: `z` the sum, `v` the shifted operand. -/
def gmulStep (x : BitVec 128) (zv : BitVec 128 × BitVec 128) (i : Nat) : BitVec 128 × BitVec 128 :=
  let z := if x.getLsbD (127 - i) then zv.1 ^^^ zv.2 else zv.1
  (z, (zv.2 >>> 1) ^^^ (if zv.2.getLsbD 0 then 0xe1000000000000000000000000000000 else 0))

/-- The GF(2^128) product of SP 800-38D. -/
def gmul (x y : BitVec 128) : BitVec 128 := ((List.range 128).foldl (gmulStep x) (0, y)).1

/-- The 128-bit value of 16 bytes, first byte highest, short lists padded with zero at the end. -/
def block128 (bs : List Byte) : BitVec 128 := BitVec.ofNat 128 (ofBytesBE (bs ++ List.replicate (16 - bs.length) 0))

/-- GHASH over the 16-byte blocks of a byte list, the last one padded with zeros. -/
def ghash (n : Nat) (h y : BitVec 128) (bs : List Byte) : BitVec 128 :=
  match n with
  | 0 => y
  | n + 1 => ghash n h (gmul (y ^^^ block128 (bs.take 16)) h) (bs.drop 16)

/-- The blocks of `n` bytes. -/
def gblocks (n : Nat) : Nat := (n + 15) / 16

/-- The counter-mode stream of `n` blocks from counter `c` with the 12-byte nonce `iv`. -/
def ctrStream (n c : Nat) (keys : List (List Byte)) (iv : List Byte) : List Byte :=
  match n with
  | 0 => []
  | n + 1 => aesBlock keys (iv ++ toBytesBE c 4) ++ ctrStream n (c + 1) keys iv

/-- Counter-mode encryption, and decryption, of a byte list. -/
def gcmCrypt (keys : List (List Byte)) (iv m : List Byte) : List Byte :=
  List.zipWith (· ^^^ ·) m (ctrStream (gblocks m.length) 2 keys iv)

/-- The GCM tag over additional data and ciphertext. -/
def gcmTag (keys : List (List Byte)) (iv aad ct : List Byte) : List Byte :=
  let h := block128 (aesBlock keys (List.replicate 16 0))
  let y := ghash (gblocks ct.length) h (ghash (gblocks aad.length) h 0 aad) ct
  let y := gmul (y ^^^ BitVec.ofNat 128 (8 * aad.length * 2 ^ 64 + 8 * ct.length)) h
  List.zipWith (· ^^^ ·) (toBytesBE y.toNat 16) (aesBlock keys (iv ++ toBytesBE 1 4))

/-- AES-256-GCM sealing under a 32-byte key: the ciphertext and the 16-byte tag (R318, R324). -/
def gcmSeal (key iv aad m : List Byte) : List Byte × List Byte :=
  let ks := aesKeys key
  let ct := gcmCrypt ks iv m
  (ct, gcmTag ks iv aad ct)

/-- AES-256-GCM opening: the plaintext, when the tag matches (R318, R327). -/
def gcmOpen (key iv aad ct tag : List Byte) : Option (List Byte) :=
  let ks := aesKeys key
  if gcmTag ks iv aad ct = tag then some (gcmCrypt ks iv ct) else none

end Sys2Proof.Machine
end

