-- ==== Sys2Proof/Config.lean ====
section
/-! DEFINITION. What an implementation fixes and what the manual leaves open: free values are constants without a
body, applied to a counter of the state or to the operands they depend on (log entries 6 to 8). -/

namespace Sys2Proof

/-- A free value of 64 bits, by the state's counter of free values. -/
opaque Config.freeWord (n : Nat) : Word

/-- A free choice, by the state's counter of free values and the thing chosen. -/
opaque Config.freeBool (n i : Nat) : Bool

/-- A free number, by the state's counter of free values; every use states its bound. -/
opaque Config.freeNat (n : Nat) : Nat

/-- Free bits of a whole vector register, by the state's counter of free values. -/
opaque Config.freeVec (n : Nat) : Vec

/-- The contents of a line of a peer's memory as the peer returns them, by the state's counter of free values and the use
made of it (R81). -/
opaque Config.freeLine (n i : Nat) : BitVec 512

/-- Which of the two neighbouring values a faithfully rounded function (R276) returns: `fn` names the function, `x`
the operand's code and `f` the format. -/
opaque Config.faithfulUp (fn : Nat) (x : Nat) (f : Nat) : Bool

/-- The tweak key that the memory controller pairs with a 256-bit key for AES-XTS-256 (R84), which the manual does not
give. -/
opaque Config.tweakKey (key : BitVec 256) : BitVec 256

/-- Which of the entries held lies in a line of the version heap, by the number of the line in physical memory (R150,
R447). -/
opaque Config.heapEntry (line : Nat) : Nat

/-- Whether an ECDSA signature over the 384-bit Brainpool curve verifies (R310, R367). -/
opaque Config.sigOk (message : List Byte) (sig : List Byte) : Bool

/-- The signature that a private key makes over a message (R344, R366). -/
opaque Config.sign (secret : List Byte) (message : List Byte) : List Byte

/-- The fused minimum version of a firmware function (R367). -/
opaque Config.fusedMinimum (fn : Nat) : Nat

/-- The fused device secret UDS (R365), 48 bytes unreadable after layer 0. -/
opaque Config.uds : List Byte

/-- The digest of the boot ROM (R366). -/
opaque Config.romDigest : List Byte

/-- The silicon revision that `devid` reports (R350). -/
opaque Config.revision : BitVec 32

/-- The public key of a private key over the 384-bit Brainpool curve (R365). -/
opaque Config.publicKey (secret : List Byte) : List Byte

/-- The bytes of a certificate, without its signature, that names a key label's public key (R365). -/
opaque Config.certificateBody (label key : List Byte) : List Byte

/-- Finuri's factory certificate of the DeviceID key (R365). -/
opaque Config.factoryCertificate : List Byte

/-- The digests of what the factory installed: of the image in slot `n mod 2` of function `n / 2`, of the routine library
(16), and of the fuse configuration (17) (R366). -/
opaque Config.factoryDigest (n : Nat) : List Byte

end Sys2Proof
end

