-- ==== Sys2Proof/Machine/Flags.lean ====
section
/-! DEFINITION. Number formats, rounding and flags (R151 to R172): every format as exact values, one rounding, and the
flags it raises. Exact values are integers times powers of two, so nothing is rounded before the rule rounds it. -/

namespace Sys2Proof.Machine

/-! ## Flags (R162, R163): `fcsr` bits 12:7 as six bits -/

abbrev Flags := BitVec 6
abbrev fNx : Flags := 1
abbrev fUf : Flags := 2
abbrev fOf : Flags := 4
abbrev fDz : Flags := 8
abbrev fNv : Flags := 16
abbrev fSf : Flags := 32

/-- The rounding mode of `fcsr` (R162). -/
def rmOf (fcsr : Word) : Nat := bits fcsr 2 0

/-- The SAT bit of `fcsr`. -/
def satOf (fcsr : Word) : Bool := fcsr.getLsbD 4

/-- The generator's state in `fcsr` (R165). -/
def seedOf (fcsr : Word) : BitVec 32 := fcsr.extractLsb' 32 32

/-- `raise_flags`: sticky flags bit-ored into `fcsr`. -/
def raiseFlags (fcsr : Word) (f : Flags) : Word := fcsr ||| (f.zeroExtend 64 <<< 7)

/-- An explicit write of `fcsr` (R162): reserved bits read zero, and `rm` 5 to 7 leaves `rm` unchanged. -/
def fcsrWrite (old v : Word) : Word :=
  let w := v &&& 0xFFFFFFFF00001F97
  if bits v 2 0 ≤ 4 then w else setBits w 2 0 (bits old 2 0)

/-- One draw of the stochastic generator (R165). -/
def draw (s0 : BitVec 32) : BitVec 32 :=
  let s1 := s0 ^^^ (s0 <<< 13)
  let s2 := s1 ^^^ (s1 >>> 17)
  s2 ^^^ (s2 <<< 5)

/-! ## Exact values and formats (R155) -/

/-- An exact result: NaN, an infinity, or (−1)^neg × m × 2^e; zero keeps its sign. -/
inductive Val where
  | nan
  | inf (neg : Bool)
  | fin (neg : Bool) (m : Nat) (e : Int)
  deriving DecidableEq, Repr

/-- A floating-point element format (R155): field widths, bias, whether it has infinities, its canonical NaN and its
largest finite code. -/
structure Fmt where
  eb : Nat
  mb : Nat
  bias : Nat
  hasInf : Bool
  nan : Nat
  top : Nat
  deriving DecidableEq, Repr

def fp32 : Fmt := ⟨8, 23, 127, true, 0x7FC00000, 0x7F7FFFFF⟩
def bf16 : Fmt := ⟨8, 7, 127, true, 0x7FC0, 0x7F7F⟩
def fp16 : Fmt := ⟨5, 10, 15, true, 0x7E00, 0x7BFF⟩
def e4m3 : Fmt := ⟨4, 3, 7, false, 0x7F, 0x7E⟩
def e5m2 : Fmt := ⟨5, 2, 15, true, 0x7E, 0x7B⟩
def e2m1 : Fmt := ⟨2, 1, 1, false, 0, 0x7⟩

/-- The weight of a format's lowest subnormal bit, as an exponent. -/
def Fmt.qmin (f : Fmt) : Int := 1 - (f.bias : Int) - (f.mb : Int)

/-- The sign bit's weight in a code. -/
def Fmt.signBit (f : Fmt) : Nat := 2 ^ (f.eb + f.mb)

/-- The value of a code (R155). -/
def Fmt.decode (f : Fmt) (code : Nat) : Val :=
  let neg := code / f.signBit % 2 == 1
  let ex := code / 2 ^ f.mb % 2 ^ f.eb
  let m := code % 2 ^ f.mb
  if f.hasInf && ex == 2 ^ f.eb - 1 then (if m = 0 then .inf neg else .nan)
  else if !f.hasInf && f.nan != 0 && code % f.signBit == f.nan then .nan
  else if ex = 0 then .fin neg m f.qmin
  else .fin neg (m + 2 ^ f.mb) (f.qmin + (ex - 1))

/-- A code with a sign. -/
def Fmt.signed (f : Fmt) (neg : Bool) (mag : Nat) : Nat := if neg then f.signBit + mag else mag

/-- The code of an infinity, or of the canonical NaN where the format has none. -/
def Fmt.infCode (f : Fmt) (neg : Bool) : Nat :=
  if f.hasInf then f.signed neg ((2 ^ f.eb - 1) * 2 ^ f.mb) else f.nan

/-- A magnitude `n × 2^q`, with `q` at least `qmin`, as a code. -/
def Fmt.magCode (f : Fmt) (n : Nat) (q : Int) : Nat := (q - f.qmin).toNat * 2 ^ f.mb + n

/-- The integer a value scales to at exponent `e`, which must not exceed the value's own. -/
def scaleTo (m : Nat) (e e' : Int) : Nat := m * 2 ^ (e - e').toNat

/-- The exponent of the units in which a nonzero magnitude `m × 2^e` is rounded (R164). -/
def Fmt.quantum (f : Fmt) (m : Nat) (e : Int) : Int := max (Nat.log2 m + e - f.mb) f.qmin

/-- A magnitude cut at exponent `q`: the whole units and the remainder over `2^sh`. -/
def cutAt (m : Nat) (e q : Int) : Nat × Nat × Nat :=
  if q ≤ e then (scaleTo m e q, 0, 0)
  else
    let sh := (q - e).toNat
    (m / 2 ^ sh, m % 2 ^ sh, sh)

/-- Whether R164 takes the neighbour away from zero: `n` whole units, remainder `r` over `2^sh`, and the top 16 bits of
a draw for stochastic rounding (R165). -/
def roundsAway (rm : Nat) (neg : Bool) (n r sh : Nat) (g : Nat) : Bool :=
  match rm with
  | 0 => decide (2 ^ sh < 2 * r) || (decide (2 * r = 2 ^ sh) && n % 2 == 1)
  | 1 => false
  | 2 => neg
  | 3 => !neg
  | _ => decide (65536 ≤ r * 65536 / 2 ^ sh + g)

/-- The result of a rounding: its code, its flags and the generator's state after it. -/
structure Rounded where
  code : Nat
  flags : Flags := 0
  seed : BitVec 32
  deriving DecidableEq, Repr

/-- The result of an overflow (R166). -/
def overflowCode (f : Fmt) (rm : Nat) (sat neg : Bool) : Nat :=
  if sat then f.signed neg f.top
  else
    match rm with
    | 1 => f.signed neg f.top
    | 2 => if neg then f.infCode neg else f.top
    | 3 => if neg then f.signed neg f.top else f.infCode neg
    | _ => f.infCode neg

/-- `round_to(x, f, rm)` with the SAT bit (R163 to R166), drawing from `seed` when the mode is stochastic. -/
def roundTo (f : Fmt) (rm : Nat) (sat : Bool) (seed : BitVec 32) (x : Val) : Rounded :=
  match x with
  | .nan => ⟨f.nan, 0, seed⟩
  | .inf neg =>
    if f.hasInf then ⟨f.infCode neg, 0, seed⟩
    else if sat then ⟨f.signed neg f.top, fSf, seed⟩
    else ⟨f.nan, fNv, seed⟩
  | .fin neg 0 _ => ⟨f.signed neg 0, 0, seed⟩
  | .fin neg m e =>
    let q := f.quantum m e
    let (n, r, sh) := cutAt m e q
    let seed' := if rm = 4 ∧ r ≠ 0 then draw seed else seed
    let n' := if r ≠ 0 ∧ roundsAway rm neg n r sh (seed'.toNat / 65536) then n + 1 else n
    let inexact := decide (r ≠ 0)
    let code := f.magCode n' q
    if code > f.top ∧ n' ≠ 0 then
      ⟨overflowCode f rm sat neg, fOf ||| fNx ||| (if sat then fSf else 0), seed'⟩
    else
      let tiny := inexact && decide (Nat.log2 m + e < 1 - (f.bias : Int))
      ⟨f.signed neg code, (if inexact then fNx else 0) ||| (if tiny then fUf else 0), seed'⟩

/-! ## Exact arithmetic (R170, R171) -/

/-- A value's signed integer at an exponent not above its own. -/
def signedAt (neg : Bool) (m : Nat) (e e' : Int) : Int :=
  if neg then -(scaleTo m e e' : Int) else (scaleTo m e e' : Int)

/-- An integer times a power of two as a value; zero takes the sign given. -/
def ofInt (zneg : Bool) (i e : Int) : Val := if i = 0 then .fin zneg 0 0 else .fin (decide (i < 0)) i.natAbs e

/-- The exact sum with its invalid flag; an exact zero of opposite signs is −0 only when rounding down (R164). -/
def Val.add (rm : Nat) (a b : Val) : Val × Flags :=
  match a, b with
  | .nan, _ => (.nan, 0)
  | _, .nan => (.nan, 0)
  | .inf x, .inf y => if x = y then (.inf x, 0) else (.nan, fNv)
  | .inf x, _ => (.inf x, 0)
  | _, .inf y => (.inf y, 0)
  | .fin na ma ea, .fin nb mb eb =>
    let e := min ea eb
    let sum := signedAt na ma ea e + signedAt nb mb eb e
    (ofInt (if na = nb then na else rm == 2) sum e, 0)

/-- The negation of a value. -/
def Val.neg : Val → Val
  | .nan => .nan
  | .inf x => .inf (!x)
  | .fin n m e => .fin (!n) m e

/-- The exact product with its invalid flag. -/
def Val.mul (a b : Val) : Val × Flags :=
  match a, b with
  | .nan, _ => (.nan, 0)
  | _, .nan => (.nan, 0)
  | .inf x, .inf y => (.inf (x != y), 0)
  | .inf x, .fin y m _ => if m = 0 then (.nan, fNv) else (.inf (x != y), 0)
  | .fin x m _, .inf y => if m = 0 then (.nan, fNv) else (.inf (x != y), 0)
  | .fin na ma ea, .fin nb mb eb => (.fin (na != nb) (ma * mb) (ea + eb), 0)

/-- The exact product of `a` and `b` plus `c` (R170): a product 0 × ∞ is invalid whatever the addend. -/
def Val.fma (rm : Nat) (a b c : Val) : Val × Flags :=
  let (p, f1) := Val.mul a b
  let (r, f2) := Val.add rm p c
  (r, f1 ||| f2)

/-- The value scaled by a power of two. -/
def Val.scale (k : Int) : Val → Val
  | .fin n m e => .fin n m (e + k)
  | v => v

/-- A zero of either sign as +0 (R171). -/
def Val.plusZero : Val → Val
  | .fin _ 0 _ => .fin false 0 0
  | v => v

/-- A number as a value. -/
def Val.ofInt (i : Int) : Val := Machine.ofInt false i 0

/-- Whether a value is NaN. -/
def Val.isNan : Val → Bool
  | .nan => true
  | _ => false

/-- Whether a value is a zero. -/
def Val.isZero : Val → Bool
  | .fin _ 0 _ => true
  | _ => false

/-- Whether `a` is below `b`; zeros of both signs are equal, and NaN is below nothing. -/
def Val.lt (a b : Val) : Bool :=
  match a, b with
  | .nan, _ => false
  | _, .nan => false
  | .inf x, .inf y => x && !y
  | .inf x, _ => x
  | _, .inf y => !y
  | .fin na ma ea, .fin nb mb eb =>
    let e := min ea eb
    decide (signedAt na ma ea e < signedAt nb mb eb e)

/-- Whether two values are equal as numbers. -/
def Val.eq (a b : Val) : Bool := !a.isNan && !b.isNan && !Val.lt a b && !Val.lt b a

/-- Whether a value carries a minus sign. -/
def Val.isNeg : Val → Bool
  | .nan => false
  | .inf n => n
  | .fin n _ _ => n

/-- Whether `a` comes before `b` for minimum and maximum: −0 is the smaller zero (R170). -/
def Val.below (a b : Val) : Bool := Val.lt a b || (a.isZero && b.isZero && a.isNeg && !b.isNeg)

/-! ## Square root and the faithfully rounded functions (R170, R276) -/

/-- The integer square root of `n`, one bit at a time from bit `k − 1`. -/
def isqrt (n : Nat) : Nat → Nat → Nat
  | 0, r => r
  | k + 1, r =>
    let t := r + 2 ^ k
    isqrt n k (if t * t ≤ n then t else r)

/-- The integer square root of any number. -/
def natSqrt (n : Nat) : Nat := isqrt n (Nat.log2 n / 2 + 1) 0

/-- The square root of `m × 2^e` with enough bits, its last bit sticky when inexact. -/
def sqrtVal (m : Nat) (e : Int) : Val :=
  let k : Nat := 160 + (if e % 2 = 0 then 0 else 1)
  let big := m * 2 ^ k
  let e' := (e - k) / 2
  let r := natSqrt big
  if r * r = big then .fin false r e' else .fin false (2 * r + 1) (e' - 1)

/-- A faithfully rounded positive or negative result that lies strictly between two neighbours, given by a magnitude
`m × 2^e` just below it (R276): `up` chooses the neighbour away from zero. R170 says which of two neighbours is delivered,
but not what a result beyond the largest finite magnitude gives, where `rm` does not apply: it is the infinity, with `of`
and `nx` (DESIGN CHOICE, log entry 107). -/
def faithfulFrom (f : Fmt) (neg up : Bool) (m : Nat) (e : Int) : Nat × Flags :=
  let q := f.quantum m e
  let (n, _, _) := cutAt m e q
  let n' := if up then n + 1 else n
  let code := f.magCode n' q
  let tiny : Flags := if Nat.log2 m + e < 1 - (f.bias : Int) then fUf else 0
  if code > f.top then (f.infCode neg, fOf ||| fNx) else (f.signed neg code, fNx ||| tiny)

/-- Fraction bits of the fixed-point enclosures below. -/
def fixP : Nat := 512

/-- Lower and upper sums of the exponential series of `t / 2^fixP`, with `n` terms to go. -/
def expTerms (tl th : Nat) : Nat → Nat → Nat → Nat → Nat × Nat
  | 0, _, _, _ => (0, 2)
  | n + 1, i, pl, ph =>
    let r := expTerms tl th n (i + 1) (pl * tl / 2 ^ fixP / i) (ph * th / 2 ^ fixP / i + 1)
    (pl + r.1, ph + r.2)

/-- An interval squared `n` times in fixed point. -/
def squares : Nat → Nat × Nat → Nat × Nat
  | 0, p => p
  | n + 1, p => squares n (p.1 * p.1 / 2 ^ fixP, p.2 * p.2 / 2 ^ fixP + 1)

/-- Bounds of exp(m × 2^e) × 2^fixP for a magnitude below 256. -/
def expBounds (m : Nat) (e : Int) : Nat × Nat :=
  let s : Int := fixP - 16 + e
  let tl := if 0 ≤ s then m * 2 ^ s.toNat else m / 2 ^ (-s).toNat
  let th := if 0 ≤ s then tl else tl + 1
  squares 16 (expTerms tl th 70 1 (2 ^ fixP) (2 ^ fixP))

/-- Lower and upper sums of 2 × artanh(z / 2^fixP), with `n` terms to go; `p` is the running odd power of z. -/
def artanhTerms (z2l z2h : Nat) : Nat → Nat → Nat → Nat → Nat × Nat
  | 0, _, _, _ => (0, 4)
  | n + 1, i, pl, ph =>
    let r := artanhTerms z2l z2h n (i + 2) (pl * z2l / 2 ^ fixP) (ph * z2h / 2 ^ fixP + 1)
    (2 * pl / i + r.1, 2 * ph / i + 1 + r.2)

/-- Bounds of ln(a / b) × 2^fixP for b ≤ a ≤ 2b. -/
def lnRatio (a b : Nat) : Nat × Nat :=
  let zl := (a - b) * 2 ^ fixP / (a + b)
  let zh := zl + 1
  artanhTerms (zl * zl / 2 ^ fixP) (zh * zh / 2 ^ fixP + 1) 165 1 zl zh

/-- Bounds of ln(m × 2^e) × 2^fixP as integers. -/
def lnBounds (m : Nat) (e : Int) : Int × Int :=
  let l := Nat.log2 m
  let k : Int := e + l
  let (fl, fh) := lnRatio m (2 ^ l)
  let (tl, th) := lnRatio 2 1
  if 0 ≤ k then (k * tl + fl, k * th + fh) else (k * th + fl, k * tl + fh)

/-- The functions of R276 that are rounded faithfully. -/
inductive Faithful where
  | rcp | rsq | exp | log | tanh
  deriving DecidableEq, Repr

/-- A number for each faithful function, which names it to `Config.faithfulUp`. -/
def Faithful.num : Faithful → Nat
  | .rcp => 0 | .rsq => 1 | .exp => 2 | .log => 3 | .tanh => 4

/-- The faithfully rounded function of a nonzero finite operand (R276); `up` is the device's choice. The magnitude of
tanh x lies below that of x, so `uf` is raised for the smallest normal operand too (R163). -/
def faithfulFin (f : Fmt) (fn : Faithful) (up neg : Bool) (m : Nat) (e : Int) : Nat × Flags :=
  match fn with
  | .rcp =>
    let k := 200 + Nat.log2 m
    let n := 2 ^ k / m
    if n * m = 2 ^ k then
      let r := roundTo f 1 false 0 (.fin neg n (-e - k))
      if r.flags &&& fNx = 0 then (r.code, r.flags) else faithfulFrom f neg up n (-e - k)
    else faithfulFrom f neg up n (-e - k)
  | .rsq =>
    if neg then (f.nan, fNv)
    else
      let k := 400 + 2 * Nat.log2 m
      let odd := e % 2 != 0
      let m' := if odd then 2 * m else m
      let e' := if odd then e - 1 else e
      let n := natSqrt (2 ^ k / m')
      let ex := -(e' / 2) - (k : Int) / 2
      if n * n * m' = 2 ^ k then
        let r := roundTo f 1 false 0 (.fin false n ex)
        if r.flags &&& fNx = 0 then (r.code, r.flags) else faithfulFrom f false up n ex
      else faithfulFrom f false up n ex
  | .exp =>
    if Nat.log2 m + e ≥ 8 then
      if neg then faithfulFrom f false up 1 (-400) else (f.infCode false, fOf ||| fNx)
    else
      let (lo, hi) := expBounds m e
      if neg then faithfulFrom f false up (2 ^ (2 * fixP) / hi) (-fixP) else faithfulFrom f false up lo (-fixP)
  | .log =>
    if neg then (f.nan, fNv)
    else
      let (lo, hi) := lnBounds m e
      if m = 2 ^ Nat.log2 m ∧ e + Nat.log2 m = 0 then (0, 0)
      else if 0 < lo then faithfulFrom f false up lo.toNat (-fixP)
      else faithfulFrom f true up (-hi).toNat (-fixP)
  | .tanh =>
    if Nat.log2 m + e < -20 then
      let q := f.quantum m e
      let (n, r, _) := cutAt m e q
      let low := if r = 0 then n - 1 else n
      let code := f.magCode (if up then low + 1 else low) q
      let atMin := m == 2 ^ Nat.log2 m && decide (Nat.log2 m + e = 1 - (f.bias : Int))
      let tiny : Flags := if atMin ∨ Nat.log2 m + e < 1 - (f.bias : Int) then fUf else 0
      (f.signed neg code, fNx ||| tiny)
    else
      let (x, ex) := if Nat.log2 m + e ≥ 6 then (100, (1 : Int)) else (m, e + 1)
      let (lo, _) := expBounds x ex
      faithfulFrom f neg up ((lo - 2 ^ fixP) * 2 ^ fixP / (lo + 2 ^ fixP)) (-fixP)

/-- A faithfully rounded function of any operand, with the special values of R170; the device's choice depends on the
operand only. -/
def faithfulOp (f : Fmt) (fn : Faithful) (code : Nat) : Nat × Flags :=
  let up := Config.faithfulUp fn.num code (f.eb * 32 + f.mb)
  match fn, f.decode code with
  | _, .nan => (f.nan, 0)
  | .rcp, .inf n => (f.signed n 0, 0)
  | .rcp, .fin n 0 _ => (f.infCode n, fDz)
  | .rsq, .inf n => if n then (f.nan, fNv) else (0, 0)
  | .rsq, .fin n 0 _ => (f.infCode n, fDz)
  | .exp, .inf n => if n then (0, 0) else (f.infCode false, 0)
  | .exp, .fin _ 0 _ => ((roundTo f 0 false 0 (.fin false 1 0)).code, 0)
  | .log, .inf n => if n then (f.nan, fNv) else (f.infCode false, 0)
  | .log, .fin _ 0 _ => (f.infCode true, fDz)
  | .tanh, .inf n => ((roundTo f 0 false 0 (.fin n 1 0)).code, 0)
  | .tanh, .fin n 0 _ => (f.signed n 0, 0)
  | fn, .fin n m e => faithfulFin f fn up n m e

/-- The correctly rounded square root (R170). -/
def sqrtOp (f : Fmt) (rm : Nat) (seed : BitVec 32) (code : Nat) : Rounded :=
  match f.decode code with
  | .nan => ⟨f.nan, 0, seed⟩
  | .inf n => if n then ⟨f.nan, fNv, seed⟩ else ⟨f.infCode false, 0, seed⟩
  | .fin n 0 _ => ⟨f.signed n 0, 0, seed⟩
  | .fin n m e => if n then ⟨f.nan, fNv, seed⟩ else roundTo f rm false seed (sqrtVal m e)

/-! ## Integers (R154, R168) -/

/-- The least and greatest values of an integer format by tag (R154). -/
def intRange (tag : Nat) : Int × Int :=
  match tag with
  | 1 => (-128, 127)
  | 2 => (0, 255)
  | 3 => (-32768, 32767)
  | 4 => (-2147483648, 2147483647)
  | _ => (-8, 7)

/-- A number clamped to a range. -/
def clamp (r : Int × Int) (i : Int) : Int := if i < r.1 then r.1 else if r.2 < i then r.2 else i

/-- A conversion to an integer format (R168): rounded, then clamped whatever `sat` holds. -/
def toIntFmt (tag rm : Nat) (seed : BitVec 32) (x : Val) : Int × Flags × BitVec 32 :=
  match x with
  | .nan => (0, fNv, seed)
  | .inf n => (if n then (intRange tag).1 else (intRange tag).2, fNv, seed)
  | .fin neg m e =>
    let (n, r, sh) := cutAt m e 0
    let seed' := if rm = 4 ∧ r ≠ 0 then draw seed else seed
    let n' := if r ≠ 0 ∧ roundsAway rm neg n r sh (seed'.toNat / 65536) then n + 1 else n
    let i : Int := if neg then -(n' : Int) else n'
    let c := clamp (intRange tag) i
    if c ≠ i then (c, fNv, seed') else (i, if r ≠ 0 then fNx else 0, seed')

/-- `sat_int` and the integer conversions (R168, R272): clamp with `sf`, or keep the low bits. -/
def satInt (tag : Nat) (sat : Bool) (i : Int) : Int × Flags :=
  let c := clamp (intRange tag) i
  if c = i then (i, 0) else if sat then (c, fSf) else (i, 0)

/-! ## TS8 (R160, R161) and block scales (R158, R169) -/

/-- The value of a TS8 code in units of 2^-6. -/
def ts8Units (code : Nat) : Int :=
  let term (x : Nat) : Int := if x % 8 = 0 then 0 else (if x / 8 % 2 = 1 then -1 else 1) * 2 ^ (x % 8 - 1)
  term (code / 16 % 16) + term (code % 16)

/-- Whether a TS8 code may be written (R161): no zero term carries a sign, and the high term is not the smaller. -/
def ts8Canonical (code : Nat) : Bool :=
  let h := code / 16 % 16
  let l := code % 16
  !(h == 8) && !(l == 8) && decide (l % 8 ≤ h % 8)

/-- The canonical code of a TS8 value in units of 2^-6, if it has one. -/
def ts8Code (u : Int) : Option Nat := (List.range 256).find? fun c => ts8Canonical c && ts8Units c == u

/-- The magnitudes that TS8 represents, in units of 2^-6, in increasing order. -/
def ts8Mags : List Nat :=
  [0, 1, 2, 3, 4, 5, 6, 7, 8, 9, 10, 12, 14, 15, 16, 17, 18, 20, 24, 28, 30, 31, 32, 33, 34, 36, 40, 48, 56, 60, 62,
   63, 64, 65, 66, 68, 72, 80, 96, 128]

/-- A magnitude in TS8 (R161): `m × 2^e` in units of 2^-6 rounded to the representable magnitudes. -/
def ts8Round (rm : Nat) (neg : Bool) (seed : BitVec 32) (m : Nat) (e : Int) : Nat × Flags × BitVec 32 :=
  let d : Nat := (-(e + 6)).toNat
  let x := if 0 ≤ e + 6 then m * 2 ^ (e + 6).toNat else m
  let den := 2 ^ d
  if 128 * den < x then (128, fOf ||| fSf ||| fNx, seed)
  else
    let a := (ts8Mags.filter fun n => decide (n * den ≤ x)).getLastD 0
    let b := (ts8Mags.find? fun n => decide (x ≤ n * den)).getD 128
    if a * den = x then (a, 0, seed)
    else
      let seed' := if rm = 4 then draw seed else seed
      let num := x - a * den
      let all := (b - a) * den
      let away := match rm with
        | 0 => decide (all < 2 * num)
        | 1 => false
        | 2 => neg
        | 3 => !neg
        | _ => decide (65536 ≤ num * 65536 / all + seed'.toNat / 65536)
      (if away then b else a, fNx, seed')

/-- The factor of an E8M0 scale code, or `none` for NaN (R158). -/
def scaleExp (c : Nat) : Option Int := if c % 256 = 255 then none else some (c % 256 - 127)

/-- A value under a block scale (R159). -/
def Val.underScale (c : Nat) (v : Val) : Val :=
  match scaleExp c with
  | none => .nan
  | some k => v.scale k

/-- floor(log2) of the magnitude of a nonzero finite value. -/
def Val.log2 : Val → Int
  | .fin _ m e => Nat.log2 m + e
  | _ => 0

/-- Whether a value is finite. -/
def Val.isFin : Val → Bool
  | .fin _ _ _ => true
  | _ => false

/-- The scale code R169 gives 32 values, or `none` when one is NaN or infinite. -/
def blockScale (emax : Int) (vs : List Val) : Option Nat :=
  if vs.all Val.isFin then
    let nz := vs.filter fun v => !v.isZero
    match nz with
    | [] => some 127
    | v :: r =>
      let top := r.foldl (fun acc x => max acc x.log2) v.log2
      some ((max (top - emax) (-127)) + 127).toNat
  else none

/-- One element of a quantised block (R169) in MXFP8 (10), MXFP4 (11) or TS8 (12), under a scale code; in a block whose
values are all zero (`zero`) it is +0. TS8 has no stated smallest normal magnitude for `uf` (R163): the model takes 2^-6,
its smallest nonzero magnitude (DESIGN CHOICE, log entry 107). -/
def blockElem (tag rm : Nat) (scale : Nat) (zero : Bool) (seed : BitVec 32) (v : Val) : Rounded :=
  let y := v.scale (127 - (scale : Int))
  if zero then ⟨0, 0, seed⟩
  else if tag = 12 then
    match y with
    | .fin neg m e =>
      if m = 0 then ⟨0, 0, seed⟩
      else
        let (u, fl, sd) := ts8Round rm neg seed m e
        let i : Int := if neg then -(u : Int) else u
        let uf : Flags := if fl &&& fNx ≠ 0 ∧ Nat.log2 m + e < -6 then fUf else 0
        ⟨(ts8Code i).getD 0, fl ||| uf, sd⟩
    | _ => ⟨0, fNv, seed⟩
  else
    let f := if tag = 10 then e4m3 else e2m1
    match y with
    | .fin neg m e => roundTo f rm true seed (.fin neg m e)
    | _ => ⟨0, fNv, seed⟩

/-- `round_to(m + v, FP32, NEAREST_EVEN)` for several operands added exactly (R255, R256). -/
def fp32Sum (m : Nat) (vs : List Nat) : Nat :=
  (roundTo fp32 0 false 0 ((vs.foldl (fun acc v => (Val.add 0 acc (fp32.decode v)).1) (fp32.decode m)))).code

end Sys2Proof.Machine
end

