-- ==== Sys2Proof/Machine/Report.lean ====
section
/-! DEFINITION. Reporting: cause codes (R421), error records (R407, R408), the fault-address queue (R410) and the counts
of aborts (R34, R433). -/

namespace Sys2Proof.Machine

/-! ## Cause codes (R421) -/

abbrev cILLEGAL : BitVec 8 := 0x01
abbrev cPRIV : BitVec 8 := 0x02
abbrev cOPERAND : BitVec 8 := 0x03
abbrev cTAG : BitVec 8 := 0x04
abbrev cALIGN : BitVec 8 := 0x05
abbrev cNOMAP : BitVec 8 := 0x06
abbrev cRIGHTS : BitVec 8 := 0x07
abbrev cFETCH : BitVec 8 := 0x08
abbrev cSPADDR : BitVec 8 := 0x09
abbrev cKIND : BitVec 8 := 0x0A
abbrev cCOUNT : BitVec 8 := 0x0B
abbrev cLOOP : BitVec 8 := 0x0C
abbrev cSEGERR : BitVec 8 := 0x0D
abbrev cSEGOVF : BitVec 8 := 0x0E
abbrev cBRK : BitVec 8 := 0x0F
abbrev cTRAPI : BitVec 8 := 0x10
abbrev cPINVER : BitVec 8 := 0x11
abbrev cSNAPRO : BitVec 8 := 0x12
abbrev cTXSTATE : BitVec 8 := 0x13
abbrev cHANDLE : BitVec 8 := 0x14
abbrev cSPAWNOVF : BitVec 8 := 0x15
abbrev cBARRIER : BitVec 8 := 0x16
abbrev cQUEUE : BitVec 8 := 0x17
abbrev cEOS : BitVec 8 := 0x18
abbrev cVFIFO : BitVec 8 := 0x19
abbrev cTIMELINE : BitVec 8 := 0x1A
abbrev cTLSELF : BitVec 8 := 0x1B
abbrev cSLOT : BitVec 8 := 0x1C
abbrev cROUTLIB : BitVec 8 := 0x1D
abbrev cSBOVF : BitVec 8 := 0x1E
abbrev cSNAPFULL : BitVec 8 := 0x1F
abbrev cEFAULT : BitVec 8 := 0x20
abbrev cBFAULT : BitVec 8 := 0x21
abbrev cABSENT : BitVec 8 := 0x40
abbrev cCONFLICT : BitVec 8 := 0x41
abbrev cPREEMPT : BitVec 8 := 0x42
abbrev cPOISON : BitVec 8 := 0x43
abbrev cERROR : BitVec 8 := 0x44
abbrev cSHOOT : BitVec 8 := 0x45
abbrev cTRAPRQ : BitVec 8 := 0x46
abbrev cGANG : BitVec 8 := 0x47
abbrev cVHEAP : BitVec 8 := 0x48
abbrev cERRASYNC : BitVec 8 := 0x60
abbrev cABORTLIM : BitVec 8 := 0x61
abbrev cQPOOL : BitVec 8 := 0x62
abbrev cTASKREC : BitVec 8 := 0x64
abbrev cRQFULL : BitVec 8 := 0x65
abbrev cPREDZ : BitVec 8 := 0x70

/-- How a slot ends other than by going on (R11, R51, R421): a synchronous trap with its `tval`, an abort of the task
with its value, a wait on an engine queue, or the rewind of a lockstep pair (R404). -/
inductive Stop where
  | trap (cause : BitVec 8) (val : Word)
  | abort (cause : BitVec 8) (val : Word)
  | block (w : Wait)
  | rewind
  deriving DecidableEq, Repr

/-- The cause an engine's fault gives to its issuing task (R437). -/
def engineCode : EngineCause → BitVec 8
  | .nomap => cNOMAP
  | .rights => cRIGHTS
  | .spaddr => cSPADDR
  | .poison => cPOISON
  | .absent => cABSENT

/-! ## Error records -/

/-- The `mctx`, `gen` and `tenant` of a record that concerns block `b` (R407). -/
def Device.who (d : Device) (b : Nat) : Option (Nat × BitVec 8 × BitVec 12) :=
  some (b, BitVec.ofNat 8 ((d.block b).get fGen), BitVec.ofNat 12 ((d.block b).get fTenant))

/-- A record handed to the error-handling firmware's queue of 1,024 entries; one more is lost (R408). -/
def Device.post (d : Device) (r : ErrRec) : Device :=
  if d.err.queue.length ≥ 1024 then { d with err := { d.err with lost := true } }
  else { d with err := { d.err with queue := d.err.queue ++ [r] } }

/-- A record about block `b` with a class, rung, agent, cause and `aux` (R407). -/
def Device.postBlock (d : Device) (cls rung : Nat) (b agent : Nat) (cause : BitVec 8) (aux : Word) : Device :=
  d.post { cls := BitVec.ofNat 8 cls, rung := BitVec.ofNat 3 rung, agent := BitVec.ofNat 16 agent, cause := cause,
           stamp := word (d.ctx agent).stamp, mctx := d.who b, aux := aux }

/-- A record of a class about the device, with the reporting agent and an `aux` value. -/
def Device.postDev (d : Device) (cls rung : Nat) (agent : Nat) (aux : Word) : Device :=
  d.post { cls := BitVec.ofNat 8 cls, rung := BitVec.ofNat 3 rung, agent := BitVec.ofNat 16 agent, aux := aux }

/-- The `seq` that the newest record of the queue will take when the firmware reaches it (R408). -/
def Device.nextSeq (d : Device) : Word := word ((d.err.seq.toNat + (d.err.queue.filter fun r => !r.prev).length) % 2 ^ 32)

/-! ## The fault-address queue (R410) -/

/-- Entry layout of R410. -/
def faqWord (tier type cnt line : Nat) : Word :=
  word (tier % 16 * 2 ^ 60 + type % 4 * 2 ^ 58 + cnt % 64 * 2 ^ 52 + line % 2 ^ 46 * 64)

/-- A queue in which the entry of `line`, if any, has taken one more push of type `type`. -/
def faqMerge (line type : Nat) : List Word → Option (List Word)
  | [] => none
  | e :: r =>
    if bits e 51 6 = line then
      some (faqWord (bits e 63 60) (Nat.max (bits e 59 58) type) (Nat.min 63 (bits e 57 52 + 1)) line :: r)
    else (faqMerge line type r).map (e :: ·)

/-- A push onto the fault-address queue (R410). -/
def Device.faqPush (d : Device) (tier type line : Nat) : Device :=
  match faqMerge line type d.mm.faq with
  | some q => { d with mm := { d.mm with faq := q } }
  | none =>
    if d.mm.faq.length ≥ 4096 then { d with mm := { d.mm with faqovf := true } }
    else { d with mm := { d.mm with faq := d.mm.faq ++ [faqWord tier type 0 line] } }

/-- Poison of a local line met by an agent (R420): the first to meet it is no further event of the line's entry, and each
later one is merged into the entry while it is queued (log entry 120). -/
def Device.meetPoison (d : Device) (line : Nat) : Device :=
  let x := d.line line
  let d1 := d.updLine line fun l => { l with met := true }
  match (if x.poison && x.met then faqMerge line 2 d.mm.faq else none) with
  | some q => { d1 with mm := { d1.mm with faq := q } }
  | none => d1

/-- The entry of a line, if it is queued, raised to type 3: a patrol read found it (R410). -/
def Device.faqRaise (d : Device) (line : Nat) : Device :=
  let raise (e : Word) : Word := if bits e 51 6 = line then setBits e 59 58 3 else e
  { d with mm := { d.mm with faq := d.mm.faq.map raise } }

/-! ## Counts in the control block -/

/-- `acnt` raised, saturating, and `lcause` set (R34, R433). -/
def Device.noteAbort (d : Device) (b : Nat) (cause : BitVec 8) : Device :=
  d.updBlock b fun k => (k.set fAcnt (Nat.min (2 ^ 32 - 1) (k.get fAcnt + 1))).set fLcause cause.toNat

/-- The meter `nabt` of the tenant of block `b` raised (R343, R433). -/
def Device.meterAbort (d : Device) (b : Nat) : Device :=
  d.updMeter ((d.block b).get fTenant) fun m => { m with nabt := m.nabt + 1 }

end Sys2Proof.Machine
end

