-- ==== Sys2Proof/Machine/PageTable.lean ====
section
/-! DEFINITION. Physical addresses, page tables and what maps a line (R77, R86 to R90): the walk, and the leaf by which a
micro-context declares a page that holds a line. -/

namespace Sys2Proof.Machine

/-! ## Addresses (R77) -/

/-- Whether a physical address lies in local HBM. -/
def isLocal (pa : Nat) : Bool := decide (pa < 2 ^ 39)

/-- Whether a physical address names remote memory. -/
def isRemote (pa : Nat) : Bool := decide (2 ^ 51 ≤ pa ∧ pa < 2 ^ 52 ∧ pa % 2 ^ 42 < 2 ^ 39)

/-- The peer that a remote address names. -/
def peerOf (pa : Nat) : Nat := pa / 2 ^ 42 % 512

/-- The HBM stack of a local address. -/
def hbmOf (pa : Nat) : Nat := pa / 2 ^ 36 % 8

/-- The pseudo-channel of a local address (R103). -/
def pchOf (pa : Nat) : Nat := pa / 64 % 512

/-- The lines that `n` bytes from `pa` touch. -/
def linesOf (pa n : Nat) : List Nat := if n = 0 then [] else span (pa / 64) ((pa + n - 1) / 64 - pa / 64 + 1)

/-- The 64 bytes of a line. -/
def Device.lineBytes (d : Device) (l : Nat) : List Byte := rdBytes d.mem (l * 64) 64

/-- The contents of a line. -/
def Device.lineBits (d : Device) (l : Nat) : LineBits := BitVec.ofNat 512 (ofBytes (d.lineBytes l))

/-- The doubleword in memory at a physical address. -/
def Device.rd64 (d : Device) (pa : Nat) : Word := word (ofBytes (rdBytes d.mem pa 8))

/-- The byte of a line's contents at an address. -/
def lineByte (x : LineBits) (pa : Nat) : Byte := x.extractLsb' (8 * (pa % 64)) 8

/-- The page-size shift of a size code (R90). -/
def winShift (sz : BitVec 2) : Nat :=
  match sz with
  | 0 => 16
  | 1 => 21
  | 2 => 25
  | _ => 30

/-- Whether a present window entry maps a physical address. -/
def WinEnt.holdsPa (e : WinEnt) (pa : Nat) : Bool :=
  !e.ab && decide (e.pfn.toNat * 65536 ≤ pa ∧ pa < e.pfn.toNat * 65536 + 2 ^ winShift e.sz)

/-! ## The page-table walk (R86 to R88) -/

/-- What a walk ends at: an invalid entry, or a leaf with its size code and value (R89, R90). -/
inductive Walk where
  | invalid
  | leaf (sz : BitVec 2) (pte : Word)
  deriving DecidableEq, Repr

/-- Bits of an entry that must be zero (R87). -/
def pteReserved (e : Word) : Bool := bits e 55 52 == 0 && bits e 11 10 == 0 && !e.getLsbD 2

/-- The physical address an entry names, its low bits zero. -/
def ptePa (e : Word) : Nat := bits e 51 12 * 4096

/-- An entry of a table; one on a poisoned line is invalid (R444). -/
def Device.pte (d : Device) (table idx : Nat) : Word :=
  if (d.line ((table + 8 * idx) / 64)).poison then 0 else d.rd64 (table + 8 * idx)

/-- Whether a leaf of a size is valid (R77, R83, R87). -/
def leafOk (sz : BitVec 2) (e : Word) : Bool :=
  let kind := bits e 7 6
  let pa := ptePa e
  decide (pa % 2 ^ winShift sz = 0) && decide (kind ≠ 3) && (kind != 2 || (!e.getLsbD 3 && e.getLsbD 5)) &&
    (isLocal pa || (isRemote pa && kind == 0 && !e.getLsbD 5))

/-- A valid leaf, or an invalid entry. -/
def leafOr (sz : BitVec 2) (e : Word) : Walk := if leafOk sz e then .leaf sz e else .invalid

/-- The walk from the table of a level (R86, R88): `level` 0 is the last. -/
def Device.walkFrom (d : Device) (va : Nat) : Nat → Nat → Walk
  | 0, table =>
    let e := d.pte table (va / 2 ^ 16 % 32)
    if e.getLsbD 0 && pteReserved e && !e.getLsbD 1 then leafOr 0 e else .invalid
  | 1, table =>
    let i := va / 2 ^ 21 % 512
    let e := d.pte table i
    if !(e.getLsbD 0 && pteReserved e) then .invalid
    else if e.getLsbD 1 then d.walkFrom va 0 (ptePa e)
    else if e.getLsbD 8 then
      let f := d.pte table (i / 16 * 16)
      if f.getLsbD 0 && pteReserved f && !f.getLsbD 1 && f.getLsbD 8 then leafOr 2 f else .invalid
    else leafOr 1 e
  | 2, table =>
    let e := d.pte table (va / 2 ^ 30 % 512)
    if !(e.getLsbD 0 && pteReserved e) then .invalid
    else if e.getLsbD 1 then d.walkFrom va 1 (ptePa e)
    else leafOr 3 e
  | l + 3, table =>
    let e := d.pte table (va / 2 ^ (39 + 9 * l) % 512)
    if e.getLsbD 0 && pteReserved e && e.getLsbD 1 then d.walkFrom va (l + 2) (ptePa e) else .invalid

/-- The walk of a micro-context's page table. -/
def Device.walk (d : Device) (b va : Nat) : Walk := d.walkFrom va 4 ((d.block b).get fPtroot * 4096)

/-- The base of the page of a size that holds an address. -/
def pageBase (sz : BitVec 2) (va : Nat) : Nat := va / 2 ^ winShift sz * 2 ^ winShift sz

/-- The page addresses of a buffer in increasing order. -/
def Buffer.pages (u : Buffer) : List Nat :=
  (List.range (u.size / 2 ^ winShift u.psz)).map fun i => u.va + i * 2 ^ winShift u.psz

/-! ## What maps a line (R83, R143, R482) -/

/-- The blocks that are not FREE. -/
def Device.liveBlocks (d : Device) : List Nat := (d.tab.blocks.map (·.1)).filter fun b => d.mstate b != sFree

/-- The image of a block. -/
def Device.imageOf (d : Device) (b : Nat) : Image := mget {} d.tab.images ((d.block b).get fImage)

/-- The physical address of the page that a leaf gives a declared page at `va` (R89). -/
def leafPage (lsz : BitVec 2) (p : Word) (va : Nat) : Nat := ptePa p + va % 2 ^ winShift lsz

/-- The block's declared pages (R89). -/
def Device.declared (d : Device) (b : Nat) : List Nat := (d.imageOf b).buffers.flatMap Buffer.pages

/-- The declared page of an image that holds an address. -/
def Image.pageOf (i : Image) (va : Nat) : Nat :=
  match i.buffers.find? fun u => decide (u.va ≤ va ∧ va < u.va + u.size) with
  | some u => pageBase u.psz va
  | none => va

/-- The leaf through which a block's image declares a page that holds a line of memory (R89). -/
def Device.leafOver (d : Device) (b line : Nat) : Option Word :=
  let at? (psz : BitVec 2) (va : Nat) : Option Word :=
    match d.walk b va with
    | .invalid => none
    | .leaf lsz p =>
      let base := leafPage lsz p va
      if psz.toNat ≤ lsz.toNat ∧ base ≤ line * 64 ∧ line * 64 < base + 2 ^ winShift psz then some p else none
  (d.imageOf b).buffers.findSome? fun u => u.pages.findSome? (at? u.psz)

/-- Whether a line lies on a writable page of a block (R143). -/
def Device.writableBy (d : Device) (b line : Nat) : Bool :=
  match d.leafOver b line with
  | some p => p.getLsbD 3
  | none => false

/-- The micro-context, bound or not, on a versioned page of which a line lies (R83, R482). -/
def Device.onVersioned (d : Device) (line : Nat) : Option Nat :=
  (d.tab.blocks.find? fun e => match d.leafOver e.1 line with | some p => bits p 7 6 == 1 | none => false).map (·.1)

end Sys2Proof.Machine
end

