-- ==== Sys2Proof/Machine/Memory.lean ====
section
/-! DEFINITION. Device memory with its lines, versions and pre-images (R77 to R82, R115 to R150, R401, R455): committed
writes, versioned reads, the Dredge and the version heap. -/

namespace Sys2Proof.Machine

/-! ## Order (R115) -/

/-- The event order: by stamp, and equal stamps by agent. -/
def precedes (s1 a1 s2 a2 : Nat) : Bool := decide (s1 < s2) || (decide (s1 = s2) && decide (a1 < a2))

/-- The largest stamp: stamps are unsigned 64-bit values (R5). -/
def maxStamp : Nat := 2 ^ 64 - 1

/-- The stamp after one, and the largest after itself (R5, log entry 105). -/
def nextStamp (least : Nat) : Nat := Nat.min (least + 1) maxStamp

/-- A stamp above `least` that the device chooses, by the number of a free value (R5, R117); the largest stamp, where none is
left above it (log entry 105). -/
def stampAbove (n least : Nat) : Nat :=
  Nat.min (least + 1 + Config.freeNat n % Nat.max 1 (maxStamp - least)) maxStamp

/-! ## Encryption (R79, R84) -/

/-- How a line is written under a key identifier. -/
def Device.cipherOf (d : Device) (kid : Nat) : Cipher :=
  if kid = 0 then .plain
  else match mfind d.tab.keys kid with | some k => .under k.1 | none => .plain

/-- A line's 64 bytes through the memory controller under a key: encrypted, or decrypted. -/
def xtsUnder (enc : Bool) (line : Nat) (c : Cipher) (bs : List Byte) : List Byte :=
  match c with
  | .under k => xtsLine enc (toBytes k.toNat 32) (toBytes (Config.tweakKey k).toNat 32) line bs
  | _ => bs

/-- A line's bytes as a reader under a key identifier sees them (R84, R100). -/
def Device.lineUnder (d : Device) (line kid : Nat) : List Byte :=
  let own := (d.line line).cipher
  let c := d.cipherOf kid
  if own = .blank ∨ own = c then d.lineBytes line
  else xtsUnder false line c (xtsUnder true line own (d.lineBytes line))

/-- A byte of memory under a key identifier (R84). -/
def Device.byteUnder (d : Device) (kid pa : Nat) : Byte :=
  let own := (d.line (pa / 64)).cipher
  if own = .blank ∨ own = d.cipherOf kid then rdByte d.mem pa else (d.lineUnder (pa / 64) kid).getD (pa % 64) 0

/-- Bytes of local memory under a key identifier (R84). -/
def Device.bytesUnder (d : Device) (kid pa n : Nat) : List Byte := (List.range n).map fun i => d.byteUnder kid (pa + i)

/-- A line that is about to be written under a key identifier: the bytes that the write leaves are those it reads under
that key (R84). -/
def Device.rekey (d : Device) (line kid : Nat) : Device :=
  let own := (d.line line).cipher
  let c := d.cipherOf kid
  let d1 : Device := if own = .blank ∨ own = c then d else { d with mem := wrBytes d.mem (line * 64) (d.lineUnder line kid) }
  d1.updLine line fun l => { l with kid := kid, cipher := c }

/-! ## The version heap (R143, R149, R150, R455) -/

/-- Version-heap entries held for a line. -/
def Line.held (l : Line) : Nat := l.versions.length + l.pre.length

/-- Version-heap entries held in all. -/
def Device.heapHeld (d : Device) : Nat := d.lines.foldl (fun n e => n + e.2.held) 0

/-- Version-heap entries held for a tenant: `vheld` (R150). -/
def Device.heldBy (d : Device) (t : Nat) : Nat :=
  d.lines.foldl (fun n e => if e.2.tenant = t then n + e.2.held else n) 0

/-- Entries of the version heap: 2 MiB units of 128-byte entries. -/
def Device.heapCap (d : Device) : Nat := d.mm.vhlen.toNat * 16384

/-- Free version-heap entries: `vfree` (R150). -/
def Device.vfree (d : Device) : Nat := d.heapCap - d.heapHeld

/-- Snapshot stamps of the running and saved tasks of a tenant, with their open spans (R149). -/
def taskStamps (t : Task) : List Nat :=
  (match t.snapS with | some s => [s] | none => []) ++ (match t.span with | some p => [p.sx] | none => [])

/-- Whether an engine operation has still to read bytes at its stamp (R127). -/
def EngOp.isLate (o : EngOp) : Bool := o.work.any (·.late.isSome)

/-- The stamps of saved contexts' tasks and of the reads that saved engine operations have still to make. -/
def savedStamps (cs : List SavedCtx) (ops : List EngOp) : List Nat :=
  (cs.flatMap fun c => match c.body.task with | some k => taskStamps k | none => []) ++ (ops.filter EngOp.isLate).map (·.stamp)

/-- The stamps that hold back a tenant's versions (R149): of its tasks, running, committing and saved, in cells that a
pre-emption under way has released as well, of the reads that engine operations have still to make (R127), of its handles
and of the device's; a FREE block holds none. -/
def Device.liveStamps (d : Device) (t : Nat) : List Nat :=
  let ofBlock (b : Nat) : Bool := (d.block b).get fTenant == t
  let ctxs := d.ctxs.flatMap fun e =>
    match e.2.task with
    | some k => if ofBlock k.blk then taskStamps k else []
    | none => []
  let saved := d.tab.blocks.flatMap fun e =>
    if ofBlock e.1 then
      savedStamps e.2.part.ctxs [] ++ (match e.2.saved with | some s => savedStamps s.ctxs s.ops | none => [])
    else []
  let reading := (d.ops.filter fun o => ofBlock o.blk && o.isLate).map (·.stamp)
  let publishing := d.tab.bindings.flatMap fun e => if ofBlock e.1 then e.2.committing.filterMap (·.snap) else []
  let handles := d.tab.snaps.flatMap fun e =>
    if e.2.state ≠ 0 ∧ (e.1 / 16 = devTable ∨ (ofBlock (e.1 / 16) ∧ d.mstate (e.1 / 16) ≠ sFree)) then [e.2.st] else []
  ctxs ++ publishing ++ saved ++ reading ++ handles

/-- A tenant's oldest live snapshot stamp: `vlow` (R149, R150). -/
def Device.oldestLive (d : Device) (t : Nat) : Nat :=
  match d.liveStamps t with
  | [] => d.top
  | s :: r => r.foldl Nat.min s

/-- The versions of a list, newest first, that a read at stamp `s` may still need. -/
def keepVersions (s : Nat) : List Version → List Version
  | [] => []
  | v :: r => if v.st < s then [v] else v :: keepVersions s r

/-- Whether a pre-image's handle still holds it (R143, R149). -/
def Device.preLive (d : Device) (p : PreImage) : Bool :=
  let h := d.snap (p.owner / 16) (p.owner % 16)
  h.state ≠ 0 && h.gen == p.gen

/-- The block on whose versioned page a line lies, as the page tables and the windows of the bindings show (R83, R149). -/
def Device.versionOwner (d : Device) (line : Nat) : Option Nat :=
  (d.onVersioned line).or
    ((d.tab.bindings.find? fun b => b.2.win.any fun e => e.kind == 1 && e.holdsPa (line * 64)).map (·.1))

/-- The tenant that a version of a line is charged to (R149): the owner's of its page, or that of the block the write is
for where no page shows one. -/
def Device.tenantFor (d : Device) (blk : Option Nat) (line : Nat) : Nat :=
  match (d.versionOwner line).or blk with
  | some b => (d.block b).get fTenant
  | none => (d.line line).tenant

/-- Whether a line lies on a page pending clear and nothing has been written to it since (R100, R450): the next write of it
on a versioned page is its first version. -/
def Device.pendingLine (d : Device) (line : Nat) : Bool :=
  (d.line line).cipher == .blank && d.mm.clearing.any fun e =>
    decide (e.1 * 1024 ≤ line ∧ line < e.1 * 1024 + 2 ^ winShift (BitVec.ofNat 2 e.2) / 64)

/-- A line after the Dredge has reclaimed what nothing needs (R149). -/
def Device.dredged (d : Device) (l : Line) : Line :=
  let s := d.oldestLive l.tenant
  { l with versions := if l.wts < s then [] else keepVersions s l.versions
           pre := l.pre.filter d.preLive }

/-- A line reclaimed by the Dredge (R149): later tasks of the tenant take their snapshot stamps above what reclaiming may
have removed. -/
def Device.reclaim (d : Device) (line : Nat) : Device :=
  let l := d.line line
  let low := Nat.max (mget 0 d.mm.horizon l.tenant) (d.oldestLive l.tenant)
  let d1 := d.updLine line fun _ => d.dredged l
  { d1 with mm := { d1.mm with horizon := mset d1.mm.horizon l.tenant low } }

/-- Whether `n` more entries for a line of a tenant are short, `used` having been taken for other lines of the same commit
(R455). -/
def Device.shortBy (d : Device) (t : Nat) (l : Line) (used n : Nat) : Bool :=
  let q := mget 0 d.mm.vquota t
  decide (d.vfree < used + n) || (q ≠ 0 && decide (q.toNat < d.heldBy t + used + n)) ||
    (decide (8 < l.held + 1 + n) && decide (8 < (d.dredged l).held + 1 + n))

/-- Whether a commit that needs one entry for a line of a tenant is short (R455). -/
def Device.short (d : Device) (t : Nat) (l : Line) : Bool := d.shortBy t l 0 1

/-- The low-water record of R454 when `vfree` has fallen below the mark. -/
def Device.lowWater (before after : Device) : Device :=
  let m := after.mm.vlowm.toNat
  if m ≠ 0 ∧ m ≤ before.vfree ∧ after.vfree < m then after.postDev 5 0 0x0907 (word after.vfree) else after

/-! ## Committed writes (R117, R120, R136, R143, R401, R482) -/

/-- Who writes: agent, stamp, the block whose handles and tenant apply, and the key identifier of the page. -/
structure Writer where
  agent : Nat
  st : Nat
  blk : Option Nat := none
  kid : Nat := 0
  deriving DecidableEq, Repr

/-- The held handles whose pre-image of a line a write above them needs, whoever writes (R143, R146): of the
micro-contexts on whose writable local pages it lies, and of the device where there is one. -/
def Device.handlesOver (d : Device) (w : Writer) (line : Nat) : List (Nat × Snap) :=
  let l := d.line line
  let mapped (b : Nat) : Bool := some b == w.blk || d.writableBy b line
  d.tab.snaps.filter fun e =>
    e.2.state ≠ 0 && decide (l.wts < e.2.st ∧ e.2.st < w.st) &&
      (if e.1 / 16 = devTable then w.blk.isSome || d.tab.blocks.any (fun x => mapped x.1) else mapped (e.1 / 16))

/-- Whether a granule lies in the version heap (R150). -/
def Mm.heapHolds (m : Mm) (g : Nat) : Bool :=
  decide (m.vhbase.toNat ≤ g * 65536 ∧ g * 65536 < m.vhbase.toNat + m.vhlen.toNat * 2 ^ 21)

/-- A line's generation broken (R143, R456): its handle in entry `owner` of the snapshot tables, unless it is so already. -/
def Device.breakGen (d : Device) (agent owner : Nat) (gen : BitVec 32) : Device :=
  let h := d.snap (owner / 16) (owner % 16)
  if h.broken ∨ h.gen ≠ gen then d
  else (d.updSnap (owner / 16) (owner % 16) fun s => { s with broken := true }).post
    { cls := 5, agent := BitVec.ofNat 16 agent, mctx := if owner / 16 = devTable then none else d.who (owner / 16),
      aux := gen.zeroExtend 64 }

/-- One pre-image recorded, or the generation broken when the heap has no room for it or the line is poisoned (R143, R447,
R455, R456). -/
def Device.preImage (d0 : Device) (w : Writer) (line : Nat) (e : Nat × Snap) : Device :=
  let d := if 8 ≤ (d0.line line).held + 1 then d0.reclaim line else d0
  let l := d.line line
  let t := if e.1 / 16 = devTable then (match w.blk with | some b => (d.block b).get fTenant | none => l.tenant)
    else (d.block (e.1 / 16)).get fTenant
  if d.short t l ∨ l.poison then d.breakGen w.agent e.1 e.2.gen
  else d.updLine line fun l => { l with pre := ⟨e.1, e.2.gen, d.lineBits line, l.wts⟩ :: l.pre, tenant := t }

/-- Engine operations that may still read a line at their stamp, with its contents before a write above that stamp
(R127). -/
def Device.keepOlds (d : Device) (w : Writer) (line : Nat) : List EngOp :=
  let l := d.line line
  d.ops.map fun o =>
    if precedes l.wts l.writer o.stamp o.agent && precedes o.stamp o.agent w.st w.agent && o.isLate &&
        (mfind o.olds line).isNone then
      { o with olds := mset o.olds line (d.lineBits line, l.poison) }
    else o

/-- What a committed write does to a line beside its bytes: the old version or pre-images kept, the stamps and writer,
the key, and the poison, which a write of the whole line clears (R117, R135, R143, R401). -/
def Device.touchLine (d : Device) (w : Writer) (line : Nat) (versioned whole : Bool) : Device :=
  let d1 :=
    if versioned && d.pendingLine line then d.updLine line fun l => { l with first := true, tenant := d.tenantFor w.blk line }
    else if versioned then
      let t := d.tenantFor w.blk line
      let d0 := if 8 ≤ (d.line line).held + 1 then d.reclaim line else d
      d0.updLine line fun l =>
        { l with versions := ⟨l.wts, l.writer, d.lineBits line, l.poison⟩ :: l.versions, tenant := t }
    else (d.handlesOver w line).foldl (fun x e => x.preImage w line e) d
  lowWater d (({ d1 with ops := d1.keepOlds w line }.rekey line w.kid).updLine line fun l =>
    { l with wts := w.st, writer := w.agent, poison := if whole then false else l.poison })

/-- Whether `n` bytes from `pa` cover a whole line. -/
def covers (pa n line : Nat) : Bool := decide (pa ≤ line * 64 ∧ line * 64 + 64 ≤ pa + n)

/-- The lines of a range touched by a committed write. -/
def Device.touchRange (d : Device) (w : Writer) (pa n : Nat) (versioned : Bool) : Device :=
  (linesOf pa n).foldl (fun x l => x.touchLine w l versioned (covers pa n l)) d

/-- Bytes placed in memory. -/
def Device.poke (d : Device) (pa : Nat) (bs : List Byte) : Device := { d with mem := wrBytes d.mem pa bs }

/-- `top` and `pub` raised to a stamp that has been taken and whose publication is complete. -/
def Device.published (d : Device) (st : Nat) : Device := { d with top := Nat.max d.top st, pub := Nat.max d.pub st }

/-- The least stamp a write of some lines may take: above the lease end and the write stamp of each (R117), and above
every snapshot taken, whose contents are fixed (R142, R143). -/
def Device.writeFloor (d : Device) (lines : List Nat) : Nat :=
  lines.foldl (fun n l => Nat.max n (Nat.max (d.line l).lease (d.line l).wts)) d.snapLow

/-- Whether a line lies on a versioned page, as the page tables, the windows of the bindings or its own versions show
(R83, R482). -/
def Device.versionedLine (d : Device) (line : Nat) : Bool :=
  !(d.line line).versions.isEmpty || (d.versionOwner line).isSome

/-- Bytes of local memory written by an agent of R482 or an engine as one committed store, at a stamp above `least` and
above the least it may take, which the device chooses by free value `n`. -/
def Device.agentWrite (d : Device) (agent n least : Nat) (blk : Option Nat) (kid pa : Nat) (bs : List Byte) : Device :=
  let st := stampAbove n (Nat.max least (d.writeFloor (linesOf pa bs.length)))
  ((d.touchRange ⟨agent, st, blk, kid⟩ pa bs.length (d.versionedLine (pa / 64))).poke pa bs).published st

/-- Whether a write for a block of an agent of R482 to a line waits: it would be short, or an earlier write of the line
waits (R455, R482). -/
def Device.mustWait (d : Device) (blk : Option Nat) (line : Nat) : Bool :=
  (d.mm.waiting.any fun w => (linesOf w.pa w.bytes.length).contains line) ||
    (d.versionedLine line && !d.pendingLine line && d.short (d.tenantFor blk line) (d.line line))

/-- A write of an agent of R482 within one line, made now or once the version heap can take it. -/
def Device.agentStore (d : Device) (n : Nat) (w : HeldWrite) : Device :=
  if d.mustWait w.blk (w.pa / 64) then { d with mm := { d.mm with waiting := d.mm.waiting ++ [w] } }
  else d.agentWrite w.agent n w.least w.blk w.kid w.pa w.bytes

/-! ## Reading versions (R135) -/

/-- What a read at stamp `s` by agent `a` returns of a line, with its poison bit (R135): the newest version that precedes
the read, `none` for the one that the line's address holds; before the first version of a page that was pending clear the
line is zero (R450). The initial contents were written at stamp 0. Where none precedes the read, which a snapshot stamp
above the Dredge's horizon rules out while the page stays versioned (R149), the oldest stands for the initial contents
(log entry 109). -/
def Device.versionAt (d : Device) (line s a : Nat) : Option LineBits × Bool :=
  let l := d.line line
  if precedes l.wts l.writer s a then (none, l.poison)
  else
    match l.versions.find? fun v => precedes v.st v.writer s a with
    | some v => (some v.data, v.poison)
    | none =>
      if l.first then (some 0, false)
      else match l.versions.getLast? with
      | some v => (some v.data, v.poison)
      | none => (none, l.poison)

/-- Whether a line holds a version from a successful commit after stamp `s` of agent `a`: `newer_version` (R136). -/
def Device.newerVersion (d : Device) (line s a : Nat) : Bool := precedes s a (d.line line).wts (d.line line).writer

/-! ## Applying buffered operations (R245, R255, R256) -/

/-- The bytes an operation covers. -/
def BufKind.len : BufKind → Nat
  | .store bs => bs.length
  | .redAdd n _ => n
  | .redMin n _ => n
  | .redMax n _ => n
  | .redFadd _ => 4

/-- The signed minimum or maximum of two `n`-byte values. -/
def sMinMax (isMax : Bool) (n : Nat) (x y : Nat) : Nat :=
  let sx := (BitVec.ofNat (8 * n) x).toInt
  let sy := (BitVec.ofNat (8 * n) y).toInt
  if isMax then (if sx < sy then y else x) else (if sy < sx then y else x)

/-- The bytes that an operation leaves, given the bytes there before (R255). -/
def BufKind.apply (k : BufKind) (old : List Byte) : List Byte :=
  match k with
  | .store bs => bs
  | .redAdd n v => toBytes (ofBytes old + v.toNat) n
  | .redMin n v => toBytes (sMinMax false n (ofBytes old) (v.toNat % 2 ^ (8 * n))) n
  | .redMax n v => toBytes (sMinMax true n (ofBytes old) (v.toNat % 2 ^ (8 * n))) n
  | .redFadd vs => toBytes (fp32Sum (ofBytes old) (vs.map BitVec.toNat)) 4

/-- Whether an operation's bytes cover address `pa`. -/
def BufOp.covers (o : BufOp) (pa : Nat) : Bool := decide (o.pa ≤ pa ∧ pa < o.pa + o.kind.len)

/-- The byte that the newest buffered store holds for an address, the operations being in program order (R55, R256). -/
def bufByte (ops : List BufOp) (pa : Nat) : Option Byte :=
  ops.foldl (fun acc o =>
    match o.kind with
    | .store bs => if o.covers pa then some (bs.getD (pa - o.pa) 0) else acc
    | _ => acc) none

/-- The virtual address of a line that an operation touches. -/
def BufOp.lineVa (o : BufOp) (l : Nat) : Word := word o.va + word (l * 64) - word o.pa

/-- The distinct lines of buffered operations (R52). -/
def bufLines (ops : List BufOp) : List Nat := uniq (ops.flatMap fun o => linesOf o.pa o.kind.len)

/-- Whether the operations of a list, stores and reductions, cover every byte of a line (R401). -/
def coverLine (ops : List BufOp) (line : Nat) : Bool :=
  (span (line * 64) 64).all fun a => ops.any fun o => o.covers a

/-- The operations that write one line on a versioned page. -/
def lineVersioned (ops : List BufOp) (line : Nat) : Bool :=
  ops.any fun o => o.versioned && (linesOf o.pa o.kind.len).contains line

/-- The key identifier under which a line is written. -/
def lineKid (ops : List BufOp) (line : Nat) : Nat :=
  match ops.find? fun o => (linesOf o.pa o.kind.len).contains line with
  | some o => o.kid
  | none => 0

/-- One operation applied to local memory; one on remote memory changes nothing here. -/
def Device.applyOp (d : Device) (o : BufOp) : Device :=
  if isRemote o.pa then d else d.poke o.pa (o.kind.apply (rdBytes d.mem o.pa o.kind.len))

/-- Memory as some operations would leave it, each line under the key it is written with. -/
def Device.applied (d : Device) (ops : List BufOp) : Device :=
  let lines := (bufLines ops).filter fun l => isLocal (l * 64)
  ops.foldl (fun x o => x.applyOp o) (lines.foldl (fun x l => x.rekey l (lineKid ops l)) d)

/-- The source that a remote access of a block carries (R369). -/
def Device.source (d : Device) (blk : Option Nat) : Source :=
  ⟨d.out.devno, match blk with | some b => BitVec.ofNat 12 ((d.block b).get fTenant) | none => 0⟩

/-- The operand of a count's change at a peer (R44, R260): the binding number, and whether a result out of range still
re-arms the record. -/
def countWord (bseq : BitVec 31) (always : Bool) : Word := word (b2n always * 2 ^ 31 + bseq.toNat)

/-- The port on which an access to an address of a peer leaves (R368): traffic is spread over the ports of the route set
whose links are up by PA[14:6]. -/
def Device.portTo (d : Device) (peer pa : Nat) : Option Nat :=
  let ps := (mget [] d.out.routes peer).filter fun p => d.out.linkUp.getLsbD p
  ps[pa / 64 % 512 % Nat.max 1 ps.length]?

/-- Whether a route leads to a peer over a link that is up (R368, R470). -/
def Device.reachable (d : Device) (peer : Nat) : Bool :=
  (mget [] d.out.routes peer).any fun p => d.out.linkUp.getLsbD p

/-- The record of stores and reductions that a peer has denied, or that cannot be delivered (R471). -/
def Device.undelivered (d : Device) (blk : Option Nat) : Device :=
  d.post { cls := 6, agent := 0x0915, mctx := match blk with | some b => d.who b | none => none }

/-- What leaves for a peer as one event (R81, R126, R369), or is lost where no route leads there (R471); operation 9 of a
returning atomic changes the count of a task record, re-arming it as the binding number asks (R44, R45). -/
def Device.emit (d : Device) (blk : Option Nat) (x : PeerSend) : Device :=
  if !d.reachable x.peer && x.peer != d.out.devno.toNat then d.undelivered blk
  else match x.dec with
  | some (pa, bseq) => d.send (.remoteAtomic x.peer (d.portTo x.peer pa) (d.source blk) pa 64 9 (BitVec.allOnes 64) (countWord bseq true))
  | none => d.send (.remoteWrite x.peer (x.ops.map fun o => d.portTo x.peer o.1) (d.source blk) x.ops)

/-- A read of remote bytes asked of the peer (R81, R369). -/
def Device.askPeer (d : Device) (blk : Option Nat) (pa n : Nat) : Device :=
  if isRemote pa then d.send (.remoteRead (peerOf pa) (d.portTo (peerOf pa) pa) (d.source blk) (pa % 2 ^ 42) n) else d

/-- What a block's binding sends to a peer: held at the fabric ports while the binding's gang is not confirmed (R371). -/
def Device.sendFor (d : Device) (blk : Option Nat) (x : PeerSend) : Device :=
  match blk with
  | none => d.emit blk x
  | some b =>
    match d.binding b with
    | none => d.emit blk x
    | some k =>
      match k.gang with
      | some g => d.setBinding b { k with gang := some { g with sends := g.sends ++ [x] } }
      | none => d.emit blk x

/-- The operations of a list on one peer's memory, sent to it as one event (R81, R126). -/
def Device.sendPeer (d : Device) (blk : Option Nat) (ops : List BufOp) (peer : Nat) : Device :=
  d.sendFor blk ⟨peer, (ops.filter fun o => isRemote o.pa && peerOf o.pa == peer).map fun o => (o.pa % 2 ^ 42, o.kind), none⟩

/-- The peers that a list of operations writes. -/
def peersOf (ops : List BufOp) : List Nat := uniq ((ops.filter fun o => isRemote o.pa).map fun o => peerOf o.pa)

/-- `publish_all(c)`: every buffered line made visible at one stamp (R53, R121, R136), and each peer's operations sent. -/
def Device.publish (d : Device) (w : Writer) (ops : List BufOp) : Device :=
  let lines := (bufLines ops).filter fun l => isLocal (l * 64)
  let d1 := lines.foldl (fun x l =>
    x.touchLine { w with kid := lineKid ops l } l (lineVersioned ops l) (coverLine ops l)) d
  let d2 := ops.foldl (fun x o => x.applyOp o) d1
  (peersOf ops).foldl (fun x p => x.sendPeer w.blk ops p) d2

/-- The version-heap entries that a commit of some operations needs for a line (R143, R455): its old version's, or its
pre-images'; a commit's stamp lies above that of every handle. -/
def Device.entriesFor (d : Device) (w : Writer) (ops : List BufOp) (line : Nat) : Nat :=
  if lineVersioned ops line then b2n (!d.pendingLine line)
  else (d.handlesOver { w with st := maxStamp + 1 } line).length

/-- The first line of some for which a tenant's commit is short, `used` entries having been taken for the lines before it. -/
def Device.shortLine (d : Device) (w : Writer) (t : Nat) (ops : List BufOp) : Nat → List Nat → Option Nat
  | _, [] => none
  | used, l :: r =>
    let n := d.entriesFor w ops l
    if n ≠ 0 && d.shortBy t (d.line l) used n then some l else d.shortLine w t ops (used + n) r

/-- The line that makes the commit of some operations short (R455): none where it writes no versioned line, as it then
needs only pre-images, without which it performs. -/
def Device.firstShort (d : Device) (w : Writer) (t : Nat) (ops : List BufOp) : Option Nat :=
  if (bufLines ops).any fun l => isLocal (l * 64) && lineVersioned ops l then
    d.shortLine w t ops 0 ((bufLines ops).filter fun l => isLocal (l * 64))
  else none

/-! ## Weight SRAM (R14, R21, R22, R80) -/

/-- The pages of weight SRAM that hold a physical address, of every size. -/
def Device.sramPages (d : Device) (pa : Nat) : List SramPage :=
  (List.range 4).filterMap fun sz =>
    let s := winShift (BitVec.ofNat 2 sz)
    mfind d.tab.placed (pa / 2 ^ s * 2 ^ s / 65536 * 4 + sz)

/-- The home slice of a line (R79): of the 16 slices of the compute stack whose HBM pair holds it, the one that the address
gives. -/
def homeSlice (line : Nat) : Nat :=
  let pa := line * 64
  let nib (i : Nat) : Nat := pa / 2 ^ (6 + 4 * i) % 16
  16 * (hbmOf pa / 2) + Nat.xor (Nat.xor (nib 0) (nib 1)) (Nat.xor (nib 2) (nib 3))

/-- Lines of a home slice: 6 MiB (R21). -/
def sliceLines : Nat := 98304

/-- Whether its home slice holds a line (R79). -/
def Device.inL2 (d : Device) (line : Nat) : Bool := (mget [] d.l2 (homeSlice line)).contains line

/-- The page that the weight SRAM of a compute stack holds of an address. -/
def Device.sramPage (d : Device) (stack pa : Nat) : Option SramPage :=
  (d.sramPages pa).find? fun p => p.mask.getLsbD stack

/-- The stack of a core. -/
def stackOfCore (core : Nat) : Nat := stackOf (cellOf core)

/-- Whether weight SRAM serves a read of a shared-weight page by a core (R80). -/
def Device.fromWeightSram (d : Device) (core pa : Nat) (kind : BitVec 2) : Bool :=
  kind == 2 && isLocal pa && (d.sramPage (stackOfCore core) pa).isSome

/-- The bytes of weight SRAM that a stack's pages take (R14). -/
def Device.sramUsed (d : Device) (stack : Nat) : Nat :=
  d.tab.placed.foldl (fun n e =>
    if e.2.mask.getLsbD stack then n + 2 ^ winShift (BitVec.ofNat 2 (e.1 % 4)) else n) 0

/-- The capacity of a stack's weight SRAM: 768 MiB (R14). -/
def sramSize : Nat := 768 * 2 ^ 20

/-- A byte that a stack's weight SRAM holds, with whether its line is uncorrectable there (R80, R398). -/
def Device.sramByte (d : Device) (stack pa : Nat) : Option (Byte × Bool) :=
  (d.sramPage stack pa).map fun p => (mget 0 p.data pa, p.bad.contains (stack, pa / 64))

/-! ## Poison (R401, R447) -/

/-- The entries that the version heap holds: of each line, its older versions and then its pre-images, by number. -/
def Device.heapEntries (d : Device) : List (Nat × Nat) :=
  d.lines.flatMap fun e => (List.range e.2.held).map fun i => (e.1, i)

/-- What a poisoned line of the version heap does to the entry that lies there, which no rule tells (R447): a load that needs
the version aborts, and a pre-image breaks its generation (log entry 118). -/
def Device.poisonHeap (d : Device) (line agent : Nat) : Device :=
  if d.mm.heapHolds (line / 1024) then
    match d.heapEntries[Config.heapEntry line]? with
    | none => d
    | some (l, i) =>
      let x := d.line l
      match x.versions[i]? with
      | some v => d.updLine l fun y => { y with versions := lset y.versions i { v with poison := true } }
      | none =>
        match x.pre[i - x.versions.length]? with
        | some p => d.breakGen agent p.owner p.gen
        | none => d
  else d

/-- A line found uncorrectable: the first time, the poison bit, the fault-address entry and the class-3 record (R401), with
what it holds of the version heap (R447); a later detection pushes its entry again (R410, R420). The record shows the
stamp of the agent that met it. -/
def Device.poisonLine (d : Device) (struct tier line agent : Nat) (synd : BitVec 32) : Device :=
  if (d.line line).poison then d.faqPush tier 2 line
  else ((((d.updLine line fun l => { l with poison := true, met := false }).poisonHeap line agent).faqPush tier 2 line).post
    { cls := 3, agent := BitVec.ofNat 16 agent, struct := BitVec.ofNat 16 struct, synd := synd, stamp := word (d.ctx agent).stamp,
      pa := some (BitVec.ofNat 52 (line * 64)) })

end Sys2Proof.Machine
end

