-- ==== Sys2Proof/Machine/Window.lean ====
section
/-! DEFINITION. Page tables, the translation window and its checks (R83 to R97, R443): the walk, one entry per page, and
the pieces of a translated access. -/

namespace Sys2Proof.Machine

/-! ## Window entries (R89, R90) -/

/-- The key identifier of a page (R84, R90). -/
def Device.pageKid (d : Device) (b kind : Nat) (e : Bool) : Nat :=
  if !e then 0
  else if kind = 2 then mget 0 d.tab.domains ((d.block b).get fSdom)
  else (d.block b).get fDkid

/-- An absent entry for a page. -/
def absentEnt (sz : BitVec 2) (va : Nat) : WinEnt :=
  { vpn := BitVec.ofNat 41 (pageBase sz va / 65536), sz := sz }

/-- The leaf that gives the page of a declared size at an address its fields (R89), with its size: none where the walk is
invalid, where the leaf is smaller, and where a private encrypted leaf has no key (R84), which are treated alike. -/
def Device.leafFor (d : Device) (b : Nat) (sz : BitVec 2) (va : Nat) : Option (BitVec 2 × Word) :=
  match d.walk b va with
  | .invalid => none
  | .leaf lsz p =>
    if lsz.toNat < sz.toNat || (p.getLsbD 5 && bits p 7 6 ≠ 2 && (d.block b).get fDkid = 0) then none else some (lsz, p)

/-- The window entry of the page of a declared size at an address (R89, R90): absent where its leaf is invalid, and where
the leaf has `ab` = 1, whose fields it still takes. -/
def Device.makeEnt (d : Device) (b : Nat) (sz : BitVec 2) (va : Nat) : WinEnt :=
  match d.leafFor b sz va with
  | none => absentEnt sz va
  | some (lsz, p) =>
    let base := pageBase sz va
    { vpn := BitVec.ofNat 41 (base / 65536), sz := sz, pfn := BitVec.ofNat 36 (leafPage lsz p base / 65536),
      ab := p.getLsbD 9, kind := BitVec.ofNat 2 (bits p 7 6), e := p.getLsbD 5, x := p.getLsbD 4, w := p.getLsbD 3,
      kid := BitVec.ofNat 12 (d.pageKid b (bits p 7 6) (p.getLsbD 5)) }

/-- The window of an image's buffers (R89). -/
def Device.makeWindow (d : Device) (b : Nat) (bufs : List Buffer) : List WinEnt :=
  bufs.flatMap fun u => u.pages.map fun va => d.makeEnt b u.psz va

/-- The 128 bits of a window entry as the firmware reads it (R90). -/
def WinEnt.bits128 (e : WinEnt) : BitVec 128 :=
  BitVec.ofNat 128 (e.pfn.toNat * 2 ^ 88 + b2n e.ab * 2 ^ 84 + e.kind.toNat * 2 ^ 82 + b2n e.e * 2 ^ 81 +
    b2n e.x * 2 ^ 80 + b2n e.w * 2 ^ 79 + e.sz.toNat * 2 ^ 75 + e.vpn.toNat * 2 ^ 32 + e.kid.toNat)

/-! ## Lookup and checks (R91, R92, R443) -/

/-- The access kinds of R92. -/
inductive Acc where
  | load | store | atomic | fetch | engRead | engWrite | sld | trans
  deriving DecidableEq, Repr

/-- Whether an entry gives the right an access needs (R92). -/
def WinEnt.allows (e : WinEnt) : Acc → Bool
  | .load => true
  | .engRead => true
  | .trans => true
  | .store => e.w
  | .atomic => e.w
  | .fetch => e.x
  | .engWrite => e.w && e.kind == 0
  | .sld => !e.w && (e.kind == 0 || e.kind == 2)

/-- Whether an address is canonical: its bits 63:57 all equal bit 56 (R91). -/
def canonical (va : Word) : Bool := va.extractLsb' 57 7 == (if va.getLsbD 56 then 127 else 0)

/-- Whether an entry's page holds an address. -/
def WinEnt.holds (e : WinEnt) (va : Word) : Bool :=
  bits va 56 16 * 65536 / 2 ^ winShift e.sz == e.vpn.toNat * 65536 / 2 ^ winShift e.sz

/-- The entry of a window that an address matches (R91). -/
def findEnt (win : List WinEnt) (va : Word) : Option WinEnt :=
  if canonical va then win.find? fun e => e.holds va else none

/-- One translated piece of an access: addresses, bytes, page kind and key identifier. -/
structure Piece where
  va : Word
  pa : Nat
  n : Nat
  kind : BitVec 2 := 0
  kid : Nat := 0
  deriving DecidableEq, Repr

/-- The physical address an entry gives. -/
def WinEnt.pa (e : WinEnt) (va : Word) : Nat := e.pfn.toNat * 65536 + va.toNat % 2 ^ winShift e.sz

/-- Translation of `n` bytes (R91, R92, R443): the entry of the lowest byte first, then each further entry; a failure is
its cause and address. `fuel` bounds the entries. -/
def translateIn (win : List WinEnt) (acc : Acc) : Nat → Word → Nat → Except (BitVec 8 × Word) (List Piece)
  | 0, _, _ => .ok []
  | fuel + 1, va, n =>
    match findEnt win va with
    | none => .error (cNOMAP, va)
    | some e =>
      if e.ab then .error (cABSENT, va)
      else if !e.allows acc then .error (cRIGHTS, va)
      else
        let room := 2 ^ winShift e.sz - va.toNat % 2 ^ winShift e.sz
        let here : Piece := ⟨va, e.pa va, Nat.min n room, e.kind, e.kid.toNat⟩
        if n ≤ room then .ok [here]
        else
          match translateIn win acc fuel (va + word room) (n - room) with
          | .ok r => .ok (here :: r)
          | .error x => .error x

/-- The number of window entries that a range touches (R93), counted as far as three. -/
def entriesOf (win : List WinEnt) : Nat → Word → Nat → Nat
  | 0, _, _ => 0
  | fuel + 1, va, n =>
    match findEnt win va with
    | none => 1
    | some e =>
      let room := 2 ^ winShift e.sz - va.toNat % 2 ^ winShift e.sz
      if n ≤ room then 1 else 1 + entriesOf win fuel (va + word room) (n - room)

/-! ## Absent entries (R95) -/

/-- A window as an access of a cycle sees it: an entry made present in that cycle is absent still (R96, R445). -/
def Binding.seen (k : Binding) (now : Nat) : List WinEnt :=
  k.win.map fun e => if e.madeAt = some now then { e with ab := true } else e

/-- The window of a block's binding as the present cycle sees it. -/
def Device.window (d : Device) (b : Nat) : List WinEnt :=
  match d.binding b with
  | some k => k.seen d.cycle
  | none => []

/-- What the binding hardware finds when it re-reads the page-table entry of an absent page (R95). -/
inductive Repair where
  | present (d : Device)
  | parked (d : Device)
  deriving Repr

/-- A window entry replaced by what its page's leaf gives now: one that becomes present notes the cycle (R96). -/
def WinEnt.renew (e new : WinEnt) (now : Nat) : WinEnt :=
  { new with madeAt := if new.ab then none else if e.ab then some now else e.madeAt }

/-- The window with the entry of an address re-read. -/
def Device.refreshEnt (d : Device) (b : Nat) (va : Word) : Device :=
  let fresh (e : WinEnt) : WinEnt :=
    if e.holds va then e.renew (d.makeEnt b e.sz (pageBase e.sz (bits va 56 0))) d.cycle else e
  d.updBinding b fun k => { k with win := k.win.map fresh }

/-- Whether a fetch of a page is listed: asked for, in flight or failed. -/
def Device.fetchListed (d : Device) (b va : Nat) : Bool := d.tab.fetches.any fun f => f.blk == b && f.va == va

/-- Whether a page is absent because its memory is being retired, and no fetch brings it back (R448). -/
def Mm.retires (m : Mm) (b va : Nat) : Bool :=
  match m.retire with
  | some r => r.maps.any fun x => x.blk == b && decide (x.va ≤ va ∧ va < x.va + 2 ^ winShift x.sz) && bits x.pte 7 6 != 2
  | none => false

/-- The absent pages of a block's image in the order in which the Pilot makes them resident (R345): the touch list, then the
others in ascending virtual address. -/
def Device.absentPages (d : Device) (b : Nat) : List Nat :=
  let i := d.imageOf b
  let absent (va : Nat) : Bool :=
    match d.walk b va with | .leaf _ p => p.getLsbD 9 && !d.mm.retires b va | .invalid => false
  let touch := (uniq (i.touch.map i.pageOf).reverse).reverse
  (touch ++ sortBy id ((d.declared b).filter fun v => !touch.contains v)).filter absent

/-- The Pilot's next fetch in flight, while fewer than 64 are (R345): the oldest that the binding hardware asked for, else
the next page of an image in use. -/
def Device.startFetch (d : Device) : Option Device :=
  let mark (g f : Fetch) : Fetch := if f.blk = g.blk ∧ f.va = g.va then { f with started := true } else f
  if 64 ≤ (d.tab.fetches.filter fun f => f.started && f.failed.isNone).length then none
  else
    match d.tab.fetches.find? fun f => !f.started && f.failed.isNone with
    | some g => some (d.updTab fun t => { t with fetches := t.fetches.map (mark g) })
    | none =>
      (d.liveBlocks.findSome? fun b => ((d.absentPages b).find? fun v => !d.fetchListed b v).map fun v => (b, v)).map fun p =>
        d.updTab fun t => { t with fetches := t.fetches ++ [{ blk := p.1, va := p.2, started := true }] }

/-- The Pilot's fetches started as far as 64 can be in flight; `n` bounds those that start. -/
def Device.startFetches (d : Device) : Nat → Device
  | 0 => d
  | n + 1 => match d.startFetch with | some x => x.startFetches n | none => d

/-- A fetch request for a page, unless one is outstanding (R95): it goes ahead of every page not yet started (R345); a page
whose fetch has failed twice is not fetched again (R463), and one that is being retired is not fetched (R448). -/
def Device.requestFetch (d : Device) (b : Nat) (va : Nat) : Device :=
  let d1 := d.startFetches 64
  if d1.fetchListed b va || d1.mm.retires b va then d1
  else (d1.updTab fun t => { t with fetches := t.fetches ++ [{ blk := b, va := va }] }).startFetches 64

/-- The binding hardware's answer to a touch of an absent entry (R95): the page is present now, or its task parks, with
a fetch asked of the Pilot where the leaf is mapped, and the memory-management firmware told where it is invalid. -/
def Device.repair (d : Device) (b : Nat) (va : Word) : Repair :=
  match findEnt (d.window b) va with
  | none => .parked d
  | some e =>
    let base := pageBase e.sz (bits va 56 0)
    if !(d.makeEnt b e.sz base).ab then .present (d.refreshEnt b va)
    else
      match d.leafFor b e.sz base with
      | some _ => .parked (d.requestFetch b base)
      | none => .parked (d.send (.leafInvalid b base))

/-- A page asked of the Pilot or the firmware by something that waits at it (R95, R437). -/
def Device.askPage (d : Device) (b : Nat) (va : Word) : Device :=
  match d.repair b va with
  | .present x => x
  | .parked x => x

/-! ## Buffered stores translated again (R97) -/

/-- A buffered operation with its address translated again (R97). -/
def BufOp.retranslate (win : List WinEnt) (o : BufOp) : BufOp :=
  match findEnt win (word o.va) with
  | some e => if e.ab then o else { o with pa := e.pa (word o.va), kid := e.kid.toNat, stale := false }
  | none => o

/-- A task whose buffered operations are translated again (R97). -/
def Task.retranslate (win : List WinEnt) (t : Task) : Task :=
  { t with buf := t.buf.map (fun o => o.retranslate win)
           span := t.span.map fun p => { p with buf := p.buf.map (fun o => o.retranslate win) } }

/-- A restored task, none of whose buffered addresses is translated yet (R97). -/
def Task.outdated (t : Task) : Task :=
  let old (o : BufOp) : BufOp := { o with stale := true }
  { t with buf := t.buf.map old, span := t.span.map fun p => { p with buf := p.buf.map old } }

/-- Whether some buffered address of a task has still to be translated again. -/
def Task.isStale (t : Task) : Bool :=
  t.buf.any (·.stale) || (match t.span with | some p => p.buf.any (·.stale) | none => false)

/-- The addresses that context `a` buffered before its binding was restored translated again as far as the window has
their pages (R97). -/
def Device.settleStores (d : Device) (a : Nat) : Device :=
  match (d.ctx a).task with
  | none => d
  | some t =>
    match d.binding t.blk with
    | some k => if t.isStale then d.updCtx a fun c => { c with task := some (t.retranslate (k.seen d.cycle)) } else d
    | none => d

end Sys2Proof.Machine
end

