-- ==== Sys2Proof/Machine/Serve.lean ====
section
/-! DEFINITION. What the serving hardware does for every other part: replies (R323 to R329, R342), the charge and the end
of a binding (R38, R332), the kill of a micro-context (R416), and the quiescence counter (R98). -/

namespace Sys2Proof.Machine

/-- The stamps of the accesses in flight (R98): publications in progress, slotted reads that have not returned, and the
reads that engine operations have still to make. -/
def Device.inFlight (d : Device) : List Nat :=
  (d.tab.bindings.flatMap fun e => e.2.committing.map (·.st)) ++ (d.ctxs.flatMap fun e => e.2.slds.map (·.st)) ++
    (d.ops.filter fun o => !o.waited && o.isLate).map (·.stamp)

/-- The quiescence counter (R98): the least stamp of an access in flight, or the next stamp; it never falls. -/
def Device.qsc (d : Device) : Nat := Nat.max d.qlow (d.inFlight.foldl Nat.min (nextStamp d.top))

/-- The device with the quiescence counter's value remembered, before an access of a lower stamp comes in flight and before
one is done (R98). -/
def Device.noteQsc (d : Device) : Device := { d with qlow := d.qsc }

/-! ## Replies -/

/-- What a reply copies from its request (R325), with the block it names, if one was found. -/
structure ReplyTo where
  rkid : Nat
  fnid : Nat
  pcls : Nat
  reqid : Nat
  blk : Option Nat
  port : Bool
  saddr : BitVec 128
  sport : BitVec 16
  deriving DecidableEq, Repr

/-- The reply target of a request record of a block. -/
def Rec.replyTo (r : Rec) (b : Nat) : ReplyTo :=
  { rkid := r.rkid.toNat, fnid := r.fnid.toNat, pcls := r.pcls.toNat, reqid := r.reqid.toNat, blk := some b,
    port := r.eport, saddr := r.saddr, sport := r.sport }

/-- The nonce of a reply (R325): bit 95 set, the device number, and the key's reply counter. -/
def replyNonce (devno ctr : Nat) : Nat := 2 ^ 95 + devno % 512 * 2 ^ 86 + ctr % 2 ^ 64

/-- The 64-byte header of one reply segment (R323, R325). -/
def replyHeader (d : Device) (t : ReplyTo) (kind msg status tlen nseg seg slen nonce : Nat) : BitVec 512 :=
  let dw (i : Nat) (v : Nat) : Nat := v * 2 ^ (64 * i)
  let who := match t.blk with
    | some b => (d.block b).get fGen * 2 ^ 16 + 2 ^ 15 + b % 32768
    | none => 0
  BitVec.ofNat 512 (
    dw 0 (0x53524451 * 2 ^ 32 + 2 ^ 24 + kind * 2 ^ 20 + t.rkid) +
    dw 1 (t.fnid * 2 ^ 32 + t.pcls * 2 ^ 24 + who) +
    dw 2 t.reqid +
    dw 3 (tlen * 2 ^ 32 + msg % 256 * 2 ^ 16 + nseg * 2 ^ 8 + seg) +
    dw 4 (status * 2 ^ 48 + slen) +
    dw 5 (nonce % 2 ^ 64) + dw 6 (nonce / 2 ^ 64))

/-- A loaded key with its reply counter (R84, R325). -/
def Device.key (d : Device) (kid : Nat) : Option (BitVec 256 × Nat) :=
  if kid = 0 then none else mfind d.tab.keys kid

/-- One sealed reply segment sent (R324, R325); nothing is sent under an exhausted counter (R460), and a segment for a
port without a link is dropped with a record (R459). -/
def Device.sendSegment (d : Device) (t : ReplyTo) (kind msg status tlen nseg seg : Nat) (body : List Byte) : Device :=
  match d.key t.rkid with
  | none => d
  | some (key, ctr) =>
    if 2 ^ 63 ≤ ctr then d
    else
      let nonce := replyNonce d.out.devno.toNat ctr
      let hdr := replyHeader d t kind msg status tlen nseg seg body.length nonce
      let sealed := gcmSeal (toBytes key.toNat 32) (toBytes nonce 12) (toBytes hdr.toNat 64) body
      let d1 := d.updTab fun x => { x with keys := mset x.keys t.rkid (key, ctr + 1) }
      if d.out.ethUp.getLsbD (b2n t.port) then
        d1.send (.reply t.port t.saddr t.sport hdr sealed.1 (BitVec.ofNat 128 (ofBytes sealed.2)))
      else d1.postDev 6 0 0x0902 0

/-- Whether replies can be sent under a key (R329, R460). -/
def Device.canReply (d : Device) (rkid : Nat) : Bool :=
  match d.key rkid with
  | some (_, ctr) => decide (ctr < 2 ^ 63)
  | none => false

/-- A message cut into segments of 8,832 bytes and sent in order (R324, R342); `fuel` bounds the segments. -/
def Device.sendSegments (t : ReplyTo) (kind msg status tlen nseg : Nat) : Nat → Nat → List Byte → Device → Device
  | 0, _, _, d => d
  | n + 1, seg, bs, d =>
    Device.sendSegments t kind msg status tlen nseg n (seg + 1) (bs.drop 8832)
      (d.sendSegment t kind msg status tlen nseg seg (bs.take 8832))

/-- A reply of a block counted in its tenant's meter (R343); a partial one is no final or error reply. -/
def Device.countReply (d : Device) (b : Nat) (partly : Bool) (len : Nat) : Device :=
  d.updMeter ((d.block b).get fTenant) fun m =>
    { m with obyt := m.obyt + word len, nrep := if partly then m.nrep else m.nrep + 1 }

/-- A whole message to the requester, with the meters of R343. -/
def Device.sendMessage (d : Device) (t : ReplyTo) (kind msg status : Nat) (payload : List Byte) : Device :=
  let nseg := Nat.max 1 (ceilDiv payload.length 8832)
  let d1 := Device.sendSegments t kind msg status payload.length nseg nseg 0 payload d
  match t.blk with
  | some b => if d.canReply t.rkid then d1.countReply b (kind == 2) payload.length else d1
  | none => d1

/-- The device number that stands for the control owner's `SYS_LAUNCH` as the originator of a record: no device bears it,
and what is sent to it goes nowhere. -/
def sysOrigin : Nat := 512

/-- A message to the originator of a launched request. -/
def Device.toOrigin (d : Device) (dev : Nat) (o : Out) : Device := if dev < sysOrigin then d.send o else d

/-- A reply of a block to the originator of its launched request, which the tenant's meter counts (R343, R370). -/
def Device.replyTo (d : Device) (b dev : Nat) (partly : Bool) (len : Nat) (o : Out) : Device :=
  if dev < sysOrigin then (d.send o).countReply b partly len else d

/-- An error reply (R329) to a datagram's sender, or the failure of a launched request to its originator (R472). -/
def Device.errorReply (d : Device) (b : Nat) (r : Rec) (status : Nat) : Device :=
  match r.origin with
  | some (dev, id) => d.replyTo b dev false 0 (.launchFail dev id (BitVec.ofNat 16 status))
  | none => d.sendMessage (r.replyTo b) 3 0 status []

/-! ## Candidates (R331, R336) -/

/-- The record that a block's queue has at its head. -/
def Block.head (m : Block) : Option Rec := m.recs.head?

/-- Whether a block may be bound as far as its image goes (R186): an installed image, and for a system image a record
that the control owner's `SYS_LAUNCH` has put into the queue. -/
def Device.imageReady (d : Device) (b : Nat) : Bool :=
  let m := d.block b
  match mfind d.tab.images (m.get fImage) with
  | some i => !i.sys || m.recs.any fun r => match r.origin with | some o => o.1 == sysOrigin | none => false
  | none => false

/-- Whether block `b` is a candidate (R331): PREEMPTED, or QUEUED with a head record that is not deferred, its image
ready, and not a migrated copy that waits for its confirmation (R465). -/
def Device.candidate (d : Device) (b : Nat) : Bool :=
  let m := d.block b
  let st := m.get fState
  m.unconfirmed.isNone && d.imageReady b &&
    (st == sPreempted || (st == sQueued && (match m.head with | some r => !r.deferred | none => true)))

/-- The candidates, in increasing index. -/
def Device.candidates (d : Device) : List Nat := (d.tab.blocks.map (·.1)).filter d.candidate

/-- A reservation (R330). -/
def Device.resvOf (d : Device) (r : Nat) : Resv := mget {} d.tab.resv r

/-- What follows a change of the candidates: reservations become backlogged or cease to be (R331), and the claims of
blocks that are no candidates are dropped (R336). -/
def Device.noteCandidates (d : Device) : Device :=
  let cs := d.candidates
  let has (r : Nat) : Bool := cs.any fun b => (d.block b).get fResv == r
  let still := d.tab.resv.filter fun e => e.2.backlogged && has e.1
  let least : Option Nat := still.foldl
    (fun v e => match v with | some x => some (Nat.min x e.2.vt.toNat) | none => some e.2.vt.toNat) none
  let rs := uniq ((d.tab.resv.map (·.1)) ++ cs.map fun b => (d.block b).get fResv)
  let turn (m : Map Resv) (r : Nat) : Map Resv :=
    let e := mget {} m r
    if has r = e.backlogged then m
    else
      let vt := if has r then word (Nat.max e.vt.toNat (least.getD 0)) else e.vt
      mset m r { e with backlogged := has r, vt := vt }
  let keep (e : Nat × Block) : Nat × Block :=
    if cs.contains e.1 then e else (e.1, { e.2 with claim := none, recallAt := none })
  d.updTab fun t => { t with resv := rs.foldl turn t.resv, blocks := t.blocks.map keep }

/-- A bound block RUNNING (R37): what it was restored from is no longer kept, and a gang's member acknowledges its launch
to the originator (R371). -/
def Device.enterRunning (d : Device) (b : Nat) : Device :=
  let d1 := (d.updBlock b fun m => { m with saved := none }).setMstate b sRunning
  match (d.block b).head with
  | none => d1
  | some r =>
    match r.origin, r.gang, d.binding b with
    | some (dev, id), true, some k =>
      if k.gang.isSome then d1
      else (d1.updBinding b fun k => { k with gang := some { origin := dev, id := id, since := d.cycle } }).send
        (.gangAck dev id)
    | _, _, _ => d1

/-! ## The end of a binding (R38, R332) -/

/-- The virtual-time charge of a binding of `n` cells over `dt` cycles (R332). -/
def Device.charge (d : Device) (b n dt : Nat) : Device :=
  let r := (d.block b).get fResv
  let d1 := d.updTab fun t =>
    let e := mget {} t.resv r
    let wt := if e.wt = 0 then 1 else e.wt.toNat
    let e' : Resv := { e with used := e.used + word (n * dt), vt := e.vt + word (ceilDiv (n * dt * 256) wt) }
    { t with resv := mset t.resv r e' }
  d1.updMeter ((d.block b).get fTenant) fun m => { m with ccyc := m.ccyc + word (n * dt) }

/-- A context as a released cell leaves it; its stamps stand (R116). -/
def Ctx.cleared (c : Ctx) : Ctx := { stamp := c.stamp, floor := c.floor }

/-- Cells released by a binding: their FIFOs, contexts and matrix queues empty, their L1s not kept (R64). -/
def Device.freeCells (d : Device) (cells : List Nat) : Device :=
  let cores := cells.flatMap fun c => [2 * c, 2 * c + 1]
  let agents := cores.flatMap fun c => [4 * c, 4 * c + 1, 4 * c + 2, 4 * c + 3]
  let d1 := cells.foldl (fun x c => x.updCell c fun e => { e with held := none, up := {}, down := {} }) d
  let d2 := agents.foldl (fun x a => x.setCtx a (x.ctx a).cleared) d1
  cores.foldl (fun x c => x.updCore c fun e => { e with mq := [], l1 := [] }) d2

/-- The cells of a binding released and its contexts, queues and operations gone; the block is no longer bound. -/
def Device.release (d : Device) (b : Nat) : Device :=
  match d.binding b with
  | none => d
  | some k =>
    let d1 := (d.charge b (groupCells k.shape.toNat k.prot) (d.cycle - k.since)).freeCells k.cells
    let mine (e : Nat × List ReadyEnt) : Nat × List ReadyEnt := (e.1, e.2.filter fun x => x.blk != b)
    let d2 : Device := { d1 with ready := d1.ready.map mine, ops := d1.ops.filter fun o => o.blk != b }
    (d2.dropBinding b).updBlock b fun m => ({ m with part := {} }.set fBound 0).set fGbase 0

/-- The head record gone: `qhead` past it and `qcnt` lower by its units (R327). -/
def Device.popHead (d : Device) (b : Nat) : Device :=
  d.updBlock b fun m =>
    match m.recs with
    | [] => m
    | r :: rest =>
      let n := 2 ^ m.get fQlog
      ({ m with recs := rest }.set fQhead ((m.get fQhead + r.units) % n)).set fQcnt (m.get fQcnt - r.units)

/-- The abandoned records at the head of a block's queue gone (R461). -/
def Device.skipAbandoned (d : Device) (b : Nat) : Device :=
  ((d.block b).recs.takeWhile (·.abandoned)).foldl (fun x _ => x.popHead b) d

/-- A kill (R416, steps 1, 2 and 4): the binding stops and its cells are free; each record that is done receives an
error reply with status 2, and an abandoned one none. The block becomes DEAD. -/
def Device.killBlock (d : Device) (b : Nat) : Device :=
  let recs := (d.block b).recs
  let bound := (d.binding b).isSome
  let d1 := d.release b
  let replies := recs.zipIdx.foldl (fun x e =>
    if (e.1.done || (bound && e.2 == 0)) && !e.1.abandoned then x.errorReply b e.1 2 else x) d1
  ((replies.updBlock b fun m =>
    { m with recs := (recs.zipIdx.filter fun e => !(e.1.done || (bound && e.2 == 0)) && !e.1.abandoned).map (·.1)
             saved := none, claim := none, recallAt := none, retire := false }).setMstate b sDead).noteCandidates

/-- A rung-3 kill (R416): the counts of step 3 and the kill. -/
def Device.kill (d : Device) (b : Nat) (cause : BitVec 8) : Device := (d.noteAbort b cause).killBlock b

end Sys2Proof.Machine
end

