-- ==== Sys2Proof/Machine/TaskOps.lean ====
section
/-! DEFINITION. Task records, the ready queue, re-arming and decrements (R43 to R49, R259, R439, R440), deliveries at
rung 3 (R416, R427), and a task's commit (R53, R136) on the device. -/

namespace Sys2Proof.Machine

/-- An address field of bits 56:0 as a 64-bit virtual address (R5, R91). -/
def va57 (n : Nat) : Word := (BitVec.ofNat 57 n).signExtend 64

/-! ## Deliveries of kind K (R421, R427) -/

/-- A delivery queued for the trap routine, to a parked task, to a pinned task on a context, or to a task of its own; or the
kill of a micro-context that has no routine (R416). -/
def Device.kQueueFor (d : Device) (b : Nat) (cause : BitVec 8) (val : Word) (ent : Option ReadyEnt) (pinned : Option Nat) :
    Device :=
  if (d.block b).get fTrapva = 0 then d.kill b cause
  else d.updBinding b fun k =>
    { k with kdel := k.kdel ++ [{ cause := cause, val := val, since := d.cycle, ent := ent, pinned := pinned }] }

/-- A delivery that no pinned task takes. -/
def Device.kQueue (d : Device) (b : Nat) (cause : BitVec 8) (val : Word) (ent : Option ReadyEnt) : Device :=
  d.kQueueFor b cause val ent none

/-- A delivery at rung 3 of kind K (R416, R427): its record, and the delivery queued for the trap routine, or the kill
when the micro-context has none. -/
def Device.kDeliver (d : Device) (cls b agent : Nat) (cause : BitVec 8) (val : Word) (ent : Option ReadyEnt) : Device :=
  (d.postBlock cls 3 b agent cause val).kQueue b cause val ent

/-! ## Parking (R95, R455, R463) -/

/-- The record of the failed fetch of a page, if the Pilot has left it absent (R463). -/
def Device.failedFetch (d : Device) (b : Nat) (va : Word) : Option Word :=
  match findEnt (d.window b) va with
  | none => none
  | some e =>
    (d.tab.fetches.find? fun f => f.blk == b && f.failed.isSome && f.va == pageBase e.sz (bits va 56 0)).bind (·.failed)

/-- A task parked on an absent page (R95); one that touches a page whose fetch has failed is delivered to, with the `seq` of
the Pilot's record (R463). -/
def Device.park (d : Device) (b : Nat) (va : Word) (ent : ReadyEnt) : Device :=
  match d.failedFetch b va with
  | some seq => d.kQueue b cERRASYNC seq (some ent)
  | none => d.updBinding b fun k => { k with parked := k.parked ++ [{ va := some (bits va 56 0), ent := ent }] }

/-- A pinned task on context `a` that touches a page whose fetch has failed, delivered to in its turn (R463). -/
def Device.lateTouch (d : Device) (b a : Nat) (va : Word) : Device :=
  match d.failedFetch b va with
  | some seq => d.kQueueFor b cERRASYNC seq none (some a)
  | none => d

/-! ## The ready queue (R46, R439, R440) -/

/-- An entry placed at the tail of its cluster's ready queue, or deferred while that is full (R46, R440). -/
def Device.enqueue (d : Device) (e : ReadyEnt) : Device :=
  match d.binding e.blk with
  | none => d
  | some k =>
    let c := k.cluster e.lclus
    if (d.readyQ c).length ≥ 4096 then
      d.setBinding e.blk { k with deferred := k.deferred ++ [{ cluster := c, ent := e, since := d.cycle }] }
    else d.setReady c (d.readyQ c ++ [e])

/-- The four header doublewords of a task record (R43). -/
structure TaskRec where
  w0 : Word
  w1 : Word
  w2 : Word
  w3 : Word
  deriving DecidableEq, Repr

/-- The doubleword at an offset of some bytes. -/
def dwAt (bs : List Byte) (off : Nat) : Word := word (ofBytes ((bs.drop off).take 8))

/-- The header of a record's 64 bytes. -/
def recOf (bs : List Byte) : TaskRec := ⟨dwAt bs 0, dwAt bs 8, dwAt bs 16, dwAt bs 24⟩

/-- The line of memory that holds an address as the serving hardware reads it under a key, or what its poison makes of the
read (R401, R447). The bytes of remote memory are those that the peer returns: free values by number `n` and use `i`, as is
whether they come poisoned (R81, log entry 10); an unreachable peer's are (R471). -/
def Device.seeLine (d : Device) (n i kid pa : Nat) : Except Stop (List Byte) :=
  if isRemote pa then
    if !d.reachable (peerOf pa) || Config.freeBool n i then .error (.abort cPOISON (word pa))
    else .ok (toBytes (Config.freeLine n i).toNat 64)
  else if (d.line (pa / 64)).poison then .error (.abort cPOISON (word pa))
  else .ok (d.lineUnder (pa / 64) kid)

/-- Poison met at a remote address by agent `a`: a line that a peer returned poisoned enters the fault-address queue with
tier 4 (R447); an access that failed is recorded in class 6 (R471). Poison of a local line is met as R420 says. -/
def Device.remotePoison (d : Device) (a pa : Nat) : Device :=
  if !isRemote pa then (if (d.line (pa / 64)).poison then d.meetPoison (pa / 64) else d)
  else if d.reachable (peerOf pa) then d.faqPush 4 2 (pa / 64)
  else d.postDev 6 0 a 0

/-- The checks of R439 on a record. -/
def recordOk (k : Binding) (r : TaskRec) : Bool :=
  let nargs := bits r.w0 35 32
  let lclus := bits r.w0 28 24
  let cells := shapeCells k.shape.toNat
  bits r.w0 63 36 == 0 && bits r.w0 31 30 == 0 && bits r.w1 63 57 == 0 && bits r.w1 4 0 == 0 && bits r.w2 2 0 == 0 &&
    bits r.w3 31 16 == 0 && decide (nargs ≤ 8) && !(r.w0.getLsbD 29 && lowerOnly k.shape.toNat) &&
    decide (8 * lclus < cells) &&
    ((List.range 8).any fun c => r.w0.getLsbD (16 + c) && decide (8 * lclus + c < cells))

/-- `ready_enqueue` of a record (R439): its checks, then its entry, whose first stamp must exceed `floor` (R122). -/
def Device.readyEnqueue (d : Device) (b va floor : Nat) (r : TaskRec) : Device :=
  match d.binding b with
  | none => d
  | some k =>
    if recordOk k r then
      d.enqueue { blk := b, recVa := va, lclus := bits r.w0 28 24, cmask := r.w0.extractLsb' 16 8,
                  tier := r.w0.getLsbD 29, floor := floor }
    else d.kDeliver 4 b 0 cTASKREC (va57 va) none

/-! ## Re-arming and decrements (R44, R45, R259, R440) -/

/-- The doublewords 0 and 3 of a record after re-arming (R44). -/
def rearm (bseq : BitVec 31) (r : TaskRec) : Word × Word :=
  if r.w3.getLsbD 63 && r.w3.extractLsb' 32 31 != bseq then
    (setBits r.w0 15 0 (bits r.w3 15 0), setBits r.w3 62 32 bseq.toNat)
  else (r.w0, r.w3)

/-- A record's `pred` written with its re-arming, as one returning atomic (R44, R45). -/
def Device.writePred (d : Device) (w : Writer) (pa : Nat) (w0 w3 : Word) : Device :=
  (((d.touchRange w pa 64 false).poke pa (toBytes w0.toNat 8)).poke (pa + 24) (toBytes w3.toNat 8)).published w.st

/-- The change of a record's count performed: written here with its re-arming, or sent to the peer whose memory holds it. -/
def Device.putCount (d : Device) (b : Nat) (w : Writer) (bseq : BitVec 31) (pa : Nat) (w0 w3 : Word) : Device :=
  if isRemote pa then d.sendFor (some b) ⟨peerOf pa, [], some (pa % 2 ^ 42, bseq)⟩ else d.writePred w pa w0 w3

/-- One deferred decrement of a record by `agent` at stamp `w.st` (R44, R45, R259, R439, R440, R447), the `i`-th by free
value `n`. -/
def Device.decrement (d : Device) (b : Nat) (w : Writer) (n i : Nat) (entry : Word) : Except Stop Device :=
  match d.binding b with
  | none => .ok d
  | some k =>
    let va := bits entry 56 0
    if bits entry 63 57 ≠ 0 ∨ bits entry 5 0 ≠ 0 then .ok (d.kDeliver 4 b w.agent cTASKREC (va57 va) none)
    else
      match findEnt (k.seen d.cycle) (va57 va) with
      | none => .ok (d.kDeliver 4 b w.agent cTASKREC (va57 va) none)
      | some e =>
        if e.ab then .error (.abort cABSENT (va57 va))
        else if e.kind ≠ 0 ∨ !e.w then .ok (d.kDeliver 4 b w.agent cTASKREC (va57 va) none)
        else
          let pa := e.pa (va57 va)
          match d.seeLine n (2 * i + 1) e.kid.toNat pa with
          | .error x => .error x
          | .ok bs =>
            let r := recOf bs
            let (w0, w3) := rearm k.bseq r
            let w' := { w with kid := e.kid.toNat }
            if bits w0 15 0 = 0 then
              .ok ((d.putCount b w' k.bseq pa w0 w3).postBlock 4 0 b w.agent cPREDZ (va57 va))
            else
              let left := bits w0 15 0 - 1
              let w0' := setBits w0 15 0 left
              let d1 := d.putCount b w' k.bseq pa w0' w3
              .ok (if left = 0 then d1.readyEnqueue b va w.st { r with w0 := w0', w3 := w3 } else d1)

/-- Decrements in list order. -/
def Device.decrements (d : Device) (b : Nat) (w : Writer) (n : Nat) : Nat → List Word → Except Stop Device
  | _, [] => .ok d
  | i, e :: r => match d.decrement b w n i e with
    | .ok d1 => d1.decrements b w n (i + 1) r
    | .error x => .error x

/-- The entries of a record's successor list, read through the window (R43, R45, R447), of remote lines by free value
`x`. -/
def Device.succList (d : Device) (k : Binding) (x : Nat) (r : TaskRec) : Nat → Nat → Except Stop (List Word)
  | 0, _ => .ok []
  | n + 1, i =>
    let va := va57 (bits r.w2 56 3 * 8 + 8 * i)
    match translateIn (k.seen d.cycle) .load 1 va 8 with
    | .error (c, y) => if c = cABSENT then .error (.abort cABSENT y) else .ok [BitVec.allOnes 64]
    | .ok ps =>
      let p := ps.headD ⟨va, 0, 8, 0, 0⟩
      match d.seeLine x (2 * (p.pa / 64)) p.kid p.pa with
      | .error y => .error y
      | .ok bs =>
        match d.succList k x r n (i + 1) with
        | .ok rest => .ok (dwAt bs (p.pa % 64) :: rest)
        | .error y => .error y

/-- The lines of the records that entries name, where the window maps them. -/
def recordLines (k : Binding) (es : List Word) : List Nat :=
  es.flatMap fun e =>
    match findEnt k.win (va57 (bits e 56 0)) with
    | some w => if w.ab then [] else [w.pa (va57 (bits e 56 0)) / 64]
    | none => []

/-! ## Task commit (R45, R53, R121, R136, R139, R455) -/

/-- The operations a task would publish. -/
def Task.ops (t : Task) : List BufOp := t.buf

/-- The versioned lines a list of operations writes (R136). -/
def versionedLines (ops : List BufOp) : List Nat := (bufLines ops).filter fun l => lineVersioned ops l

/-- The first versioned line of a write set with a version after stamp `s` of agent `a` (R136). -/
def Device.conflict (d : Device) (ops : List BufOp) (s a : Nat) : Option Nat :=
  (versionedLines ops).find? fun l => d.newerVersion l s a

/-- The virtual address of the first operation that writes a line. -/
def lineVa (ops : List BufOp) (l : Nat) : Word :=
  match ops.find? fun o => (linesOf o.pa o.kind.len).contains l with
  | some o => o.lineVa l
  | none => word (l * 64)

/-- The successor list of a task's record as its commit finds it, with the record's place (R45): none for a task without a
record. -/
def Device.successors (d : Device) (k : Binding) (n : Nat) (t : Task) : Except Stop (List Word) :=
  if t.kdel ∨ t.tiled then .ok []
  else
    match translateIn (k.seen d.cycle) .load 1 (va57 t.recVa) 64 with
    | .error (c, x) => if c = cABSENT then .error (.abort cABSENT x) else .ok []
    | .ok ps =>
      let p := ps.headD ⟨0, 0, 64, 0, 0⟩
      match d.seeLine n (2 * (p.pa / 64)) p.kid p.pa with
      | .error x => .error x
      | .ok bs => let r := recOf bs; d.succList k n r (bits r.w2 63 57) 0

/-- The commit of a task held by context `a` (R53, R136): every buffered address translated (R97), validation, the commit
stamp, publication, the successor decrements and the `TSPAWN` names, and the engine operations that may now write (R54).
The answer is the device and the commit stamp; the context itself is left to the caller. -/
def Device.commitTask (d : Device) (a n : Nat) (t : Task) : Except Stop (Device × Nat) :=
  let c := d.ctx a
  let blk := d.block t.blk
  match t.buf.find? (·.stale) with
  | some o => .error (.abort cABSENT (word o.va))
  | none =>
  match (match t.snapS with | some s => d.conflict t.buf s a | none => none) with
  | some l => .error (.abort cCONFLICT (lineVa t.buf l))
  | none =>
    match d.firstShort ⟨a, 0, some t.blk, 0⟩ (blk.get fTenant) t.buf with
    | some l => .error (.abort cVHEAP (lineVa t.buf l))
    | none =>
      let k := (d.binding t.blk).getD { gbase := 0 }
      match (d.applied t.buf).successors k n t with
      | .error x => .error x
      | .ok es =>
        let all := es ++ t.spawns.map fun v => word (v % 2 ^ 57)
        let lines := (bufLines t.buf ++ recordLines k all).filter fun l => isLocal (l * 64)
        let st := stampAbove n (Nat.max (d.writeFloor lines) (Nat.max c.stamp c.floor))
        let w : Writer := ⟨a, st, some t.blk, 0⟩
        let d1 := { d.publish w t.buf with top := Nat.max d.top st }
        match d1.decrements t.blk w n 0 all with
        | .error x => .error x
        | .ok d2 =>
          let free (o : EngOp) : EngOp :=
            if o.agent = a ∧ o.blk = t.blk ∧ o.tasked then { o with held := false, tasked := false } else o
          let d3 := { d2 with ops := d2.ops.map free }
          let d4 := d3.noteQsc.updBinding t.blk fun k => { k with committing := k.committing ++ [{ agent := a, st := st, snap := t.snapS }] }
          .ok (d4.updCtx a fun c => { c with stamp := st }, st)

/-! ## Loading a task (R47, R58, R122, R222) -/

/-- The registers that a record's 64 bytes give at its task's start (R47, R222); `nt0` to `nt3`, which R47 does not name,
keep their values. -/
def startRegs (bs : List Byte) (old : Regs) (va fcsr : Word) : Regs :=
  let r := recOf bs
  let n := bits r.w0 35 32
  let arg (j : Nat) : Word := if j < n then word (ofBytes ((bs.drop (32 + 4 * j)).take 4)) else 0
  { old with
    pc := va57 (bits r.w1 56 5 * 32)
    s := ((List.range 8).map fun j => (j + 1, arg j)) ++ [(9, va)]
    p := 1
    k := (List.range 7).map fun j => (j + 1, BitVec.allOnes 64)
    lk := 0
    fcsr := fcsr
    lpc0 := 0
    lpc1 := 0 }

/-- The registers of a K-delivery task (R427): those of R47 with every argument zero. -/
def kRegs (old : Regs) (trapva fcsr : Word) : Regs :=
  { old with
    pc := trapva, s := [], p := 1, k := (List.range 7).map fun j => (j + 1, BitVec.allOnes 64), lk := 0, fcsr := fcsr,
    lpc0 := 0, lpc1 := 0 }

/-- The default `fcsr` of a block's image (R47). -/
def Device.imageFcsr (d : Device) (b : Nat) : Word := (mget {} d.tab.images ((d.block b).get fImage)).fcsr

/-- A context that has taken a task with restart point `r` (R47, R58, R222, R230, R238): READY, with nothing buffered. -/
def Ctx.load (c : Ctx) (e : ReadyEnt) (r : Restart) : Ctx :=
  { c with
    run := .ready, regs := r.regs, trap := { r.trap with tscr := c.trap.tscr }, segOpen := false, seg := {}, event := false,
    floor := Nat.max c.floor e.floor, pend := none, far := c.far,
    task := some { blk := e.blk, recVa := e.recVa, restart := r, kdel := e.kdel, errAborts := e.errAborts,
                   vheapAborts := e.vheapAborts, tiled := e.tiled, tile := e.tile, lclus := e.lclus, cmask := e.cmask,
                   tier := e.tier } }

end Sys2Proof.Machine
end

