-- ==== Sys2Proof/Machine/Ops.lean ====
section
/-! DEFINITION. The shared operations of a slot: the registers it reads and writes (R177, R188, R189), taking a trap and
returning from it (R424 to R427, R237), aborts (R433 to R435), stamps (R116, R117), translated loads and stores (R120,
R135, R240, R245), the scratchpad (R74 to R76, R132, R133) and pins (R257). -/

namespace Sys2Proof.Machine

/-! ## The bundle at hand -/

/-- The context of a core that is ISSUING, or its first context when none is (R50). -/
def Device.issuer (d : Device) (core : Nat) : Nat :=
  match [0, 1, 2, 3].find? fun c => (d.ctx (4 * core + c)).run == .issuing with
  | some c => 4 * core + c
  | none => 4 * core

/-- The agent identifier of the context whose slot is at hand. -/
def State.me (s : State) : Nat :=
  match s.bundle with
  | some b => b.agent
  | none => s.dev.issuer s.focus

/-- The device as it stood before the bundle, which every slot reads (R177). -/
def State.before (s : State) : Device :=
  match s.bundle with
  | some b => b.pre
  | none => s.dev

/-- The bundle at hand, or the bundle of one slot that stands at the context's `pc`. -/
def State.bun (s : State) : Bundle :=
  match s.bundle with
  | some b => b
  | none =>
    { pre := s.dev, agent := s.dev.issuer s.focus, start := (s.dev.ctx (s.dev.issuer s.focus)).regs.pc,
      next := (s.dev.ctx (s.dev.issuer s.focus)).regs.pc + 4 }

/-- The state with the bundle at hand changed. -/
def State.updBun (s : State) (f : Bundle → Bundle) : State := { s with bundle := some (f s.bun) }

/-- The context as the bundle's slots read it. -/
def State.ctx0 (s : State) : Ctx := s.before.ctx s.me

/-- The context with the effects of the bundle's earlier slots. -/
def State.ctx (s : State) : Ctx := s.dev.ctx s.me

/-- The state with the context changed. -/
def State.updMe (s : State) (f : Ctx → Ctx) : State := { s with dev := s.dev.updCtx s.me f }

/-- The state with the context's registers changed. -/
def State.updRegs (s : State) (f : Regs → Regs) : State := s.updMe fun c => { c with regs := f c.regs }

/-- The state with the context's task, if it has one, changed. -/
def State.updTask (s : State) (f : Task → Task) : State := s.updMe fun c => { c with task := c.task.map f }

/-- The next free value's number, and the state after it (log entries 6 to 8). -/
def State.draw (s : State) : State × Nat := ({ s with free := s.free + 1 }, s.free)

/-! ## Registers (R188, R189) -/

/-- A scalar as it stood before the bundle; `s0` reads zero. -/
def Regs.sreg (r : Regs) (n : BitVec 6) : Word := if n = 0 then 0 else mget 0 r.s n.toNat

/-- A predicate as it stood before the bundle; `p0` reads true. -/
def Regs.preg (r : Regs) (n : BitVec 3) : Bool := n == 0 || r.p.getLsbD n.toNat

/-- A mask; `k0` names all lanes. -/
def Regs.kreg (r : Regs) (n : BitVec 3) : Word := if n = 0 then BitVec.allOnes 64 else mget 0 r.k n.toNat

/-- Scalar `n` as the slots of the bundle read it. -/
def State.sreg (s : State) (n : BitVec 6) : Word := s.ctx0.regs.sreg n

/-- Predicate `n` as the slots of the bundle read it. -/
def State.preg (s : State) (n : BitVec 3) : Bool := s.ctx0.regs.preg n

/-- Mask `n` as the slots of the bundle read it. -/
def State.kreg (s : State) (n : BitVec 3) : Word := s.ctx0.regs.kreg n

/-- Vector register `n` as the slots of the bundle read it. -/
def State.vreg (s : State) (n : BitVec 6) : VReg := mget {} s.ctx0.v n.toNat

/-- Registers with scalar `n` written; a write to `s0` is discarded (R189). -/
def Regs.setS (r : Regs) (n : BitVec 6) (v : Word) : Regs := if n = 0 then r else { r with s := mset r.s n.toNat v }

/-- Registers with predicate `n` written; a write to `p0` is discarded. -/
def Regs.setP (r : Regs) (n : BitVec 3) (v : Bool) : Regs :=
  if n = 0 then r else { r with p := setBits r.p n.toNat n.toNat (b2n v) }

/-- Registers with mask `n` written. -/
def Regs.setK (r : Regs) (n : BitVec 3) (v : Word) : Regs := { r with k := mset r.k n.toNat v }

/-- Scalar `n` written. -/
def State.setS (s : State) (n : BitVec 6) (v : Word) : State := s.updRegs fun r => r.setS n v

/-- Predicate `n` written. -/
def State.setP (s : State) (n : BitVec 3) (v : Bool) : State := s.updRegs fun r => r.setP n v

/-- Mask `n` written. -/
def State.setK (s : State) (n : BitVec 3) (v : Word) : State := s.updRegs fun r => r.setK n v

/-- A context with vector register `n` written. -/
def Ctx.setV (c : Ctx) (n : BitVec 6) (v : VReg) : Ctx := { c with v := mset c.v n.toNat v }

/-- Vector register `n` written with its tag. -/
def State.setV (s : State) (n : BitVec 6) (v : VReg) : State := s.updMe fun c => c.setV n v

/-- Sticky flags to be raised at the bundle's commit (R12, R177). -/
def State.raise (s : State) (f : Flags) : State :=
  if f = 0 then s else s.updBun fun b => { b with flags := b.flags ||| f }

/-- The seed for the next stochastic draw of the bundle (R165). -/
def State.seed (s : State) : BitVec 32 :=
  match s.bun.seed with
  | some x => x
  | none => seedOf s.ctx0.regs.fcsr

/-- The seed after draws of a slot. -/
def State.setSeed (s : State) (x : BitVec 32) : State :=
  if x = s.seed then s else s.updBun fun b => { b with seed := some x }

/-! ## Which block a context works for -/

/-- The block of a context: its task's, or that of the binding that holds its cell. -/
def Device.blockOf (d : Device) (a : Nat) : Option Nat :=
  match (d.ctx a).task with
  | some t => some t.blk
  | none => d.holder (coreOf a)

/-- The block of the context at hand; 0 when it has none. -/
def State.blk (s : State) : Nat := (s.before.blockOf s.me).getD 0

/-- The binding of the context at hand. -/
def State.binding (s : State) : Binding := (s.dev.binding s.blk).getD { gbase := 0 }

/-- The mode of the context at hand (R186). -/
def State.mode (s : State) : BitVec 2 := s.ctx0.trap.mode

/-! ## Issue among the contexts of a core (R51) -/

/-- The next READY context of the core made ISSUING, upward from context `a` modulo 4, unless one issues (R51). Of a core
on which none issues and none has just given up issue, R51 does not say which of several READY contexts is its first:
the callers count from context 3, so the lowest-numbered READY one issues (DESIGN CHOICE, log entry 107). -/
def Device.passIssue (d : Device) (a : Nat) : Device :=
  let core := coreOf a
  let order := [1, 2, 3, 0].map fun i => 4 * core + (a + i) % 4
  if order.any fun x => (d.ctx x).run == .issuing then d
  else
    match order.find? fun x => (d.ctx x).run == .ready with
    | some x => d.updCtx x fun c => { c with run := .issuing }
    | none => d

/-- Context `a` in a run state other than ISSUING, and issue passed on if it held it. -/
def Device.leave (d : Device) (a : Nat) (r : RunState) : Device :=
  let was := (d.ctx a).run == .issuing
  let d1 := d.updCtx a fun c => { c with run := r }
  if was then d1.passIssue a else d1

/-- A context without a task: what it keeps is what R47, R433 and R116 say it keeps. -/
def Ctx.unload (c : Ctx) : Ctx :=
  { c with task := none, segOpen := false, seg := {}, trap := { c.trap with mode := 0 }, pend := none, trapAt := none,
           thenWaits := [], lastPc := none, due := [] }

/-! ## Taking a trap and returning from it (R424 to R427, R237) -/

/-- A class-4 record of a trap that kills (R424, R426). -/
def Device.trapRecord (d : Device) (b a : Nat) (cause : BitVec 8) (pc aux : Word) : Device :=
  d.post { cls := 4, rung := 3, agent := BitVec.ofNat 16 a, cause := cause, stamp := word (d.ctx a).stamp,
           pc := pc.setWidth 57, mctx := d.who b, aux := aux }

/-- `tcause` of a slot and cause (R193). -/
def tcauseOf (slot : Nat) (cause : BitVec 8) : Word := word (slot % 8 * 2 ^ 13 + cause.toNat)

/-- A context that has entered the trap routine at `trapva` (R424): the saved address and cause, trap mode, and nothing
else changed; a trap in system mode keeps the mode, as its return does (R237). -/
def Ctx.enterTrap (c : Ctx) (trapva tcause val epc : Word) : Ctx :=
  { c with trap := { c.trap with mode := if c.trap.mode = 2 then 2 else 1, tcause := tcause, tepc := epc, tval := val },
           regs := { c.regs with pc := trapva } }

/-- Whether a pre-emption of the binding that holds context `a` stops the context at its next bundle boundary (R64): in a
protected segment it runs on. -/
def Device.stopping (d : Device) (b a : Nat) : Bool :=
  match d.binding b with
  | some k => k.preempt.isSome && !(k.prot && (d.ctx a).segOpen)
  | none => false

/-- A trap held pending at a context, stopped at `p.epc` (R236, R428). -/
def Ctx.holdTrap (c : Ctx) (p : PendTrap) : Ctx := { c with pend := some p, regs := { c.regs with pc := p.epc } }

/-- A trap without a routine to enter: in trap mode, or with `trapva` zero (R424, R426). -/
def Device.trapKills (d : Device) (b a : Nat) : Bool := (d.ctx a).trap.mode == 1 || (d.block b).get fTrapva == 0

/-- The routine entered for a trap of context `a` (R424), with what a pre-emption request that may still come in the cycle
gives back. -/
def Device.enterRoutine (d : Device) (b a : Nat) (p : PendTrap) : Device :=
  d.updCtx a fun c =>
    { c.enterTrap (va57 ((d.block b).get fTrapva * 32)) (tcauseOf p.slot p.cause) p.val p.epc with
      trapAt := some { cycle := d.cycle, pend := p, trap := c.trap, pc := p.epc } }

/-- The delivery of a synchronous trap to context `a` (R424, R426). A trap in the cycle of a pre-emption request is held
pending (R236, R428); as a request may still come in its cycle, one that is to kill the micro-context is held until the
core turns to the context again. -/
def Device.trapEntry (d : Device) (a slot : Nat) (cause : BitVec 8) (val epc : Word) : Device :=
  let p : PendTrap := ⟨slot, cause, val, epc⟩
  match d.blockOf a with
  | none => d.leave a .vacant
  | some b => if d.stopping b a || d.trapKills b a then d.updCtx a fun c => c.holdTrap p else d.enterRoutine b a p

/-- A trap that was held pending delivered before any bundle of its context issues (R236, R428): the routine entered, or the
kill of the micro-context (R424, R426). -/
def Device.trapDeliver (d0 : Device) (a : Nat) (p : PendTrap) : Device :=
  let d := d0.updCtx a fun c => { c with pend := none }
  match d.blockOf a with
  | none => d.leave a .vacant
  | some b =>
    if d.stopping b a then d0
    else if d.trapKills b a then
      (d.trapRecord b a p.cause p.epc (if (d.ctx a).trap.mode = 1 then (d.ctx a).trap.tcause else 0)).kill b p.cause
    else d.enterRoutine b a p

/-- A delivery at rung 3 to the context of a failed task (R416, R427): its registers from the restart point, and the
trap routine entered in its place. In trap mode it counts as a trap there, and kills (R426, R428). -/
def Device.asyncTrap (d : Device) (a : Nat) (cause : BitVec 8) (val : Word) : Device :=
  match (d.ctx a).task with
  | none => d
  | some t =>
    let tva := (d.block t.blk).get fTrapva
    if (d.ctx a).trap.mode = 1 then (d.trapRecord t.blk a cause (d.ctx a).regs.pc (d.ctx a).trap.tcause).kill t.blk cause
    else if tva = 0 then d.kill t.blk cause
    else d.updCtx a fun c =>
      { c with
        regs := { t.restart.regs with pc := va57 (tva * 32) }, segOpen := false, seg := {}, pend := none, trapAt := none,
        ntDue := [], thenWaits := [], lastPc := none, due := [],
        run := (match c.run with | .blocked _ => .ready | r => r),
        trap := { c.trap with mode := if c.trap.mode = 2 then 2 else 1, tcause := tcauseOf 0 cause,
                              tepc := t.restart.regs.pc, tval := val } }

/-! ## Engine operations of a context -/

/-- A number of a timeline completed or cancelled. -/
def Timeline.drop (t : Timeline) (n : Nat) : Timeline := { t with live := t.live.filter (· != n) }

/-- A number of a timeline completed at a stamp with flags (R128, R130). -/
def Timeline.finish (t : Timeline) (n st : Nat) (flags : BitVec 6) : Timeline :=
  { t.drop n with stamps := t.stamps ++ [(n, st)], flags := if flags = 0 then t.flags else t.flags ++ [(n, flags)] }

/-- A number of a timeline that faulted at a stamp (R437): complete, with no flags, and marked. -/
def Timeline.faulted (t : Timeline) (n st : Nat) (cause : BitVec 8) : Timeline :=
  { t.finish n st 0 with fault := t.fault ++ [(n, cause)] }

/-- The operations of context `a` that satisfy a test cancelled (R128, R319): no further writes, no decrement and no
arrival, and their numbers complete. -/
def Device.cancelOps (d : Device) (a : Nat) (p : EngOp → Bool) : Device :=
  let dead := d.ops.filter fun o => o.agent == a && p o
  let d1 : Device := { d with ops := d.ops.filter fun o => !(o.agent == a && p o) }
  dead.foldl (fun x o => x.updCtx a fun c =>
    { c with event := true, tls := mset c.tls o.e ((mget {} c.tls o.e).finish o.num d.top 0) }) d1

/-- The `EDEP` and `EBAR` attachments of a context that no `EGO` has used (R319, R433). -/
def Ctx.dropPending (c : Ctx) : Ctx := { c with tls := c.tls.map fun e => (e.1, { e.2 with succ := [], bar := none }) }

/-- The flags of a context's operations that no wait has observed, discarded at its task's end (R130). -/
def Device.dropFlags (d : Device) (a : Nat) : Device :=
  let d1 := d.updCtx a fun c => { c with tls := c.tls.map fun e => (e.1, { e.2 with flags := [] }) }
  d1.updCore (coreOf a) fun k => { k with mq := k.mq.map fun m => if m.ctx = a then { m with tasked := false } else m }

/-! ## A pending fault at the end of a task (R437) -/

/-- The delivery of kind K for a faulted engine operation whose task has retired (R437): `aux` is the engine's cause. -/
def Device.efault (d : Device) (b a n : Nat) (cause : BitVec 8) : Device :=
  let d1 := d.post { cls := if cause = cPOISON then 3 else 4, rung := 3, agent := BitVec.ofNat 16 a, cause := cEFAULT,
                     stamp := word (d.ctx a).stamp, mctx := d.who b, aux := cause.zeroExtend 64 }
  if (d.block b).get fTrapva = 0 then d1.kill b cEFAULT
  else d1.updBinding b fun k => { k with kdel := k.kdel ++ [{ cause := cEFAULT, val := word n, since := d.cycle }] }

/-- The faults of a context's engine contexts that no wait has observed, delivered, and their marks cleared (R437). -/
def Device.efaults (d : Device) (b a : Nat) : Device :=
  let d1 := d.updCtx a fun c => { c with tls := c.tls.map fun e => (e.1, { e.2 with fault := [] }) }
  ((d.ctx a).tls.flatMap fun e => e.2.fault).foldl (fun x f => x.efault b a f.1 f.2) d1

/-! ## Aborts (R433 to R436, R455) -/

/-- The ready-queue entry of a task that restarts from its restart point. -/
def Task.again (t : Task) (c : Ctx) (errs vh : Nat) : ReadyEnt :=
  { blk := t.blk, recVa := t.recVa, lclus := t.lclus, cmask := t.cmask, tier := t.tier, floor := Nat.max c.stamp c.floor,
    resume := some t.restart, kdel := t.kdel, tiled := t.tiled, tile := t.tile, errAborts := errs, vheapAborts := vh }

/-- An unpinned task placed where its abort puts it: parked on an absent page or for the version heap, and otherwise at
the tail of its ready queue (R95, R433, R455). -/
def Device.requeue (d : Device) (cause : BitVec 8) (val : Word) (e : ReadyEnt) : Device :=
  if cause = cABSENT then
    match d.repair e.blk val with
    | .present d1 => d1.enqueue e
    | .parked d1 => d1.park e.blk val e
  else if cause = cVHEAP then
    d.updBinding e.blk fun k => { k with parked := k.parked ++ [{ va := none, ent := e, since := d.cycle }] }
  else d.enqueue e

/-- `abort_task` on an unpinned task (R433): the counts and the record, its engine operations cancelled, and the task
requeued; the third abort for an error, and the 16th for the version heap, take rung 3 instead (R415, R455). -/
def Device.abortTask (d : Device) (a : Nat) (cause : BitVec 8) (val : Word) : Device :=
  match (d.ctx a).task with
  | none => d.leave a .vacant
  | some t =>
    let errs := if cause = cPOISON ∨ cause = cERROR then t.errAborts + 1 else t.errAborts
    let vh := if cause = cVHEAP then t.vheapAborts + 1 else 0
    let d1 := (d.noteAbort t.blk cause).meterAbort t.blk
    let d2 :=
      if cause = cPOISON then
        d1.post { cls := 3, rung := 2, agent := BitVec.ofNat 16 a, cause := cause, stamp := word (d.ctx a).stamp,
                  pa := some (val.setWidth 52), mctx := d.who t.blk, aux := val }
      else if cause = cVHEAP then d1.postBlock 5 2 t.blk a cause val
      else if cause = cGANG then d1.postBlock 6 2 t.blk a cause val
      else d1
    let d3 := ((d2.cancelOps a fun o => o.tasked).updCtx a Ctx.dropPending).dropFlags a
    if 3 ≤ errs ∨ 16 ≤ vh then
      let seq := d3.nextSeq
      let d4 := d3.postBlock (if 16 ≤ vh then 5 else 3) 3 t.blk a cABORTLIM seq
      (d4.updCtx a fun c =>
        { c with task := some { t with buf := [], span := none, sel := none, spawns := [], errAborts := 0, vheapAborts := 0 },
                 trap := { c.trap with mode := 0 } }).asyncTrap a cABORTLIM seq
    else
      let e := t.again (d.ctx a) errs vh
      ((d3.updCtx a fun c => { c.unload with ntDue := [] }).leave a .vacant).requeue cause val e

/-- An abort's cause met by the task of context `a` (R95, R401, R425, R435): a firm pin keeps the task from being
aborted. -/
def Device.abortOr (d0 : Device) (a : Nat) (cause : BitVec 8) (val : Word) : Device :=
  let d := if cause = cPOISON then d0.remotePoison a val.toNat else d0
  match (d.ctx a).task with
  | none => d.abortTask a cause val
  | some t =>
    if cause = cTRAPRQ ∧ t.kdel then
      (((((d.cancelOps a fun o => o.tasked).updCtx a Ctx.dropPending).dropFlags a).updCtx a Ctx.unload).leave a .vacant).efaults t.blk a
    else if t.pin ≠ .firm then
      d.abortTask a cause val
    else if cause = cABSENT then
      match d.repair t.blk val with
      | .present d1 => d1.leave a .ready
      | .parked d1 => (d1.leave a (.blocked (.absent (bits val 56 0)))).lateTouch t.blk a val
    else if cause = cTRAPRQ then (d.postBlock 4 3 t.blk a cause 0).kill t.blk cause
    else if cause = cPOISON then
      let seq := d.nextSeq
      (d.post { cls := 3, rung := 3, agent := BitVec.ofNat 16 a, cause := cause, stamp := word (d.ctx a).stamp,
                pa := some (val.setWidth 52), mctx := d.who t.blk, aux := val }).asyncTrap a cERRASYNC seq
    else d.abortTask a cause val

/-! ## Rewinds (R402 to R406, R414) -/

/-- The matrix-queue entries of the open segment of context `a`, none of which has started, withdrawn: the re-issued
segment issues them again (R404, R414). -/
def Device.withdraw (d : Device) (a : Nat) : Device :=
  let gone := (d.core (coreOf a)).mq.filter fun m => m.ctx == a && m.inSeg
  let d1 := d.updCore (coreOf a) fun k => { k with mq := k.mq.filter fun m => !(m.ctx == a && m.inSeg) }
  gone.foldl (fun x m => x.updCtx a fun c => { c with tls := mset c.tls m.e ((mget {} c.tls m.e).drop m.num) }) d1

/-- A context put back to the entry of its open segment (R404): the state that `SEGB` recorded, with the replay log. -/
def Ctx.toEntry (c : Ctx) : Ctx :=
  let g := c.seg
  let back (t : Task) : Task := { t with span := g.entrySpan, sel := g.entrySel, spawns := g.entrySpawns }
  { c with regs := g.entry, v := g.entryV, mp := g.entryMp, slds := [], task := c.task.map back, thenWaits := [],
           seg := { g with held := [], bundles := 0, ext := 0, replay := some 0 },
           trap := { c.trap with mode := if c.trap.mode = 2 then 2 else 0 }, trapAt := none, lastPc := none, due := [] }

/-- Rung 2 for the task of a context, or rung 3 when it holds a firm pin (R413 to R416, R435, R436). -/
def Device.failTask (d : Device) (a : Nat) (seq : Word) : Device :=
  match (d.ctx a).task with
  | some t => if t.pin ≠ .firm then d.abortTask a cERROR seq else d.asyncTrap a cERRASYNC seq
  | none => d

/-- Whether a context's pair has been rewound and has not issued its `SEGB` bundle again: what is detected in the same
segment until then is the same one rewind (R404, R420). -/
def Ctx.rewound (c : Ctx) : Bool := c.segOpen && c.seg.stopped.isSome

/-- Whether rung 1 applies to a context's open segment (R406, R414). -/
def Ctx.rungOne (c : Ctx) : Bool := c.segOpen && !c.seg.matrix && (c.rewound || decide (c.seg.rewinds < 2))

/-- The rewinds of a context's segment instance with the one that a detection at rung 1 makes (R407, R420). -/
def Ctx.rewindsNow (c : Ctx) (one : Bool) : Nat := if one && !c.rewound then c.seg.rewinds + 1 else c.seg.rewinds

/-- A detection in the pair of context `a` (R402, R404, R406, R414): the rewind of its open segment, or the abort of its
task where rung 1 does not apply. The record is written by the caller. -/
def Device.rewind (d : Device) (a : Nat) (seq : Word) : Device :=
  let c := d.ctx a
  let prot : Bool := match d.blockOf a with | some b => (match d.binding b with | some k => k.prot | none => false) | none => false
  if c.rewound then d
  else if prot ∧ c.segOpen ∧ !c.seg.matrix ∧ c.seg.rewinds < 2 then
    let d1 := (d.withdraw a).updCtx a fun c =>
      let e := c.toEntry
      { e with seg := { e.seg with rewinds := c.seg.rewinds + 1, stopped := some d.cycle },
               run := match c.run with | .blocked _ => .ready | r => r }
    let d2 := match d.blockOf a with
      | some b => d1.updBinding b fun k =>
          { k with rewinding := if k.rewinding.contains a then k.rewinding else a :: k.rewinding }
      | none => d1
    d2.updCell (cellOf (coreOf a)) fun x => { x with rewinds := (d.cycle, isUpper (coreOf a)) :: x.rewinds }
  else d.failTask a seq

/-- Whether the rewind episode of a pair other than `a`'s is open (R405): its rewound segment has not ended, or its follower
has not committed the `SEGE` bundle. -/
def Device.otherEpisode (d : Device) (k : Binding) (a : Nat) : Bool :=
  k.rewinding.any fun x => x != a && ((d.ctx x).segOpen && (d.ctx x).seg.replay.isSome || !(d.ctx x).drains.isEmpty)

/-- The rung that an error of a context's task takes when rung 1 does not apply (R414). -/
def Device.rungTask (d : Device) (a : Nat) : Nat :=
  match (d.ctx a).task with
  | some t => if t.pin ≠ .firm then 2 else 3
  | none => 0

/-- The cause that a record of a rung carries (R421). -/
def rungCause (rung : Nat) : BitVec 8 := if rung = 2 then cERROR else if rung = 3 then cERRASYNC else 0

/-- The class-2 record of a mismatch in the pair of context `a` (R407). -/
def Device.mismatchRecord (d : Device) (a : Nat) (pc : Word) (synd : BitVec 32) : Device :=
  let c := d.ctx a
  let one := c.rungOne
  let rung := if one then 1 else d.rungTask a
  d.post { cls := 2, rung := BitVec.ofNat 3 rung, cause := rungCause rung, agent := BitVec.ofNat 16 a, stamp := word c.stamp,
           rwc := BitVec.ofNat 8 (c.rewindsNow one), synd := synd,
           pc := pc.setWidth 57, mctx := match d.blockOf a with | some b => d.who b | none => none
           aux := if rungCause rung = 0 then 0 else d.nextSeq }

/-! ## Ending a slot (R11, R51, R423) -/

/-- The state after a slot that stops: everything the bundle did is undone, and the trap or abort is delivered; a slot
that blocks leaves the other slots' checks to be made first, when a bundle is open. -/
def State.stopped (s : State) : Stop → State
  | .trap cause val =>
    { s with dev := s.before.trapEntry s.me s.bun.slot cause val s.bun.start, bundle := none, last := .trapped cause }
  | .abort cause val => { s with dev := s.before.abortOr s.me cause val, bundle := none, last := .aborted cause }
  | .rewind =>
    { s with dev := (s.before.mismatchRecord s.me s.bun.start 0).rewind s.me s.before.nextSeq, bundle := none,
             last := .aborted cERROR }
  | .block w =>
    match s.bundle with
    | some b => { s with bundle := some { b with blockedBy := some (b.blockedBy.getD w) } }
    | none => { s with dev := s.dev.leave s.me (.blocked w), last := .blocked }

/-- A slot's outcome as a step's: the state it gives, or the state its stop leaves. -/
def State.slot (s : State) : Except Stop State → Host.Outcome State Fault Refusal
  | .ok t => .next t
  | .error x => .next (s.stopped x)

/-- A trap of the slot at hand. -/
def trapWith {α : Type} (cause : BitVec 8) (val : Word) : Except Stop α := .error (.trap cause val)

/-- A wait of the slot at hand. -/
def blockOn {α : Type} (w : Wait) : Except Stop α := .error (.block w)

/-- A check of the slot at hand: the trap when it fails. -/
def require (b : Bool) (cause : BitVec 8) (val : Word) : Except Stop Unit := if b then .ok () else .error (.trap cause val)

/-! ## Stamps (R116 to R118, R135) -/

/-- The least stamp the context may take next. -/
def Ctx.base (c : Ctx) : Nat := Nat.max c.stamp c.floor

/-- The context's event at stamp `st`: `lstamp`, and the task's snapshot stamp at its first (R119, R135). -/
def Ctx.atStamp (c : Ctx) (st : Nat) : Ctx :=
  let first (t : Task) : Task := { t with snapS := some (t.snapS.getD st) }
  { c with stamp := st, task := c.task.map first }

/-- The stamp `st` taken by the context at hand. -/
def State.stampAt (s : State) (st : Nat) : State :=
  let t := s.updMe fun c => c.atStamp st
  { t with dev := { t.dev with top := Nat.max t.dev.top st } }

/-- What the first stamp of the task at hand, its snapshot stamp, must exceed: the stamp up to which the Dredge has
reclaimed for its tenant (R149). -/
def State.horizon (s : State) : Nat :=
  match s.ctx.task with
  | some t => if t.snapS.isNone then mget 0 s.dev.mm.horizon ((s.dev.block t.blk).get fTenant) else 0
  | none => 0

/-- `take_stamp` above `least` as well: the device chooses how far above (R117). -/
def State.takeStamp (s : State) (least : Nat) : State × Nat :=
  let (s1, n) := s.draw
  let st := stampAbove n (Nat.max (Nat.max s.ctx.base s.horizon) least)
  (s1.stampAt st, st)

/-! ## Buffered operations in program order (R55, R62, R138, R245, R256) -/

/-- Whether two operations overlap. -/
def BufOp.overlaps (o : BufOp) (pa n : Nat) : Bool := decide (o.pa < pa + n ∧ pa < o.pa + o.kind.len)

/-- Whether an operation is a buffered store. -/
def BufKind.isStore : BufKind → Bool
  | .store _ => true
  | _ => false

/-- Two pending reductions of one op on the same bytes merged (R256). -/
def mergeRed : BufKind → BufKind → Option BufKind
  | .redAdd n v, .redAdd m w => if n = m then some (.redAdd n (v + w)) else none
  | .redMin n v, .redMin m w =>
    if n = m then some (.redMin n (word (sMinMax false n (v.toNat % 2 ^ (8 * n)) (w.toNat % 2 ^ (8 * n))))) else none
  | .redMax n v, .redMax m w =>
    if n = m then some (.redMax n (word (sMinMax true n (v.toNat % 2 ^ (8 * n)) (w.toNat % 2 ^ (8 * n))))) else none
  | .redFadd vs, .redFadd ws => some (.redFadd (vs ++ ws))
  | _, _ => none

/-- The operations with the newest one that overlaps `o` replaced by its merger with `o`, where R256 merges them; the
list is given newest first. -/
def mergeNewest (o : BufOp) : List BufOp → Option (List BufOp)
  | [] => none
  | x :: r =>
    if x.overlaps o.pa o.kind.len then
      if x.pa = o.pa then (mergeRed x.kind o.kind).map fun k => { x with kind := k } :: r else none
    else (mergeNewest o r).map (x :: ·)

/-- Whether the newest operation of a list on a byte is a store: one that is a pending reduction has been buffered since. -/
def storedLast (ops : List BufOp) (pa : Nat) : Bool :=
  match ops.reverse.find? fun x => x.covers pa with
  | some x => x.kind.isStore
  | none => false

/-- One operation added to a buffer in program order (R245, R256): a reduction on bytes that stores gave last is applied to
them at buffering. -/
def bufferOp (ops : List BufOp) (o : BufOp) : List BufOp :=
  if o.kind.isStore then
    (ops.filter fun x => x.kind.isStore || !decide (o.pa ≤ x.pa ∧ x.pa + x.kind.len ≤ o.pa + o.kind.len)) ++ [o]
  else
    let here := (List.range o.kind.len).map (o.pa + ·)
    if here.all (storedLast ops) then
      ops ++ [{ o with kind := .store (o.kind.apply (here.map fun a => (bufByte ops a).getD 0)) }]
    else
      match mergeNewest o ops.reverse with
      | some r => r.reverse
      | none => ops ++ [o]

/-- The operations that a protected segment holds for the open span, or, with `false`, for the task's own buffer. -/
def heldFor (held : List HeldOp) (inSpan : Bool) : List BufOp :=
  held.filterMap fun h => match h with | .mem o b => if b = inSpan then some o else none | .sp _ _ _ => none

/-- The task's own buffered byte for an address: the open span's, then the task's, each with what a protected segment holds
for it after what it has (R55, R62, R138, R256). -/
def Ctx.ownByte (c : Ctx) (pa : Nat) : Option Byte :=
  let own (ops : List BufOp) (inSpan : Bool) : Option Byte := bufByte ((heldFor c.seg.held inSpan).foldl bufferOp ops) pa
  match c.task with
  | none => none
  | some t => (own (match t.span with | some p => p.buf | none => []) true).or (own t.buf false)

/-! ## Translated accesses -/

/-- The pieces of an access of the context at hand (R91, R92, R95, R443). -/
def State.translate (s : State) (va : Word) (n : Nat) (acc : Acc) : Except Stop (List Piece) :=
  match translateIn (s.binding.seen s.dev.cycle) acc 3 va n with
  | .ok ps => .ok ps
  | .error (c, x) => if c = cABSENT then .error (.abort c x) else .error (.trap c x)

/-- The stamp at which the task's versioned loads read: the open span's, a selected handle's, or the snapshot stamp
(R135, R138, R144); `st` is the load's own stamp. -/
def State.readStamp (s : State) (st : Nat) : Nat :=
  match s.ctx.task with
  | none => st
  | some t =>
    match t.span with
    | some p => p.sx
    | none =>
      match t.sel with
      | some h =>
        let e := s.dev.snap (if h.dev then devTable else t.blk) h.handle
        if e.state = 1 ∨ e.state = 2 then e.st else t.snapS.getD st
      | none => t.snapS.getD st


/-- Whether a core has an L1 (R72). -/
def Core.hasL1 (k : Core) : Bool := decide (k.pb2.toNat < k.pb3.toNat)

/-- The L1 copies that the device chooses to use for a load of some lines whose stamp is to exceed `least` (R78, R117):
the copies, or none of them when a lease does not cover the stamp they would give. -/
def l1Choice (k : Core) (kid : Nat → Nat) (choose : Nat → Bool) (lines : List Nat) : Map L1Line :=
  lines.filterMap fun l =>
    match mfind k.l1 l with
    | some c => if c.kid = kid l ∧ choose l then some (l, c) else none
    | none => none

/-- The largest write stamp a load of some lines meets, over the copies used and the home lines. -/
def Device.wtsOver (d : Device) (used : Map L1Line) (lines : List Nat) : Nat :=
  lines.foldl (fun n l => Nat.max n (match mfind used l with | some c => c.wts | none => (d.line l).wts)) 0

/-- The byte of committed memory that a load under a key sees (R84, R120, R135): of a version, of an L1 copy, or of the
line. -/
def Device.baseByte (d : Device) (used : Map L1Line) (versioned : Bool) (kid rs a pa : Nat) : Byte :=
  if versioned then
    match (d.versionAt (pa / 64) rs a).1 with
    | some x => lineByte x pa
    | none => d.byteUnder kid pa
  else
    match mfind used (pa / 64) with
    | some c => lineByte c.data pa
    | none => d.byteUnder kid pa

/-- Whether the committed byte a load would take is poisoned (R401, R447). -/
def Device.poisonAt (d : Device) (used : Map L1Line) (versioned : Bool) (rs a pa : Nat) : Bool :=
  if versioned then (d.versionAt (pa / 64) rs a).2
  else (mfind used (pa / 64)).isNone && (d.line (pa / 64)).poison

/-- The bytes of one piece, or the address of the first poisoned byte delivered: a page that the core's stack holds in
weight SRAM is read there (R80), unless its line is uncorrectable, which HBM serves (R398). Remote bytes, and whether the
peer returns a line poisoned, are free (R81, R401, log entry 10); from an unreachable peer they are poisoned (R471). -/
def State.pieceBytes (s : State) (used : Map L1Line) (rs n : Nat) (p : Piece) : Except Stop (List Byte) :=
  let d := s.dev
  let own := s.ctx
  let one (i : Nat) : Byte × Bool :=
    let pa := p.pa + i
    match own.ownByte pa with
    | some b => (b, false)
    | none =>
      match (if p.kind = 2 then d.sramByte (stackOfCore (coreOf s.me)) pa else none) with
      | some (b, false) => (b, false)
      | _ =>
      if isRemote p.pa then
        ((Config.freeVec n).extractLsb' (8 * (i % 256)) 8, !d.reachable (peerOf p.pa) || Config.freeBool n (pa / 64))
      else (d.baseByte used (p.kind == 1) p.kid rs s.me pa, d.poisonAt used (p.kind == 1) rs s.me pa)
  let bytes := (List.range p.n).map one
  match (List.range p.n).find? fun i => (one i).2 with
  | some i => .error (.abort cPOISON (word (p.pa + i)))
  | none => .ok (bytes.map (·.1))

/-- The bytes of the pieces in order. -/
def State.piecesBytes (s : State) (used : Map L1Line) (rs n : Nat) : List Piece → Except Stop (List Byte)
  | [] => .ok []
  | p :: r =>
    match s.pieceBytes used rs n p with
    | .error x => .error x
    | .ok bs =>
      match s.piecesBytes used rs n r with
      | .ok bs' => .ok (bs ++ bs')
      | .error x => .error x

/-- The lines of pieces that lie in local memory. -/
def pieceLines (ps : List Piece) : List Nat :=
  uniq (ps.flatMap fun p => if isRemote p.pa then [] else linesOf p.pa p.n)

/-- The key identifier under which an access of some pieces reads a line: that of the page on which it lies (R84, R90). -/
def pieceKid (ps : List Piece) (line : Nat) : Nat :=
  match ps.find? fun p => (linesOf p.pa p.n).contains line with
  | some p => p.kid
  | none => 0

/-- The leases after a load at stamp `st`: each home line's raised to cover it, and, in a core with an L1, a copy of
each live line placed there (R78, R117); remote pieces are asked of their peers (R81, R369). -/
def State.noteLoad (s : State) (used : Map L1Line) (st len : Nat) (ps : List Piece) : State :=
  let core := coreOf s.me
  let home := (pieceLines ps).filter fun l => (mfind used l).isNone
  let asked := ps.foldl (fun x p => x.askPeer (some s.blk) p.pa p.n) s.dev
  let d1 := home.foldl (fun x l => x.updLine l fun e => { e with lease := Nat.max e.lease (Nat.min (st + len) maxStamp) }) asked
  if (s.dev.core core).hasL1 then
    let live := home.filter fun l => ps.any fun p => p.kind != 1 && (linesOf p.pa p.n).contains l
    let copy (x : Device) (l : Nat) : L1Line :=
      { data := BitVec.ofNat 512 (ofBytes (x.lineUnder l (pieceKid ps l))), wts := (x.line l).wts, lease := (x.line l).lease,
        kid := pieceKid ps l }
    { s with dev := live.foldl (fun x l => x.updCore core fun k => { k with l1 := mset k.l1 l (copy x l) }) d1 }
  else { s with dev := d1 }

/-- A load of some pieces at one new stamp (R117, R120, R135, R245): `take_stamp` and `load_visible`. -/
def State.loadPieces (s : State) (ps : List Piece) : Except Stop (State × List Byte) :=
  let (s0, n) := s.draw
  let (s1, m) := s0.draw
  let lines := pieceLines ps
  let k := s.dev.core (coreOf s.me)
  let cand := if k.hasL1 then l1Choice k (pieceKid ps) (fun l => Config.freeBool n l) lines else []
  let least := Nat.max (Nat.max s.ctx.base s.horizon) (s.dev.wtsOver cand lines)
  let used := if cand.all fun e => decide (nextStamp least ≤ e.2.lease) then cand else []
  let (s2, st) :=
    if used.isEmpty then s1.takeStamp (s.dev.wtsOver [] lines) else (s1.stampAt (nextStamp least), nextStamp least)
  match s2.piecesBytes used (s2.readStamp st) n ps with
  | .error x => .error x
  | .ok bs => .ok (s2.noteLoad used st (Config.freeNat m % 65537) ps, bs)

/-- `translate` for a load, then the load. -/
def State.load (s : State) (va : Word) (n : Nat) : Except Stop (State × List Byte) := do
  let ps ← s.translate va n .load
  s.loadPieces ps

/-! ## The store path (R52, R62, R240, R245, R256, R432) -/

/-- Whether the task is in a protected segment, whose stores are held (R62). -/
def State.holding (s : State) : Bool := (s.ctx.segOpen || s.bun.opens) && s.binding.prot

/-- The distinct lines a segment holds, scratchpad lines apart from global ones (R230). -/
def heldLines (held : List HeldOp) : List (Nat × Nat) :=
  (held.flatMap fun h =>
    match h with
    | .sp c o bs => (linesOf o bs.length).map fun l => (c + 1, l)
    | .mem o _ => (linesOf o.pa o.kind.len).map fun l => (0, l)).foldl
      (fun acc x => if acc.contains x then acc else acc ++ [x]) []

/-- An operation held in the segment buffer, whose 257th line traps (R62, R230) with the lines that it holds so far. -/
def State.holdOp (s : State) (h : HeldOp) : Except Stop State :=
  let held := s.ctx.seg.held ++ [h]
  if (heldLines held).length > 256 then trapWith cSEGOVF (word (heldLines s.ctx.seg.held).length)
  else .ok (s.updMe fun c => { c with seg := { c.seg with held := held } })

/-- The distinct lines of a task's buffer and open span (R52, R432). -/
def Task.lines (t : Task) : List Nat := bufLines (t.buf ++ (match t.span with | some p => p.buf | none => []))

/-- An operation in the task's buffer or open span, whose 1,025th line traps with that line's address (R52, R268, R421,
R432). -/
def State.bufferAt (s : State) (o : BufOp) : Except Stop State :=
  match s.ctx.task with
  | none => .ok s
  | some t =>
    let t' : Task :=
      match t.span with
      | some p => { t with span := some { p with buf := bufferOp p.buf o } }
      | none => { t with buf := bufferOp t.buf o }
    if t'.lines.length > 1024 then
      let new := (linesOf o.pa o.kind.len).filter fun l => !t.lines.contains l
      trapWith cSBOVF (o.lineVa (new.getD (1024 - t.lines.length) 0))
    else .ok (s.updTask fun _ => t')

/-- Whether the task holds a pin, firm or provisional: `task_is_pinned()` (R240, R436). -/
def State.pinned (s : State) : Bool :=
  match s.ctx.task with
  | some t => t.pin != .none
  | none => false

/-- Whether a snapshot handle is selected (R144). -/
def State.selected (s : State) : Bool :=
  match s.ctx.task with
  | some t => t.sel.isSome
  | none => false

/-- Whether a transaction is open (R138). -/
def State.spanOpen (s : State) : Bool :=
  match s.ctx.task with
  | some t => t.span.isSome
  | none => false

/-- `put_store` of one operation (R240). -/
def State.putOp (s : State) (kind : BitVec 2) (o : BufOp) : Except Stop State := do
  if kind = 1 ∧ !s.spanOpen then
    require (!s.selected) cSNAPRO (word o.va)
    require (!s.pinned) cPINVER (word o.va)
  if s.holding then s.holdOp (.mem o s.spanOpen) else s.bufferAt o

/-- `put_store` of bytes over pieces in order (R240, R245). -/
def State.putPieces (s : State) : List Piece → List Byte → Except Stop State
  | [], _ => .ok s
  | p :: r, bs => do
    let s1 ← s.putOp p.kind
      { va := p.va.toNat, pa := p.pa, kind := .store (bs.take p.n), versioned := p.kind == 1, kid := p.kid }
    s1.putPieces r (bs.drop p.n)

/-- `translate` for a store, then the store path. -/
def State.store (s : State) (va : Word) (bs : List Byte) : Except Stop State := do
  let ps ← s.translate va bs.length .store
  s.putPieces ps bs

/-! ## Pins (R139, R240, R257, R436) -/

/-- The stronger of two pins. -/
def Pin.join : Pin → Pin → Pin
  | .firm, _ => .firm
  | _, .firm => .firm
  | .provisional, _ => .provisional
  | _, p => p

/-- Whether a protected segment holds a versioned line written outside a transaction (R62, R139). -/
def heldVersioned (held : List HeldOp) : Bool :=
  held.any fun h => match h with | .mem o inSpan => o.versioned && !inSpan | .sp _ _ _ => false

/-- `pin()` (R240): PINVER while the store buffer, with what the segment buffer holds for it, has versioned lines written
outside a transaction (R139). -/
def State.pinAs (s : State) (p : Pin) : Except Stop State :=
  match s.ctx.task with
  | none => .ok s
  | some t =>
    if (t.buf.any fun o => o.versioned) || heldVersioned s.ctx.seg.held then trapWith cPINVER 0
    else .ok (s.updTask fun t => { t with pin := t.pin.join p })

/-- A firm pin. -/
def State.pin (s : State) : Except Stop State := s.pinAs .firm

/-! ## The scratchpad (R74 to R76, R132 to R134) -/

/-- The scratchpad region of a core in bytes (R70). -/
def Core.spSize (k : Core) : Nat := (k.pb2.toNat - k.pb1.toNat) * 4096

/-- A scratchpad byte. -/
def Core.spByte (k : Core) (off : Nat) : Byte := mget 0 k.scratch off

/-- The physical core that scratchpad field `core` names for the binding of a context on `own` (R41, R74 to R76). -/
def Binding.spCore (k : Binding) (own core : Nat) : Option Nat :=
  let lc := k.lcell (cellOf own) / 8 * 8 + core / 2
  if lc < shapeCells k.shape.toNat ∧ !(core % 2 = 1 ∧ lowerOnly k.shape.toNat) then some (2 * k.pcell lc + core % 2)
  else none

/-- `check_sp` (R74, R75, R240): the target core and offset of an access. -/
def spTarget (d : Device) (k : Binding) (own : Nat) (a : Word) (n align : Nat) : Except Stop (Nat × Nat) :=
  let far := a.getLsbD 26
  let off := bits a 21 0
  match (if far then k.spCore own (bits a 25 22) else some own) with
  | none => trapWith cSPADDR a
  | some core =>
    if bits a 63 27 = 0 ∧ off % align = 0 ∧ off + n ≤ (d.core core).spSize then .ok (core, off)
    else trapWith cSPADDR a

/-- The bytes a protected segment holds for a scratchpad (R62). -/
def heldSpByte (held : List HeldOp) (core off : Nat) : Option Byte :=
  held.foldl (fun acc h =>
    match h with
    | .sp c o bs => if c = core ∧ o ≤ off ∧ off < o + bs.length then some (bs.getD (off - o) 0) else acc
    | .mem _ _ => acc) none

/-- A core's scratchpad with the newest far stores of a context to it undone. -/
def undoFar (k : Core) (core : Nat) : List FarStore → Core
  | [] => k
  | f :: r => undoFar (if f.core = core then k.spWrite f.off f.old else k) core r

/-- `sp_read` (R132, R133, R246): own accesses see the bundle's issue; a far access that may alias an earlier far store
with MA = 0 sees it or not as the device chooses. -/
def State.spRead (s : State) (a : Word) (ma : Bool) (n align : Nat) : Except Stop (State × List Byte) := do
  let own := coreOf s.me
  let (core, off) ← spTarget s.before s.binding own a n align
  let far := a.getLsbD 26
  let held := (s.ctx0.drains.flatMap (·.2)) ++ s.ctx0.seg.held
  let clash := far && !ma && s.ctx.far.any fun f => f.core == core && decide (f.off < off + n ∧ off < f.off + f.old.length)
  let (s1, k) :=
    if clash then
      let (s1, x) := s.draw
      (s1, undoFar (s.dev.core core) core (s.ctx.far.take (Config.freeNat x % (s.ctx.far.length + 1))))
    else if far then (s, s.dev.core core)
    else (s, s.before.core core)
  let bs := (List.range n).map fun i => (heldSpByte held core (off + i)).getD (k.spByte (off + i))
  return (if far && ma then s1.updMe fun c => { c with far := [] } else s1, bs)

/-- A held scratchpad store without the bytes that a later store of its context to a core's scratchpad covers. -/
def HeldOp.without (core off n : Nat) : HeldOp → List HeldOp
  | .sp c o bs =>
    if c = core then
      [HeldOp.sp c o (bs.take (off - o)), .sp c (Nat.max o (off + n)) (bs.drop (off + n - o))].filter fun h =>
        match h with | .sp _ _ x => !x.isEmpty | .mem _ _ => true
    else [.sp c o bs]
  | h => [h]

/-- A context whose closed segments no longer drain the bytes that a later store of it covers: its scratchpad accesses take
effect in bundle order (R62, R132). -/
def Ctx.overtake (c : Ctx) (core off n : Nat) : Ctx :=
  if c.drains.isEmpty then c else { c with drains := c.drains.map fun x => (x.1, x.2.flatMap (HeldOp.without core off n)) }

/-- `sp_write` (R132, R133, R246): at the bundle's commit, or held in a protected segment; a far store is remembered
until the context waits for it. Of a far load and a later overlapping far store with MA = 0, which R133 lets be served in
either order, the load is served first (DESIGN CHOICE, log entry 107). -/
def State.spWrite (s : State) (a : Word) (ma : Bool) (align : Nat) (bs : List Byte) : Except Stop State := do
  let own := coreOf s.me
  let (core, off) ← spTarget s.before s.binding own a bs.length align
  let far := a.getLsbD 26
  if s.holding then s.holdOp (.sp core off bs)
  else
    let old := (List.range bs.length).map fun i => (s.dev.core core).spByte (off + i)
    let s1 := ({ s with dev := s.dev.spStore s.binding.prot core off bs }).updMe fun c => c.overtake core off bs.length
    let keep := if ma then [] else s.ctx.far
    return (if far then s1.updMe fun c => { c with far := ⟨core, off, old⟩ :: keep } else s1)

/-- Every earlier far access of the context complete (R124, R125, R133). -/
def State.settleFar (s : State) : State := s.updMe fun c => { c with far := [] }

/-! ## Returning from a trap (R237, R425) -/

/-- The address of a bundle-address register (R192). -/
def bundleAddr (w : Word) : Word := w &&& ~~~3

/-- `TRET` of the context at hand (R237, R425): to `tepc`, in task mode after a trap; with `tepc` zero in trap mode the
task restarts, or is killed when pinned, and a K-delivery task retires without publishing. -/
def State.tret (s : State) : Except Stop State :=
  let t := s.ctx0.trap
  if t.tepc &&& ~~~3 = 0 ∧ t.mode = 1 then .error (.abort cTRAPRQ 0)
  else
    let s1 := s.updBun fun b => { b with jump := some (bundleAddr t.tepc) }
    .ok (if t.mode = 1 then s1.updMe fun c => { c with trap := { c.trap with mode := 0 } } else s1)

end Sys2Proof.Machine
end

