-- ==== Sys2Proof/Machine/Operands.lean ====
section
/-! DEFINITION. Operand forms: immediates with and without a `WIDE` (R179), effective addresses (R241), the second operand
of the immediate forms (R212, R214), and the decision tree's leaf (R218). -/

namespace Sys2Proof.Machine

/-- The immediate of the slot at hand, read as signed, extended by the `WIDE` that follows it if there is one (R179). -/
def State.immS {w : Nat} (s : State) (x : BitVec w) : Word :=
  match s.bun.wide with
  | none => x.signExtend 64
  | some i => (i ++ x).signExtend 64

/-- The immediate of the slot at hand, read as unsigned (R179: `LIH`, `LOOP`). -/
def State.immU {w : Nat} (s : State) (x : BitVec w) : Word :=
  match s.bun.wide with
  | none => x.zeroExtend 64
  | some i => (i ++ x).zeroExtend 64

/-- The effective address of a memory slot (R241): the base scalar plus the offset scaled by the access size. -/
def State.ea {w : Nat} (s : State) (base : BitVec 6) (off : BitVec w) (scale : Nat) : Word :=
  s.sreg base + s.immS off * word scale

/-- The target of a branch offset in 4-byte units from the bundle's start (R219, R221). -/
def State.target {w : Nat} (s : State) (off : BitVec w) : Word := s.bun.start + s.immS off * 4

/-- One test of a `TREE` (R218): polarity in bit 3, predicate in bits 2:0. -/
def State.treeTest (s : State) (t : BitVec 4) : Bool := s.preg (t.extractLsb' 0 3) != t.getLsbD 3

/-- The taken leaf of a `TREE`: the lowest true test among its `n`, else leaf n + 1 (R218). -/
def State.treeLeaf (s : State) (t1 t2 t3 t4 : BitVec 4) (n : BitVec 3) : Nat :=
  if s.treeTest t1 then 1
  else if 2 ≤ n.toNat ∧ s.treeTest t2 then 2
  else if 3 ≤ n.toNat ∧ s.treeTest t3 then 3
  else if 4 ≤ n.toNat ∧ s.treeTest t4 then 4
  else n.toNat + 1

end Sys2Proof.Machine
end

