-- ==== Sys2Proof/Machine/Calendar.lean ====
section
/-! DEFINITION. The calendar of the HBM controllers (R102 to R114, R451, R453): plans, the window a slotted read is
served in, and `TRANS`'s view of them. Time in slots is counted from reset: slot index n is slot n mod 16 of rotation
n div 16; its issue window begins at cycle 18 n and the slot on the channel 54 cycles later (R104). As R104 does, channel
events bear the cycles of the issue windows. -/

namespace Sys2Proof.Machine

/-! ## Plans (R106, R107, R378) -/

/-- The entry of the default plan (R378): slots 0 and 8 refresh, all others shared. -/
def defaultEntry (slot : Nat) : BitVec 16 := if slot = 0 ∨ slot = 8 then 0x8000 else 0

/-- An entry of a plan. -/
def planEntry (plan : Map (BitVec 16)) (c slot : Nat) : BitVec 16 := mget (defaultEntry slot) plan (16 * c + slot)

/-- The plan in force in a controller. -/
def Hbm.plan (h : Hbm) : Map (BitVec 16) := if h.force1 then h.plan1 else h.plan0

/-- The plan of the inactive bank. -/
def Hbm.idle (h : Hbm) : Map (BitVec 16) := if h.force1 then h.plan0 else h.plan1

/-- The plan that the issue window of slot index `i` belongs to (R107): windows before the last exchange keep the plan that
was in force in their rotation. -/
def Hbm.planAt (h : Hbm) (i : Nat) : Map (BitVec 16) := if i < h.since then h.prev else h.plan

/-- The transit allowance between an issue window and its slot on the channel, in cycles (R104). -/
def transit : Nat := 54

/-- The slots that have begun on the channels by a cycle (R104). -/
def slotsBegun (cycle : Nat) : Nat := if cycle < transit then 0 else (cycle - transit) / 18 + 1

/-- Whether an entry gives its slot to a core. -/
def entryOwns (e : BitVec 16) (core : Nat) : Bool := bits e 15 14 == 1 && bits e 8 0 == core

/-- Whether an entry is a refresh slot. -/
def entryRefresh (e : BitVec 16) : Bool := bits e 15 14 == 2

/-- The slots of a pseudo-channel that satisfy a test on their entries. -/
def slotsOf (plan : Map (BitVec 16)) (c : Nat) (p : BitVec 16 → Bool) : List Nat :=
  (List.range 16).filter fun j => p (planEntry plan c j)

/-- The lowest slot that a plan gives a core on a pseudo-channel (R94). -/
def ownedSlot (plan : Map (BitVec 16)) (c core : Nat) : Option Nat := (slotsOf plan c fun e => entryOwns e core).head?

/-- The pseudo-channels on which a plan differs from the default one. -/
def planChans (plan : Map (BitVec 16)) : List Nat := uniq (plan.map fun e => e.1 / 16)

/-- Whether every pseudo-channel of a plan has at least `n` refresh slots; the default plan has two. -/
def planRefreshes (plan : Map (BitVec 16)) (n : Nat) : Bool :=
  decide (n ≤ 2) && (planChans plan).all fun c => decide (n ≤ (slotsOf plan c entryRefresh).length)

/-- The second refresh slot of a pseudo-channel with one, since the high range was entered under this plan (R453). -/
def Hbm.extraRefresh (h : Hbm) (c : Nat) : Option Nat :=
  if h.extra then match slotsOf h.plan c entryRefresh with | [j] => some ((j + 8) % 16) | _ => none else none

/-! ## Rows (R103, R451) -/

/-- The bank of a line. -/
def lineBank (l : Nat) : Nat := l * 64 / 2 ^ 15 % 16

/-- The row of a line, with its bank. -/
def lineRow (l : Nat) : Nat := lineBank l * 2 ^ 15 + l * 64 / 2 ^ 21 % 2 ^ 15

/-- Whether hot-row spacing bars a line from slot index `i` (R451): its row is hot and was accessed, or is to be, within
32 slots. -/
def Chan.barred (ch : Chan) (l i : Nat) : Bool :=
  match mfind ch.hot (lineRow l) with
  | some last => decide (i < last + 32) ||
      ch.claims.any fun e => lineRow e.line == lineRow l && decide (i < e.slot + 32 ∧ e.slot < i + 32)
  | none => false

/-- Whether a forced refresh that has begun holds slot index `i` (R113). -/
def Chan.inForced (ch : Chan) (i : Nat) : Bool := match ch.forced with | some e => decide (18 * i < e) | none => false

/-! ## The window of a slotted read (R109) -/

/-- Whether slot index `i` may serve a read by its owner, hot-row spacing apart (R109): an earlier read of the owner bars
it, a shared request does not (R108). -/
def Hbm.ownedAt (h : Hbm) (c core i : Nat) : Bool :=
  let ch := h.chan c
  entryOwns (planEntry (h.planAt i) c (i % 16)) core && !(ch.claims.any fun e => e.slot == i && e.owner) &&
    !ch.inForced i && h.extraRefresh c != some (i % 16)

/-- Whether slot index `i` may carry a shared request, hot-row spacing apart (R108, R109). -/
def Hbm.sharedAt (h : Hbm) (c i : Nat) : Bool :=
  let ch := h.chan c
  !entryRefresh (planEntry (h.planAt i) c (i % 16)) && !(ch.claims.any fun e => e.slot == i) && !ch.inForced i &&
    h.extraRefresh c != some (i % 16)

/-- Where the turn of the next shared request begins: after the turns of those that arrived before it; one that hot-row
spacing holds lets later ones to other rows pass (R109, R451). -/
def Chan.nextTurn (ch : Chan) : Nat :=
  (ch.claims.filter fun e => !e.owner).foldl (fun n e => Nat.max n (e.turn + 1)) 0

/-- The first slot index from `i` on that satisfies a test, within `fuel` slots. -/
def firstSlot (p : Nat → Bool) : Nat → Nat → Option Nat
  | 0, _ => none
  | fuel + 1, i => if p i then some i else firstSlot p fuel (i + 1)

/-- The first slot index from `i` on that satisfies a test and whose row hot-row spacing allows, with the first one that
satisfies the test alone (R451, R452). -/
def Chan.window (ch : Chan) (p : Nat → Bool) (l fuel i : Nat) : Option (Nat × Nat) :=
  (firstSlot (fun j => p j && !ch.barred l j) fuel i).map fun j => (j, (firstSlot p fuel i).getD j)

/-- Slots among which a window is looked for: enough for every claim, a forced refresh and the hot-row spacing. -/
def Chan.fuel (ch : Chan) : Nat := 16 * (ch.claims.length * 33 + 40)

/-- The stack hops between a core and an HBM stack (R15, R16, R77). -/
def hopsTo (core hbm : Nat) : Nat := hops (stackOf (cellOf core)) (hbm / 2)

/-- A slotted read of line `l` placed at slot index `i`: the cycle it returns and its lateness (R109). -/
def slotReturn (t core hbm i : Nat) : Nat × Nat :=
  let base := Nat.max t (18 * i)
  (base + 170 + 40 * hopsTo core hbm, base - t)

/-- A slotted read by `core` of line `l`, `q` as it was issued, placed in a slot of its pseudo-channel whose issue window
is not before cycle `from_` (R107 to R109, R451 to R453). A read whose core owns no slot there under the plan in force, or
finds no owned window that can serve it, such as one whose only owned slot is the second refresh slot of R453, is shared
traffic, served in order of arrival after `q.skip` requests of other agents; where the plan has no slot at all for it, it
waits for another plan. Its lateness is counted only where its core owned a slot at issue, or owns one now, and its hold is
charged from its arrival (R452; log entries 33 and 106). -/
def Device.placeSld (d : Device) (core from_ : Nat) (q : PendSld) : Device × PendSld :=
  let hb := hbmOf (q.line * 64)
  let c := pchOf (q.line * 64)
  let h := d.hbm hb
  let ch := h.chan c
  let owns := (ownedSlot h.plan c core).isSome
  let put (owner : Bool) (i turn : Nat) : Device × PendSld :=
    let r := slotReturn q.issue core hb i
    (d.updHbm hb fun h => h.updChan c fun ch => { ch with claims := ch.claims ++ [{ slot := i, line := q.line, owner := owner, turn := turn }] },
      { q with win := some i, owner := owner, owned := q.owned || owns, ret := r.1, held := if i = turn then 0 else r.2
               late := if q.owned || owns then r.2 else 0 })
  match (if owns then ch.window (h.ownedAt c core) q.line ch.fuel (from_ / 18) else none) with
  | some (i, k) => put true i k
  | none =>
    match ch.window (h.sharedAt c) q.line ch.fuel (Nat.max (ceilDiv from_ 18) ch.nextTurn + q.skip) with
    | some (i, k) => put false i k
    | none => (d, { q with win := none, owned := q.owned || owns })

/-- The slotted reads in flight that hold claims on a pseudo-channel from slot index `i` on, or that have found no slot
there yet, in order of arrival, each with its context. -/
def Device.claimants (d : Device) (hb c i : Nat) : List (Nat × PendSld) :=
  let all := d.ctxs.flatMap fun e => (e.2.slds.filter fun p =>
    p.chan == some (hb, c) && (match p.win with | some w => decide (i ≤ w) | none => true)).map fun p => (e.1, p)
  sortBy (fun x => x.2.ord) all

/-- One read in flight placed anew, not before cycle `at_` (R107, R109, R113). -/
def Device.moveSld (d : Device) (at_ : Nat) (e : Nat × PendSld) : Device :=
  let (d1, p) := d.placeSld (coreOf e.1) (Nat.max e.2.issue at_) e.2
  d1.updCtx e.1 fun x => { x with slds := x.slds.map fun q => if q = e.2 then p else q }

/-- Some reads in flight placed anew from slot index `i` on: their claims go, then each is placed in turn. -/
def Device.moveSlds (d : Device) (hb c i : Nat) (moved : List (Nat × PendSld)) : Device :=
  let mine (x : Claim) : Bool := moved.any fun e => e.2.win == some x.slot && e.2.line == x.line && e.2.owner == x.owner
  let d1 := d.updHbm hb fun h => h.updChan c fun ch => { ch with claims := ch.claims.filter fun x => !mine x }
  moved.foldl (fun x e => x.moveSld (18 * i) e) d1

/-- The reads in flight on a pseudo-channel from slot index `i` on placed anew, those of owners first, after a forced
refresh has begun, a plan has been exchanged, a row has become hot or is hot no longer, or the high range has been entered
(R107, R113, R451, R453). -/
def Device.replaceSlds (d : Device) (hb c i : Nat) : Device :=
  let moved := d.claimants hb c i
  let owns (e : Nat × PendSld) : Bool := (ownedSlot (d.hbm hb).plan c (coreOf e.1)).isSome
  d.moveSlds hb c i (moved.filter owns ++ moved.filter fun e => !owns e)

/-- The shared reads placed anew that an owner's read has displaced from slot index `i` (R108). -/
def Device.displace (d : Device) (hb c i : Nat) : Device :=
  if ((d.hbm hb).chan c).claims.any fun e => e.slot == i && !e.owner then
    d.moveSlds hb c i ((d.claimants hb c i).filter fun e => !e.2.owner)
  else d

/-- A slotted read at its issue (R80, R109): `x` shared requests of other traffic stand before it where it is shared. -/
def Device.issueSld (d : Device) (core pa : Nat) (kind : BitVec 2) (x : Nat) : Device × PendSld :=
  let l := pa / 64
  let hb := hbmOf pa
  let c := pchOf pa
  if d.fromWeightSram core pa kind then (d, { line := l, issue := d.cycle, ret := d.cycle + 48 })
  else
    let q : PendSld := { line := l, issue := d.cycle, chan := some (hb, c), ord := ((d.hbm hb).chan c).arrived, skip := x,
                         owned := (ownedSlot (d.hbm hb).plan c core).isSome, ret := 0 }
    let (d1, p) := (d.updHbm hb fun h => h.updChan c fun ch => { ch with arrived := ch.arrived + 1 }).placeSld core d.cycle q
    (match p.win, p.owner with | some i, true => d1.displace hb c i | _, _ => d1, p)

/-! ## The controller at a slot's start (R108, R113, R451, R453) -/

/-- Whether a per-bank refresh of the pointer bank conflicts at slot index `i` (R113). -/
def Chan.conflict (ch : Chan) (i : Nat) : Bool :=
  ch.claims.any fun e => decide (i ≤ e.slot ∧ e.slot ≤ i + 2) && lineBank e.line == ch.ptr.toNat

/-- The refresh of the pointer bank (R113). -/
def Chan.refresh (ch : Chan) : Chan := { ch with bal := ch.bal - 1, ptr := ch.ptr + 1 }

/-- `refbal` of a pseudo-channel (R114). -/
def refbalOf (hb c : Nat) (bal : Int) : Word :=
  word (hb * 2 ^ 21 + c * 2 ^ 12 + (BitVec.ofInt 5 bal).toNat)

/-- An access to a line in slot index `i` counted against its row (R451). -/
def Chan.count (x : Chan) (line i : Nat) : Chan :=
  let r := lineRow line
  let n := mget 0 x.counts r + 1
  let y : Chan := { x with counts := mset x.counts r n }
  if 4096 ≤ n then
    { y with hot := mset y.hot r i, targeted := if (mfind x.hot r).isSome then y.targeted else y.targeted ++ [r] }
  else y

/-- The reads served in slot index `i` counted against their rows (R451); other traffic was counted as it took its slot. -/
def Chan.serve (ch : Chan) (i : Nat) : Chan :=
  (ch.claims.filter fun e => e.slot == i && !e.other).foldl (fun x e => x.count e.line i) ch

/-- The claims of other traffic in slots before index `i` are done. -/
def Chan.pass (ch : Chan) (i : Nat) : Chan := { ch with claims := ch.claims.filter fun e => !(e.other && decide (e.slot < i)) }

/-- A refresh slot at index `i` (R113 steps 1 to 3 and 5, R451): the flag says that a forced refresh begins. -/
def Chan.refreshSlot (ch : Chan) (i : Nat) : Chan × Bool :=
  let up : Chan := { ch with bal := ch.bal + 1 }
  if up.bal = 8 then ({ up with forced := some (18 * i + 630) }, true)
  else
    match up.targeted with
    | _ :: r => ({ up with targeted := r }, false)
    | [] => (if 0 < up.bal ∧ !up.conflict i then up.refresh else up, false)

/-- The end of a forced refresh that slot index `i` does not lie in: the balance is 0 and the pointer unchanged (R113). -/
def Chan.settle (ch : Chan) (i : Nat) : Chan :=
  match ch.forced with
  | some e => if e ≤ 18 * i then { ch with bal := 0, forced := none, lastForced := some e } else ch
  | none => ch

/-- A pseudo-channel at the start of slot index `i` (R108, R113); `busy` says that other traffic takes a slot that no
slotted read takes. -/
def Chan.slot (ch : Chan) (refresh busy : Bool) (i : Nat) : Chan × Bool :=
  if ch.forced.isSome then (ch, false)
  else if refresh then ch.refreshSlot i
  else if ch.claims.any fun e => e.slot == i then (ch.serve i, false)
  else if !busy ∧ -8 < ch.bal ∧ !ch.conflict i then (ch.refresh, false)
  else (ch, false)

/-- `refbal` noted for the reads in flight that slot index `i` of a pseudo-channel serves (R114). -/
def Device.noteRefbal (d : Device) (hb c i : Nat) : Device :=
  let bal := ((d.hbm hb).chan c).bal
  let note (p : PendSld) : PendSld :=
    if p.chan = some (hb, c) ∧ p.win = some i then { p with refbal := some (refbalOf hb c bal) } else p
  { d with ctxs := d.ctxs.map fun e => (e.1, { e.2 with slds := e.2.slds.map note }) }

/-- A pseudo-channel of a stack at the start of slot index `i` (R113, R451, R453): a forced refresh that begins, or a row
that becomes hot, moves the reads it holds up; a forced refresh is an overrun when it follows the last one by fewer than
16 rotations. -/
def Device.slotStart (d : Device) (hb c i : Nat) (busy : Bool) : Device :=
  let h := d.hbm hb
  let ch := ((h.chan c).settle i).pass i
  let refresh := entryRefresh (planEntry (h.planAt i) c (i % 16)) || h.extraRefresh c == some (i % 16)
  let (ch1, forced) := ch.slot refresh busy i
  let d1 := (d.updHbm hb fun h => h.updChan c fun _ => ch1).noteRefbal hb c i
  if forced then
    let d2 := d1.replaceSlds hb c i
    match ch.lastForced with
    | some e =>
      if 18 * i < e + 16 * 288 then
        d2.post { cls := 5, struct := 14, aux := word (hb * 512 + c) }
      else d2
    | none => d2
  else if ch1.hot.length = ch.hot.length then d1
  else d1.replaceSlds hb c (i + 1)

/-! ## Other traffic (R108, R451, R452) -/

/-- An access of other traffic to a local line, or a patrol read of one: it takes the next slot to begin on its channel,
which has to be one that carries shared traffic, that no slotted read has, and that hot-row spacing allows; there it counts
against its row, and reads in flight are placed anew when the row becomes hot. -/
def Device.access (d : Device) (line : Nat) : Option Device :=
  let hb := hbmOf (line * 64)
  let c := pchOf (line * 64)
  let i := slotsBegun d.cycle
  let h := d.hbm hb
  let ch := (h.chan c).pass i
  let taken : Chan := { ch with claims := ch.claims ++ [{ slot := i, line := line, owner := false, turn := i, other := true }] }
  let d1 := d.updHbm hb fun h => h.updChan c fun _ => taken.count line i
  if isLocal (line * 64) && h.sharedAt c i && !ch.barred line i then
    some (if (taken.count line i).hot.length = ch.hot.length then d1 else d1.replaceSlds hb c (i + 1))
  else none

/-- The cycles that hot-row spacing held a request of other traffic that arrived at a cycle and is served in the next slot to
begin (R452): none where its row was not barred as it arrived. -/
def Device.heldCycles (d : Device) (line arrived : Nat) : Nat :=
  if ((d.hbm (hbmOf (line * 64))).chan (pchOf (line * 64))).barred line (slotsBegun arrived) then d.cycle - arrived else 0

end Sys2Proof.Machine
end

