-- ==== Sys2Proof/Machine/Access.lean ====
section
/-! DEFINITION. Loads and stores of global memory and scratchpad, slotted reads, `TRANS`, `PREF` and `FENCE` (R241 to
R252). -/

namespace Sys2Proof.Machine

/-- The alignment check of a global access (R242). -/
def aligned (va : Word) (n : Nat) : Except Stop Unit := require (va.toNat % n == 0) cALIGN va

/-! ## Scalar loads and stores (R244, R245) -/

/-- The value of a loaded word: sign-extended, or zero-extended. -/
def loadValue (n : Nat) (signed : Bool) (bs : List Byte) : Word :=
  if signed then (BitVec.ofNat (8 * n) (ofBytes bs)).signExtend 64 else word (ofBytes bs)

/-- A scalar load of `n` bytes (R245). -/
def scalarLoad (t base : BitVec 6) (off : BitVec 8) (n : Nat) (signed : Bool) (s : State) :
    Host.Outcome State Fault Refusal :=
  s.slot (do
    let va := s.ea base off n
    aligned va n
    let r ← s.load va n
    return r.1.setS t (loadValue n signed r.2))

/-- A scalar store of `n` bytes (R245). -/
def scalarStore (t base : BitVec 6) (off : BitVec 8) (n : Nat) (s : State) : Host.Outcome State Fault Refusal :=
  s.slot (do
    let va := s.ea base off n
    aligned va n
    s.store va (toBytes (s.sreg t).toNat n))

def execLdb (t base : BitVec 6) (off : BitVec 8) (s : State) : Host.Outcome State Fault Refusal :=
  scalarLoad t base off 1 true s
def execLdbz (t base : BitVec 6) (off : BitVec 8) (s : State) : Host.Outcome State Fault Refusal :=
  scalarLoad t base off 1 false s
def execLdh (t base : BitVec 6) (off : BitVec 8) (s : State) : Host.Outcome State Fault Refusal :=
  scalarLoad t base off 2 true s
def execLdhz (t base : BitVec 6) (off : BitVec 8) (s : State) : Host.Outcome State Fault Refusal :=
  scalarLoad t base off 2 false s
def execLdw (t base : BitVec 6) (off : BitVec 8) (s : State) : Host.Outcome State Fault Refusal :=
  scalarLoad t base off 4 true s
def execLdwz (t base : BitVec 6) (off : BitVec 8) (s : State) : Host.Outcome State Fault Refusal :=
  scalarLoad t base off 4 false s
def execLdd (t base : BitVec 6) (off : BitVec 8) (s : State) : Host.Outcome State Fault Refusal :=
  scalarLoad t base off 8 false s
def execStb (t base : BitVec 6) (off : BitVec 8) (s : State) : Host.Outcome State Fault Refusal :=
  scalarStore t base off 1 s
def execSth (t base : BitVec 6) (off : BitVec 8) (s : State) : Host.Outcome State Fault Refusal :=
  scalarStore t base off 2 s
def execStw (t base : BitVec 6) (off : BitVec 8) (s : State) : Host.Outcome State Fault Refusal :=
  scalarStore t base off 4 s
def execStd (t base : BitVec 6) (off : BitVec 8) (s : State) : Host.Outcome State Fault Refusal :=
  scalarStore t base off 8 s

/-! ## Scratchpad (R246) -/

/-- The vector register that 256 bytes make. -/
def vecOf (bs : List Byte) : Vec := BitVec.ofNat 2048 (ofBytes bs)

/-- `SPL` (R246). -/
def execSpl (t base : BitVec 6) (off : BitVec 8) (ma : Bool) (s : State) : Host.Outcome State Fault Refusal :=
  s.slot (do
    let r ← s.spRead (s.ea base off 8) ma 8 8
    return r.1.setS t (word (ofBytes r.2)))

/-- `SPS` (R246). -/
def execSps (t base : BitVec 6) (off : BitVec 8) (ma : Bool) (s : State) : Host.Outcome State Fault Refusal :=
  s.slot (s.spWrite (s.ea base off 8) ma 8 (toBytes (s.sreg t).toNat 8))

/-- `VLDP` (R246). -/
def execVldp (t base : BitVec 6) (tag : BitVec 4) (off : BitVec 4) (ma : Bool) (s : State) :
    Host.Outcome State Fault Refusal :=
  s.slot (do
    let r ← s.spRead (s.ea base off 256) ma 256 64
    return r.1.setV t ⟨vecOf r.2, tag⟩)

/-- `VSTP` (R246): any tag, which is not stored. -/
def execVstp (t base : BitVec 6) (off : BitVec 8) (ma : Bool) (s : State) : Host.Outcome State Fault Refusal :=
  s.slot (s.spWrite (s.ea base off 256) ma 64 (toBytes (s.vreg t).bits.toNat 256))

/-! ## Global vector access (R247, R248) -/

/-- `VLD` (R247). -/
def execVld (t base : BitVec 6) (tag : BitVec 4) (off : BitVec 4) (s : State) : Host.Outcome State Fault Refusal :=
  s.slot (do
    let va := s.ea base off 256
    aligned va 64
    let r ← s.load va 256
    return r.1.setV t ⟨vecOf r.2, tag⟩)

/-- `VST` (R247). -/
def execVst (t base : BitVec 6) (off : BitVec 4) (s : State) : Host.Outcome State Fault Refusal :=
  s.slot (do
    let va := s.ea base off 256
    aligned va 64
    s.store va (toBytes (s.vreg t).bits.toNat 256))

/-- The pieces of accesses of `n` bytes, each aligned to `n`, checked and translated in order (R248, R288). -/
def State.translateAll (s : State) (n : Nat) (acc : Acc) : List Word → Except Stop (List Piece)
  | [] => .ok []
  | va :: r => do
    aligned va n
    let ps ← s.translate va n acc
    let rest ← s.translateAll n acc r
    return ps ++ rest

/-- The addresses of the eight rows of a strided access (R248). -/
def State.rows (s : State) (base : BitVec 6) (st : BitVec 4) : List Word :=
  (List.range 8).map fun j => s.sreg base + word j * s.sreg (st.setWidth 6)

/-- `VLDS` (R248): one stamp for all rows. -/
def execVlds (t base : BitVec 6) (st tag : BitVec 4) (s : State) : Host.Outcome State Fault Refusal :=
  s.slot (do
    let ps ← s.translateAll 32 .load (s.rows base st)
    let r ← s.loadPieces ps
    return r.1.setV t ⟨vecOf r.2, tag⟩)

/-- `VSTS` (R248): rows buffered in increasing order. -/
def execVsts (t base : BitVec 6) (st : BitVec 4) (s : State) : Host.Outcome State Fault Refusal :=
  s.slot (do
    let ps ← s.translateAll 32 .store (s.rows base st)
    s.putPieces ps (toBytes (s.vreg t).bits.toNat 256))

/-! ## Slotted reads (R249, R109) -/

/-- A vector register with 64 of its bytes replaced. -/
def putQuarter (v : Vec) (q : Nat) (bs : List Byte) : Vec := setBits v (512 * q + 511) (512 * q) (ofBytes bs)

/-- The one line that a slotted read translates (R249). -/
def State.sldPiece (s : State) (va : Word) : Except Stop Piece := do
  aligned va 64
  let ps ← s.translate va 64 .sld
  return ps.headD ⟨va, 0, 64, 0, 0⟩

/-- The state with a slotted read of a local line in flight to a vector register (R109), at the context's present stamp. -/
def State.startSld (s : State) (p : Piece) (t : BitVec 6) (x : Nat) : State :=
  if isRemote p.pa then s
  else
    let r := s.dev.issueSld (coreOf s.me) p.pa p.kind x
    { s with dev := r.1.noteQsc.updCtx s.me fun c => { c with slds := c.slds ++ [{ r.2 with dest := t.toNat, st := c.stamp, pos := c.slds.length }] } }

/-- `SLD` (R249): the line at one stamp into its quarter of the register, and the read in flight that R109 times, until
whose return the register is interlocked; a poisoned line aborts the task, its slot being consumed all the same (R447). -/
def execSld (t base : BitVec 6) (tag : BitVec 4) (off : BitVec 4) (s : State) : Host.Outcome State Fault Refusal :=
  let va := s.ea base off 64
  match s.sldPiece va with
  | .error x => .next (s.stopped x)
  | .ok p =>
    let (s1, n) := s.draw
    let x := Config.freeNat n % 4096
    match s1.loadPieces [p] with
    | .ok r =>
      let v := s.vreg t
      .next ((r.1.startSld p t x).setV t ⟨putQuarter v.bits (bits va 7 6) r.2, tag⟩)
    | .error e =>
      let consumed := (s1.before.issueSld (coreOf s.me) p.pa p.kind x).1
      .next ((s1.updBun fun b => { b with pre := if isRemote p.pa then b.pre else consumed }).stopped e)

/-! ## `TRANS`, `PREF` and `FENCE` (R250 to R252) -/

/-- The result of `TRANS` (R94) for a core, an entry and a physical address. -/
def Device.transWord (d : Device) (core : Nat) (e : WinEnt) (pa : Nat) : Word :=
  let rem := isRemote pa
  let ws := !rem && d.fromWeightSram core pa e.kind
  let own := if rem || ws then none else ownedSlot (d.hbm (hbmOf pa)).plan (pchOf pa) core
  word (e.sz.toNat * 2 ^ 62 + own.getD 0 * 2 ^ 58 + (if rem || ws then 0 else pchOf pa) * 2 ^ 49 +
    b2n own.isSome * 2 ^ 48 + b2n ws * 2 ^ 47 + b2n rem * 2 ^ 46 + pa / 64 % 2 ^ 46)

/-- `TRANS` (R94, R250). -/
def execTrans (d a b : BitVec 6) (s : State) : Host.Outcome State Fault Refusal :=
  s.slot (do
    let va := s.sreg a + s.sreg b
    let _ ← s.translate va 1 .trans
    let w := match findEnt (s.binding.seen s.dev.cycle) va with
      | some e => s.dev.transWord (coreOf s.me) e (e.pa va)
      | none => 0
    return s.setS d w)

/-- A line of live or shared memory placed in a core's L1 with its present lease (R78, R251). -/
def Device.prefetch (d : Device) (core kid line : Nat) : Device :=
  if (d.core core).hasL1 then
    let l := d.line line
    let copy : L1Line := ⟨BitVec.ofNat 512 (ofBytes (d.lineUnder line kid)), l.wts, l.lease, kid⟩
    d.updCore core fun k => { k with l1 := mset k.l1 line copy }
  else d

/-- `PREF` (R251): it never traps; an absent entry asks the Pilot for its page. -/
def execPref (a b : BitVec 6) (s : State) : Host.Outcome State Fault Refusal :=
  let va := s.sreg a + s.sreg b
  let d := match findEnt (s.binding.seen s.dev.cycle) va with
    | none => s.dev
    | some e =>
      if e.ab then (match s.dev.repair s.blk va with | .present d => d | .parked d => d)
      else if isRemote (e.pa va) || e.kind == 1 || (s.dev.line (e.pa va / 64)).poison then s.dev
      else s.dev.prefetch (coreOf s.me) e.kid.toNat (e.pa va / 64)
  .next { s with dev := d }

/-- `FENCE` (R125, R252): every earlier far scratchpad access is complete; returning atomics are performed at once. -/
def execFence (s : State) : Host.Outcome State Fault Refusal := .next s.settleFar

end Sys2Proof.Machine
end

