-- ==== Sys2Proof/Machine/Attest.lean ====
section
/-! DEFINITION. The DICE chain (R365, R366): digests, secrets, the measurement log and what each layer derives. -/

namespace Sys2Proof.Machine

/-- The digest of the image in a slot of firmware function `f` (R364, R366). -/
def Device.slotDigest (d : Device) (f : Nat) (b : Bool) : List Byte :=
  let g := mget {} d.out.firm f
  (if b then g.digB else g.digA).getD (Config.factoryDigest (2 * f + b2n b))

/-- The digest of the image that function `f` runs. -/
def Device.runDigest (d : Device) (f : Nat) : List Byte := d.slotDigest f (mget {} d.out.firm f).running

/-- The digest of the installed routine library (R366). -/
def Device.libDigest (d : Device) : List Byte := d.dice.libDig.getD (Config.factoryDigest 16)

/-- The digest of the fuse configuration (R366). -/
def Device.fuseDigest (d : Device) : List Byte :=
  match d.flash.fuses with
  | some b => sha384 b
  | none => Config.factoryDigest 17

/-- What layer 1 measures at boot (R365): the other seven images, the library and the fuse configuration. -/
def Device.bootLog (d : Device) : List (List Byte) :=
  [0, 1, 2, 3, 5, 6, 7].map d.runDigest ++ [d.libDigest, d.fuseDigest]

/-- The measurements of the factory's images, slot A of each function. -/
def factoryLog : List (List Byte) := [0, 2, 4, 6, 10, 12, 14, 16, 17].map Config.factoryDigest

/-- The measurement log (R365). -/
def Device.measureLog (d : Device) : List (List Byte) := d.dice.base.getD factoryLog ++ d.dice.log

/-- The log extended by a digest (R365): CDI2 and the layer-2 keys follow it. -/
def Device.extendLog (d : Device) (dig : List Byte) : Device :=
  { d with dice := { d.dice with log := d.dice.log ++ [dig] } }

/-- CDI1 (R365). -/
def Device.cdi1 (d : Device) : List Byte := hmac384 Config.uds (d.dice.layer1.getD (Config.factoryDigest 8))

/-- CDI2 (R365). -/
def Device.cdi2 (d : Device) : List Byte := hmac384 d.cdi1 (sha384 d.measureLog.flatten)

/-- The ASCII bytes of a key label (R365). -/
def labelAttest : List Byte := [0x41, 0x54, 0x54, 0x45, 0x53, 0x54]
def labelMeter : List Byte := [0x4D, 0x45, 0x54, 0x45, 0x52]

/-- The order n of the 384-bit Brainpool curve of RFC 5639 (R365). -/
def brainpoolN : Nat :=
  0x8CB91E82A3386D280F5D6F7E50E641DF152F7109ED5456B31F166E6CAC0425A7CF3AB6AF6B7FC3103B883202E9046565

/-- The private key of a label derived from a secret (R365): 1 + (HMAC-SHA-384(secret, label) mod (n − 1)). -/
def privateKey (secret label : List Byte) : Nat := 1 + ofBytesBE (hmac384 secret label) % (brainpoolN - 1)

def labelId : List Byte := [0x49, 0x44]
def labelAlias : List Byte := [0x41, 0x4C, 0x49, 0x41, 0x53]

/-- The bytes of the private key of a label. -/
def keyBytes (secret label : List Byte) : List Byte := toBytesBE (privateKey secret label) 48

/-- The signature with the key of a label over a message. -/
def signWith (secret label message : List Byte) : List Byte := Config.sign (keyBytes secret label) message

/-- A certificate of the key of a label, signed with the key of the layer below it (R365). -/
def certificate (issuerSecret issuer secret label : List Byte) : List Byte :=
  let body := Config.certificateBody label (Config.publicKey (keyBytes secret label))
  body ++ signWith issuerSecret issuer body

/-- The certificate of the Alias key, by the DeviceID key (R365). -/
def Device.aliasCertificate (d : Device) : List Byte := certificate Config.uds labelId d.cdi1 labelAlias

/-- The certificate of a key of layer 2, by the Alias key (R365). -/
def Device.layer2Certificate (d : Device) (label : List Byte) : List Byte := certificate d.cdi1 labelAlias d.cdi2 label

/-- The chain of slot 0, up to the attestation key (R366). -/
def Device.certificates (d : Device) : List Byte :=
  Config.factoryCertificate ++ d.aliasCertificate ++ d.layer2Certificate labelAttest

end Sys2Proof.Machine
end

