-- ==== Sys2Proof/Machine/VectorBase.lean ====
section
/-! DEFINITION. What the vector instructions share (R272 to R274): elements, lanes and masks, tag checks, values by tag,
and a loop over elements that carries flags and stochastic draws. -/

namespace Sys2Proof.Machine

/-! ## Elements and lanes (R151, R152, R272) -/

/-- The width of an element of a tag (R151); raw registers are taken by lanes of 32 bits. -/
def elWidth (t : Nat) : Nat :=
  match t with
  | 1 => 8 | 2 => 8 | 8 => 8 | 9 => 8 | 10 => 8 | 12 => 8
  | 3 => 16 | 6 => 16 | 7 => 16
  | 11 => 4 | 13 => 4
  | _ => 32

/-- Elements of `w` bits in a register: `nel`. -/
def nelOf (w : Nat) : Nat := 2048 / w

/-- Element `i` of width `w` as an unsigned code. -/
def elCode (v : Vec) (w i : Nat) : Nat := (v.extractLsb' (w * i) w).toNat

/-- Whether element `i` of width `w` lies in an active lane of a mask. -/
def laneOn (k : Word) (w i : Nat) : Bool := k.getLsbD (i * w / 32)

/-- The register that element codes of width `w`, element 0 first, make. -/
def packEls (w : Nat) (codes : List Nat) : Vec := BitVec.ofNat 2048 (codes.foldr (fun c acc => c % 2 ^ w + 2 ^ w * acc) 0)

/-! ## Tag checks (R153, R274) -/

/-- `check_tag`: TAG_MISMATCH with the offending tag in bits 3:0 and the register number in bits 13:8. -/
def State.checkTag (s : State) (r : BitVec 6) (ok : List Nat) : Except Stop Unit :=
  require (ok.contains (s.vreg r).tag.toNat) cTAG (word ((s.vreg r).tag.toNat + r.toNat * 256))

/-- The tag of a register as a number. -/
def State.tagOf (s : State) (r : BitVec 6) : Nat := (s.vreg r).tag.toNat

/-- Two sources that must carry the same tag of a set (R274). -/
def State.sameTags (s : State) (a b : BitVec 6) (ok : List Nat) : Except Stop Unit := do
  s.checkTag a ok
  s.checkTag b [s.tagOf a]

/-! ## Values (R154, R155) -/

/-- The floating-point format of a tag. -/
def fmtOf (t : Nat) : Fmt :=
  match t with
  | 6 => bf16
  | 7 => fp16
  | 8 => e4m3
  | 9 => e5m2
  | 10 => e4m3
  | 11 => e2m1
  | _ => fp32

/-- Whether a tag is an integer format (R154). -/
def isIntTag (t : Nat) : Bool := t == 1 || t == 2 || t == 3 || t == 4 || t == 13

/-- The integer that a code of an integer tag holds: unsigned for UINT8 alone. -/
def intOf (t code : Nat) : Int := if t = 2 then (code : Int) else (BitVec.ofNat (elWidth t) code).toInt

/-- The code of an integer in `w` bits. -/
def intCode (w : Nat) (i : Int) : Nat := (BitVec.ofInt w i).toNat

/-- The exact value of a code of a tag: `el`. -/
def valOf (t code : Nat) : Val := if isIntTag t then .ofInt (intOf t code) else (fmtOf t).decode code

/-- The canonical NaN for a NaN code, any other code unchanged. -/
def canonCode (t code : Nat) : Nat :=
  if isIntTag t then code else if ((fmtOf t).decode code).isNan then (fmtOf t).nan else code

/-! ## Loops over elements (R163, R165) -/

/-- The codes of a loop over elements with the flags it raises and the seed after its draws. -/
structure VOut where
  codes : List Nat
  flags : Flags
  seed : BitVec 32
  deriving DecidableEq, Repr

/-- Elements computed in the order of a list, drawing from one generator. -/
def runEls (f : Nat → BitVec 32 → Rounded) : List Nat → BitVec 32 → VOut
  | [], sd => ⟨[], 0, sd⟩
  | i :: r, sd =>
    let x := f i sd
    let y := runEls f r x.seed
    ⟨x.code :: y.codes, x.flags ||| y.flags, y.seed⟩

/-- A register written with the codes of a loop, its flags raised and its draws made. -/
def State.writeEls (s : State) (d : BitVec 6) (w tag : Nat) (o : VOut) : State :=
  ((s.setV d ⟨packEls w o.codes, BitVec.ofNat 4 tag⟩).raise o.flags).setSeed o.seed

/-- Every element of width `w` computed where its lane is active and kept where it is not (R273). -/
def State.maskedEls (s : State) (d : BitVec 6) (k : BitVec 3) (w tag : Nat) (f : Nat → BitVec 32 → Rounded) : State :=
  let old := (s.vreg d).bits
  let m := s.kreg k
  s.writeEls d w tag (runEls (fun i sd => if laneOn m w i then f i sd else ⟨elCode old w i, 0, sd⟩)
    (List.range (nelOf w)) s.seed)

/-- The same for codes that raise no flag and draw nothing. -/
def State.maskedCodes (s : State) (d : BitVec 6) (k : BitVec 3) (w tag : Nat) (f : Nat → Nat) : State :=
  s.maskedEls d k w tag fun i sd => ⟨f i, 0, sd⟩

/-- A whole register written by lanes (R282, R287). -/
def State.wholeLanes (s : State) (d : BitVec 6) (tag : BitVec 4) (f : Nat → Nat) : State :=
  s.setV d ⟨packEls 32 ((List.range 64).map f), tag⟩

/-- A register whose element 0 of width `w` holds a code and whose other bits are zero (R289). -/
def State.onlyFirst (s : State) (d : BitVec 6) (tag code : Nat) : State :=
  s.setV d ⟨BitVec.ofNat 2048 (code % 2 ^ elWidth tag), BitVec.ofNat 4 tag⟩

/-- Lane `l` of a register: `lanebits`. -/
def laneBits (v : VReg) (l : Nat) : Nat := elCode v.bits 32 l

/-- The rounding mode as the bundle's slots read it. -/
def State.rm (s : State) : Nat := rmOf s.ctx0.regs.fcsr

/-- The SAT bit as the bundle's slots read it. -/
def State.sat (s : State) : Bool := satOf s.ctx0.regs.fcsr

/-- The values of the active elements of a register, in element order, with their indices (R289). -/
def State.activeEls (s : State) (a : BitVec 6) (k : BitVec 3) : List (Nat × Val) :=
  let t := s.tagOf a
  let w := elWidth t
  let m := s.kreg k
  ((List.range (nelOf w)).filter fun i => laneOn m w i).map fun i => (i, valOf t (elCode (s.vreg a).bits w i))

end Sys2Proof.Machine
end

