-- ==== Sys2Proof/Machine/MatrixRun.lean ====
section
/-! DEFINITION. What the entries of a matrix queue compute (R171, R172, R295, R296, R303 to R307): the operand memory and
accumulators after an entry has run, and the flags it delivers. -/

namespace Sys2Proof.Machine

/-! ## Operand slots and banks (R295, R296) -/

/-- An operand slot of a core. -/
def Core.slot (k : Core) (o : Nat) : OpSlot := mget {} k.slots o

/-- A core with an operand slot replaced. -/
def Core.setSlot (k : Core) (o : Nat) (x : OpSlot) : Core := { k with slots := mset k.slots o x }

/-- An accumulator bank of a core. -/
def Core.bank (k : Core) (b : Nat) : Bank := mget {} k.banks b

/-- A core with an accumulator bank replaced. -/
def Core.setBank (k : Core) (b : Nat) (x : Bank) : Core := { k with banks := mset k.banks b x }

/-- Element `e` of row `r` of a slot, of width `w` (R295). -/
def OpSlot.el (x : OpSlot) (w r e : Nat) : Nat := (x.data.extractLsb' (1024 * r + w * e) w).toNat

/-- Byte `i` of a slot's scale plane. -/
def OpSlot.planeByte (x : OpSlot) (i : Nat) : Nat := (x.plane.extractLsb' (8 * i) 8).toNat

/-- Lane 128 i + j of a bank. -/
def Bank.el (x : Bank) (i j : Nat) : Nat := (x.data.extractLsb' (32 * (128 * i + j)) 32).toNat

/-- The bank of 128 by 128 codes given by a function. -/
def bankOf (f : Nat → Nat → Nat) : BitVec 524288 :=
  BitVec.ofNat 524288 ((List.range 16384).foldr (fun n acc => f (n / 128) (n % 128) % 2 ^ 32 + 2 ^ 32 * acc) 0)

/-- The slot data of 128 rows of elements of width `w` given by a function. -/
def slotOf (w : Nat) (f : Nat → Nat → Nat) : BitVec 131072 :=
  BitVec.ofNat 131072 ((List.range (131072 / w)).foldr
    (fun n acc => f (n / (1024 / w)) (n % (1024 / w)) % 2 ^ w + 2 ^ w * acc) 0)

/-! ## `mm` (R171, R172, R306) -/

/-- An element of an operand as an exact value: TS8 terms, or the tag's own format. -/
def opVal (t code : Nat) : Val := if t = 12 then ofInt false (ts8Units code) (-6) else valOf t code

/-- Element (row, k) of an operand that starts at slot `s`, +0 from `kn` on (R306). -/
def Core.operand (c : Core) (t s kn row k : Nat) : Val :=
  if kn ≤ k then .fin false 0 0
  else opVal t ((c.slot (s + k / kslot t)).el (elWidth t) row (k % kslot t))

/-- The scale code of block `b` of a row of an operand, 127 for a format without scales (R158, R295). -/
def Core.scaleOf (c : Core) (t s row b : Nat) : Nat :=
  let per := kslot t / 32
  if planeBytes t = 0 then 127 else (c.slot (s + b / per)).planeByte (per * row + b % per)

/-- The exact sum of a block's products, with the invalid flag (R171). -/
def blockSum (a b : Nat → Val) (blk : Nat) : Val × Flags :=
  (span (32 * blk) 32).foldl (fun x k =>
    let p := Val.mul (a k) (b k)
    let r := Val.add 0 x.1 p.1.plusZero
    (r.1, x.2 ||| p.2 ||| r.2)) (.fin false 0 0, 0)

/-- One floating-point accumulator element over the blocks (R171). -/
def mmFloat (a b : Nat → Val) (sa sb : Nat → Nat) : Nat → Nat → Nat × Flags → Nat × Flags
  | 0, _, acc => acc
  | n + 1, blk, acc =>
    let s := blockSum a b blk
    let scaled := ((s.1.underScale (sa blk)).underScale (sb blk)).plusZero
    let t := Val.add 0 (fp32.decode acc.1) scaled
    let r := roundTo fp32 0 false 0 t.1
    mmFloat a b sa sb n (blk + 1) (r.code, acc.2 ||| s.2 ||| t.2 ||| r.flags)

/-- An INT32 sum wrapped, or clamped with `sf` (R172). -/
def intAcc (sat : Bool) (i : Int) : Nat × Flags :=
  let r := satInt 4 sat i
  (intCode 32 r.1, r.2)

/-- One integer accumulator element over the blocks (R172). -/
def mmInt (sat : Bool) (a b : Nat → Val) : Nat → Nat → Nat × Flags → Nat × Flags
  | 0, _, acc => acc
  | n + 1, blk, acc =>
    let s : Int := (span (32 * blk) 32).foldl (fun x k => x + valInt (a k) * valInt (b k)) 0
    let r := intAcc sat (intOf 4 acc.1 + s)
    mmInt sat a b n (blk + 1) (r.1, acc.2 ||| r.2)
where
  valInt : Val → Int
    | .fin n m e => signedAt n m e 0
    | _ => 0

/-- The elements of a bank for `i < mr` and `j < nc` computed, the others kept, with the flags of all. -/
def bankWith (old : Bank) (mr nc : Nat) (f : Nat → Nat → Nat × Flags) : BitVec 524288 × Flags :=
  let pos := (List.range mr).flatMap fun i => (List.range nc).map fun j => (i, j)
  let new := pos.map fun p => (128 * p.1 + p.2, f p.1 p.2)
  let code (i j : Nat) : Nat := match mfind new (128 * i + j) with | some r => r.1 | none => old.el i j
  (bankOf code, new.foldl (fun fl r => fl ||| r.2.2) 0)

/-- `mm` run on a core (R306): the core and the flags. -/
def Core.runMm (c : Core) (m : MEntry) (acc sa sb ta tb : Nat) : Core × Flags :=
  let kn := mpKn m.mp0
  let old := c.bank acc
  let blocks := ceilDiv kn 32
  let int := match mmPair ta tb with | some p => p.acc == 4 | none => false
  let el (i j : Nat) : Nat × Flags :=
    let a := c.operand ta sa kn i
    let b := c.operand tb sb kn j
    if int then mmInt (satOf m.fcsr) a b blocks 0 (old.el i j, 0)
    else mmFloat a b (c.scaleOf ta sa i) (c.scaleOf tb sb j) blocks 0 (old.el i j, 0)
  let r := bankWith old (mpMr m.mp0) (mpNc m.mp0) el
  (c.setBank acc { old with data := r.1 }, r.2)

/-! ## `accout` (R307) -/

/-- The output tag, exponent and ReLU bit of a captured `mp1` (R304). -/
def mpFmt (mp1 : Word) : Nat := bits mp1 3 0
def mpShift (mp1 : Word) : Int := (mp1.extractLsb' 8 8).toInt
def mpRelu (mp1 : Word) : Bool := mp1.getLsbD 16

/-- A value rounded to an integer under a mode: the integer, whether it changed, and the seed after it. -/
def roundInt (rm : Nat) (sd : BitVec 32) (x : Val) : Int × Flags × BitVec 32 :=
  match x with
  | .fin neg m e =>
    let (n, r, sh) := cutAt m e 0
    let sd' := if rm = 4 ∧ r ≠ 0 then draw sd else sd
    let n' := if r ≠ 0 ∧ roundsAway rm neg n r sh (sd'.toNat / 65536) then n + 1 else n
    (if neg then -(n' : Int) else (n' : Int), if r ≠ 0 then fNx else 0, sd')
  | _ => (0, 0, sd)

/-- One element converted out of a bank of tag `bt` (R307): out of an integer bank a clamp raises `sf` and nothing else, a
wrap nothing, and an in-range element that rounding changes `nx` (R163, R168). -/
def accoutEl (mp1 fcsr : Word) (bt : Nat) (code : Nat) (sd : BitVec 32) : Rounded :=
  let u := mpFmt mp1
  let v := if bt = 5 then fp32.decode code else Val.ofInt (intOf 4 code)
  let y := v.scale (mpShift mp1)
  let x := if mpRelu mp1 ∧ y.isNeg then .fin false 0 0 else y
  if !isIntTag u then roundTo (fmtOf u) (rmOf fcsr) (satOf fcsr) sd x
  else if bt = 5 then
    let r := toIntFmt u (rmOf fcsr) sd x
    ⟨intCode (elWidth u) r.1, r.2.1, r.2.2⟩
  else
    let r := roundInt (rmOf fcsr) sd x
    let z := satInt u (satOf fcsr) r.1
    let (lo, hi) := intRange u
    ⟨intCode (elWidth u) z.1, if lo ≤ r.1 ∧ r.1 ≤ hi then r.2.1 else z.2, r.2.2⟩

/-- `accout` run on a core (R307). -/
def Core.runAccout (c : Core) (m : MEntry) (acc sa bt : Nat) : Core × Flags :=
  let u := mpFmt m.mp1
  let w := elWidth u
  let nc := mpNc m.mp0
  let n := mpMr m.mp0 * nc
  let bank := c.bank acc
  let o := runEls (fun p sd => accoutEl m.mp1 m.fcsr bt (bank.el (p / nc) (p % nc)) sd) (List.range n) (seedOf m.fcsr)
  let codes : Map Nat := (List.range n).zip o.codes
  let slot (q : Nat) : BitVec 131072 := slotOf w fun r e =>
    let j := q * kslot u + e
    if r < mpMr m.mp0 ∧ j < nc then mget 0 codes (r * nc + j) else 0
  ((List.range (accoutSlots m.mp1)).foldl (fun k q => k.setSlot (sa + q) { k.slot (sa + q) with data := slot q }) c, o.flags)

/-! ## The other routines (R303, R305) -/

/-- `accld` run on a core: columns 32 q to 32 q + 31 from slot `sa + q`. -/
def Core.runAccld (c : Core) (acc sa : Nat) : Core :=
  c.setBank acc { c.bank acc with data := bankOf fun i j => (c.slot (sa + j / 32)).el 32 i (j % 32) }

/-- `accadd` run on a core: FP32 sums to nearest-even with zero sums +0, or INT32 sums as R172. R305 names no trap for
`mr` or `nc` above 128: they count as 128, the bank's size (DESIGN CHOICE, log entry 122). -/
def Core.runAccadd (c : Core) (m : MEntry) (acc sa tag : Nat) : Core × Flags :=
  let old := c.bank acc
  let el (i j : Nat) : Nat × Flags :=
    let x := (c.slot (sa + j / 32)).el 32 i (j % 32)
    if tag = 4 then intAcc (satOf m.fcsr) (intOf 4 (old.el i j) + intOf 4 x)
    else
      let s := Val.add 0 (fp32.decode (old.el i j)) (fp32.decode x)
      let r := roundTo fp32 0 false 0 s.1.plusZero
      (r.code, s.2 ||| r.flags)
  let r := bankWith old (Nat.min (mpMr m.mp0) 128) (Nat.min (mpNc m.mp0) 128) el
  (c.setBank acc { old with data := r.1 }, r.2)

/-- `transp` run on a core (R305): 8-bit elements. -/
def Core.runTransp (c : Core) (sa sb : Nat) : Core :=
  c.setSlot sb { c.slot sb with data := slotOf 8 fun r k => (c.slot sa).el 8 k r }

/-- The scale plane with its first bytes replaced. -/
def planeWith (p : BitVec 8192) (bs : List Byte) : BitVec 8192 :=
  if bs = [] then p else setBits p (8 * bs.length - 1) 0 (ofBytes bs)

/-- `OLD` run on a core: the elements and the scale plane from scratchpad bytes (R303). -/
def Core.runOld (c : Core) (o : Nat) (bs : List Byte) : Core :=
  let x := c.slot o
  c.setSlot o { x with data := BitVec.ofNat 131072 (ofBytes (bs.take 16384)), plane := planeWith x.plane (bs.drop 16384) }

/-- The bytes an `OST` of a tag copies out of a slot (R303). -/
def OpSlot.bytes (x : OpSlot) (tag : Nat) : List Byte :=
  toBytes x.data.toNat 16384 ++ toBytes x.plane.toNat (planeBytes tag)

/-- An entry of the array path run on its core. -/
def Core.runArray (c : Core) (m : MEntry) : Core × Flags :=
  match m.op with
  | .macz acc => (c.setBank acc { c.bank acc with data := 0 }, 0)
  | .mm acc sa sb _ ta tb => c.runMm m acc sa sb ta.toNat tb.toNat
  | .accout acc sa bt => c.runAccout m acc sa bt.toNat
  | .accld acc sa => (c.runAccld acc sa, 0)
  | .accadd acc sa tag => c.runAccadd m acc sa tag.toNat
  | .transp sa sb _ => (c.runTransp sa sb, 0)
  | .old _ _ _ => (c, 0)
  | .ost _ _ _ => (c, 0)

end Sys2Proof.Machine
end

