-- ==== Sys2Proof/Machine/External.lean ====
section
/-! DEFINITION. External operations of a protected segment and the replay log (R403, R404, R406). -/

namespace Sys2Proof.Machine

/-- The kinds of external operation (R403), as the replay log compares them. -/
inductive Ext where
  | qput | qget | qeos | vfput | vfget | barr | barw | bwait | amo | tdec | tadd | ego | edep | ebar | ecan | txc | snap
  | snaprel
  deriving DecidableEq, Repr

/-- The number of a kind in the log. -/
def Ext.num : Ext → Nat
  | .qput => 0 | .qget => 1 | .qeos => 2 | .vfput => 3 | .vfget => 4 | .barr => 5 | .barw => 6 | .bwait => 7 | .amo => 8
  | .tdec => 9 | .tadd => 10 | .ego => 11 | .edep => 12 | .ebar => 13 | .ecan => 14 | .txc => 15 | .snap => 16
  | .snaprel => 17

/-- What an external operation delivers. -/
structure Given where
  res : Word := 0
  vres : VReg := {}
  deriving DecidableEq, Repr

/-- The bundle at hand marked as one whose follower's copy has compared, which an external operation of a protected binding
waits for (R403). -/
def State.markCompared (s : State) : State := if s.binding.prot then s.updBun fun b => { b with compared := true } else s

/-- An external operation (R403, R404): in a protected segment it is matched against the replay log while the log lasts,
and logged otherwise, the 65th of a segment trapping; outside one it is simply performed. In protected mode it is performed
only once the follower's copy of its bundle has compared: a `LOCKSTEP_COMPARE` of that bundle comes before it. -/
def State.external (s : State) (kind : Ext) (key : List Word) (perform : State → Except Stop (State × Given)) :
    Except Stop (State × Given) := do
  let perform (t : State) : Except Stop (State × Given) := perform t.markCompared
  if s.holding then
    let g := s.ctx.seg
    match (match g.replay with | some k => g.log[k]? | none => none) with
    | some e =>
      if e.kind = kind.num ∧ e.key = key then
        .ok (s.updMe fun c => { c with seg := { c.seg with replay := g.replay.map (· + 1), ext := g.ext + 1 } },
          ⟨e.res, e.vres⟩)
      else .error .rewind
    | none =>
      if 64 ≤ g.ext then trapWith cSEGOVF (word g.ext)
      else
        match perform s with
        | .error x => .error x
        | .ok (t, r) =>
          let e : LogEntry := { kind := kind.num, key := key, res := r.res, vres := r.vres }
          .ok (t.updMe fun c =>
            { c with seg := { c.seg with log := c.seg.log ++ [e], ext := c.seg.ext + 1, replay := g.replay.map (· + 1) } }, r)
  else perform s

/-- An external operation that delivers nothing. -/
def State.externalUnit (s : State) (kind : Ext) (key : List Word) (perform : State → Except Stop State) :
    Except Stop State := do
  let r ← s.external kind key fun t => do
    let u ← perform t
    return (u, {})
  return r.1

/-- The 2048 bits of a vector register as words of a key. -/
def VReg.words (v : VReg) : List Word :=
  (v.tag.zeroExtend 64) :: (List.range 32).map fun i => v.bits.extractLsb' (64 * i) 64

end Sys2Proof.Machine
end

