-- ==== Sys2Proof/WellFormed.lean ====
section
/-! DEFINITION. Which instructions are well formed: field values in the ranges of R181 and of each instruction's own
rule, and, for the event rows, numbers that name an agent, block, cell, stack or port that exists (R17, R26). -/

namespace Sys2Proof

/-- A format tag that names a format (R181). -/
def tagOk (t : BitVec 4) : Bool := t.toNat ≤ 13

/-- The CSR numbers that R190 assigns. -/
def csrAssigned (c : BitVec 12) : Bool :=
  let n := c.toNat
  (1 ≤ n && n ≤ 0x00B) || (0x010 ≤ n && n ≤ 0x01B) || (0x020 ≤ n && n ≤ 0x027) || (0x030 ≤ n && n ≤ 0x035) ||
    (0x100 ≤ n && n ≤ 0x104)

/-- The tests of a `TREE` (R218): `n` is 1 to 4 and every test above it is zero. -/
def treeOk (t2 t3 t4 : BitVec 4) (n : BitVec 3) : Bool :=
  1 ≤ n.toNat && n.toNat ≤ 4 && (2 ≤ n.toNat || t2 == 0) && (3 ≤ n.toNat || t3 == 0) && (4 ≤ n.toNat || t4 == 0)

/-- The registers of a `VQNT` (R284): `d` even, `a` a multiple of the group's size for the tag `u`. -/
def vqntOk (d a : BitVec 6) (u : BitVec 4) : Bool :=
  (u == 10 || u == 11 || u == 12) && d.toNat % 2 == 0 && a.toNat % (if u == 11 then 8 else 4) == 0

/-- A hardware context's agent identifier (R26). -/
def agentOk (n : Nat) : Bool := n < 2048

/-- A control-block index (R34). -/
def blkOk (n : Nat) : Bool := n < 32768

/-- A host queue, or the channel of a management agent numbered above them (R351, R359). -/
def queueOk (n : Nat) : Bool := n < 16388

/-- Whether an instruction's fields lie in their ranges (R181). -/
def Instr.wf (i : Instr) : Bool :=
  match i with
  | .nop => true
  | .add _ _ _ => true
  | .sub _ _ _ => true
  | .and _ _ _ => true
  | .or _ _ _ => true
  | .xor _ _ _ => true
  | .andn _ _ _ => true
  | .mul _ _ _ => true
  | .mulh _ _ _ => true
  | .mulhu _ _ _ => true
  | .div _ _ _ => true
  | .divu _ _ _ => true
  | .rem _ _ _ => true
  | .remu _ _ _ => true
  | .shl _ _ _ => true
  | .shr _ _ _ => true
  | .sra _ _ _ => true
  | .min _ _ _ => true
  | .max _ _ _ => true
  | .minu _ _ _ => true
  | .maxu _ _ _ => true
  | .clz _ _ => true
  | .ctz _ _ => true
  | .popc _ _ => true
  | .mov _ _ => true
  | .bfx _ _ _ => true
  | .bfi _ _ _ => true
  | .sel _ _ _ _ => true
  | .cmpEq _ _ _ => true
  | .cmpNe _ _ _ => true
  | .cmpLt _ _ _ => true
  | .cmpGe _ _ _ => true
  | .cmpLtu _ _ _ => true
  | .cmpGeu _ _ _ => true
  | .pand _ _ _ => true
  | .por _ _ _ => true
  | .pnot _ _ => true
  | .addi _ _ _ => true
  | .andi _ _ _ => true
  | .ori _ _ _ => true
  | .xori _ _ _ => true
  | .shli _ _ _ => true
  | .shri _ _ _ => true
  | .srai _ _ _ => true
  | .li _ _ => true
  | .lih _ _ => true
  | .cmpiEq _ _ _ => true
  | .cmpiNe _ _ _ => true
  | .cmpiLt _ _ _ => true
  | .cmpiGe _ _ _ => true
  | .cmpiLtu _ _ _ => true
  | .cmpiGeu _ _ _ => true
  | .tree _ t2 t3 t4 n => treeOk t2 t3 t4 n
  | .tgt leaf _ => 1 ≤ leaf.toNat && leaf.toNat ≤ 5
  | .jmp _ => true
  | .call _ => true
  | .loop _ _ => true
  | .sloop d _ _ => d != 0
  | .ret => true
  | .endTask => true
  | .yield => true
  | .rdv _ => true
  | .segb => true
  | .sege => true
  | .brk _ => true
  | .ldb _ _ _ => true
  | .ldbz _ _ _ => true
  | .ldh _ _ _ => true
  | .ldhz _ _ _ => true
  | .ldw _ _ _ => true
  | .ldwz _ _ _ => true
  | .ldd _ _ _ => true
  | .stb _ _ _ => true
  | .sth _ _ _ => true
  | .stw _ _ _ => true
  | .std _ _ _ => true
  | .spl _ _ _ _ => true
  | .sps _ _ _ _ => true
  | .vldp _ _ tag _ _ => tagOk tag
  | .vstp _ _ _ _ => true
  | .vld _ _ tag _ => tagOk tag
  | .vst _ _ _ => true
  | .vlds _ _ _ tag => tagOk tag
  | .vsts _ _ _ => true
  | .sld _ _ tag _ => tagOk tag
  | .trans _ _ _ => true
  | .pref _ _ => true
  | .fence => true
  | .amoadd _ _ _ => true
  | .amomin _ _ _ => true
  | .amomax _ _ _ => true
  | .amominu _ _ _ => true
  | .amoand _ _ _ => true
  | .amoor _ _ _ => true
  | .amoxor _ _ _ => true
  | .amoswp _ _ _ => true
  | .amoaddW _ _ _ => true
  | .amominW _ _ _ => true
  | .amomaxW _ _ _ => true
  | .amominuW _ _ _ => true
  | .amoandW _ _ _ => true
  | .amoorW _ _ _ => true
  | .amoxorW _ _ _ => true
  | .amoswpW _ _ _ => true
  | .amocas _ _ _ => true
  | .amocasW _ _ _ => true
  | .redAdd _ _ => true
  | .redMin _ _ => true
  | .redMax _ _ => true
  | .redFadd _ _ => true
  | .tspawn _ => true
  | .tdec _ => true
  | .tadd _ _ => true
  | .ntr => true
  | .barr _ => true
  | .bwait _ => true
  | .barw _ => true
  | .qput _ _ => true
  | .qget _ _ => true
  | .qeos _ => true
  | .vfput _ _ => true
  | .vfget _ => true
  | .tlw _ _ => true
  | .tlr _ _ => true
  | .txb => true
  | .txc _ => true
  | .txa => true
  | .snap _ _ => true
  | .snaprel _ => true
  | .snapsel _ => true
  | .vadd _ _ _ _ => true
  | .vsub _ _ _ _ => true
  | .vmul _ _ _ _ => true
  | .vfma _ _ _ _ => true
  | .vfms _ _ _ _ => true
  | .vmin _ _ _ _ => true
  | .vmax _ _ _ _ => true
  | .vneg _ _ _ => true
  | .vabs _ _ _ => true
  | .vrcp _ _ _ => true
  | .vrsq _ _ _ => true
  | .vsqrt _ _ _ => true
  | .vexp _ _ _ => true
  | .vlog _ _ _ => true
  | .vtanh _ _ _ => true
  | .vclass _ _ _ => true
  | .vnot _ _ _ => true
  | .vredsum _ _ _ => true
  | .vredmax _ _ _ => true
  | .vredmin _ _ _ => true
  | .vredarg _ _ _ => true
  | .vscan _ _ _ => true
  | .vmovs _ _ _ => true
  | .vhash _ _ _ => true
  | .viadd _ _ _ _ => true
  | .visub _ _ _ _ => true
  | .vimul _ _ _ _ => true
  | .vimad _ _ _ _ => true
  | .vimin _ _ _ _ => true
  | .vimax _ _ _ _ => true
  | .vshl _ _ _ _ => true
  | .vshr _ _ _ _ => true
  | .vsra _ _ _ _ => true
  | .vand _ _ _ _ => true
  | .vor _ _ _ _ => true
  | .vxor _ _ _ _ => true
  | .vcmpEq kd _ _ _ => kd != 0
  | .vcmpNe kd _ _ _ => kd != 0
  | .vcmpLt kd _ _ _ => kd != 0
  | .vcmpLe kd _ _ _ => kd != 0
  | .vcmpGt kd _ _ _ => kd != 0
  | .vcmpGe kd _ _ _ => kd != 0
  | .vcmpUn kd _ _ _ => kd != 0
  | .vsel _ _ _ _ => true
  | .vcvt _ _ u _ => u.toNat ≤ 9 || u == 13
  | .vqnt d a u => vqntOk d a u
  | .vdqnt _ _ _ => true
  | .vpackts _ _ _ _ => true
  | .vshuf _ _ _ _ => true
  | .vrot _ _ _ => true
  | .vslide _ _ _ => true
  | .vbcast _ _ => true
  | .vins _ _ _ => true
  | .vext _ _ _ => true
  | .vgather _ _ _ _ => true
  | .vscat _ _ _ _ => true
  | .vdot _ _ _ _ => true
  | .kand d _ _ => d != 0
  | .kor d _ _ => d != 0
  | .knot d _ => d != 0
  | .kpop _ _ => true
  | .mcallMm _ _ _ => true
  | .mcallAccout _ _ => true
  | .mcallAccld _ _ => true
  | .mcallAccadd _ _ => true
  | .mcallTransp _ _ => true
  | .mpar _ _ => true
  | .oclm _ => true
  | .orel _ => true
  | .old _ _ tag => tagOk tag
  | .ost _ _ => true
  | .macz _ => true
  | .mlim _ => true
  | .mupld _ => true
  | .eset eng _ _ => eng.toNat ≤ 5
  | .egoCopyMove _ _ => true
  | .egoCopyFill _ _ => true
  | .egoCopyMove2d _ _ => true
  | .egoGatherGath _ _ => true
  | .egoGatherScat _ _ => true
  | .egoHashSha384 _ _ => true
  | .egoCryptoSeal _ _ => true
  | .egoCryptoOpen _ _ => true
  | .egoCollBcast _ _ => true
  | .egoCollSumf _ _ => true
  | .egoCollSumi _ _ => true
  | .egoNetPart _ _ => true
  | .egoNetReply _ _ => true
  | .edep _ _ => true
  | .ebar _ _ => true
  | .ecan _ _ => true
  | .csrr _ csr => csrAssigned csr
  | .csrw _ csr => csrAssigned csr
  | .csrs _ csr => csrAssigned csr
  | .csrc _ csr => csrAssigned csr
  | .trap _ => true
  | .tret => true
  | .wfe => true
  | .halt => true
  | .wide _ => true
  | .taskTake agent => agentOk agent
  | .contextUnblock agent => agentOk agent
  | .taskPublicationComplete blk => blkOk blk
  | .deferredEnqueue cluster => cluster < 32
  | .rqfullTimeout blk => blkOk blk
  | .ntRotation agent => agentOk agent
  | .queueEnlarge blk => blkOk blk
  | .serviceDatagramReceive _ => true
  | .segmentVerify => true
  | .recordAbandon blk slot => blkOk blk && slot < 32768
  | .harbourmasterPick => true
  | .candidateHeld blk => blkOk blk
  | .recallGraceExpiry blk => blkOk blk
  | .entryTaskEnqueue blk => blkOk blk
  | .bindingRecordTimeout blk => blkOk blk
  | .bindingEnd blk => blkOk blk
  | .preemptionComplete blk => blkOk blk
  | .preemptionTimeout blk => blkOk blk
  | .pilotFetchComplete blk _ _ => blkOk blk
  | .firmwareLeafAnswer blk _ _ => blkOk blk
  | .shootdownAck blk => blkOk blk
  | .shootdownTimeout blk => blkOk blk
  | .qqfsWrite _ => true
  | .quarantineRelease => true
  | .quarantineHeadTimeout => true
  | .pendingClearDone _ => true
  | .poolPageZeroed core page => core < 512 && page < 1024
  | .calswWrite hbm _ => hbm < 8
  | .calendarExchange hbm => hbm < 8
  | .channelSlotStart hbm pch slot => hbm < 8 && pch < 512 && slot < 16
  | .forcedRefreshEnd hbm pch => hbm < 8 && pch < 512
  | .hotRowWindowEnd hbm => hbm < 8
  | .highRangeEntry hbm => hbm < 8
  | .sldReturn agent => agentOk agent
  | .stampRaise => true
  | .dredgeReclaim _ => true
  | .snapReturn agent => agentOk agent
  | .drainCommit blk _ => blkOk blk
  | .drainFail blk _ => blkOk blk
  | .engineOpComplete agent e => agentOk agent && e < 8
  | .engineFault agent e _ => agentOk agent && e < 8
  | .kDeliveryTaskStart blk => blkOk blk
  | .kDeliveryTimeout blk => blkOk blk
  | .replyCounterExhausted rkid => rkid < 4096
  | .matrixEntryStart core _ => core < 512
  | .matrixEntryComplete core _ => core < 512
  | .lockstepCompare agent _ _ => agentOk agent
  | .rewindReissue agent => agentOk agent
  | .eccErrorDetect _ => true
  | .patrolRead _ _ => true
  | .errorRecordTake => true
  | .stackResetComplete stack => stack < 4
  | .railFault => true
  | .thermalTrip => true
  | .watchdogReset => true
  | .powerOn => true
  | .rstNReset => true
  | .pcieReset => true
  | .standby => true
  | .currentCeilingWrite core _ => core < 512
  | .ugreqWrite w _ => w < 4
  | .upperGateApply cell => cell < 256
  | .upperUngateComplete cell => cell < 256
  | .coffWrite w _ => w < 4
  | .faqpopRead => true
  | .bpaddWrite _ => true
  | .pageRetirement _ _ => true
  | .vheapParkRelease blk => blkOk blk
  | .doorbellWrite fn q _ => fn < 256 && queueOk q
  | .registerWrite _ _ => true
  | .cmdNop _ => true
  | .indirect _ => true
  | .signal _ => true
  | .wait _ => true
  | .waitSatisfied q => queueOk q
  | .waitTimeout q => queueOk q
  | .cbCreate _ => true
  | .cbWrite _ => true
  | .cbRead _ => true
  | .cbSuspend _ => true
  | .cbResume _ => true
  | .cbKill _ => true
  | .cbRelease _ => true
  | .cbReleaseComplete blk => blkOk blk
  | .cbMigrate _ => true
  | .event _ => true
  | .imgInstall _ => true
  | .imgRetire _ => true
  | .hashSet _ => true
  | .resvWrite _ => true
  | .policyRgrace _ => true
  | .policyWclk _ => true
  | .shootdown _ => true
  | .devsnapTake _ => true
  | .devsnapRelease _ => true
  | .checkpoint _ => true
  | .meterRead _ => true
  | .meterReport _ => true
  | .diagRead _ => true
  | .ownerClaim _ => true
  | .ownerHandover _ => true
  | .ownerAccept _ => true
  | .handoverLapse => true
  | .ownerChannelLost => true
  | .fwStage _ => true
  | .fwActivate _ => true
  | .firstBeacon fn => fn < 8
  | .fwActivateTimeout fn => fn < 8
  | .firmwareSilent fn => fn < 8
  | .mailboxFullTimeout src dst => src < 8 && dst < 8
  | .regRead _ => true
  | .regWrite _ => true
  | .aclWrite _ => true
  | .sysLaunch _ => true
  | .launch _ => true
  | .gangLaunch _ => true
  | .ringOverrunTimeout q => queueOk q
  | .hostAccessFail q _ => queueOk q
  | .atsInvalidation pasid => pasid < 1048576
  | .functionLevelReset fn => fn < 256
  | .getVersion _ => true
  | .getCapabilities _ => true
  | .negotiateAlgorithms _ => true
  | .getDigests _ => true
  | .getCertificate _ => true
  | .challenge _ => true
  | .getMeasurements _ => true
  | .deviceNumbering _ _ => true
  | .linkTraining port => port < 24
  | .flitError port => port < 24
  | .linkDown port => port < 24
  | .remoteAccessReceive _ => true
  | .remoteAccessTimeout agent => agentOk agent
  | .launchPacketReceive _ => true
  | .launchReplyReceive _ _ _ _ => true
  | .gangAckReceive _ dev => dev < 512
  | .gangConfirmReceive blk => blkOk blk
  | .gangAckTimeout _ => true
  | .gangAbortReceive blk origin => blkOk blk && origin < 512
  | .gangMemberTimeout blk => blkOk blk
  | .migrationCutover blk dst => blkOk blk && blkOk dst
  | .migrationAckTimeout blk => blkOk blk
  | .buoyExpiry blk => blkOk blk
  | .freezeCycle core => core < 512
  | .illegalEncoding agent => agentOk agent
  | .instructionFetchFault agent => agentOk agent
  | .beaconRaise fn => fn < 8
  | .keyLoad kid _ _ => kid < 4096
  | .fuseChange _ => true
  | .highRangeExit hbm => hbm < 8
  | .ethernetLinkChange port _ => port < 2
  | .migrationAbort blk => blkOk blk
  | .migrationCopyReceive _ => true
  | .cutoverConfirmReceive blk => blkOk blk
  | .unconfirmedCopyDrop blk => blkOk blk
  | .firmwareMemoryWrite agent _ _ => 0x0910 ≤ agent && agent ≤ 0x0917
  | .weightSramPlacement _ size _ => size < 4

end Sys2Proof
end

