-- ==== Sys2Proof/Machine/Csr.lean ====
section
/-! DEFINITION. The control and status registers (R190 to R194, R233): what a read gives, what a write leaves, and
`CSRR`, `CSRW`, `CSRS` and `CSRC`. -/

namespace Sys2Proof.Machine

/-- A timeline counter: the largest n with every operation numbered n or below complete (R128). -/
def Timeline.counter (t : Timeline) : Nat :=
  match t.live with
  | [] => t.issued
  | n :: r => r.foldl Nat.min n - 1

/-- `coreid` (R18). -/
def coreidOf (devno : BitVec 9) (a : Nat) : Word := word (devno.toNat * 2 ^ 16 + a % 2 ^ 11)

/-- `frzcnt` (R314). -/
def Core.frzcntWord (k : Core) : Word := word (k.effective * 2 ^ 48 + k.frzcnt.toNat)

/-- The bits that software writes of `mp` register `i` (R304). -/
def mpMask (i : Nat) : Word :=
  if i = 0 then 0x0000FFFF00FFFF07 else if i = 1 then 0x000000000001FF0F else BitVec.allOnes 64

/-- The value of CSR `c` of context `a` (R190). -/
def Device.csr (d : Device) (a : Nat) (c : BitVec 12) : Word :=
  let x := d.ctx a
  let k := d.core (coreOf a)
  match c.toNat with
  | 0x001 => x.regs.fcsr
  | 0x002 => x.regs.lk
  | 0x003 => word x.stamp
  | 0x004 => x.slat
  | 0x005 => x.refbal
  | 0x006 => calposAt d.cycle
  | 0x007 => k.frzcntWord
  | 0x008 => k.pb1.zeroExtend 64
  | 0x009 => k.pb2.zeroExtend 64
  | 0x00A => k.pb3.zeroExtend 64
  | 0x00B => coreidOf d.out.devno a
  | 0x018 => x.rotateAll.regs.nt0
  | 0x019 => x.regs.nt1
  | 0x01A => x.regs.nt2
  | 0x01B => x.regs.nt3
  | 0x030 => x.regs.lps0
  | 0x031 => x.regs.lpe0
  | 0x032 => x.regs.lpc0
  | 0x033 => x.regs.lps1
  | 0x034 => x.regs.lpe1
  | 0x035 => x.regs.lpc1
  | 0x100 => x.trap.mode.zeroExtend 64
  | 0x101 => x.trap.tcause
  | 0x102 => x.trap.tepc
  | 0x103 => x.trap.tval
  | 0x104 => x.trap.tscr
  | n =>
    if 0x010 ≤ n ∧ n ≤ 0x017 then word (mget {} x.tls (n - 0x010)).counter
    else if 0x020 ≤ n ∧ n ≤ 0x027 then mget 0 x.mp (n - 0x020)
    else 0

/-- A context with `mp` register `i` written (R304). -/
def Ctx.setMp (x : Ctx) (i : Nat) (v : Word) : Ctx := { x with mp := mset x.mp i (v &&& mpMask i) }

/-- A context with CSR `c` written; a write to a read-only CSR is ignored (R7, R190 to R194). -/
def Ctx.setCsr (x : Ctx) (c : BitVec 12) (v : Word) : Ctx :=
  let r := x.regs
  match c.toNat with
  | 0x001 => { x with regs := { r with fcsr := fcsrWrite r.fcsr v } }
  | 0x002 => { x with regs := { r with lk := bundleAddr v } }
  | 0x004 => { x with slat := v }
  | 0x030 => { x with regs := { r with lps0 := bundleAddr v } }
  | 0x031 => { x with regs := { r with lpe0 := bundleAddr v } }
  | 0x032 => { x with regs := { r with lpc0 := v } }
  | 0x033 => { x with regs := { r with lps1 := bundleAddr v } }
  | 0x034 => { x with regs := { r with lpe1 := bundleAddr v } }
  | 0x035 => { x with regs := { r with lpc1 := v } }
  | 0x102 => { x with trap := { x.trap with tepc := bundleAddr v } }
  | 0x104 => { x with trap := { x.trap with tscr := v } }
  | n => if 0x020 ≤ n ∧ n ≤ 0x027 then x.setMp (n - 0x020) v else x

/-- The checks of a CSR access: its number exists on the core's tier, and the mode may reach it (R187, R190, R191). -/
def State.csrCheck (s : State) (c : BitVec 12) : Except Stop Unit := do
  require (csrAssigned c && (isUpper (coreOf s.me) || !(decide (0x020 ≤ c.toNat) && decide (c.toNat ≤ 0x027))))
    cILLEGAL (s.bun.word.zeroExtend 64)
  require (decide (c.toNat ≤ 0x100) || s.mode != 0) cPRIV (s.bun.word.zeroExtend 64)

/-- A CSR as the bundle's slots read it. -/
def State.csr (s : State) (c : BitVec 12) : Word := s.before.csr s.me c

/-- `CSRR`: a read of `nt0` stalls until the rotations that are due have been made (R56, R233). -/
def execCsrr (d : BitVec 6) (csr : BitVec 12) (s : State) : Host.Outcome State Fault Refusal :=
  s.slot (do
    s.csrCheck csr
    let s1 := if csr = 0x018 then s.updMe Ctx.rotateAll else s
    return s1.setS d (s.csr csr))

/-- A CSR write of `v` at the bundle's commit (R233). -/
def csrWriteOp (csr : BitVec 12) (v : Word) (s : State) : Host.Outcome State Fault Refusal :=
  s.slot (do
    s.csrCheck csr
    let s1 := s.updMe fun x => x.setCsr csr v
    return (if csr = 0x001 then s1.updBun fun b => { b with fcsrWritten := true } else s1))

def execCsrw (d : BitVec 6) (csr : BitVec 12) (s : State) : Host.Outcome State Fault Refusal :=
  csrWriteOp csr (s.sreg d) s
def execCsrs (d : BitVec 6) (csr : BitVec 12) (s : State) : Host.Outcome State Fault Refusal :=
  csrWriteOp csr (s.csr csr ||| s.sreg d) s
def execCsrc (d : BitVec 6) (csr : BitVec 12) (s : State) : Host.Outcome State Fault Refusal :=
  csrWriteOp csr (s.csr csr &&& ~~~(s.sreg d)) s

end Sys2Proof.Machine
end

