-- ==== Sys2Proof/Machine/Sync.lean ====
section
/-! DEFINITION. Barriers, stream queues, the vertical FIFO and timeline waits (R262 to R266, R124, R129, R130, R387). -/

namespace Sys2Proof.Machine

/-! ## Barriers (R262, R436, R438) -/

/-- An arrival at stamp `st`: the barrier after it, and whether it completed the phase (R124, R262). -/
def Barrier.arrive (b : Barrier) (st : Nat) : Barrier × Bool :=
  let arr := Nat.max b.arr st
  if b.need ≤ b.got + 1 then ({ b with got := 0, done := b.done + 1, arr := 0, stamp := nextStamp arr }, true)
  else ({ b with got := b.got + 1, arr := arr }, false)

/-- The provisional pins that arrivals at handle `h` gave become firm (R436). -/
def Task.firmUp (t : Task) (h : Nat) : Task :=
  if t.prov.contains h then { t with pin := .firm, prov := t.prov.filter (· != h) } else t

/-- Whether a context is one whose task block `b` runs. -/
def Ctx.runs (c : Ctx) (b : Nat) : Bool := match c.task with | some t => t.blk == b | none => false

/-- A context at the completion of phase `done` of handle `h` of block `b`: its task's provisional pin there becomes firm
(R436), and the event flag of a context that arrived in the phase is set (R238). -/
def Ctx.phaseEnds (c : Ctx) (b h : Nat) (done : BitVec 32) : Ctx :=
  if c.runs b then
    let m := mget {} c.bars h
    { c with task := c.task.map (·.firmUp h), event := c.event || (m.owed && m.mine == done) }
  else c

/-- An arrival at handle `h` of block `b` at stamp `st`, by a context or an engine operation (R262, R319, R436). -/
def Device.arrive (d : Device) (b h st : Nat) : Device :=
  match d.binding b with
  | none => d
  | some k =>
    match mfind k.bars h with
    | none => d
    | some x =>
      let (y, ends) := x.arrive st
      let d1 := d.setBinding b { k with bars := mset k.bars h y }
      if ends then
        { d1 with ctxs := d1.ctxs.map fun e => (e.1, e.2.phaseEnds b h x.done), top := Nat.max d1.top y.stamp }
      else d1

/-- The barrier behind a handle, or the trap BARRIER (R262). -/
def State.barrier (s : State) (h : Nat) : Except Stop Barrier :=
  match mfind s.binding.bars h with
  | some b => .ok b
  | none => trapWith cBARRIER (word h)

/-- The context's standing at a handle changed. -/
def State.updMine (s : State) (h : Nat) (f : Mine → Mine) : State :=
  s.updMe fun c => { c with bars := mset c.bars h (f (mget {} c.bars h)) }

/-- The arrival of the context at hand (R124, R262, R436): a FAULTED barrier blocks it (R438). -/
def State.arriveAt (s : State) (h : Nat) (b : Barrier) : Except Stop State :=
  if b.faulted then blockOn (.faulted h)
  else do
    let s1 ← s.pinAs .provisional
    let s2 := s1.updTask fun t => { t with prov := if t.pin = .firm ∨ t.prov.contains h then t.prov else h :: t.prov }
    let r := s2.takeStamp 0
    let s3 := (r.1.settleFar).updMine h fun m => { m with mine := b.done, owed := true }
    return { s3 with dev := s3.dev.arrive s.blk h r.2 }

/-- Later stamps of the context above a phase's or a put's stamp (R124). -/
def State.orderAfter (s : State) (st : Nat) : State := s.updMe fun c => { c with floor := Nat.max c.floor st }

/-- The wait returned (R262): nothing is owed, and later stamps follow the phase's (R124). -/
def State.waited (s : State) (h : Nat) (b : Barrier) : State :=
  (s.updMine h fun m => { m with owed := false }).orderAfter b.stamp

/-- Whether the context's next wait on a handle is to trap (R438). -/
def State.bfaultDue (s : State) (h : Nat) : Bool := (mget {} s.ctx0.bars h).bfault

/-- The trap BFAULT (R438), whose routine sees the mark and `owed` clear. -/
def State.bfault (s : State) (h : Nat) : State :=
  let clear (c : Ctx) : Ctx := { c with bars := mset c.bars h { mget {} c.bars h with owed := false, bfault := false } }
  ((s.updMe clear).updBun fun b => { b with pre := b.pre.updCtx s.me clear }).stopped (.trap cBFAULT (word h))

/-- `BARR` (R262). -/
def execBarr (h : BitVec 8) (s : State) : Host.Outcome State Fault Refusal :=
  s.slot (do
    let b ← s.barrier h.toNat
    s.externalUnit .barr [h.zeroExtend 64] fun t => t.arriveAt h.toNat b)

/-- `BWAIT` (R262). -/
def execBwait (h : BitVec 8) (s : State) : Host.Outcome State Fault Refusal :=
  if s.bfaultDue h.toNat then .next (s.bfault h.toNat)
  else s.slot (do
    let b ← s.barrier h.toNat
    s.externalUnit .bwait [h.zeroExtend 64] fun t =>
      let m := mget {} t.ctx.bars h.toNat
      if !m.owed then .ok t
      else if m.mine = b.done then blockOn (.barrier h.toNat)
      else .ok (t.waited h.toNat b))

/-- `BARW` (R262): when its arrival does not complete the phase, the context waits after the bundle's commit. -/
def execBarw (h : BitVec 8) (s : State) : Host.Outcome State Fault Refusal :=
  if s.bfaultDue h.toNat then .next (s.bfault h.toNat)
  else s.slot (do
    let b ← s.barrier h.toNat
    s.externalUnit .barw [h.zeroExtend 64] fun t => do
      let u ← t.arriveAt h.toNat b
      let b' ← u.barrier h.toNat
      return (if b'.done = b.done then u.updBun fun x => { x with waits := x.waits ++ [.barrierThen h.toNat x.slot] }
        else u.waited h.toNat b'))

/-! ## Stream queues (R264, R387) -/

/-- The logical core of a physical core of a group (R41). -/
def Binding.lcore (k : Binding) (core : Nat) : Nat := k.lcell (cellOf core) * 2 + core % 2

/-- The removals of the present cycle, which still count against a queue's or FIFO's room (R387). -/
def tookNow (cycle : Nat) (took : List Nat) : List Nat := took.filter (· == cycle)

/-- The oldest entry a get of the present cycle may remove (R265, R387): one put in an earlier cycle. -/
def headNow (cycle : Nat) (ents : List QEnt) : Option QEnt :=
  match ents with
  | e :: _ => if e.cyc < cycle then some e else none
  | [] => none

/-- A declared queue, checked for the issuing core as its producer or consumer (R264). -/
def State.streamQ (s : State) (q : Nat) (put : Bool) : Except Stop StreamQ :=
  let own := s.binding.lcore (coreOf s.me)
  match mfind s.binding.queues q with
  | some x => if (if put then x.prod else x.cons) = own then .ok x else trapWith cQUEUE (word q)
  | none => trapWith cQUEUE (word q)

/-- A queue replaced. -/
def State.setQueue (s : State) (q : Nat) (x : StreamQ) : State :=
  { s with dev := s.dev.updBinding s.blk fun k => { k with queues := mset k.queues q x } }

/-- A put pins the task and takes its stamp (R124, R257). R119 does not name puts among the accesses whose stamps `lstamp`
shows, and gives `lstamp` the context's most recent stamp: a put's is shown like the others (DESIGN CHOICE, log entry
107). -/
def State.putStamp (s : State) : Except Stop (State × Nat) := do
  let s1 ← s.pin
  let r := s1.takeStamp 0
  return (r.1.settleFar, r.2)

/-- A put of a vector or of the end-of-stream token (R264). -/
def State.enqueueQ (s : State) (q : Nat) (token : Bool) (v : VReg) : Except Stop State := do
  let x ← s.streamQ q true
  if x.cap ≤ x.ents.length + (tookNow s.dev.cycle x.took).length then blockOn (.queueFull q)
  else
    let r ← s.putStamp
    return r.1.setQueue q { x with ents := x.ents ++ [{ token := token, v := v, stamp := r.2, cyc := s.dev.cycle }] }

/-- The predicate of an active stream level that names queue `q`, innermost first (R224, R264). -/
def Regs.streamPred (r : Regs) (q : Nat) : Option (BitVec 3) :=
  let names (c : Word) : Bool := lpStream c && bits c 13 8 == q
  if names r.lpc1 then some (r.lpc1.extractLsb' 0 3)
  else if names r.lpc0 then some (r.lpc0.extractLsb' 0 3)
  else none
where
  lpStream (c : Word) : Bool := c.getLsbD 63 && c.getLsbD 62

/-- The removal of a queue's head (R264): what it delivers, with bit 0 of the result set for the token. -/
def State.dequeueQ (s : State) (q : Nat) : Except Stop (State × Given) := do
  let x ← s.streamQ q false
  match headNow s.dev.cycle x.ents with
  | none => blockOn (.queueEmpty q)
  | some e =>
    require (!e.token || (s.ctx0.regs.streamPred q).isSome) cEOS (word q)
    let s1 ← s.pin
    let took := tookNow s.dev.cycle x.took ++ [s.dev.cycle]
    return ((s1.setQueue q { x with ents := x.ents.drop 1, took := took }).orderAfter e.stamp, ⟨word (b2n e.token), e.v⟩)

/-- `QPUT` (R264). -/
def execQput (q b : BitVec 6) (s : State) : Host.Outcome State Fault Refusal :=
  s.slot (do
    let _ ← s.streamQ q.toNat true
    s.externalUnit .qput (q.zeroExtend 64 :: (s.vreg b).words) fun t => t.enqueueQ q.toNat false (s.vreg b))

/-- `QEOS` (R264). -/
def execQeos (q : BitVec 6) (s : State) : Host.Outcome State Fault Refusal :=
  s.slot (do
    let _ ← s.streamQ q.toNat true
    s.externalUnit .qeos [q.zeroExtend 64] fun t => t.enqueueQ q.toNat true {})

/-- `QGET` (R264): the head's vector and tag, or for the token the stream level's predicate cleared. -/
def execQget (d q : BitVec 6) (s : State) : Host.Outcome State Fault Refusal :=
  s.slot (do
    let _ ← s.streamQ q.toNat false
    let r ← s.external .qget [q.zeroExtend 64] fun t => t.dequeueQ q.toNat
    return (if r.2.res.getLsbD 0 then
        match s.ctx0.regs.streamPred q.toNat with
        | some p => r.1.setP p false
        | none => r.1
      else r.1.setV d r.2.vres))

/-! ## The vertical FIFO (R265, R387) -/

/-- The check of R265: the shape uses upper cores and the cell's upper core is not gated. -/
def State.fifoCheck (s : State) : Except Stop Unit :=
  let c := s.dev.cell (cellOf (coreOf s.me))
  require (!lowerOnly s.binding.shape.toNat && !c.gated && !c.ungating) cVFIFO 0

/-- A FIFO of the issuing core's cell: the upward one with `up`. -/
def State.fifo (s : State) (up : Bool) : Fifo :=
  let c := s.dev.cell (cellOf (coreOf s.me))
  if up then c.up else c.down

/-- A FIFO of the issuing core's cell replaced. -/
def State.setFifo (s : State) (up : Bool) (f : Fifo) : State :=
  { s with dev := s.dev.updCell (cellOf (coreOf s.me)) fun c => if up then { c with up := f } else { c with down := f } }

/-- The note of a put that is about to be made, whose result goes to register `d` (R387). -/
def State.putNote (s : State) (d : BitVec 6) : PutNote :=
  { cyc := s.dev.cycle, agent := s.me, reg := d, entry := if s.holding then some s.ctx.seg.log.length else none }

/-- The restart point of a task that began with the bundle of a put, which has recorded the put's free count (R58, R261). -/
def Task.recount (t : Task) (by_ : Word) (n : PutNote) : Task :=
  let r := t.restart.regs
  if t.began = some n.cyc then { t with restart := { t.restart with regs := r.setS n.reg (r.sreg n.reg + by_) } } else t

/-- A context whose put of the present cycle finds its free count changed by a later commit of the cycle. -/
def Ctx.recount (c : Ctx) (by_ : Word) (n : PutNote) : Ctx :=
  let seg : Segment := match n.entry with
    | some i => { c.seg with log := c.seg.log.modify i fun e => { e with res := e.res + by_ } }
    | none => c.seg
  { c with regs := c.regs.setS n.reg (c.regs.sreg n.reg + by_), seg := seg, task := c.task.map (·.recount by_ n) }

/-- The free counts that puts of the present cycle wrote, after one more put or removal of the cycle (R387). -/
def State.recount (s : State) (by_ : Word) (notes : List PutNote) : State :=
  (notes.filter fun n => n.cyc == s.dev.cycle).foldl
    (fun t n => { t with dev := t.dev.updCtx n.agent fun c => c.recount by_ n }) s

/-- The weight of a vertical FIFO entry that moves spent by the issuing core (R311). -/
def State.moveEntry (s : State) : State :=
  { s with dev := s.dev.updCore (coreOf s.me) fun k => { k with spent := k.spent + entryWeight } }

/-- The put of `VFPUT` (R265): the free entries after it. The second put of a bundle waits for room of its own. -/
def State.fifoPut (s : State) (d : BitVec 6) (v : VReg) : Except Stop (State × Given) := do
  let up := !isUpper (coreOf s.me)
  let f := s.fifo up
  let took := tookNow s.dev.cycle f.took
  if 16 ≤ f.ents.length + took.length then blockOn .fifoFull
  else
    let r ← s.putStamp
    let g : Fifo := { ents := f.ents ++ [{ v := v, stamp := r.2, cyc := s.dev.cycle }], took := took,
                      notes := s.putNote d :: f.notes.filter fun n => n.cyc == s.dev.cycle }
    return ((r.1.moveEntry.setFifo up g).recount (BitVec.allOnes 64) f.notes, ⟨word (16 - g.ents.length), {}⟩)

/-- The get of `VFGET` (R265). -/
def State.fifoGet (s : State) : Except Stop (State × Given) := do
  let up := isUpper (coreOf s.me)
  let f := s.fifo up
  match headNow s.dev.cycle f.ents with
  | none => blockOn .fifoEmpty
  | some e =>
    let s1 ← s.pin
    let took := tookNow s.dev.cycle f.took ++ [s.dev.cycle]
    return (((s1.moveEntry.setFifo up { f with ents := f.ents.drop 1, took := took }).recount 1 f.notes).orderAfter e.stamp, ⟨0, e.v⟩)

/-- `VFPUT` (R265). -/
def execVfput (d b : BitVec 6) (s : State) : Host.Outcome State Fault Refusal :=
  s.slot (do
    s.fifoCheck
    let r ← s.external .vfput (s.vreg b).words fun t => t.fifoPut d (s.vreg b)
    return r.1.setS d r.2.res)

/-- `VFGET` (R265). -/
def execVfget (d : BitVec 6) (s : State) : Host.Outcome State Fault Refusal :=
  s.slot (do
    s.fifoCheck
    let r ← s.external .vfget [] fun t => t.fifoGet
    return r.1.setV d r.2.vres)

/-! ## Timeline waits (R128 to R130, R266, R437) -/

/-- The numbers up to `n` of an engine context observed (R129, R130): the largest completion stamp, the flags, and the
timeline after it. -/
def Timeline.observe (t : Timeline) (n : Nat) : Nat × BitVec 6 × Timeline :=
  let st := (t.stamps.filter fun e => decide (e.1 ≤ n)).foldl (fun m e => Nat.max m e.2) 0
  let fl := (t.flags.filter fun e => decide (e.1 ≤ n)).foldl (fun m e => m ||| e.2) 0
  (st, fl, { t with stamps := t.stamps.filter fun e => !decide (e.1 ≤ n), flags := t.flags.filter fun e => !decide (e.1 ≤ n) })

/-- An engine context of the context at hand. -/
def State.timeline (s : State) (e : Nat) : Timeline := mget {} s.ctx.tls e

/-- The context's operations up to number `n` of engine context `e` observed (R129, R130). -/
def State.observe (s : State) (e n : Nat) : State :=
  let r := (s.timeline e).observe n
  ((s.updMe fun c => { c with tls := mset c.tls e r.2.2 }).orderAfter r.1).raise r.2.1

/-- The trap EFAULT of a pinned task (R437), whose routine sees the mark of that operation clear. -/
def State.efaultTrap (s : State) (e n : Nat) : State :=
  let clear (c : Ctx) : Ctx :=
    let t := mget {} c.tls e
    { c with tls := mset c.tls e { t with fault := t.fault.filter fun f => f.1 != n } }
  ((s.updMe clear).updBun fun b => { b with pre := b.pre.updCtx s.me clear }).stopped (.trap cEFAULT (word n))

/-- The first faulted number up to `n` that a wait of a pinned task observes (R437). -/
def State.faultUpTo (s : State) (e n : Nat) : Option Nat := ((s.timeline e).fault.find? fun f => decide (f.1 ≤ n)).map (·.1)

/-- The checks of `TLW` and its wait (R266). -/
def State.tlwCheck (s : State) (e n : Nat) : Except Stop Unit := do
  require (decide (n ≤ (s.timeline e).issued)) cTIMELINE (word n)
  require (!(s.dev.ops.any fun o => o.agent == s.me && o.e == e && decide (o.num ≤ n) && o.held && o.tasked)) cTLSELF (word n)
  if (s.timeline e).counter < n then blockOn (.timeline e n) else .ok ()

/-- `TLW` (R266). -/
def execTlw (e : BitVec 3) (a : BitVec 6) (s : State) : Host.Outcome State Fault Refusal :=
  let n := (s.sreg a).toNat
  match s.tlwCheck e.toNat n with
  | .error x => .next (s.stopped x)
  | .ok _ =>
    match s.faultUpTo e.toNat n with
    | some k => .next (s.efaultTrap e.toNat k)
    | none => .next (s.observe e.toNat n)

/-- `TLR` (R266). -/
def execTlr (d : BitVec 6) (e : BitVec 3) (s : State) : Host.Outcome State Fault Refusal :=
  let n := (s.timeline e.toNat).counter
  match s.faultUpTo e.toNat n with
  | some k => .next (s.efaultTrap e.toNat k)
  | none => .next ((s.observe e.toNat n).setS d (word n))

end Sys2Proof.Machine
end

