-- ==== Sys2Proof/Machine/Matrix.lean ====
section
/-! DEFINITION. The matrix instructions at issue (R297 to R307, R310, R313): slot and tag checks, claims, and entries of
the matrix queue. -/

namespace Sys2Proof.Machine

/-! ## Slots as the bundle reads them (R297) -/

/-- The core of the context at hand as it stood before the bundle. -/
def State.core0 (s : State) : Core := s.before.core (coreOf s.me)

/-- The state with the core of the context at hand changed. -/
def State.updMyCore (s : State) (f : Core → Core) : State :=
  { s with dev := s.dev.updCore (coreOf s.me) f }

/-- The tag of an operand slot. -/
def State.slotTag (s : State) (o : Nat) : Nat := (s.core0.slot o).tag.toNat

/-- `check_owned` (R298). -/
def State.checkOwned (s : State) (o : Nat) : Except Stop Unit :=
  require ((s.core0.slot o).claim == some s.me) cSLOT (word o)

/-- The claim checks of slots in order (R305): the first that fails names its slot. -/
def State.checkClaims (s : State) : List Nat → Except Stop Unit
  | [] => .ok ()
  | o :: r => do
    s.checkOwned o
    s.checkClaims r

/-- The trap TAG_MISMATCH of a matrix instruction (R274, R305): the tag, and the slot or bank number in bits 13:8. -/
def tagTrap {α : Type} (tag n : Nat) : Except Stop α := trapWith cTAG (word (tag + n * 256))

/-- The tag checks of slots in order (R305): each carries the tag of the first, which is accepted. -/
def State.checkTags (s : State) (tag : Nat) (ok : Nat → Bool) : List Nat → Except Stop Unit
  | [] => .ok ()
  | o :: r =>
    if s.slotTag o = tag ∧ ok tag then s.checkTags tag ok r else tagTrap (s.slotTag o) o

/-- The range check of `n` slots from `o` (R305). -/
def slotRange (o n : Nat) : Except Stop Unit := require (decide (o + n ≤ 64)) cOPERAND 0

/-- The range and claim checks of `n` slots from `o` (R305). A range that leaves the 64 slots is found before a claim that is
missing (DESIGN CHOICE, log entry 38). -/
def State.checkSlots (s : State) (o n : Nat) : Except Stop Unit := do
  slotRange o n
  s.checkClaims (span o n)

/-! ## The matrix queue (R299) -/

/-- A timeline with its next number issued (R128). -/
def Timeline.issue (t : Timeline) : Timeline :=
  { t with issued := (t.issued + 1) % 2 ^ 64, live := t.live ++ [(t.issued + 1) % 2 ^ 64] }

/-- An entry at the tail of the matrix queue (R299): its number on the timeline of `mp0.tle`, which `mp7` takes. An entry
counts among the 8 until it completes, and not only until it starts (DESIGN CHOICE, log entry 122). -/
def State.enqueueM (s : State) (op : MOp) : Except Stop State :=
  if 8 ≤ (s.dev.core (coreOf s.me)).mq.length then blockOn .matrixQueue
  else
    let c := s.ctx0
    let mp0 := mget 0 c.mp 0
    let e := mpTle mp0
    let t := (s.timeline e).issue
    let m : MEntry :=
      { ctx := s.me, e := e, num := t.issued, op := op, mp0 := mp0, mp1 := mget 0 c.mp 1, fcsr := c.regs.fcsr,
        issued := s.dev.cycle, inSeg := s.ctx.segOpen || s.bun.opens }
    let s1 := s.updMe fun x => { x with tls := mset x.tls e t, mp := mset x.mp 7 (word t.issued) }
    .ok (s1.updMyCore fun k => { k with mq := k.mq ++ [m] })

/-- A slot's tag set at the bundle's commit (R297). -/
def State.setSlotTag (s : State) (o : Nat) (tag : Nat) : State :=
  s.updMyCore fun k => k.setSlot o { k.slot o with tag := BitVec.ofNat 4 tag }

/-- The tags of slots in order set. -/
def State.setSlotTags (s : State) (tag : Nat) (os : List Nat) : State :=
  os.foldl (fun x o => x.setSlotTag o tag) s

/-- A bank's tag set at the bundle's commit (R297). -/
def State.setBankTag (s : State) (b : Nat) (tag : Nat) : State :=
  s.updMyCore fun k => k.setBank b { k.bank b with tag := BitVec.ofNat 4 tag }

/-- The tag of a bank. -/
def State.bankTag (s : State) (b : Nat) : Nat := (s.core0.bank b).tag.toNat

/-! ## `MCALL` (R305 to R307) -/

/-- The `mp0` that an instruction captures. -/
def State.mp0 (s : State) : Word := mget 0 s.ctx0.mp 0

/-- Whether `mr` and `nc` of a captured `mp0` lie within 1 to 128 (R306, R307). -/
def mpBounds (mp0 : Word) : Bool := decide (1 ≤ mpMr mp0 ∧ mpMr mp0 ≤ 128 ∧ 1 ≤ mpNc mp0 ∧ mpNc mp0 ≤ 128)

/-- Whether a tag stands in some operand pair of `mm` (R305). -/
def mmTagA (t : Nat) : Bool := (List.range 16).any fun u => (mmPair t u).isSome
def mmTagB (t : Nat) : Bool := (List.range 16).any fun u => (mmPair u t).isSome

/-- `MCALL mm` (R306). -/
def execMcallMm (acc : BitVec 1) (sa sb : BitVec 6) (s : State) : Host.Outcome State Fault Refusal :=
  s.slot (do
    let a := sa.toNat
    let b := sb.toNat
    let ta := s.slotTag a
    let tb := s.slotTag b
    let ns := ceilDiv (mpKn s.mp0) (kslot ta)
    require (decide (0 < mpKn s.mp0) && mpBounds s.mp0 && decide (a + ns ≤ 64 ∧ b + ns ≤ 64)) cOPERAND 0
    s.checkSlots a ns
    s.checkTags ta mmTagA (span a ns)
    s.checkSlots b ns
    s.checkTags tb mmTagB (span b ns)
    match mmPair ta tb with
    | none => tagTrap tb b
    | some p =>
      let bt := s.bankTag acc.toNat
      if bt = 0 ∨ bt = p.acc.toNat then do
        let t ← s.enqueueM (.mm acc.toNat a b ns (BitVec.ofNat 4 ta) (BitVec.ofNat 4 tb))
        return t.setBankTag acc.toNat p.acc.toNat
      else tagTrap bt acc.toNat)

/-- The output tags of `accout` (R307). -/
def accoutTag (u : Nat) : Bool := [1, 2, 4, 5, 6, 7, 8, 9].contains u

/-- `MCALL accout` (R307). -/
def execMcallAccout (acc : BitVec 1) (sa : BitVec 6) (s : State) : Host.Outcome State Fault Refusal :=
  s.slot (do
    let mp1 := mget 0 s.ctx0.mp 1
    let u := mpFmt mp1
    require (accoutTag u && mpBounds s.mp0) cOPERAND 0
    let n := accoutSlots mp1
    s.checkSlots sa.toNat n
    let t ← s.enqueueM (.accout acc.toNat sa.toNat (BitVec.ofNat 4 (s.bankTag acc.toNat)))
    return t.setSlotTags u (span sa.toNat n))

/-- The slot checks of `accld` and `accadd` (R305): four slots of one tag, 4 or 5. -/
def State.checkFour (s : State) (sa : Nat) (ok : Nat → Bool) : Except Stop Unit := do
  s.checkSlots sa 4
  s.checkTags (s.slotTag sa) (fun t => (t == 4 || t == 5) && ok t) (span sa 4)

/-- `MCALL accld` (R305). -/
def execMcallAccld (acc : BitVec 1) (sa : BitVec 6) (s : State) : Host.Outcome State Fault Refusal :=
  s.slot (do
    s.checkFour sa.toNat fun _ => true
    let t ← s.enqueueM (.accld acc.toNat sa.toNat)
    return t.setBankTag acc.toNat (s.slotTag sa.toNat))

/-- `MCALL accadd` (R305): the slots carry the bank's tag when it has one. -/
def execMcallAccadd (acc : BitVec 1) (sa : BitVec 6) (s : State) : Host.Outcome State Fault Refusal :=
  s.slot (do
    let bt := s.bankTag acc.toNat
    s.checkFour sa.toNat fun t => bt == 0 || t == bt
    let tag := s.slotTag sa.toNat
    let t ← s.enqueueM (.accadd acc.toNat sa.toNat (BitVec.ofNat 4 tag))
    return t.setBankTag acc.toNat tag)

/-- `MCALL transp` (R305). That `sa` and `sb` differ is checked after the claims and the tag (DESIGN CHOICE, log entry
38). -/
def execMcallTransp (sa sb : BitVec 6) (s : State) : Host.Outcome State Fault Refusal :=
  s.slot (do
    s.checkSlots sa.toNat 1
    s.checkSlots sb.toNat 1
    let tag := s.slotTag sa.toNat
    s.checkTags tag (fun t => t == 1 || t == 2 || t == 8 || t == 9) [sa.toNat]
    require (sa != sb) cOPERAND 0
    let t ← s.enqueueM (.transp sa.toNat sb.toNat (BitVec.ofNat 4 tag))
    return t.setSlotTag sb.toNat tag)

/-! ## Claims and transfers (R303) -/

/-- `MPAR` (R303): as `CSRW` of the register. -/
def execMpar (d : BitVec 3) (a : BitVec 6) (s : State) : Host.Outcome State Fault Refusal :=
  .next (s.updMe fun c => c.setMp d.toNat (s.sreg a))

/-- `OCLM` (R303). -/
def execOclm (o : BitVec 6) (s : State) : Host.Outcome State Fault Refusal :=
  s.slot (do
    let c := (s.core0.slot o.toNat).claim
    require (c.isNone || c == some s.me) cSLOT (o.zeroExtend 64)
    return s.updMyCore fun k => k.setSlot o.toNat { k.slot o.toNat with claim := some s.me })

/-- `OREL` (R303). -/
def execOrel (o : BitVec 6) (s : State) : Host.Outcome State Fault Refusal :=
  s.slot (do
    s.checkOwned o.toNat
    return s.updMyCore fun k => k.setSlot o.toNat { k.slot o.toNat with claim := none })

/-- The checks of a transfer (R303): the claim, the scratchpad address of `n` bytes, its alignment, and the core it
names. -/
def State.checkTransfer (s : State) (o n : Nat) (a : Word) : Except Stop Unit := do
  s.checkOwned o
  let own := coreOf s.me
  let r ← spTarget s.before s.binding own a n 1
  require (a.toNat % 256 == 0) cALIGN a
  require (!a.getLsbD 26 || r.1 == own || r.1 + 1 == own) cOPERAND 0

/-- `OLD` (R303). -/
def execOld (o a : BitVec 6) (tag : BitVec 4) (s : State) : Host.Outcome State Fault Refusal :=
  s.slot (do
    s.checkTransfer o.toNat (16384 + planeBytes tag.toNat) (s.sreg a)
    let t ← s.enqueueM (.old o.toNat (s.sreg a).toNat tag)
    return t.setSlotTag o.toNat tag.toNat)

/-- `OST` (R303). -/
def execOst (o a : BitVec 6) (s : State) : Host.Outcome State Fault Refusal :=
  s.slot (do
    let tag := (s.core0.slot o.toNat).tag
    s.checkTransfer o.toNat (16384 + planeBytes tag.toNat) (s.sreg a)
    s.enqueueM (.ost o.toNat (s.sreg a).toNat tag))

/-- `MACZ` (R303). -/
def execMacz (acc : BitVec 1) (s : State) : Host.Outcome State Fault Refusal :=
  s.slot (do
    let t ← s.enqueueM (.macz acc.toNat)
    return t.setBankTag acc.toNat 0)

/-- `MLIM` (R313). -/
def execMlim (a : BitVec 6) (s : State) : Host.Outcome State Fault Refusal :=
  .next (s.updMyCore fun k => { k with limit := (s.sreg a).extractLsb' 0 16 })

/-! ## `MUPLD` (R310) -/

/-- The magic of a routine library image (R310). -/
def libMagic : Nat := 0x4D524C42

/-- Whether a library header is well formed (R310): magic, a body of whole 64-byte lines, reserved bytes zero. -/
def libHeaderOk (h : List Byte) : Bool :=
  ofBytes ((h.drop 4).take 4) == libMagic && ofBytes ((h.drop 8).take 8) % 64 == 0 && (h.drop 16).all (· == 0)

/-- The pieces of a long read, through as many entries as the window holds (R91). -/
def State.translateLong (s : State) (va : Word) (n : Nat) : Except Stop (List Piece) :=
  match translateIn (s.binding.seen s.dev.cycle) .load (s.binding.win.length + 1) va n with
  | .ok ps => .ok ps
  | .error (c, x) => if c = cABSENT then .error (.abort c x) else .error (.trap c x)

/-- A library image read and checked (R310): the state after the reads, its version and its body with the header. An address
that is not 64-byte aligned is a header that does not parse, `ROUTLIB` with `tval` 3 (DESIGN CHOICE, log entry 38). -/
def State.readLibrary (s : State) (va : Word) : Except Stop (State × Nat × List Byte) := do
  require (va.toNat % 64 == 0) cROUTLIB 3
  let h ← s.load va 64
  require (libHeaderOk h.2) cROUTLIB 3
  let len := ofBytes ((h.2.drop 8).take 8)
  let ps ← h.1.translateLong va (64 + len + 96)
  let r ← h.1.loadPieces ps
  let body := r.2.take (64 + len)
  let ver := ofBytes (h.2.take 4)
  require (Config.sigOk body (r.2.drop (64 + len))) cROUTLIB 1
  require (decide (s.dev.dice.libVer.toNat ≤ ver)) cROUTLIB 2
  return (r.1, ver, body)

/-- `MUPLD` (R310): the library checked, and the context blocked until every upper core of the group has taken it, each at a
point where its matrix queue is empty (`Device.installLibraries`). -/
def execMupld (a : BitVec 6) (s : State) : Host.Outcome State Fault Refusal :=
  s.slot (do
    require (s.mode == 2) cPRIV (s.bun.word.zeroExtend 64)
    let r ← s.readLibrary (s.sreg a)
    let x : LibInstall :=
      { agent := s.me, cores := s.binding.cores.filter isUpper, ver := BitVec.ofNat 32 r.2.1, dig := sha384 r.2.2 }
    let dev := { r.1.dev with dice := { r.1.dev.dice with installs := r.1.dev.dice.installs ++ [x] } }
    return State.updBun { r.1 with dev := dev } fun b => { b with waits := b.waits ++ [.library] })

end Sys2Proof.Machine
end

