-- ==== Sys2Proof/Machine/Engine.lean ====
section
/-! DEFINITION. The engine instructions at issue (R315 to R319, R342): shadow registers, what `EGO` checks, the source
bytes it reads at one stamp (R127, R134), and the writes it leaves to the engine. -/

namespace Sys2Proof.Machine

/-! ## Shadow registers (R315) -/

/-- The eight shadow registers of an engine kind. -/
structure EngRegs where
  src : Word
  dst : Word
  len : Word
  ctl : Word
  a0 : Word
  a1 : Word
  a2 : Word
  a3 : Word
  deriving DecidableEq, Repr

/-- Shadow register `r` of engine kind `eng` of a context. -/
def Ctx.shadowReg (c : Ctx) (eng r : Nat) : Word := mget 0 c.shadow (8 * eng + r)

/-- The shadow registers of an engine kind. -/
def Ctx.engRegs (c : Ctx) (eng : Nat) : EngRegs :=
  let r := c.shadowReg eng
  ⟨r 0, r 1, r 2, r 3, r 4, r 5, r 6, r 7⟩

/-- The registers as a list, in the order of R315. -/
def EngRegs.words (r : EngRegs) : List Word := [r.src, r.dst, r.len, r.ctl, r.a0, r.a1, r.a2, r.a3]

/-- `ESET` (R317). -/
def execEset (eng : BitVec 4) (r : BitVec 3) (a : BitVec 6) (s : State) : Host.Outcome State Fault Refusal :=
  .next (s.updMe fun c => { c with shadow := mset c.shadow (8 * eng.toNat + r.toNat) (s.sreg a) })

/-- The source and destination spaces of `ctl` (R315). -/
def EngRegs.ssp (r : EngRegs) : Nat := bits r.ctl 3 0
def EngRegs.dsp (r : EngRegs) : Nat := bits r.ctl 7 4

/-- Whether `ctl` is refused (R315): a reserved bit set, or a space that the operation uses with a code above 1. -/
def EngRegs.ctlBad (r : EngRegs) (usesSrc usesDst : Bool) : Bool :=
  bits r.ctl 63 8 != 0 || (usesSrc && decide (1 < r.ssp)) || (usesDst && decide (1 < r.dsp))

/-! ## Ranges (R93, R134, R317, R318) -/

/-- A range that an operation reads or writes: translated pieces of global memory, or bytes of the scratchpad of a
logical core. -/
inductive Rng where
  | mem (va : Word) (ps : List Piece)
  | sp (lcore off n : Nat)
  deriving DecidableEq, Repr

/-- A range to fix at issue: its space, address, length and access. -/
structure Want where
  space : Nat
  a : Word
  n : Nat
  acc : Acc
  deriving DecidableEq, Repr

/-- The logical core and offset of `n` scratchpad bytes (R75, R318). -/
def State.spPlace (s : State) (a : Word) (n : Nat) : Option (Nat × Nat) :=
  match spTarget s.before s.binding (coreOf s.me) a n 1 with
  | .ok (core, off) => some (s.binding.lcore core, off)
  | .error _ => none

/-- Whether `n` bytes at an address of a space break R75; a global address is checked as it is translated. -/
def State.spBad (s : State) (space : Nat) (a : Word) (n : Nat) : Bool := space == 1 && (s.spPlace a n).isNone

/-- A range fixed at issue (R93, R317): refused over more than two window entries. -/
def State.fix (s : State) (w : Want) : Except Stop Rng :=
  if w.space = 1 then
    match s.spPlace w.a w.n with
    | some (lc, off) => .ok (.sp lc off w.n)
    | none => trapWith cOPERAND 0
  else if w.n = 0 then .ok (.mem w.a [])
  else do
    require (decide (entriesOf (s.binding.seen s.dev.cycle) 3 w.a w.n ≤ 2)) cOPERAND 9
    let ps ← s.translate w.a w.n w.acc
    return .mem w.a ps

/-- Ranges fixed in order. -/
def State.fixAll (s : State) : List Want → Except Stop (List Rng)
  | [] => .ok []
  | w :: r => do
    let x ← s.fix w
    let xs ← s.fixAll r
    return x :: xs

/-- The physical core of a logical core of a binding (R40). -/
def Binding.physCore (k : Binding) (lc : Nat) : Nat := 2 * k.pcell (lc / 2) + lc % 2

/-- What a read gives: its bytes, and the offset and physical address of the first poisoned one. -/
structure Got where
  bytes : List Byte := []
  bad : Option (Nat × Nat) := none
  deriving DecidableEq, Repr

/-- One byte as an engine's load at stamp `st` returns it (R127), with whether it is poisoned; `olds` holds lines that
writes above the stamp have changed since. Bytes of remote memory, and whether the peer returns a line poisoned, are free
(log entry 10). -/
def Device.engByte (d : Device) (x st a : Nat) (olds : Map (LineBits × Bool)) (p : Piece) (i : Nat) : Byte × Bool :=
  let pa := p.pa + i
  if isRemote pa then
    ((Config.freeVec x).extractLsb' (8 * (i % 256)) 8, !d.reachable (peerOf pa) || Config.freeBool x (pa / 64))
  else
    match mfind olds (pa / 64) with
    | some c => (lineByte c.1 pa, c.2)
    | none => (d.baseByte [] (p.kind == 1) p.kid st a pa, d.poisonAt [] (p.kind == 1) st a pa)

/-- The bytes of pieces as an engine's load at stamp `st` returns them. -/
def Device.engBytes (d : Device) (x st a : Nat) (olds : Map (LineBits × Bool)) (ps : List Piece) : Got :=
  ps.foldl (fun g p =>
    let bs := (List.range p.n).map fun i => d.engByte x st a olds p i
    let bad := match g.bad with
      | some b => some b
      | none => ((List.range p.n).find? fun i => (d.engByte x st a olds p i).2).map fun i => (g.bytes.length + i, p.pa + i)
    ⟨g.bytes ++ bs.map (·.1), bad⟩) {}

/-- The bytes of a range as they stand at issue (R127, R134). -/
def State.engGet (s : State) (x st : Nat) : Rng → Got
  | .mem _ ps => s.dev.engBytes x st s.me [] ps
  | .sp lc off n => { bytes := (List.range n).map fun i => (s.dev.core (s.binding.physCore lc)).spByte (off + i) }

/-- The local lines that ranges read. -/
def Rng.lines : Rng → List Nat
  | .mem _ ps => pieceLines ps
  | .sp _ _ _ => []

/-! ## Writes left to the engine -/

/-- Where writes go: a logical core's scratchpad or global memory, from a base. -/
structure Dest where
  sp : Option Nat
  base : Nat
  deriving DecidableEq, Repr

/-- The destination that a range gives. -/
def Rng.dest : Rng → Dest
  | .mem va _ => ⟨none, va.toNat⟩
  | .sp lc off _ => ⟨some lc, off⟩

/-- Bytes cut at the 64-byte lines of their destination; the source byte at offset `bad.1` is poisoned, the first byte
here having offset `pos`. -/
def cutLines (sp : Option Nat) (bad : Option (Nat × Nat)) : Nat → Nat → Nat → List Byte → List EngWrite
  | 0, _, _, _ => []
  | n + 1, pos, dst, bs =>
    if bs.isEmpty then []
    else
      let k := 64 - dst % 64
      let here := match bad with
        | some (o, pa) => if pos ≤ o ∧ o < pos + k then some pa else none
        | none => none
      { sp := sp, dst := dst, bytes := bs.take k, bad := here } :: cutLines sp bad n (pos + k) (dst + k) (bs.drop k)

/-- The writes of bytes to a destination, as read with `bad`. -/
def Dest.puts (t : Dest) (off : Nat) (g : Got) : List EngWrite :=
  cutLines t.sp g.bad (g.bytes.length / 64 + 2) 0 (t.base + off) g.bytes

/-- Writes of bytes computed from a whole source: a poisoned source byte stops them all. -/
def Dest.putsAll (t : Dest) (off : Nat) (bs : List Byte) (bad : Option Nat) : List EngWrite :=
  match t.puts off ⟨bs, none⟩ with
  | [] => [{ sp := t.sp, dst := t.base + off, bad := bad }]
  | w :: r => { w with bad := bad } :: r

/-- The first poisoned byte of several reads. -/
def firstBadRange (gs : List Got) : Option Nat := gs.findSome? fun g => g.bad.map (·.2)

/-! ## `EGO` (R317) -/

/-- What an operation checks, fixes and does: registers at fault, ranges in the order in which they are fixed, further
pieces it reads, and its writes and flags from the reads of its ranges. -/
structure Form where
  bad : List (Nat × Bool)
  wants : List Want := []
  extra : List Piece := []
  build : State → Nat → Nat → List Rng → List EngWrite × Flags

/-- The lowest register at fault. -/
def Form.refused (f : Form) : Option Nat :=
  (f.bad.filter (·.2)).foldl (fun m b => some (match m with | some n => Nat.min n b.1 | none => b.1)) none

/-- The operations in the command queue that engine kind `eng` keeps for the cluster of context `a` (R27, R317): one queue
of 32 per cluster engine, and one of 256 for the network engine. An operation keeps its place until it completes (DESIGN
CHOICE, log entry 122). -/
def Device.engQueue (d : Device) (a eng : Nat) : Nat :=
  (d.ops.filter fun o => o.eng == eng &&
    (eng == 5 || clusterOf (cellOf (coreOf o.agent)) == clusterOf (cellOf (coreOf a)))).length

/-- The leases of lines read by an engine at stamp `st` (R117). -/
def Device.engLease (d : Device) (st len : Nat) (lines : List Nat) : Device :=
  lines.foldl (fun x l => x.updLine l fun e => { e with lease := Nat.max e.lease (Nat.min (st + len) maxStamp) }) d

/-- The operation issued (R317): its stamp, its reads, its number, and what is attached to it. Where it has still to read
some bytes, its stamp is above every stamp taken, so that what a load at it returns is still there (R127). -/
def State.issueOp (s : State) (eng op e : Nat) (regs : EngRegs) (f : Form) (rs : List Rng) :
    Except Stop (State × Given) :=
  if (if eng = 5 then 256 else 32) ≤ s.dev.engQueue s.me eng then blockOn (.engineQueue eng)
  else
    let (s1, x) := s.settleFar.draw
    let (s2, y) := s1.draw
    let lines := uniq (rs.flatMap Rng.lines ++ pieceLines f.extra)
    let late := (f.build s2 x 0 rs).1.any (·.late.isSome)
    let (s3, st) := s2.takeStamp (if late then s2.dev.top else s2.dev.wtsOver [] lines)
    let s4 := { s3 with dev := s3.dev.engLease st (Config.freeNat y % 65537) lines }
    let (work, flags) := f.build s4 x st rs
    let t := (s4.timeline e).issue
    let o : EngOp :=
      { blk := s.blk, agent := s.me, e := e, num := t.issued, eng := eng, op := op, regs := regs.words, stamp := st,
        wst := st, issued := s.dev.cycle, work := work, flags := flags,
        held := eng == 5 || work.any fun w => w.sp.isNone, succ := t.succ, bar := t.bar }
    let s5 := s4.updMe fun c => { c with tls := mset c.tls e { t with succ := [], bar := none } }
    let d := if late then s5.dev.noteQsc else s5.dev
    .ok ({ s5 with dev := { d with ops := d.ops ++ [o] } }, ⟨word t.issued, {}⟩)

/-- `EGO` of an operation of engine kind `eng` (R317, R403). -/
def ego (eng op : Nat) (form : State → EngRegs → Form) (d : BitVec 6) (e : BitVec 3) (s : State) :
    Host.Outcome State Fault Refusal :=
  s.slot (do
    let regs := s.ctx0.engRegs eng
    let f := form s regs
    match f.refused with
    | some r => trapWith cOPERAND (word r)
    | none => do
      let rs ← s.fixAll f.wants
      let g ← s.external .ego (word eng :: word op :: e.zeroExtend 64 :: regs.words) fun t =>
        t.issueOp eng op e.toNat regs f rs
      return g.1.setS d g.2.res)

/-! ### Copy (R318) -/

/-- Whether a length lies within `move`'s limits. -/
def moveLenBad (len : Word) : Bool := decide (len.toNat < 4 ∨ 2 ^ 32 - 4 < len.toNat ∨ len.toNat % 4 ≠ 0)

/-- The n-th range of a list. -/
def nth (rs : List Rng) (i : Nat) : Rng := rs.getD i (.mem 0 [])

def formMove (s : State) (r : EngRegs) : Form :=
  let n := r.len.toNat
  { bad := [(0, decide (r.src.toNat % 4 ≠ 0) || s.spBad r.ssp r.src n),
            (1, decide (r.dst.toNat % 4 ≠ 0) || s.spBad r.dsp r.dst n), (2, moveLenBad r.len), (3, r.ctlBad true true)]
    wants := [⟨r.ssp, r.src, n, .engRead⟩, ⟨r.dsp, r.dst, n, .engWrite⟩]
    build := fun t x st rs => ((nth rs 1).dest.puts 0 (t.engGet x st (nth rs 0)), 0) }

def formFill (s : State) (r : EngRegs) : Form :=
  let n := r.len.toNat
  { bad := [(1, decide (r.dst.toNat % 8 ≠ 0) || s.spBad r.dsp r.dst n), (2, decide (n % 8 ≠ 0)), (3, r.ctlBad false true)]
    wants := [⟨r.dsp, r.dst, n, .engWrite⟩]
    build := fun _ _ _ rs =>
      ((nth rs 0).dest.puts 0 ⟨(List.range (n / 8)).flatMap fun _ => toBytes r.a0.toNat 8, none⟩, 0) }

/-- The address of row `i` of a strided range (R318). -/
def rowAddr (a stride : Word) (i : Nat) : Word := a + word i * stride

/-- The lowest address of the rows of a strided range, and the bytes from there to the end of the last row. -/
def rowBox (a stride : Word) (rows len : Nat) : Word × Nat :=
  let last := stride.toInt * ((rows : Int) - 1)
  (if last < 0 then a + wordI last else a, last.natAbs + len)

/-- Whether some row of a strided scratchpad range breaks R75. -/
def State.rowsBad (s : State) (space : Nat) (a stride : Word) (rows len : Nat) : Bool :=
  space == 1 && (List.range rows).any fun i => (s.spPlace (rowAddr a stride i) len).isNone

/-- The ranges of the rows of one side of a strided copy: each scratchpad row, or the one global range that holds them. -/
def rowWants (space : Nat) (a stride : Word) (rows len : Nat) (acc : Acc) : List Want :=
  if space = 1 then (List.range rows).map fun i => ⟨1, rowAddr a stride i, len, acc⟩
  else [⟨space, (rowBox a stride rows len).1, (rowBox a stride rows len).2, acc⟩]

/-- The pieces of `n` bytes from offset `off` of pieces. -/
def cutPieces : List Piece → Nat → Nat → List Piece
  | [], _, _ => []
  | p :: r, off, n =>
    if n = 0 then []
    else if p.n ≤ off then cutPieces r (off - p.n) n
    else
      let k := Nat.min n (p.n - off)
      { p with va := p.va + word off, pa := p.pa + off, n := k } :: cutPieces r 0 (n - k)

/-- Row `i` of one side of a strided copy, given its fixed ranges. -/
def rowRng (space : Nat) (a stride : Word) (rows len : Nat) (rs : List Rng) (i : Nat) : Rng :=
  if space = 1 then nth rs i
  else
    match nth rs 0 with
    | .mem va ps => .mem (rowAddr a stride i) (cutPieces ps (rowAddr a stride i - va).toNat len)
    | x => if rows = 0 then x else x

def formMove2d (s : State) (r : EngRegs) : Form :=
  let n := r.len.toNat
  let rows := r.a0.toNat
  let ok := decide (1 ≤ rows ∧ rows ≤ 65535)
  let ns := if r.ssp = 1 then rows else 1
  { bad := [(0, decide (r.src.toNat % 4 ≠ 0) || (ok && s.rowsBad r.ssp r.src r.a1 rows n)),
            (1, decide (r.dst.toNat % 4 ≠ 0) || (ok && s.rowsBad r.dsp r.dst r.a2 rows n)),
            (2, moveLenBad r.len), (3, r.ctlBad true true), (4, !ok),
            (5, decide (1 < rows ∧ r.a1.toNat % 4 ≠ 0)), (6, decide (1 < rows ∧ r.a2.toNat % 4 ≠ 0))]
    wants := rowWants r.ssp r.src r.a1 rows n .engRead ++ rowWants r.dsp r.dst r.a2 rows n .engWrite
    build := fun t x st rs =>
      ((List.range rows).flatMap fun i =>
        (rowRng r.dsp r.dst r.a2 rows n (rs.drop ns) i).dest.puts 0
          (t.engGet x st (rowRng r.ssp r.src r.a1 rows n (rs.take ns) i)), 0) }

/-! ### Gather (R318, R478) -/

/-- The signed 32-bit indexes at a scratchpad address, as they stand at issue. -/
def State.indexes (s : State) (a : Word) (count : Nat) : List Int :=
  match s.spPlace a (4 * count) with
  | some (lc, off) =>
    let k := s.dev.core (s.binding.physCore lc)
    (List.range count).map fun j =>
      (BitVec.ofNat 32 (ofBytes ((List.range 4).map fun i => k.spByte (off + 4 * j + i)))).toInt
  | none => []

/-- The address of the element that an index names. -/
def elemAddr (base : Word) (i : Int) (len : Nat) : Word := base + wordI (i * len)

/-- The pieces of an element that translate at issue. -/
def State.elemPieces (s : State) (va : Word) (n : Nat) : Option (List Piece) :=
  match translateIn (s.binding.seen s.dev.cycle) .engRead 3 va n with
  | .ok ps => some ps
  | .error _ => none

/-- The writes of a gathered element at `va` to a destination: the element is translated before its first write, and its
bytes, those of a load at the operation's stamp, are delivered whole or, where one is poisoned, not at all (R127, R478). -/
def State.gathered (s : State) (x st : Nat) (t : Dest) (off len : Nat) (va : Word) : List EngWrite :=
  let ws : List EngWrite := match s.elemPieces va len with
    | some ps => let g := s.dev.engBytes x st s.me [] ps; t.putsAll off g.bytes (firstBadRange [g])
    | none => [{ sp := t.sp, dst := t.base + off, late := some (va, len) }]
  match ws with
  | [] => []
  | w :: r => { w with need := some (va, len) } :: r

/-- The limits that `gath` and `scat` share. -/
def gatherBad (s : State) (r : EngRegs) : List (Nat × Bool) :=
  let ok := decide (1 ≤ r.a1.toNat ∧ r.a1.toNat ≤ 65536)
  [(2, decide (r.len.toNat < 4 ∨ 4096 < r.len.toNat ∨ r.len.toNat % 4 ≠ 0)),
   (4, ok && s.spBad 1 r.a0 (4 * r.a1.toNat)), (5, !ok)]

def formGath (s : State) (r : EngRegs) : Form :=
  let n := r.len.toNat
  let idx := s.indexes r.a0 r.a1.toNat
  { bad := gatherBad s r ++ [(1, s.spBad r.dsp r.dst (n * r.a1.toNat)),
                             (3, decide (r.ssp ≠ 0) || r.ctlBad false true)]
    wants := [⟨r.dsp, r.dst, n * r.a1.toNat, .engWrite⟩]
    extra := idx.flatMap fun i => (s.elemPieces (elemAddr r.src i n) n).getD []
    build := fun t x st rs =>
      (idx.zipIdx.flatMap fun e => t.gathered x st (nth rs 0).dest (e.2 * n) n (elemAddr r.src e.1 n), 0) }

/-- The writes of a scattered element, which is translated before the first of them (R478). -/
def scattered (va : Word) (len : Nat) (g : Got) : List EngWrite :=
  match Dest.puts ⟨none, va.toNat⟩ 0 g with
  | [] => []
  | w :: r => { w with into := some (va, len) } :: r

def formScat (s : State) (r : EngRegs) : Form :=
  let n := r.len.toNat
  let idx := s.indexes r.a0 r.a1.toNat
  { bad := gatherBad s r ++ [(0, s.spBad r.ssp r.src (n * r.a1.toNat)),
                             (3, decide (r.dsp ≠ 0) || r.ctlBad true false)]
    wants := [⟨r.ssp, r.src, n * r.a1.toNat, .engRead⟩]
    build := fun t x st rs =>
      let g := t.engGet x st (nth rs 0)
      let part (j : Nat) : Got :=
        { bytes := (g.bytes.drop (j * n)).take n
          bad := match g.bad with
            | some (o, pa) => if j * n ≤ o ∧ o < (j + 1) * n then some (o - j * n, pa) else none
            | none => none }
      (idx.zipIdx.flatMap fun e => scattered (elemAddr r.dst e.1 n) n (part e.2), 0) }

/-! ### Hash and crypto (R318) -/

def formSha384 (s : State) (r : EngRegs) : Form :=
  let n := r.len.toNat
  { bad := [(0, s.spBad r.ssp r.src n), (1, decide (r.dst.toNat % 8 ≠ 0) || s.spBad r.dsp r.dst 48),
            (2, decide (2 ^ 32 ≤ n)), (3, r.ctlBad true true)]
    wants := [⟨r.ssp, r.src, n, .engRead⟩, ⟨r.dsp, r.dst, 48, .engWrite⟩]
    build := fun t x st rs =>
      let g := t.engGet x st (nth rs 0)
      ((nth rs 1).dest.putsAll 0 (sha384 g.bytes) (firstBadRange [g]), 0) }

/-- The key that `aux0` selects (R318). -/
def State.cryptoKid (s : State) (r : EngRegs) : Nat :=
  (s.dev.block s.blk).get (if r.a0.getLsbD 0 then fDkid else fRkid)

/-- The 32 bytes of a key; a key that is not loaded has no stated value. -/
def State.keyBytes (s : State) (x kid : Nat) : List Byte :=
  match s.dev.key kid with
  | some (k, _) => toBytes k.toNat 32
  | none => toBytes ((Config.freeVec x).extractLsb' 0 256).toNat 32

/-- The limits that `seal` and `open` share; `n` and `m` are the source's and the destination's bytes. -/
def cryptoBad (s : State) (r : EngRegs) (n m : Nat) : List (Nat × Bool) :=
  [(0, s.spBad r.ssp r.src n), (1, s.spBad r.dsp r.dst m), (2, decide (r.len.toNat = 0 ∨ 2 ^ 24 < r.len.toNat)),
   (3, r.ctlBad true true), (4, s.cryptoKid r == 0), (5, s.spBad r.ssp r.a1 12),
   (6, s.spBad r.ssp r.a2 r.a3.toNat), (7, decide (65535 < r.a3.toNat))]

/-- The ranges of `seal` and `open`. -/
def cryptoWants (r : EngRegs) (n m : Nat) : List Want :=
  [⟨r.ssp, r.src, n, .engRead⟩, ⟨r.dsp, r.dst, m, .engWrite⟩, ⟨r.ssp, r.a1, 12, .engRead⟩,
   ⟨r.ssp, r.a2, r.a3.toNat, .engRead⟩]

def formSeal (s : State) (r : EngRegs) : Form :=
  let n := r.len.toNat
  { bad := cryptoBad s r n (n + 16)
    wants := cryptoWants r n (n + 16)
    build := fun t x st rs =>
      let get (i : Nat) : Got := t.engGet x st (nth rs i)
      let z := gcmSeal (t.keyBytes x (s.cryptoKid r)) (get 2).bytes (get 3).bytes (get 0).bytes
      ((nth rs 1).dest.putsAll 0 (z.1 ++ z.2) (firstBadRange [get 0, get 2, get 3]), 0) }

def formOpen (s : State) (r : EngRegs) : Form :=
  let n := r.len.toNat
  let at8 := ceilDiv n 8 * 8
  { bad := cryptoBad s r (n + 16) (at8 + 8)
    wants := cryptoWants r (n + 16) (at8 + 8)
    build := fun t x st rs =>
      let get (i : Nat) : Got := t.engGet x st (nth rs i)
      let z := gcmOpen (t.keyBytes x (s.cryptoKid r)) (get 2).bytes (get 3).bytes ((get 0).bytes.take n)
        ((get 0).bytes.drop n)
      let plain := match z with | some p => p | none => List.replicate n 0
      let status := toBytes (if z.isSome then 0 else 1) 8
      let out := (nth rs 1).dest
      (out.putsAll 0 plain (firstBadRange [get 0, get 2, get 3]) ++ out.puts at8 ⟨status, none⟩, 0) }

/-! ### Collectives (R318) -/

/-- Whether a logical core exists in a binding's shape (R75). -/
def Binding.hasCore (k : Binding) (lc : Nat) : Bool :=
  decide (lc / 2 < shapeCells k.shape.toNat) && !(lc % 2 == 1 && lowerOnly k.shape.toNat)

/-- The clusters that `aux1` names, and the cores that `aux0` names within each (R318). -/
def namedClusters (r : EngRegs) : List Nat := (List.range 32).filter fun c => r.a1.getLsbD c
def namedInCluster (r : EngRegs) : List Nat := (List.range 16).filter fun i => r.a0.getLsbD i

/-- The named logical cores, in increasing physical core number (R40, R318). -/
def namedCores (r : EngRegs) : List Nat := (namedClusters r).flatMap fun c => (namedInCluster r).map fun i => 16 * c + i

/-- Whether `n` bytes at an offset lie outside a logical core's scratchpad. -/
def State.offBad (s : State) (off n lc : Nat) : Bool :=
  decide ((s.before.core (s.binding.physCore lc)).spSize < off + n)

/-- The limits that the collectives share (R318). A mask that names a core or cluster which the shape lacks is refused, by
its register, 4 or 5 (DESIGN CHOICE, log entry 122). -/
def collBad (s : State) (r : EngRegs) : List (Nat × Bool) :=
  let n := r.len.toNat
  let own := s.binding.lcore (coreOf s.me)
  let src := match s.spPlace r.src n with | some (lc, _) => lc != own | none => true
  let here := (namedClusters r).filter fun c => decide (8 * c < shapeCells s.binding.shape.toNat)
  [(0, src), (2, decide (n % 64 ≠ 0)), (3, bits r.ctl 63 8 != 0),
   (4, here.any fun c => (namedInCluster r).any fun i => !s.binding.hasCore (16 * c + i)),
   (5, here.length != (namedClusters r).length)]

def formBcast (s : State) (r : EngRegs) : Form :=
  let n := r.len.toNat
  let off := bits r.dst 21 0
  { bad := collBad s r ++ [(1, bits r.dst 63 27 != 0 || (namedCores r).any fun lc => s.offBad off n lc)]
    wants := [⟨1, r.src, n, .engRead⟩]
    build := fun t x st rs =>
      let g := t.engGet x st (nth rs 0)
      ((namedCores r).flatMap fun lc => Dest.puts ⟨some lc, off⟩ 0 g, 0) }

/-- The bytes at an offset of every named core, as they stand at issue. -/
def State.namedBytes (s : State) (r : EngRegs) (off n : Nat) : List (List Byte) :=
  (namedCores r).map fun lc => (s.engGet 0 0 (.sp lc off n)).bytes

/-- Element `i` of 4 bytes of each part. -/
def elems4 (parts : List (List Byte)) (i : Nat) : List Nat := parts.map fun p => ofBytes ((p.drop (4 * i)).take 4)

/-- One FP32 addition of a collective sum (R318). -/
def addF32 (a : Nat × Flags) (x : Nat) : Nat × Flags :=
  let v := Val.add 0 (fp32.decode a.1) (fp32.decode x)
  let z := roundTo fp32 0 false 0 v.1
  (z.code, a.2 ||| v.2 ||| z.flags)

/-- The FP32 sum of values in order (R318). -/
def sumF32 : List Nat → Nat × Flags
  | [] => (0, 0)
  | v :: r => r.foldl addF32 ((roundTo fp32 0 false 0 (fp32.decode v)).code, 0)

/-- The INT32 sum of values, wrapping (R318). -/
def sumI32 (vs : List Nat) : Nat := vs.foldl (· + ·) 0 % 2 ^ 32

/-- A collective sum with one element's sum as a parameter; over no core at all the sum has no stated value. -/
def formSum (sum : List Nat → Nat × Flags) (s : State) (r : EngRegs) : Form :=
  let n := r.len.toNat
  let off := bits r.src 21 0
  { bad := collBad s r ++ [(0, (namedCores r).any fun lc => s.offBad off n lc), (1, s.spBad 1 r.dst n)]
    wants := [⟨1, r.dst, n, .engWrite⟩]
    build := fun t x _ rs =>
      let parts := t.namedBytes r off n
      let els := (List.range (n / 4)).map fun i =>
        if parts.isEmpty then (((Config.freeVec x).extractLsb' (32 * (i % 64)) 32).toNat, 0) else sum (elems4 parts i)
      ((nth rs 0).dest.puts 0 ⟨els.flatMap fun e => toBytes e.1 4, none⟩, els.foldl (fun f e => f ||| e.2) 0) }

/-! ### Replies (R318, R342) -/

/-- Whether the binding has sent or issued its final reply (R318). -/
def State.replyIssued (s : State) : Bool :=
  s.binding.replied || s.before.ops.any fun o => o.blk == s.blk && o.eng == 5 && o.op == 0

/-- The form of a reply operation; `final` for `net.reply`. -/
def formNet (final : Bool) (s : State) (r : EngRegs) : Form :=
  let n := r.len.toNat
  { bad := [(0, s.spBad r.ssp r.src n), (2, decide (1048576 < n) || (!final && decide (n = 0))), (3, r.ctlBad true false),
            (10, final && s.replyIssued)]
    wants := [⟨r.ssp, r.src, n, .engRead⟩]
    build := fun t x st rs =>
      let g := t.engGet x st (nth rs 0)
      ([{ dst := 0, bytes := g.bytes, bad := firstBadRange [g] }], 0) }

def execEgoCopyMove (d : BitVec 6) (e : BitVec 3) (s : State) : Host.Outcome State Fault Refusal := ego 0 0 formMove d e s
def execEgoCopyFill (d : BitVec 6) (e : BitVec 3) (s : State) : Host.Outcome State Fault Refusal := ego 0 1 formFill d e s
def execEgoCopyMove2d (d : BitVec 6) (e : BitVec 3) (s : State) : Host.Outcome State Fault Refusal :=
  ego 0 2 formMove2d d e s
def execEgoGatherGath (d : BitVec 6) (e : BitVec 3) (s : State) : Host.Outcome State Fault Refusal :=
  ego 1 0 formGath d e s
def execEgoGatherScat (d : BitVec 6) (e : BitVec 3) (s : State) : Host.Outcome State Fault Refusal :=
  ego 1 1 formScat d e s
def execEgoHashSha384 (d : BitVec 6) (e : BitVec 3) (s : State) : Host.Outcome State Fault Refusal :=
  ego 2 0 formSha384 d e s
def execEgoCryptoSeal (d : BitVec 6) (e : BitVec 3) (s : State) : Host.Outcome State Fault Refusal :=
  ego 3 0 formSeal d e s
def execEgoCryptoOpen (d : BitVec 6) (e : BitVec 3) (s : State) : Host.Outcome State Fault Refusal :=
  ego 3 1 formOpen d e s
def execEgoCollBcast (d : BitVec 6) (e : BitVec 3) (s : State) : Host.Outcome State Fault Refusal :=
  ego 4 0 formBcast d e s
def execEgoCollSumf (d : BitVec 6) (e : BitVec 3) (s : State) : Host.Outcome State Fault Refusal :=
  ego 4 1 (formSum sumF32) d e s
def execEgoCollSumi (d : BitVec 6) (e : BitVec 3) (s : State) : Host.Outcome State Fault Refusal :=
  ego 4 2 (formSum fun vs => (sumI32 vs, 0)) d e s
def execEgoNetPart (d : BitVec 6) (e : BitVec 3) (s : State) : Host.Outcome State Fault Refusal :=
  ego 5 1 (formNet false) d e s
def execEgoNetReply (d : BitVec 6) (e : BitVec 3) (s : State) : Host.Outcome State Fault Refusal :=
  ego 5 0 (formNet true) d e s

/-! ## `EDEP`, `EBAR` and `ECAN` (R319) -/

/-- An engine context of the context at hand changed. -/
def State.updTimeline (s : State) (e : Nat) (f : Timeline → Timeline) : State :=
  s.updMe fun c => { c with tls := mset c.tls e (f (mget {} c.tls e)) }

/-- `EDEP` (R319). -/
def execEdep (e : BitVec 3) (a : BitVec 6) (s : State) : Host.Outcome State Fault Refusal :=
  s.slot (do
    let va := s.sreg a
    aligned va 64
    let ps ← s.translate va 8 .store
    require (ps.all fun p => p.kind == 0) cKIND va
    s.externalUnit .edep [e.zeroExtend 64, va] fun t => do
      require (decide ((t.timeline e.toNat).succ.length < 8)) cOPERAND 8
      return t.updTimeline e.toNat fun x => { x with succ := x.succ ++ [bits va 56 0] })

/-- `EBAR` (R319). -/
def execEbar (e : BitVec 3) (a : BitVec 6) (s : State) : Host.Outcome State Fault Refusal :=
  s.slot (do
    let h := bits (s.sreg a) 7 0
    let _ ← s.barrier h
    s.externalUnit .ebar [e.zeroExtend 64, word h] fun t =>
      .ok (t.updTimeline e.toNat fun x => { x with bar := some h }))

/-- `ECAN` (R319). -/
def execEcan (e : BitVec 3) (a : BitVec 6) (s : State) : Host.Outcome State Fault Refusal :=
  s.slot (s.externalUnit .ecan [e.zeroExtend 64, s.sreg a] fun t =>
    .ok { t with dev := t.dev.cancelOps t.me fun o => o.e == e.toNat && decide ((s.sreg a).toNat ≤ o.num) })

end Sys2Proof.Machine
end

