-- ==== Sys2Proof/Machine/Commit.lean ====
section
/-! DEFINITION. The commit of a bundle (R177, R205, R225, R226) and the commit of the task it ends (R53, R228, R437). -/

namespace Sys2Proof.Machine

/-! ## Loop levels (R225, R226) -/

/-- Whether a loop level is active (R194). -/
def lpActive (lpc : Word) : Bool := lpc.getLsbD 62

/-- A level at its closing bundle (R225): its `lpc` after the check, and the address it returns to. -/
def loopPass (p : BitVec 8) (lps lpc : Word) : Word × Option Word :=
  if lpc.getLsbD 63 then
    if bits lpc 2 0 = 0 ∨ p.getLsbD (bits lpc 2 0) then (lpc, some lps) else (setBits lpc 62 62 0, none)
  else if 1 < bits lpc 61 0 then (lpc - 1, some lps)
  else (setBits lpc 62 0 0, none)

/-- The loop check at the level 0 of a context (R225). -/
def Regs.loopCheck0 (r : Regs) (bstart next : Word) : Regs × Word :=
  if lpActive r.lpc0 ∧ bstart = r.lpe0 then
    let x := loopPass r.p r.lps0 r.lpc0
    ({ r with lpc0 := x.1 }, x.2.getD next)
  else (r, next)

/-- The loop check of a bundle (R225): the registers after it and the bundle's `cont_addr`. -/
def Regs.loopCheck (r : Regs) (bstart next : Word) : Regs × Word :=
  if lpActive r.lpc1 then
    if bstart = r.lpe1 then
      match loopPass r.p r.lps1 r.lpc1 with
      | (c, some a) => ({ r with lpc1 := c }, a)
      | (c, none) => { r with lpc1 := c }.loopCheck0 bstart next
    else (r, next)
  else r.loopCheck0 bstart next

/-- Whether an address lies in the body of a level. -/
def inBody (lps lpe a : Word) : Bool := decide (lps.toNat ≤ a.toNat ∧ a.toNat ≤ lpe.toNat)

/-- Whether a transfer leaves an active level from inside its body (R226). -/
def leavesLevel (lps lpe lpc bstart target : Word) : Bool :=
  lpActive lpc && inBody lps lpe bstart && !inBody lps lpe target

/-- The levels a taken `TGT`, `JMP` or `RET` closes (R226). -/
def Regs.closeLevels (r : Regs) (bstart target : Word) : Regs :=
  if leavesLevel r.lps0 r.lpe0 r.lpc0 bstart target then
    { r with lpc0 := setBits r.lpc0 62 62 0, lpc1 := setBits r.lpc1 62 62 0 }
  else if leavesLevel r.lps1 r.lpe1 r.lpc1 bstart target then { r with lpc1 := setBits r.lpc1 62 62 0 }
  else r

/-- The registers after a bundle's transfer or loop check, and where the context continues (R205, R221, R225, R226,
R425): in trap mode no loop check is made and no level is closed, and a bundle that holds `END` skips the check. The jump
of a `LOOP` whose count is 0 (R223) and that of a `TRET` in system mode, which R225 does not name, skip the check as well
and close no level (DESIGN CHOICE, log entry 107). -/
def Bundle.continue (b : Bundle) (trapMode : Bool) (r : Regs) : Regs × Word :=
  let check := if trapMode ∨ b.ends then (r, b.next) else r.loopCheck b.start b.next
  match b.jump with
  | none => check
  | some t =>
    if b.called then ({ check.1 with lk := check.2 }, t)
    else if b.exits ∧ !trapMode then (r.closeLevels b.start t, t)
    else (r, t)

/-- `fcsr` at a bundle's commit (R177, R165): the flags raised, and the seed unless a slot wrote `fcsr`. -/
def Bundle.fcsr (b : Bundle) (fcsr : Word) : Word :=
  let f := raiseFlags fcsr b.flags
  match b.seed with
  | some x => if b.fcsrWritten then f else setBits f 63 32 x.toNat
  | none => f

/-- The registers of the context at hand after its bundle's commit, and where it continues. -/
def State.contRegs (s : State) : Regs × Word :=
  let x := s.bun.continue (s.mode == 1) s.ctx.regs
  ({ x.1 with pc := x.2, fcsr := s.bun.fcsr x.1.fcsr }, x.2)

/-- The effects of the bundle at hand stand (R11, R205, R230): the context's `pc` is at `cont_addr`. -/
def State.standing (s : State) : Device :=
  let b := s.bun
  let c := s.ctx
  let seg : Segment := if c.segOpen then { c.seg with bundles := c.seg.bundles + 1 } else c.seg
  s.dev.setCtx s.me { c with regs := s.contRegs.1, seg := seg, lastPc := if b.compared then none else some b.start }

/-- What follows the commit of the bundle at hand (R51, R205, R262): a slot's `trap_after`, and the waits that `BARW`,
`SNAP` and `MUPLD` leave, before which the context issues nothing. `d` is the device after the commit. -/
def State.follow (s : State) (d : Device) (cont : Word) : State :=
  let trapped (x : Device) : Device :=
    match s.bun.after with
    | some p => x.trapEntry s.me p.slot p.cause p.val cont
    | none => x
  let held (x : Device) : Device :=
    match s.bun.waits with
    | w :: r => if (x.ctx s.me).task.isSome then (x.updCtx s.me fun c => { c with thenWaits := r }).leave s.me (.blocked w) else x
    | [] => x
  let last : Result :=
    match s.bun.after with
    | some p => .trapped p.cause
    | none => if s.bun.waits.isEmpty then .done else .blocked
  { s with dev := held (trapped d), bundle := none, last := last }

/-- The commit of the bundle at hand (R11, R51, R205, R230), and what follows it. -/
def State.commit (s : State) : State := s.follow s.standing s.contRegs.2

/-! ## The end of a task (R53, R228, R239) -/

/-- The checks of a bundle that ends its task (R138, R228, R261). -/
def State.endCheck (s : State) : Except Stop Unit := do
  require (!(match s.ctx0.task with | some t => t.span.isSome | none => false)) cTXSTATE 0
  require (!s.ctx0.segOpen) cSEGERR 0

/-- The checks of `NTR` (R261, R425). -/
def State.ntrCheck (s : State) : Except Stop Unit := do
  require (s.mode != 1) cPRIV (s.bun.word.zeroExtend 64)
  s.endCheck

/-- The task of the context at hand committed with its bundle (R53, R136): the answer is the device after the bundle's
commit and the task's, the context still holding the task, and the state with the free value it drew. Its follower's copy
has compared (R61). -/
def State.commitTask (s : State) : Except Stop (State × Device) :=
  let (s1, n) := s.draw
  let a := s.me
  let d0 := (s1.updBun fun b => { b with compared := true }).standing
  match (d0.ctx a).task with
  | none => .ok (s1, d0)
  | some t =>
    match d0.commitTask a n t with
    | .error x => .error x
    | .ok (d, _) => .ok (s1, ((d.dropFlags a).updCtx a Ctx.dropPending).efaults t.blk a)

/-- The task of the context committed and the context left in a run state, which is VACANT from the fourth cycle after the
commit on (R53, R228, R239); no loop check is made, and nothing that follows a commit reaches a context whose task has
retired (log entry 108). -/
def State.endTask (s : State) (r : RunState) : Except Stop State := do
  s.endCheck
  let a := s.me
  let (t, d) ← (s.updBun fun b => { b with ends := true }).commitTask
  let d1 := if (d.ctx a).task.isSome then (d.updCtx a fun c => { c.unload with vacantAt := d.cycle + 4 }).leave a r else d
  return { t with dev := d1, bundle := none, last := .done }

end Sys2Proof.Machine
end

