-- ==== Sys2Proof/Machine/Event.lean ====
section
/-! DEFINITION. How a device event of the opcode table ends: a state in which it has happened, or, where its conditions
do not hold, the state as it was. -/

namespace Sys2Proof.Machine

/-- An event that happens, or that the state does not admit. -/
def State.event (s : State) : Option State → Host.Outcome State Fault Refusal
  | some t => .next { t with last := .done }
  | none => .next { s with last := .ignored }

/-- An event of the device alone. -/
def State.devEvent (s : State) (d : Option Device) : Host.Outcome State Fault Refusal :=
  s.event (d.map fun x => { s with dev := x })

/-- An event of the device alone that draws a free value. -/
def State.drawEvent (s : State) (f : Nat → Option Device) : Host.Outcome State Fault Refusal :=
  s.event ((f s.free).map fun x => { s with dev := x, free := s.free + 1 })

/-- A value when a condition holds. -/
def guardOpt {α : Type} (b : Bool) (x : α) : Option α := if b then some x else none

/-- Free values drawn by an event: the number of the first of `n`. -/
def State.drawN (s : State) (n : Nat) : State × Nat := ({ s with free := s.free + n }, s.free)

/-! ## Spans of time in cycles at 1.8 GHz (R8) -/

/-- Cycles of a number of nanoseconds. -/
def cyclesNs (n : Nat) : Nat := n * 18 / 10

/-- Cycles of a number of microseconds. -/
def cyclesUs (n : Nat) : Nat := n * 1800

/-- Cycles of a number of milliseconds. -/
def cyclesMs (n : Nat) : Nat := n * 1800000

end Sys2Proof.Machine
end

