-- ==== Sys2Proof/Machine/EngineRun.lean ====
section
/-! DEFINITION. Engine operations as they run (R54, R128, R317, R320, R342, R434, R436 to R438, R478, R479): their writes
in order, what makes one fault, its completion, and its fault. -/

namespace Sys2Proof.Machine

/-! ## One write -/

/-- What a write meets (R437): the cause and the value that an abort takes. -/
abbrev Met := EngineCause × Word

/-- A failed translation as an engine's cause. -/
def metOf (e : BitVec 8 × Word) : Met :=
  (if e.1 = cABSENT then .absent else if e.1 = cRIGHTS then .rights else .nomap, e.2)

/-- The agent that performs an operation (R26). -/
def EngOp.agentId (o : EngOp) : Nat :=
  if o.eng = 5 then 0x0902 else 0x0800 + clusterOf (cellOf (coreOf o.agent)) * 8 + o.eng

/-- Bytes written to pieces of global memory, a line at a stamp of its own (R117, R128), above every stamp so far once the
operation has been held at an absent page (R446); remote bytes are sent to their peer (R81). The answer holds the largest
stamp taken. -/
def State.engPut (s : State) (o : EngOp) : List Piece → List Byte → Nat → State × Nat
  | [], _, st => (s, st)
  | p :: r, bs, st =>
    if isRemote p.pa then
      let x : PeerSend := ⟨peerOf p.pa, [(p.pa % 2 ^ 42, .store (bs.take p.n))], none⟩
      { s with dev := s.dev.sendFor (some o.blk) x }.engPut o r (bs.drop p.n) st
    else
      let (s1, x) := s.draw
      let least := if o.waited then s1.dev.top else 0
      let w := stampAbove x (Nat.max least (s1.dev.writeFloor (linesOf p.pa p.n)))
      let d := s1.dev.agentWrite o.agentId x least (some o.blk) p.kid p.pa (bs.take p.n)
      { s1 with dev := d }.engPut o r (bs.drop p.n) (Nat.max st w)

/-- The pieces of an element that is translated before a write (R478), and what its translation meets. -/
def State.element (s : State) (k : Binding) (acc : Acc) (x : Option (Word × Nat)) : Except Met (List Piece) :=
  match x with
  | none => .ok []
  | some (va, n) => (translateIn (k.seen s.dev.cycle) acc 3 va n).mapError metOf

/-- The writes that the first write of a list stands for, with their source bytes, once the elements that it begins are
translated (R437, R478): for an element whose bytes no load at issue gave, those that a load at the operation's stamp
returns now, whose lines no later write may precede (R117, R127). -/
def State.engSource (s : State) (o : EngOp) (k : Binding) (w : EngWrite) : Except Met (State × List EngWrite) := do
  let ps ← s.element k .engRead w.need
  let _ ← s.element k .engWrite w.into
  match w.bad, w.late with
  | some pa, _ => .error (.poison, word pa)
  | none, none => return (s, [w])
  | none, some (_, n) =>
    let (s1, x) := s.draw
    let g := s.dev.engBytes x o.stamp o.agent o.olds ps
    match g.bad with
    | some (_, pa) => .error (.poison, word pa)
    | none => return ({ s1 with dev := s1.dev.engLease o.stamp 0 (pieceLines ps) }, cutLines w.sp none (n / 64 + 2) 0 w.dst g.bytes)

/-- One write made, or what it meets (R437): the state with the largest stamp so far. -/
def State.engWrite (s : State) (o : EngOp) (k : Binding) (w : EngWrite) (st : Nat) : Except Met (State × Nat) :=
  match w.sp with
  | some lc =>
    let core := k.physCore lc
    if k.hasCore lc && decide (w.dst + w.bytes.length ≤ (s.dev.core core).spSize) then
      .ok ({ s with dev := s.dev.spStore k.prot core w.dst w.bytes }, st)
    else .error (.spaddr, word w.dst)
  | none =>
    if w.bytes.isEmpty then .ok (s, st)
    else
      match translateIn (k.seen s.dev.cycle) .engWrite 3 (word w.dst) w.bytes.length with
      | .error e => .error (metOf e)
      | .ok ps => .ok (s.engPut o ps w.bytes st)

/-- How far an operation has got: the state, the writes that remain, the largest stamp taken, and what stopped it. -/
structure Ran where
  s : State
  left : List EngWrite
  st : Nat
  met : Option Met := none

/-- A bound on the writes that one entry of an operation's work stands for. -/
def EngWrite.writes (w : EngWrite) : Nat := match w.late with | some (_, n) => n / 64 + 2 | none => 1

/-- At most `n` writes made in order. -/
def State.engRun (s : State) (o : EngOp) (k : Binding) (st : Nat) : Nat → List EngWrite → Ran
  | 0, ws => { s := s, left := ws, st := st }
  | _ + 1, [] => { s := s, left := [], st := st }
  | n + 1, w :: r =>
    match s.engSource o k w with
    | .error e => { s := s, left := w :: r, st := st, met := some e }
    | .ok (u, []) => u.engRun o k st n r
    | .ok (u, x :: xs) =>
      match u.engWrite o k x st with
      | .error e => { s := u, left := x :: xs ++ r, st := st, met := some e }
      | .ok (t, st') => t.engRun o k st' n (xs ++ r)

/-! ## Which operation runs (R54, R317, R342) -/

/-- Whether an operation is number `n` of engine context `e` of context `a`. -/
def EngOp.is (o : EngOp) (a e n : Nat) : Bool := o.agent == a && o.e == e && o.num == n

/-- The operation of an engine context that may write: the lowest number not complete, no longer held, and, for a final
reply, with no reply that its binding issued earlier outstanding (R342); `ops` stands in the order of issue. -/
def Device.runnable (d : Device) (a e : Nat) : Option EngOp :=
  let t := mget {} (d.ctx a).tls e
  match t.live with
  | [] => none
  | n :: r =>
    let low := r.foldl Nat.min n
    match d.ops.find? fun o => o.is a e low with
    | some o =>
      let earlier := (d.ops.takeWhile fun x => !x.is a e low).any fun x => x.blk == o.blk && x.eng == 5
      if o.held || d.mstate o.blk != sRunning || (o.eng == 5 && o.op == 0 && earlier) then none else some o
    | none => none

/-- An operation replaced. -/
def Device.setOp (d : Device) (o : EngOp) : Device :=
  { d with ops := d.ops.map fun x => if x.is o.agent o.e o.num then o else x }

/-- An operation gone. -/
def Device.dropOp (d : Device) (o : EngOp) : Device :=
  { d with ops := d.ops.filter fun x => !x.is o.agent o.e o.num }

/-- The next `n` writes of an operation (R128, R134); one that is held at an absent page asks for the page (R437). -/
def State.engineTurn (s : State) (a e n : Nat) : State :=
  match s.dev.runnable a e with
  | none => { s with last := .ignored }
  | some o =>
    match s.dev.binding o.blk with
    | none => { s with last := .ignored }
    | some k =>
      if o.eng = 5 then { s with last := .ignored }
      else
        let r := s.engRun o k o.wst n o.work
        let held := match r.met with | some (.absent, _) => true | _ => o.waited
        let d := r.s.dev.setOp { o with work := r.left, wst := r.st, waited := held }
        let d1 := match r.met with
          | some (.absent, va) => if o.tasked then d else d.askPage o.blk va
          | _ => d
        { r.s with dev := d1, last := .done }

/-! ## Completion (R320, R342, R434) -/

/-- Whether the task that issued an operation still runs. -/
def Device.issuerRuns (d : Device) (o : EngOp) : Bool := o.tasked && (d.ctx o.agent).task.isSome

/-- The pins that a completion gives its issuing task (R434, R436). -/
def Device.pinIssuer (d : Device) (o : EngOp) : Device :=
  if d.issuerRuns o then
    let pin (t : Task) : Task :=
      if !o.succ.isEmpty then { t with pin := .firm }
      else
        match o.bar with
        | some h => if t.pin = .firm then t else { t with pin := .provisional, prov := if t.prov.contains h then t.prov else h :: t.prov }
        | none => t
    d.updCtx o.agent fun c => { c with task := c.task.map pin }
  else d

/-- A reply operation's message sent (R342), and the originator's share of a launched request (R370). -/
def Device.sendReply (d : Device) (o : EngOp) (k : Binding) : Device :=
  let bytes := o.work.flatMap (·.bytes)
  let final := o.op == 0
  let d1 := match (d.block o.blk).head with
    | none => d
    | some r =>
      match r.origin with
      | some (dev, id) => d.replyTo o.blk dev (!final) bytes.length (.launchReply dev id bytes final)
      | none => d.sendMessage (r.replyTo o.blk) (if final then 1 else 2) k.msgs 0 bytes
  d1.updBinding o.blk fun x => if final then { x with replied := true } else { x with msgs := x.msgs + 1 }

/-- The operation's work done as far as it goes: every write, or for a reply its sending. -/
def State.engFinish (s : State) (o : EngOp) (k : Binding) : Ran :=
  if o.eng = 5 then
    match o.work.findSome? (·.bad) with
    | some pa => { s := s, left := o.work, st := o.wst, met := some (.poison, word pa) }
    | none => { s := { s with dev := s.dev.sendReply o k }, left := [], st := o.wst }
  else s.engRun o k o.wst (o.work.foldl (fun n w => n + w.writes) 0) o.work

/-- A failed decrement as an engine's cause (R437, R447). -/
def metStop : Stop → Option Met
  | .abort c v => some (if c = cABSENT then .absent else .poison, v)
  | _ => none

/-- The decrements and the arrival of an operation whose writes are made (R320), at a completion stamp above them; or
what a decrement meets. -/
def State.engEnd (s : State) (o : EngOp) (k : Binding) (st : Nat) : Except Met State :=
  let (s1, x) := s.draw
  let (s2, y) := s1.draw
  let es := o.succ.map word
  let floor := s2.dev.writeFloor (recordLines k es)
  let cs := stampAbove x (Nat.max st floor)
  match ({ s2.dev with top := Nat.max s2.dev.top cs }).decrements o.blk ⟨o.agentId, cs, some o.blk, 0⟩ x 0 es with
  | .error e => .error ((metStop e).getD (.poison, 0))
  | .ok d =>
    let d1 := ((d.published cs).pinIssuer o).dropOp o
    let done (c : Ctx) : Ctx :=
      { c with event := true, tls := mset c.tls o.e ((mget ({} : Timeline) c.tls o.e).finish o.num cs (if o.tasked then o.flags else 0)) }
    let d2 := d1.updCtx o.agent done
    let d3 := match o.bar with
      | some h => ({ d2 with top := Nat.max d2.top (stampAbove y cs) }).arrive o.blk h (stampAbove y cs)
      | none => d2
    .ok { s2 with dev := d3 }

/-- What becomes of the operation of an engine context that may write: complete, or stopped by what it meets. -/
def State.engOutcome (s : State) (o : EngOp) (k : Binding) : State × Option Met :=
  let r := s.engFinish o k
  let held : State := { r.s with dev := r.s.dev.setOp { o with work := r.left, wst := r.st } }
  match r.met with
  | some m => (held, some m)
  | none =>
    match r.s.engEnd o k r.st with
    | .ok t => (t, none)
    | .error m => (held, some m)

/-- `ENGINE_OP_COMPLETE` (R320). -/
def execEngineOpComplete (agent e : Nat) (s : State) : Host.Outcome State Fault Refusal :=
  s.event (do
    let o ← s.dev.runnable agent e
    let k ← s.dev.binding o.blk
    match s.engOutcome o k with
    | (t, none) => some t
    | (_, some _) => none)

/-! ## Faults (R437, R438, R479) -/

/-- Whether context `c` owes the present phase of handle `h` (R262). -/
def Ctx.owes (c : Ctx) (h : Nat) (done : BitVec 32) : Bool :=
  let m := mget {} c.bars h
  m.owed && m.mine == done

/-- A context that owes nothing at a handle. -/
def Ctx.forgive (c : Ctx) (h : Nat) (mark : Bool) : Ctx :=
  { c with bars := mset c.bars h { mget {} c.bars h with owed := false, bfault := mark } }

/-- The slot of the `BARW` whose wait on a handle a context is in, has yet to begin, or was in when a pre-emption stopped
it. -/
def Ctx.barwSlot (c : Ctx) (h : Nat) : Option Nat :=
  let now := match c.run with | .blocked w => [w] | _ => []
  (now ++ c.resumeWait.toList ++ c.thenWaits).findSome? fun w =>
    match w with | .barrierThen x i => if x = h then some i else none | _ => none

/-- Whether a wait is one on a barrier handle. -/
def Wait.onBarrier (h : Nat) : Wait → Bool
  | .barrier x => x == h
  | .barrierThen x _ => x == h
  | _ => false

/-- A context with no wait on a handle left. -/
def Ctx.unwait (c : Ctx) (h : Nat) : Ctx :=
  { c with run := (match c.run with | .blocked w => if w.onBarrier h then .ready else c.run | r => r)
           resumeWait := c.resumeWait.filter fun w => !w.onBarrier h
           thenWaits := c.thenWaits.filter fun w => !w.onBarrier h }

/-- What R438 does to a context that owes the phase: its task aborted, or, with a firm pin, its next wait on the handle
marked to trap, or the trap of a wait that it is in. Its later stamps follow the fault stamp `st`. -/
def Device.breakWaiter (d0 : Device) (h st a : Nat) : Device :=
  let d := d0.updCtx a fun c => { c with floor := Nat.max c.floor st }
  let c := d.ctx a
  match c.task with
  | none => d.updCtx a fun c => c.forgive h false
  | some t =>
    if t.pin ≠ .firm then (d.updCtx a fun c => c.forgive h false).abortTask a cBFAULT (word h)
    else
      match c.barwSlot h with
      | some i => d.updCtx a fun c => { ((c.forgive h false).unwait h) with pend := some ⟨i, cBFAULT, word h, c.regs.pc⟩ }
      | none => d.updCtx a fun c => (c.forgive h true).unwait h

/-- The barrier of an operation that faulted at stamp `st` (R438): FAULTED until every other operation bound to it is
cancelled and every context that owes the phase has been dealt with, in increasing agent identifier (R479). -/
def Device.barrierFault (d : Device) (b h st : Nat) : Device :=
  match d.binding b with
  | none => d
  | some k =>
    match mfind k.bars h with
    | none => d
    | some x =>
      let set (d : Device) (y : Barrier) : Device := d.updBinding b fun k => { k with bars := mset k.bars h y }
      let d1 := set d { x with faulted := true }
      let d2 := k.agents.foldl (fun d a => d.cancelOps a fun o => o.blk == b && o.bar == some h) d1
      let owing := k.agents.filter fun a => (d.ctx a).owes h x.done
      let d3 := owing.foldl (fun d a => if (d.ctx a).owes h x.done then d.breakWaiter h st a else d) d2
      set d3 { x with got := 0, arr := 0, faulted := false }

/-- Whether the Pilot has left the page of an address absent (R463). -/
def Device.fetchFailed (d : Device) (b : Nat) (va : Word) : Bool :=
  (findEnt (d.window b) va).isNone || (d.failedFetch b va).isSome

/-- Whether what an operation meets makes it fault: an absent page only before its task's commit, or when the Pilot has
left it absent (R437). -/
def Device.faults (d : Device) (o : EngOp) (m : Met) : Bool :=
  m.1 != .absent || d.issuerRuns o || d.fetchFailed o.blk m.2

/-- A faulted operation (R437, R438, R479): complete at a fault stamp with nothing delivered, the issuing task handled,
then the barrier; a task aborted as issuer is not aborted again as one that owes the phase. -/
def State.engFault (s : State) (o : EngOp) (m : Met) : State :=
  let (s1, x) := s.draw
  let st := stampAbove x (Nat.max o.wst s1.dev.top)
  let code := engineCode m.1
  let met := if m.1 = .poison then s1.dev.remotePoison o.agentId m.2.toNat else s1.dev
  let d0 := { met with top := st }.dropOp o
  let ended (c : Ctx) : Ctx :=
    { c with event := true, tls := mset c.tls o.e ((mget ({} : Timeline) c.tls o.e).faulted o.num st code) }
  let clear (c : Ctx) : Ctx :=
    { c with floor := Nat.max c.floor st, tls := mset c.tls o.e { mget ({} : Timeline) c.tls o.e with fault := [] },
             bars := (match o.bar with | some h => (c.forgive h false).bars | none => c.bars) }
  let d1 := d0.updCtx o.agent ended
  let d2 :=
    if d1.issuerRuns o then
      match (d1.ctx o.agent).task with
      | some t => if t.pin = .firm then d1 else (d1.updCtx o.agent clear).abortTask o.agent code m.2
      | none => d1
    else (d0.updCtx o.agent fun c => { c with event := true, tls := mset c.tls o.e ((mget {} c.tls o.e).finish o.num st 0) }).efault
      o.blk o.agent o.num code
  { s1 with dev := match o.bar with | some h => d2.barrierFault o.blk h st | none => d2 }

/-- `ENGINE_FAULT` (R437): the operation that may write meets a cause and faults. -/
def execEngineFault (agent e : Nat) (cause : EngineCause) (s : State) : Host.Outcome State Fault Refusal :=
  s.event (do
    let o ← s.dev.runnable agent e
    let k ← s.dev.binding o.blk
    match s.engOutcome o k with
    | (t, some m) =>
      if m.1 = cause ∧ t.dev.faults o m then
        some (t.engFault { o with wst := (t.dev.runnable agent e).elim o.wst (·.wst) } m)
      else none
    | (_, none) => none)

end Sys2Proof.Machine
end

