-- ==== Sys2Proof/Machine/Completion.lean ====
section
/-! DEFINITION. Host queues and the course of a command (R351 to R359): who may issue it, its number, its completion
record, the packets of its queue, and commands that complete later. -/

namespace Sys2Proof.Machine

/-! ## Queue descriptors (R351) -/

/-- A host queue's descriptor; queue 16384 + n is the channel of management agent n (R359). -/
def Device.hq (d : Device) (q : Nat) : HostQ := mget {} d.out.hostq q

/-- The device with a queue changed. -/
def Device.updHq (d : Device) (q : Nat) (f : HostQ → HostQ) : Device :=
  d.updOut fun o => { o with hostq := mset o.hostq q (f (mget {} o.hostq q)) }

def HostQ.en (h : HostQ) : Bool := h.d0.getLsbD 63
def HostQ.dev (h : HostQ) : Bool := h.d0.getLsbD 62
def HostQ.ie (h : HostQ) : Bool := h.d0.getLsbD 61
def HostQ.vec (h : HostQ) : Nat := bits h.d0 60 50
def HostQ.pasid (h : HostQ) : Nat := bits h.d0 47 28
def HostQ.tenant (h : HostQ) : Nat := bits h.d0 27 16
def HostQ.rlog (h : HostQ) : Nat := bits h.d0 12 8
def HostQ.fn (h : HostQ) : Nat := bits h.d0 7 0
def HostQ.rbase (h : HostQ) : Nat := bits h.d1 63 12 * 4096
def HostQ.clog (h : HostQ) : Nat := bits h.d1 4 0
def HostQ.cbase (h : HostQ) : Nat := bits h.d2 63 12 * 4096

/-- The issuer of a host queue's commands, as `Cmd.who` numbers issuers. -/
def HostQ.issuer (h : HostQ) : Nat := if h.dev then 260 + h.tenant else if h.fn = 0 then 0 else 4 + h.fn

/-- A queue stopped or made dead: `en` := 0 (R467, R468). -/
def HostQ.stop (h : HostQ) : HostQ := { h with d0 := setBits h.d0 63 63 0, levels := [], since := none, revoked := none, lose := false }

/-- Whether a queue number is an agent's channel. -/
def isChannel (q : Nat) : Bool := decide (16384 ≤ q)

/-! ## Host memory (R348, R351) -/

/-- The key of a host address: spaces differ by function and PASID; PASID 2^20 stands for none. -/
def hostKey (fn pasid addr : Nat) : Nat := (fn * (2 ^ 20 + 1) + pasid) * 2 ^ 64 + addr

/-- Bytes written to host memory. -/
def Device.hostWrite (d : Device) (fn pasid addr : Nat) (bs : List Byte) : Device :=
  d.updOut fun o => { o with hostMem := wrBytes o.hostMem (hostKey fn pasid addr) bs }

/-- Bytes read from host memory. -/
def Device.hostRead (d : Device) (fn pasid addr n : Nat) : List Byte := rdBytes d.out.hostMem (hostKey fn pasid addr) n

/-- Bytes written to device memory by an agent of R482, each line at a stamp of its own that the device chooses, under a
key or, with `none`, under the line's own; an address that names no local memory is not written, and a line for which the
version heap is short is written later. `n` bounds the lines. -/
def State.linePut (agent : Nat) (kid : Option Nat) : Nat → Nat → List Byte → State → State
  | 0, _, _, s => s
  | n + 1, pa, bs, s =>
    if bs.isEmpty ∨ !isLocal pa then s
    else
      let room := 64 - pa % 64
      let (s1, x) := s.draw
      let key := kid.getD (s.dev.line (pa / 64)).kid
      State.linePut agent kid n (pa + room) (bs.drop room)
        { s1 with dev := s1.dev.agentStore x { agent := agent, kid := key, pa := pa, bytes := bs.take room } }

/-- Writes of agents of R482 made in order; those that the version heap cannot take wait. -/
def State.storeAll (s : State) : List HeldWrite → State
  | [] => s
  | w :: r =>
    let (s1, x) := s.draw
    State.storeAll { s1 with dev := s1.dev.agentStore x w } r

/-- Every write that waits for the version heap tried again, once (R482). -/
def State.retried (s : State) : State :=
  State.storeAll { s with dev := { s.dev with mm := { s.dev.mm with waiting := [] } } } s.dev.mm.waiting

/-- Bytes written to device memory by an agent of R482. -/
def State.agentPut (s : State) (agent pa : Nat) (bs : List Byte) : State :=
  State.linePut agent none (bs.length / 64 + 2) pa bs s

/-- The agent identifiers of R26 that serve commands and requests. -/
abbrev agHarbour : Nat := 0x0903
abbrev agCommand : Nat := 0x0904
abbrev agPilot : Nat := 0x0905
abbrev agDrain : Nat := 0x0906

/-- Bytes written for a command of queue `q`: to device memory, or to the host under the queue's function and PASID. -/
def State.cmdPut (s : State) (q : Nat) (dev : Bool) (addr : Nat) (bs : List Byte) : State :=
  let h := s.dev.hq q
  if dev then s.agentPut agCommand addr bs
  else if isChannel q ∨ h.en then { s with dev := s.dev.hostWrite h.fn h.pasid addr bs }
  else s

/-- Bytes read for a command of queue `q`. -/
def Device.cmdGet (d : Device) (q : Nat) (dev : Bool) (addr n : Nat) : List Byte :=
  let h := d.hq q
  if dev then rdBytes d.mem addr n else d.hostRead h.fn h.pasid addr n

/-- The levels of a stream without those whose buffers are used up (R354). -/
def openLevels : List (Nat × Nat) → List (Nat × Nat)
  | [] => []
  | (a, n) :: r => if n = 0 then openLevels r else (a, n) :: r

/-! ## Packets (R352 to R354) -/

/-- The words announced of a ring (R352): the doorbell's, or the doubleword 64 bytes below a device ring. -/
def Device.wptrOf (d : Device) (q : Nat) : Word32 :=
  let h := d.hq q
  if h.dev then BitVec.ofNat 32 (ofBytes (rdBytes d.mem (h.rbase - 64) 8)) else h.wptr

/-- Words of a ring announced and not consumed. -/
def Device.ringLeft (d : Device) (q : Nat) : Nat := (d.wptrOf q - (d.hq q).rptr).toNat

/-- Word `i` from the read pointer of a ring. -/
def Device.ringWord (d : Device) (q i : Nat) : Word32 :=
  let h := d.hq q
  let at_ := h.rbase + 4 * ((h.rptr.toNat + i) % 2 ^ h.rlog)
  BitVec.ofNat 32 (ofBytes (d.cmdGet q h.dev at_ 4))

/-- Word `i` of a buffer of command words. -/
def Device.bufWord (d : Device) (q a i : Nat) : Word32 := BitVec.ofNat 32 (ofBytes (d.cmdGet q (d.hq q).dev (a + 4 * i) 4))

/-- The next packet of a queue: its header word and payload, the words it still has room for, and whether it fits. -/
structure Packet where
  head : Word32
  words : List Word32
  level : Nat
  fits : Bool
  deriving DecidableEq, Repr

def packetType (w : Word32) : Nat := bits w 31 26
def packetCount (w : Word32) : Nat := bits w 25 14

/-- The packet at the head of a queue's stream (R353, R354), if words remain. -/
def Device.packet (d : Device) (q : Nat) : Option Packet :=
  match openLevels (d.hq q).levels with
  | (a, n) :: r =>
    let w := d.bufWord q a 0
    some ⟨w, (List.range (packetCount w)).map fun i => d.bufWord q a (i + 1), r.length + 1, decide (packetCount w < n)⟩
  | [] =>
    let n := d.ringLeft q
    if n = 0 then none
    else
      let w := d.ringWord q 0
      some ⟨w, (List.range (packetCount w)).map fun i => d.ringWord q (i + 1), 0, decide (packetCount w < n)⟩

/-- A queue past a packet of `n` words. -/
def HostQ.past (h : HostQ) (n : Nat) : HostQ :=
  match openLevels h.levels with
  | (a, m) :: r => { h with levels := (a + 4 * n, m - n) :: r }
  | [] => { h with levels := [], rptr := h.rptr + BitVec.ofNat 32 n, since := none }

/-- A queue that has passed every word it held when its owner's channel was lost no longer refuses its commands (R469). -/
def HostQ.pastRevoked (h : HostQ) : HostQ :=
  match h.revoked with
  | some w =>
    if (openLevels h.levels).isEmpty ∧ ((w - h.rptr).toNat = 0 ∨ 2 ^ 31 ≤ (w - h.rptr).toNat) then { h with revoked := none } else h
  | none => h

/-- A queue past the launch packets at the head of its stream, which are dropped (R473); `n` bounds them. -/
def Device.dropLaunches (q : Nat) : Nat → Device → Device
  | 0, d => d
  | n + 1, d =>
    match d.packet q with
    | some p =>
      if p.fits ∧ (packetType p.head = 0x30 ∨ packetType p.head = 0x31) then
        Device.dropLaunches q n (d.updHq q fun h => h.past (1 + packetCount p.head))
      else d
    | none => d

/-- The device rings of a tenant in which packets wait (R352). -/
def Device.waitingRings (d : Device) (t : Nat) : List Nat :=
  (d.out.hostq.filter fun e => !isChannel e.1 && e.2.en && e.2.dev && e.2.tenant == t && (d.packet e.1).isSome).map (·.1)

/-! ## Completion records (R356) -/

/-- The 16 bytes of a completion record. -/
def completionRecord (seq : Word32) (type : Nat) (ph : Bool) (status : Nat) (result : Word) : BitVec 128 :=
  BitVec.ofNat 128 (result.toNat * 2 ^ 64 + seq.toNat * 2 ^ 32 + type % 64 * 2 ^ 26 + b2n ph * 2 ^ 25 + status % 2 ^ 16)

/-- The completion ring of a queue past one record. -/
def HostQ.nextRecord (h : HostQ) : HostQ :=
  if h.cidx + 1 < 2 ^ h.clog then { h with cidx := h.cidx + 1 } else { h with cidx := 0, ph := !h.ph }

/-- A command's completion (R355, R356): its record, where one is asked for and the queue still runs, and the interrupt. A
record that cannot be written stops the queue instead (R467). -/
def State.complete (s : State) (q : Nat) (seq : Word32) (type : Nat) (cpl : Bool) (status : Nat) (result : Word) : State :=
  let h := s.dev.hq q
  if !cpl then s
  else if isChannel q then
    { s with dev := s.dev.send (.completion (q - 16384) (completionRecord seq type h.ph status result)) }
  else if !h.en then s
  else if h.lose then { s with dev := (s.dev.updHq q HostQ.stop).postDev 6 0 agCommand 0 }
  else
    let bits128 := completionRecord seq type h.ph status result
    let s1 := s.cmdPut q h.dev (h.cbase + 16 * h.cidx) (toBytes bits128.toNat 16)
    let d := s1.dev.updHq q HostQ.nextRecord
    { s1 with dev := if h.ie && !h.dev then d.interrupt h.fn h.vec else d }

/-- A pending command completed. -/
def State.finishPend (s : State) (p : Pending) (status : Nat) (result : Word) : State :=
  { s with dev := s.dev.updOut fun o => { o with pend := o.pend.filter fun x => !decide (x = p) } }.complete
    p.q p.seq p.type.toNat p.cpl status result

/-- Every pending command of a kind completed. -/
def State.finishKind (s : State) (p : PendKind → Bool) (status : Nat) (result : Word) : State :=
  (s.dev.out.pend.filter fun x => p x.kind).foldl (fun t x => t.finishPend x status result) s

/-! ## Who may issue a command (R357, R358, R360, R474) -/

/-- The columns of R357. -/
structure Who where
  o : Bool := false
  m : Bool := false
  t : Bool := false
  d : Bool := false
  all : Bool := false
  deriving DecidableEq, Repr

/-- The elected control owner (R350). -/
def Device.owner (d : Device) : Option Nat := if d.out.owner.getLsbD 2 then some (bits d.out.owner 1 0) else none

/-- Whether an issuer is a management agent. -/
def isAgent (who : Nat) : Bool := decide (who < 4)

/-- A function-table entry (R349). -/
def Device.func (d : Device) (f : Nat) : Word := mget 0 d.out.funcs f

/-- The tenant of an issuer: of a virtual function's entry, while it is enabled, or of a device ring. -/
def Device.tenantOf (d : Device) (who : Nat) : Option Nat :=
  if who < 5 then none
  else if who < 260 then (if (d.func (who - 4)).getLsbD 63 then some (bits (d.func (who - 4)) 11 0) else none)
  else some (who - 260)

/-- Whether an issuer stands in a type's columns. -/
def Device.allows (d : Device) (w : Who) (who : Nat) : Bool :=
  w.all || (w.o && d.owner == some who) || (isAgent who && (w.m || w.t)) ||
    (w.t && decide (5 ≤ who ∧ who < 260) && (d.tenantOf who).isSome) || (w.d && decide (260 ≤ who))

/-- Whether an issuer's rights reach a tenant: every management agent's do. -/
def Device.reaches (d : Device) (who t : Nat) : Bool := isAgent who || d.tenantOf who == some t

/-- The firmware function that carries a command type out (R362). -/
def ownerFn (type : Nat) : Nat :=
  match type with
  | 0x08 => 1 | 0x09 => 1 | 0x0A => 1 | 0x0B => 1 | 0x0C => 1 | 0x0D => 1 | 0x11 => 1 | 0x12 => 1 | 0x14 => 1 | 0x15 => 1
  | 0x29 => 1 | 0x10 => 2 | 0x18 => 2 | 0x1A => 2 | 0x1F => 2 | 0x1B => 6 | 0x1D => 7 | 0x1E => 4 | 0x22 => 4 | 0x23 => 4
  | 0x28 => 5 | 0x30 => 5 | 0x31 => 5
  | _ => 0

/-- Firmware function `f` (R362). -/
def Device.fw (d : Device) (f : Nat) : Firm := mget {} d.out.firm f

/-- The device with a firmware function changed. -/
def Device.updFw (d : Device) (f : Nat) (g : Firm → Firm) : Device :=
  d.updOut fun o => { o with firm := mset o.firm f (g (mget {} o.firm f)) }

/-- Whether a firmware function's image carries commands out (R378, R476): it has raised its first beacon. -/
def Device.carries (d : Device) (f : Nat) : Bool := (d.fw f).up && (d.fw f).probation.isNone

/-- Whether the command processor parses commands of an issuer of a type (R378, R474): a device whose boot failed runs only
the security firmware, and takes only the recovery console's. -/
def Device.parses (d : Device) (who type : Nat) : Bool :=
  if d.out.bootOk then d.carries 0 && d.carries (ownerFn type)
  else who == 3 && [0x20, 0x22, 0x23, 0x24].contains type && d.carries 4

/-- Whether the command processor takes a command now (R354, R355): its queue runs, has no command under way and is inside no
deeper buffer. -/
def Device.takes (d : Device) (c : Cmd) (type : Nat) : Bool :=
  (if isChannel c.q then c.q == 16384 + c.who && decide (1 ≤ c.who) && isAgent c.who
      else (d.hq c.q).en && c.who == (d.hq c.q).issuer) &&
    !(d.out.pend.any fun p => p.q == c.q) && decide ((openLevels (d.hq c.q).levels).length ≤ c.level) && d.parses c.who type

/-- Whether a queue belongs to one of the four agent channels, which come first (R355, R359): the driver of the physical
function has the host queues whose `fn` is 0. -/
def Device.comesFirst (d : Device) (q : Nat) : Bool := isChannel q || (d.hq q).issuer == 0

/-- A queue served (R355). -/
def Device.served (d : Device) (q : Nat) : Device :=
  d.updOut fun o => if d.comesFirst q then { o with lastFirst := q } else { o with lastQ := q }

/-! ## The course of a command (R353 to R357) -/

/-- How a command goes: done with a status and result, or under way. -/
inductive CmdEnd where
  | done (s : State) (status : Nat) (result : Word)
  | under (s : State) (kind : PendKind)

/-- Payload word `i` of a command. -/
def pw (c : Cmd) (i : Nat) : Nat := (c.words.getD i 0).toNat

/-- The 64-bit value of two payload words, low word first. -/
def pd (c : Cmd) (i : Nat) : Nat := pw c i + 2 ^ 32 * pw c (i + 1)

/-- A command of a type from its start (R355 to R357): taken in its queue's order and numbered; its fields, its issuer,
and then its effect. -/
def State.command (s : State) (c : Cmd) (type : Nat) (fields : Bool) (w : Who) (perform : State → CmdEnd) :
    Host.Outcome State Fault Refusal :=
  if !s.dev.takes c type then .next { s with last := .ignored }
  else
    let seq := (s.dev.hq c.q).seq
    let s1 : State := { s with dev := (s.dev.served c.q).updHq c.q fun h => { h with seq := h.seq + 1 }, last := .done }
    let fin (r : CmdEnd) : State :=
      match r with
      | .done t st v => t.complete c.q seq type c.cpl st v
      | .under t k =>
        { t with dev := t.dev.updOut fun o => { o with pend := o.pend ++ [⟨c.q, seq, BitVec.ofNat 6 type, c.cpl, k⟩] } }
    if !fields then .next (fin (.done s1 1 0))
    else if !s.dev.allows w c.who then .next (fin (.done s1 2 0))
    else .next (fin (perform s1))

/-- A command that has nothing to do but complete. -/
def refuse (s : State) (status : Nat) : CmdEnd := .done s status 0

end Sys2Proof.Machine
end

