-- ==== Sys2Proof/Machine/Halt.lean ====
section
/-! DEFINITION. What a pre-emption does to a context (R64, R66, R428): the abort or the halt of its task at a bundle
boundary. -/

namespace Sys2Proof.Machine

/-- Whether a segment has a matrix-queue entry that has started (R64, R414). -/
def Ctx.matrixStarted (c : Ctx) : Bool := c.segOpen && c.seg.matrix

/-- What a context waits on when it is halted, if its wait stands after a restoration (R262). -/
def RunState.lasting : RunState → Option Wait
  | .blocked (.barrierThen h i) => some (.barrierThen h i)
  | .blocked .snapshot => some .snapshot
  | .blocked .library => some .library
  | _ => none

/-- Whether a context is BLOCKED. -/
def RunState.isBlocked : RunState → Bool
  | .blocked _ => true
  | _ => false

/-- A context whose trap was taken in the present cycle, with the trap pending instead (R236, R428). -/
def Ctx.untrap (c : Ctx) (cycle : Nat) : Ctx :=
  match c.trapAt with
  | some n =>
    if n.cycle = cycle then
      { c with pend := some n.pend, trapAt := none, trap := n.trap, regs := { c.regs with pc := n.pc } }
    else c
  | none => c

/-- Context `a` stopped at its bundle boundary for a pre-emption of block `b` (R64): aborted under discard when its task
is not pinned, halted otherwise; inside an open segment it runs on, or is rewound when it is blocked there. -/
def Device.stopCtx (d : Device) (b a : Nat) : Device :=
  let c := d.ctx a
  let prot : Bool := match d.binding b with | some k => k.prot | none => false
  let save : Bool := match d.binding b with | some k => (match k.preempt with | some p => p.save | none => true) | none => true
  match c.task with
  | none => d
  | some t =>
    if t.blk ≠ b ∨ c.run = .halted then d
    else if !save ∧ t.pin = .none then (d.updCtx a fun x => x.untrap d.cycle).abortTask a cPREEMPT 0
    else if prot ∧ c.segOpen then
      if c.run.isBlocked ∧ !c.matrixStarted then ((d.withdraw a).updCtx a Ctx.toEntry).leave a .halted
      else d
    else (d.updCtx a fun x => { x.untrap d.cycle with resumeWait := x.run.lasting }).leave a .halted

/-- The stop of context `a` when a pre-emption of its block is under way. -/
def Device.stopIfDue (d : Device) (a : Nat) : Device :=
  match d.blockOf a with
  | some b =>
    match d.binding b with
    | some k => if k.preempt.isSome then d.stopCtx b a else d
    | none => d
  | none => d

end Sys2Proof.Machine
end

