-- ==== Sys2Proof/Machine/Save.lean ====
section
/-! DEFINITION. The save area (R65, R339): what a pre-emption keeps of a group, its sections and their greatest lengths, and
the bytes at `savea`. -/

namespace Sys2Proof

/-- The contents of a section of a save area, by its kind, logical core and context (R339): they belong to the device, and
no manual gives their form. -/
opaque Config.sectionBytes (s : Machine.Saved) (kind lcore ctx : Nat) : List Byte

/-- What a save area's bytes hold: the device's own reading of the form that it writes (R339). -/
opaque Config.savedOf (bytes : List Byte) : Option Machine.Saved

end Sys2Proof

namespace Sys2Proof.Machine

/-! ## What is kept (R64, R261, R339) -/

/-- A context as it is saved: a rotation that is due keeps the cycles that remain (R261). -/
def Ctx.kept (c : Ctx) (cycle : Nat) : Ctx := { c with ntDue := c.ntDue.map fun x => (x.1 - cycle, x.2) }

/-- The sections of some cells of a binding (R339): each logical core once, as its leader's state. -/
def Device.partOf (d : Device) (k : Binding) (cells : List Nat) : SavedPart :=
  let leads := cells.filter fun c => !k.follower c
  let cores := k.cores.filter fun n => leads.contains (cellOf n)
  let lc (n : Nat) : Nat := 2 * k.lcell (cellOf n) + n % 2
  { ctxs := cores.flatMap fun n => [0, 1, 2, 3].map fun i => ⟨lc n, i, (d.ctx (4 * n + i)).kept d.cycle⟩
    cores := cores.map fun n => ⟨lc n, d.core n⟩
    cells := leads.map fun c => ⟨k.lcell c, (d.cell c).up.ents, (d.cell c).down.ents⟩ }

/-- Two parts of a save area together. -/
def SavedPart.append (a b : SavedPart) : SavedPart :=
  { ctxs := a.ctxs ++ b.ctxs, cores := a.cores ++ b.cores, cells := a.cells ++ b.cells }

/-- What the save area receives of a binding (R64, R339): the sections of the cells still held, after those of the cells
that have been released (R65). -/
def Device.saveOf (d : Device) (b : Nat) (k : Binding) : Saved :=
  let p := (d.block b).part.append (d.partOf k k.cells)
  { group := { k with preempt := none, gone := [] }
    ready := d.ready.flatMap fun e => e.2.filter fun x => x.blk == b
    ctxs := p.ctxs, cores := p.cores, cells := p.cells
    ops := d.ops.filter fun o => o.blk == b }

/-! ## The layout (R339) -/

/-- A section of a save area: its kind, logical core and context, and its greatest length. -/
structure Section where
  kind : Nat
  lcore : Nat := 0
  ctx : Nat := 0
  max : Nat
  deriving DecidableEq, Repr

/-- The bytes of a core's pool that are saved: those below `pb2` and from `pb3` on, in its tier. -/
def Image.poolSave (i : Image) (upper : Bool) : Nat :=
  4096 * (if upper then i.upb2.toNat + (768 - i.upb3.toNat) else i.lpb2.toNat + (1024 - i.lpb3.toNat))

/-- The sections of a saved state in the order of R339. -/
def Saved.sections (v : Saved) (i : Image) : List Section :=
  let clusters := ceilDiv (groupCells v.group.shape.toNat v.group.prot) 8
  let upper := v.cores.filter fun c => c.lcore % 2 == 1
  [{ kind := 1, max := 40960 * clusters }] ++
    (v.ctxs.flatMap fun c => [⟨2, c.lcore, c.ctx, 16384⟩, ⟨3, c.lcore, c.ctx, 81920⟩]) ++
    (v.cores.map fun c => { kind := 4, lcore := c.lcore, max := i.poolSave (c.lcore % 2 == 1) }) ++
    (upper.map fun c => { kind := 5, lcore := c.lcore, max := 1220 * 1024 }) ++
    v.cells.map fun c => { kind := 6, lcore := 2 * c.lcell, max := 9216 }

/-- Bytes with zeros up to the next multiple of 64. -/
def pad64 (bs : List Byte) : List Byte := bs ++ List.replicate ((64 - bs.length % 64) % 64) 0

/-- The contents of a section. -/
def Saved.contents (v : Saved) (x : Section) : List Byte := (Config.sectionBytes v x.kind x.lcore x.ctx).take x.max

/-- The directory entries of some sections and the sections themselves, the first at offset `off`. -/
def Saved.layout (v : Saved) : Nat → List Section → List Byte × List Byte
  | _, [] => ([], [])
  | off, x :: r =>
    let b := v.contents x
    let rest := v.layout (off + (pad64 b).length) r
    (toBytes (x.kind + 2 ^ 8 * x.lcore + 2 ^ 18 * x.ctx) 8 ++ toBytes (off + 2 ^ 32 * b.length) 8 ++ rest.1,
      pad64 b ++ rest.2)

/-- The `magic` of a save area. -/
def saveMagic : Nat := 0x53525341

/-- The bytes of a save area: the header, the directory and the sections. -/
def Saved.area (v : Saved) (i : Image) (bstamp : Nat) : List Byte :=
  let xs := v.sections i
  let head := toBytes (saveMagic * 2 ^ 32) 8 ++ toBytes (b2n v.group.prot * 32 + v.group.shape.toNat) 8 ++
    toBytes bstamp 8 ++ toBytes xs.length 8 ++ List.replicate 4064 0
  let l := v.layout (4096 + (16 * xs.length + 63) / 64 * 64) xs
  head ++ pad64 l.1 ++ l.2

/-- The save area of block `b` written with what a pre-emption has saved (R64, R339), as the binding hardware's writes
(R482) under the block's `dkid`. -/
def State.writeSave (s : State) (b : Nat) (v : Saved) : State :=
  let m := s.dev.block b
  let bytes := v.area (s.dev.imageOf b) (m.get fBstamp)
  State.linePut agHarbour (some (m.get fDkid)) (bytes.length / 64 + 2) (m.get fSavea * 65536) bytes s

/-- Whether a line that the restoration of a block reads is uncorrectable (R462): one of its save area's header, directory
and sections, and no line of `savelen` past them. -/
def Device.saveBad (d : Device) (b : Nat) : Bool :=
  let m := d.block b
  let base := m.get fSavea * 65536
  match m.saved with
  | some v =>
    d.lines.any fun e => e.2.poison &&
      decide (base ≤ e.1 * 64 ∧ e.1 * 64 < base + (v.area (d.imageOf b) (m.get fBstamp)).length)
  | none => false

end Sys2Proof.Machine
end

