-- ==== Sys2Proof/Machine/TaskEvents.lean ====
section
/-! DEFINITION. Events of tasks and contexts: taking a task (R46, R47), unblocking (R51), publication (R53, R440), tile
rotation (R56), queue enlargement (R60, R441), deliveries of kind K (R427), stamps (R118) and `SNAP`'s return (R142). -/

namespace Sys2Proof.Machine

/-! ## Taking a task (R46, R47) -/

/-- Whether a context is VACANT: one that `END` left is so from the fourth cycle after (R53). -/
def Device.vacant (d : Device) (a : Nat) : Bool :=
  let c := d.ctx a
  c.run == .vacant && c.task.isNone && decide (c.vacantAt ≤ d.cycle)

/-- Whether a context may take tasks of a binding: it is VACANT, on a core that the shape uses, of a leader, and no
pre-emption is under way (R46, R61, R64). -/
def Device.mayTake (d : Device) (k : Binding) (a : Nat) : Bool :=
  d.vacant a && k.running && k.preempt.isNone && k.cores.contains (coreOf a) &&
    !k.follower (cellOf (coreOf a))

/-- The mode in which a binding's tasks start (R186): system mode for a system image. -/
def Binding.startMode (k : Binding) : BitVec 2 := if k.sys then 2 else 0

/-- Whether an entry matches a context (R46). -/
def ReadyEnt.fits (e : ReadyEnt) (b : Nat) (k : Binding) (a : Nat) : Bool :=
  let l := k.lcell (cellOf (coreOf a))
  e.blk == b && e.lclus == l / 8 && e.cmask.getLsbD (l % 8) && e.tier == isUpper (coreOf a)

/-- The first element that satisfies a test, with the list without it. -/
def takeFirst {α : Type} (p : α → Bool) : List α → Option (α × List α)
  | [] => none
  | x :: r => if p x then some (x, r) else (takeFirst p r).map fun y => (y.1, x :: y.2)

/-- A task given to a context from a restart point (R47, R58). -/
def Device.loadTask (d : Device) (a : Nat) (e : ReadyEnt) (r : Restart) : Device :=
  d.updCtx a fun c => c.load e r

/-- A task whose record is read from poisoned memory (R401, R415): an abort with POISON that runs nothing. -/
def Device.poisonedTake (d : Device) (a : Nat) (e : ReadyEnt) (pa : Nat) : Device :=
  let d1 := (((d.remotePoison a pa).noteAbort e.blk cPOISON).meterAbort e.blk).post
    { cls := 3, rung := 2, agent := BitVec.ofNat 16 a, cause := cPOISON, stamp := word (d.ctx a).stamp,
      pa := some (BitVec.ofNat 52 pa), mctx := d.who e.blk, aux := word pa }
  if 3 ≤ e.errAborts + 1 then d1.kDeliver 3 e.blk a cABORTLIM d1.nextSeq (some { e with errAborts := 0 })
  else d1.enqueue { e with errAborts := e.errAborts + 1 }

/-- The registers of a task read from its record through the window, or what becomes of it (R47); a record of remote memory
is as the peer returns it, by free value `n`. -/
def Device.readRecord (d : Device) (k : Binding) (a n : Nat) (e : ReadyEnt) : Except Device Restart :=
  let va := va57 e.recVa
  match findEnt (k.seen d.cycle) va with
  | none => .error (d.kDeliver 4 e.blk a cTASKREC va none)
  | some w =>
    if w.ab then
      match d.repair e.blk va with
      | .present x => .error (x.enqueue e)
      | .parked x => .error (x.park e.blk va e)
    else if w.kind ≠ 0 then .error (d.kDeliver 4 e.blk a cTASKREC va none)
    else
      match d.seeLine n 0 w.kid.toNat (w.pa va) with
      | .error _ => .error (d.poisonedTake a e (w.pa va))
      | .ok bs => .ok { regs := startRegs bs (d.ctx a).regs va (d.imageFcsr e.blk), trap := { mode := k.startMode } }

/-- The bytes of the record that a take reads asked of the peer, where its page is remote (R81). -/
def Device.askRecord (d : Device) (k : Binding) (e : ReadyEnt) : Device :=
  match findEnt (k.seen d.cycle) (va57 e.recVa) with
  | some w => if w.ab || e.resume.isSome then d else d.askPeer (some e.blk) (w.pa (va57 e.recVa)) 64
  | none => d

/-- An entry taken by a context (R46, R47): its task loaded, or what becomes of it. -/
def Device.take (d : Device) (k : Binding) (a n : Nat) (e : ReadyEnt) : Device :=
  match e.resume with
  | some r => d.loadTask a e r
  | none =>
    match (d.askRecord k e).readRecord k a n e with
    | .ok r => (d.askRecord k e).loadTask a e r
    | .error x => x

/-- Whether no context of a lower agent identifier reaches for the same entry of a cluster's ready queue (R46). -/
def Device.firstFor (d : Device) (k : Binding) (cluster : Nat) (e : ReadyEnt) (a : Nat) : Bool :=
  !(k.agents.any fun x => decide (x < a) && d.mayTake k x &&
    (takeFirst (fun y => y.fits e.blk k x) (d.readyQ cluster)).map (·.1) == some e)

/-- `TASK_TAKE` (R46). -/
def execTaskTake (agent : Nat) (s : State) : Host.Outcome State Fault Refusal :=
  s.drawEvent fun n => (do
    let b ← s.dev.holder (coreOf agent)
    let k ← s.dev.binding b
    let c := k.cluster (k.lcell (cellOf (coreOf agent)) / 8)
    let r ← takeFirst (fun e => e.fits b k agent) (s.dev.readyQ c)
    guardOpt (s.dev.mayTake k agent && s.dev.firstFor k c r.1 agent) ((s.dev.setReady c r.2).take k agent n r.1))

/-! ## Unblocking (R51, R262, R310) -/

/-- Whether a FIFO of a core's cell can take or give an entry in the present cycle (R265, R387). -/
def Device.fifoReady (d : Device) (core : Nat) (put : Bool) : Bool :=
  let c := d.cell (cellOf core)
  if put then
    let f := if isUpper core then c.down else c.up
    decide (f.ents.length + (tookNow d.cycle f.took).length < 16)
  else
    let f := if isUpper core then c.up else c.down
    (headNow d.cycle f.ents).isSome

/-- Whether what a context waits for is there. -/
def Device.waitOver (d : Device) (b : Nat) (k : Binding) (a : Nat) (w : Wait) : Bool :=
  let c := d.ctx a
  let phase (h : Nat) : Bool :=
    match mfind k.bars h with
    | some x => (mget {} c.bars h).mine != x.done || (mget {} c.bars h).bfault
    | none => true
  match w with
  | .engineQueue eng => decide (d.engQueue a eng < if eng = 5 then 256 else 32)
  | .matrixQueue => decide ((d.core (coreOf a)).mq.length < 8)
  | .barrier h => phase h
  | .barrierThen h _ => phase h
  | .faulted h => match mfind k.bars h with | some x => !x.faulted | none => true
  | .queueFull q =>
    match mfind k.queues q with
    | some x => decide (x.ents.length + (tookNow d.cycle x.took).length < x.cap)
    | none => true
  | .queueEmpty q => match mfind k.queues q with | some x => (headNow d.cycle x.ents).isSome | none => true
  | .fifoFull => d.fifoReady (coreOf a) true
  | .fifoEmpty => d.fifoReady (coreOf a) false
  | .timeline e n => decide (n ≤ (mget ({} : Timeline) c.tls e).counter)
  | .eventFlag => c.event
  | .absent va => match findEnt (k.seen d.cycle) (va57 va) with | some e => !e.ab | none => true
  | .rendezvous => !d.otherEpisode k a
  | .snapshot => false
  | .library => !(d.dice.installs.any fun x => x.agent == a)
  | .gang => k.gang.isNone && (d.block b).get fState != sMigrating

/-- A context whose wait is over (R51): READY, or BLOCKED on the next wait that its bundle left. -/
def Ctx.resume (c : Ctx) : Ctx :=
  match c.thenWaits with
  | [] => { c with run := .ready }
  | w :: r => { c with run := .blocked w, thenWaits := r }

/-- A context whose wait is over (R51): READY, to issue its bundle again; a wait after a `BARW` arrival returns without
one (R262). -/
def Device.unblock (d : Device) (k : Binding) (a : Nat) : Device :=
  d.updCtx a fun c =>
    match c.run with
    | .blocked (.absent _) => { c with run := .ready, task := c.task.map fun t => t.retranslate k.win }
    | .blocked (.barrierThen h _) =>
      let st := match mfind k.bars h with | some x => x.stamp | none => 0
      { c.resume with floor := Nat.max c.floor st, bars := mset c.bars h { mget {} c.bars h with owed := false } }
    | _ => c.resume

/-- `CONTEXT_UNBLOCK` (R51). -/
def execContextUnblock (agent : Nat) (s : State) : Host.Outcome State Fault Refusal :=
  s.devEvent (do
    let b ← s.dev.blockOf agent
    let k ← s.dev.binding b
    match (s.dev.ctx agent).run with
    | .blocked w => guardOpt (s.dev.waitOver b k agent w) (s.dev.unblock k agent)
    | _ => none)

/-! ## Publication and the ready queue (R53, R440) -/

/-- `TASK_PUBLICATION_COMPLETE` (R53): the oldest commit of the block whose enqueues have been made is published, and its
task is RETIRED. -/
def execTaskPublicationComplete (blk : Nat) (s : State) : Host.Outcome State Fault Refusal :=
  s.devEvent (do
    let k ← s.dev.binding blk
    let r ← takeFirst (fun x => k.deferred.all fun f => f.ent.floor != x.st) k.committing
    some ((s.dev.noteQsc.published r.1.st).setBinding blk { k with committing := r.2 }))

/-- The block whose oldest waiting enqueue is for a cluster. -/
def Device.deferredFor (d : Device) (cluster : Nat) : Option Nat :=
  (d.tab.bindings.find? fun e => e.2.deferred.any fun f => f.cluster == cluster).map (·.1)

/-- `DEFERRED_ENQUEUE` (R440). -/
def execDeferredEnqueue (cluster : Nat) (s : State) : Host.Outcome State Fault Refusal :=
  s.devEvent (do
    let b ← s.dev.deferredFor cluster
    let k ← s.dev.binding b
    let r ← takeFirst (fun f => f.cluster == cluster) k.deferred
    guardOpt (decide ((s.dev.readyQ cluster).length < 4096))
      ((s.dev.setBinding b { k with deferred := r.2 }).setReady cluster (s.dev.readyQ cluster ++ [r.1.ent])))

/-- `RQFULL_TIMEOUT` (R440). -/
def execRqfullTimeout (blk : Nat) (s : State) : Host.Outcome State Fault Refusal :=
  s.devEvent (do
    let k ← s.dev.binding blk
    guardOpt (k.deferred.any fun f => decide (f.since + cyclesMs 1 ≤ s.dev.cycle))
      ((s.dev.setBinding blk { k with deferred := [] }).kDeliver 5 blk 0 cRQFULL 0 none))

/-! ## Tiles, queues, the pool (R56, R60, R73, R441) -/

/-- `NT_ROTATION` (R56): 24 cycles after the request. -/
def execNtRotation (agent : Nat) (s : State) : Host.Outcome State Fault Refusal :=
  s.devEvent (match (s.dev.ctx agent).ntDue with
    | [] => none
    | x :: _ => guardOpt (decide (x.1 ≤ s.dev.cycle)) (s.dev.updCtx agent Ctx.rotate))

/-- Of some queues, the one of least capacity and then of lowest number (R60). -/
def leastQueue (qs : Map StreamQ) : Option (Nat × StreamQ) :=
  qs.foldl (fun best e => match best with
    | some b => if e.2.cap < b.2.cap then some e else best
    | none => some e) none

/-- The full queues of a binding (R60). -/
def Binding.fullQueues (k : Binding) : Map StreamQ := k.queues.filter fun e => decide (e.2.cap ≤ e.2.ents.length)

/-- The entries of 256 bytes that a core's queue pool holds (R69, R70, R203). -/
def Core.poolEntries (k : Core) (upper : Bool) : Nat := ((if upper then 768 else 1024) - k.pb3.toNat) * 16

/-- The entries of the stream queues that a logical core consumes. -/
def Binding.queueEntries (k : Binding) (lc : Nat) : Nat :=
  k.queues.foldl (fun n e => if e.2.cons = lc then n + e.2.cap else n) 0

/-- Whether a queue can double its capacity (R60, R441): its core's queue pool has the room, and the capacity stays within
65,535 entries. -/
def Device.canDouble (d : Device) (k : Binding) (q : StreamQ) : Bool :=
  decide (k.queueEntries q.cons + q.cap ≤ (d.core (k.physCore q.cons)).poolEntries (q.cons % 2 == 1)) &&
    decide (2 * q.cap ≤ 65535)

/-- `QUEUE_ENLARGE` (R60, R441): after 64 consecutive cycles in which every context was BLOCKED or VACANT; a delivery when
no full queue can double. -/
def execQueueEnlarge (blk : Nat) (s : State) : Host.Outcome State Fault Refusal :=
  s.devEvent (do
    let k ← s.dev.binding blk
    let q ← leastQueue k.fullQueues
    let idle := decide (64 ≤ k.stuck) && s.dev.stuck k && !(s.dev.ready.any fun e => e.2.any fun x => x.blk == blk)
    let next :=
      match leastQueue (k.fullQueues.filter fun e => s.dev.canDouble k e.2) with
      | some e => s.dev.setBinding blk { k with stuck := 0, queues := mset k.queues e.1 { e.2 with cap := 2 * e.2.cap } }
      | none => s.dev.kDeliver 5 blk 0 cQPOOL (word q.1) none
    guardOpt (idle && k.kdel.all fun x => x.ctx.isSome) next)

/-- `POOL_PAGE_ZEROED` (R73): the page, which read as zero already, has been zeroed. -/
def execPoolPageZeroed (core page : Nat) (s : State) : Host.Outcome State Fault Refusal :=
  s.devEvent (guardOpt ((s.dev.core core).unzeroed.contains page)
    (s.dev.updCore core fun k => { k with unzeroed := k.unzeroed.filter (· != page) }))

/-! ## Deliveries of kind K (R416, R427) -/

/-- The first VACANT context of a core of logical cell 0 (R427). -/
def Device.kContext (d : Device) (k : Binding) : Option Nat :=
  let cell := k.pcell 0
  let cores := k.cores.filter fun c => cellOf c == cell
  (cores.flatMap fun c => [4 * c, 4 * c + 1, 4 * c + 2, 4 * c + 3]).find? fun a =>
    d.vacant a

/-- The context that a delivery runs on: that of its pinned task, of logical cell 0, or, for a failed task, one that could
take the task. -/
def Device.kPlace (d : Device) (b : Nat) (k : Binding) (x : KDel) : Option Nat :=
  match x.pinned, x.ent with
  | some a, _ => some a
  | none, none => d.kContext k
  | none, some e => k.agents.find? fun a => d.vacant a && e.fits b k a

/-- The task that a delivery starts on a context (R427): a task without a record, or the failed task in the trap routine
with its registers from its restart point; a pinned task enters the routine where it is. -/
def Device.kStart (d : Device) (b : Nat) (k : Binding) (x : KDel) (a n : Nat) : Device :=
  let tva := va57 ((d.block b).get fTrapva * 32)
  let old := (d.ctx a).regs
  match x.pinned, x.ent with
  | some p, _ => match (d.ctx p).run with | .blocked (.absent _) => d.asyncTrap p x.cause x.val | _ => d
  | none, none =>
    let r : Restart := { regs := kRegs old tva (d.imageFcsr b),
                         trap := { mode := 1, tcause := tcauseOf 0 x.cause, tval := x.val } }
    let l := k.lcell (cellOf (coreOf a))
    d.loadTask a { blk := b, lclus := l / 8, tier := isUpper (coreOf a), resume := some r, kdel := true } r
  | none, some e =>
    match (match e.resume with | some r => Except.ok r | none => d.readRecord k a n e) with
    | .error y => y
    | .ok r =>
      let d1 := d.loadTask a e r
      d1.updCtx a fun c =>
        { c with regs := { r.regs with pc := tva },
                 trap := { c.trap with mode := 1, tcause := tcauseOf 0 x.cause, tepc := r.regs.pc, tval := x.val } }

/-- Whether a delivery to a parked task runs its trap routine (R444). -/
def Device.inRoutine (d : Device) (x : KDel) : Bool :=
  match x.ctx with
  | some a => (d.ctx a).task.isSome && (d.ctx a).trap.mode == 1
  | none => false

/-- `K_DELIVERY_TASK_START` (R427): the oldest delivery of the block that has not started; of deliveries for one address
or record, one at a time (R444, R463). -/
def execKDeliveryTaskStart (blk : Nat) (s : State) : Host.Outcome State Fault Refusal :=
  s.drawEvent fun n => (do
    let k ← s.dev.binding blk
    let live := k.kdel.filter fun x => s.dev.inRoutine x
    let r ← takeFirst (fun x : KDel => x.ctx.isNone) k.kdel
    let clash := live.any fun y => y.cause == r.1.cause && y.val == r.1.val
    let a ← s.dev.kPlace blk k r.1
    let failed := r.1.ent.isSome || r.1.pinned.isSome
    let next := if failed then { r.1 with ctx := some a } :: live else live
    let rest := r.2.filter fun x => x.ctx.isNone
    guardOpt (k.preempt.isNone && k.running && !clash && (failed || decide (s.dev.cycle ≤ r.1.since + 64)))
      ((s.dev.setBinding blk { k with kdel := next ++ rest }).kStart blk k r.1 a n))

/-- `K_DELIVERY_TIMEOUT` (R427): no context of logical cell 0 has become VACANT in 64 cycles. -/
def execKDeliveryTimeout (blk : Nat) (s : State) : Host.Outcome State Fault Refusal :=
  s.devEvent (do
    let k ← s.dev.binding blk
    let x ← k.kdel.find? fun x => x.ctx.isNone && x.ent.isNone && x.pinned.isNone && decide (x.since + 64 ≤ s.dev.cycle)
    guardOpt (s.dev.kContext k).isNone (s.dev.kill blk x.cause))

/-! ## Stamps and snapshots (R118, R142) -/

/-- A context whose next stamp is at least a published one. -/
def Ctx.raised (c : Ctx) (pub : Nat) : Ctx := { c with floor := Nat.max c.floor (pub - 1) }

/-- `STAMP_RAISE` (R118): each context's next stamp is at least the largest stamp whose publication is complete. -/
def execStampRaise (s : State) : Host.Outcome State Fault Refusal :=
  s.devEvent (some { s.dev with
    ctxs := (List.range 2048).map fun a => (a, (s.dev.ctx a).raised s.dev.pub) })

/-- `SNAP_RETURN` (R142): every commit that precedes the snapshot's stamp is published. -/
def execSnapReturn (agent : Nat) (s : State) : Host.Outcome State Fault Refusal :=
  s.devEvent (
    let c := s.dev.ctx agent
    let flying := s.dev.tab.bindings.any fun e => e.2.committing.any fun x => decide (x.st < c.stamp)
    guardOpt (c.run == .blocked .snapshot && !flying) (s.dev.updCtx agent Ctx.resume))

end Sys2Proof.Machine
end

