-- ==== Sys2Proof/Machine/Harbour.lean ====
section
/-! DEFINITION. The Harbourmaster (R33, R37 to R42, R64 to R67, R331 to R339, R462, R464, R483): groups, the pick, recalls
and pre-emptions, the binding steps, and the end of a binding. -/

namespace Sys2Proof.Machine

/-! ## Groups (R33, R39, R40, R334, R380) -/

/-- Whether a cell may be bound to a shape (R33, R380, R417, R418): not offline, and for a shape that uses upper cores
neither gated nor asked to be. -/
def Device.cellUsable (d : Device) (lower : Bool) (c : Nat) : Bool :=
  let x := d.cell c
  !x.offline && (mfind d.err.stackReset (stackOf c)).isNone && (lower || !(x.gated || x.ungating || x.ugreq))

/-- The aligned groups of a shape and mode, in increasing `gbase`. -/
def alignedGroups (shape : Nat) (prot : Bool) : List (List Nat) :=
  let n := groupCells shape prot
  if n = 0 then [] else (List.range (256 / n)).map fun i => span (i * n) n

/-- The aligned groups of a block's shape and mode. -/
def Block.groups (m : Block) : List (List Nat) := alignedGroups (m.get fShape) (m.get fProt == 1)

/-- The cells of a block's group at a base. -/
def Block.groupAt (m : Block) (g : Nat) : List Nat := span g (groupCells (m.get fShape) (m.get fProt == 1))

/-- The reservation that owns a cell (R330). -/
def Device.cellOwner (d : Device) (c : Nat) : Option Nat := (d.tab.resv.find? fun e => e.2.cells.getLsbD c).map (·.1)

/-- The cells under a claim (R335, R336). -/
def Device.claimed (d : Device) : List Nat :=
  d.tab.blocks.flatMap fun e => match e.2.claim with | some g => e.2.groupAt g | none => []

/-- The cells kept for held candidates other than `m`: the lowest-numbered aligned group of each (R333). -/
def Device.keptFor (d : Device) (m : Nat) : List Nat :=
  d.candidates.flatMap fun b => if b ≠ m ∧ (d.block b).isHeld then (d.block b).groupAt 0 else []

/-- The class of a group for a reservation (R334). -/
def Device.groupClass (d : Device) (r : Nat) (g : List Nat) : Option Nat :=
  let os := g.map d.cellOwner
  let lent (o : Option Nat) : Bool := match o with
    | none => true
    | some x => x == r || ((d.resvOf x).lend && !(d.resvOf x).backlogged)
  if os.all (· == some r) then some 1
  else if os.all fun o => o == some r || o.isNone then some 2
  else if os.all lent then some 3
  else none

/-- The blocks that hold cells of a group. -/
def Device.holders (d : Device) (g : List Nat) : List Nat := uniq (g.filterMap fun c => (d.cell c).held)

/-- The element of a list with the least key, the first of equals. -/
def leastBy {α : Type} (key : α → Nat) : List α → Option α
  | [] => none
  | x :: r =>
    match leastBy key r with
    | some y => if key y < key x then some y else some x
    | none => some x

/-- Whether every cell of a group is free to be bound to `m`, apart from bindings (R333, R334). -/
def Device.openTo (d : Device) (m : Nat) (g : List Nat) : Bool :=
  let taken := d.claimed ++ d.keptFor m
  g.all fun c => d.cellUsable (lowerOnly ((d.block m).get fShape)) c && !taken.contains c

/-- find_group (R334): the base of the group that a candidate is given. -/
def Device.findGroup (d : Device) (m : Nat) : Option Nat :=
  let b := d.block m
  let fit := b.groups.filterMap fun g =>
    if d.openTo m g && (d.holders g).isEmpty then (d.groupClass (b.get fResv) g).map fun k => (k, g.headD 0) else none
  (leastBy (fun x => x.1 * 256 + x.2) fit).map (·.2)

/-! ## Priority (R331) -/

/-- The effective priority of a block. -/
def Device.effPrio (d : Device) (b : Nat) : Nat :=
  let m := d.block b
  if m.get fState = sPreempted then m.get fPrio
  else match m.head with | some r => Nat.min (m.get fPrio) r.pcls.toNat | none => m.get fPrio

/-- The age stamp of a candidate. -/
def Device.ageStamp (d : Device) (b : Nat) : Nat :=
  let m := d.block b
  if m.get fState = sPreempted then m.age else match m.head with | some r => r.arrst | none => m.age

/-- The order of the candidates of one level (R333), as one number. -/
def Device.pickKey (d : Device) (b : Nat) : Nat :=
  let r := (d.block b).get fResv
  (((d.resvOf r).vt.toNat * 1024 + r) * 2 ^ 128 + d.ageStamp b) * 2 ^ 15 + b

/-! ## Pre-emption requests (R64, R238, R483) -/

/-- The binding of a block given up (R418, R483): the group released and charged, the tasks of its entry gone, and the
block a candidate again, or SUSPENDED when its image's generation has been retired (R341). -/
def Device.unbind (d : Device) (b : Nat) : Device :=
  let m := d.block b
  let st := if m.retire then sSuspended else if m.saved.isSome then sPreempted else sQueued
  (((d.release b).updBlock b fun m => { m with retire := false }).setMstate b st).noteCandidates

/-- A pre-emption request (R64, R238): every context's event flag is set and each context stops, or, in the binding steps,
the binding is abandoned at once. -/
def Device.requestPreempt (d : Device) (b : Nat) (save suspend : Bool) : Device :=
  match d.binding b with
  | none => d
  | some k =>
    if d.mstate b = sBinding then d.unbind b
    else
      match k.preempt with
      | some p => d.setBinding b { k with preempt := some { p with suspend := p.suspend || suspend } }
      | none =>
        let d1 := d.setBinding b { k with preempt := some { save := save, since := d.cycle, suspend := suspend } }
        let d2 := k.agents.foldl (fun x a => x.updCtx a fun c => { c with event := true }) d1
        k.agents.foldl (fun x a => x.stopCtx b a) d2

/-- A pre-emption request under the block's own policy. -/
def Device.preemptBlock (d : Device) (b : Nat) : Device := d.requestPreempt b ((d.block b).get fPol == 1) false

/-! ## Recalls and victims (R335, R336) -/

/-- Whether a block's binding is under pre-emption. -/
def Device.preempting (d : Device) (b : Nat) : Bool :=
  match d.binding b with | some k => k.preempt.isSome | none => false

/-- start_recall (R335). -/
def Device.startRecall (d : Device) (m : Nat) : Option Device :=
  let b := d.block m
  let r := b.get fResv
  let usable (c : Nat) : Bool := d.cellUsable (lowerOnly (b.get fShape)) c && !d.claimed.contains c
  let ok (g : List Nat) : Bool :=
    let hs := d.holders g
    g.all usable && g.all (fun c => d.cellOwner c == some r) && !hs.isEmpty &&
      hs.all fun x => (d.block x).get fResv != r && !d.preempting x
  (leastBy (fun g => (d.holders g).length * 256 + g.headD 0) (b.groups.filter ok)).map fun g =>
    d.updBlock m fun x => { x with claim := some (g.headD 0), recallAt := some d.cycle }

/-- Whether a block's binding holds a cell of its own reservation. -/
def Device.atHome (d : Device) (b : Nat) : Bool :=
  match d.binding b with
  | some k => k.cells.any fun c => d.cellOwner c == some ((d.block b).get fResv)
  | none => false

/-- start_preempt (R336). -/
def Device.startPreempt (d : Device) (m : Nat) : Option Device :=
  let b := d.block m
  let ok (g : List Nat) : Bool :=
    let hs := d.holders g
    d.openTo m g && (d.groupClass (b.get fResv) g).isSome && !hs.isEmpty &&
      hs.all fun x => decide (d.effPrio x < d.effPrio m) && !d.preempting x && !d.atHome x
  let worst (g : List Nat) : Nat := (d.holders g).foldl (fun n x => Nat.max n (d.effPrio x)) 0
  (leastBy (fun g => (worst g * 1024 + (d.holders g).length) * 256 + g.headD 0) (b.groups.filter ok)).map fun g =>
    (d.holders g).foldl (fun x v => x.preemptBlock v) (d.updBlock m fun x => { x with claim := some (g.headD 0) })

/-! ## The start of a binding (R38, R44, R89, R333, R338) -/

/-- A stamp of the Harbourmaster, above every stamp so far (R482). -/
def State.masterStamp (s : State) : State × Nat :=
  let (s1, x) := s.draw
  let st := stampAbove x s.dev.top
  ({ s1 with dev := { s1.dev with top := st } }, st)

/-- The next binding number (R44). -/
def nextBnum (n : Nat) : Nat :=
  let m := (n + 1) % 2 ^ 32
  if m % 2 ^ 31 = 0 then m + 1 else m

/-- The binding of an image that begins (R59, R201, R203, R262). -/
def Image.bindingOf (i : Image) (m : Block) (gbase cycle bnum : Nat) : Binding :=
  { gbase := gbase, shape := BitVec.ofNat 5 (m.get fShape), prot := m.get fProt == 1, sys := i.sys, since := cycle,
    bseq := BitVec.ofNat 31 bnum, tx := i.tx, ty := i.ty, tz := i.tz, queues := i.queues,
    bars := i.bars.map fun e => (e.1, { need := e.2 }) }

/-- An entry that a queue or FIFO holds from before a pre-emption (R265, R387): present in every cycle from now on. -/
def QEnt.settled (e : QEnt) : QEnt := { e with cyc := 0 }

/-- A saved stream queue as it is restored (R264, R387). -/
def StreamQ.settled (q : StreamQ) : StreamQ := { q with ents := q.ents.map QEnt.settled, took := [] }

/-- A group as its restored binding begins: in a new place, its queues settled, and the waits of its deliveries counted
from now (R67, R387, R427). -/
def Binding.restored (k : Binding) (gbase cycle : Nat) : Binding :=
  { k with gbase := gbase, since := cycle, running := false, preempt := none, shoots := [], rewinding := []
           queues := k.queues.map fun e => (e.1, e.2.settled), kdel := k.kdel.map fun x => { x with since := cycle } }

/-- Block `m` bound on the group at `gbase` (R333): BINDING, its cells held, its window made. -/
def State.bindBlock (s : State) (m gbase : Nat) : State :=
  let (s1, st) := s.masterStamp
  let d := s1.dev
  let b := d.block m
  let i := d.imageOf m
  let bnum := if b.saved.isSome then b.get fBnum else nextBnum (b.get fBnum)
  let k : Binding := match b.saved with
    | some v => v.group.restored gbase d.cycle
    | none => i.bindingOf b gbase d.cycle bnum
  let take (x : Block) : Block :=
    (((((({ x with claim := none, recallAt := none, firsts := 0, isHeld := false }).set fState sBinding).set fBound 1).set
      fGbase gbase).set fBstamp st).set fBnum bnum)
  let d1 := (d.updBlock m take).setBinding m k
  let d2 := d1.updBinding m fun k => { k with win := d1.makeWindow m i.buffers }
  let d3 := k.cells.foldl (fun x c => x.updCell c fun e => { e with held := some m }) d2
  { s1 with dev := d3.noteCandidates }

/-! ## The pick (R333) -/

/-- Whether a candidate's claimed group is released and still usable. -/
def Device.claimReady (d : Device) (m : Nat) : Option Nat :=
  match (d.block m).claim with
  | some g =>
    let cells := (d.block m).groupAt g
    if (d.holders cells).isEmpty && cells.all (d.cellUsable (lowerOnly ((d.block m).get fShape))) then some g else none
  | none => none

/-- One candidate of the pick; `lead` for the first of the highest level. The flag says that it was bound. -/
def State.pickOne (s : State) (m : Nat) (lead : Bool) : State × Bool :=
  match s.dev.claimReady m with
  | some g => (s.bindBlock m g, true)
  | none =>
    match s.dev.findGroup m with
    | some g => (s.bindBlock m g, true)
    | none =>
      if lead ∧ (s.dev.block m).claim.isNone then
        match s.dev.startRecall m with
        | some d => ({ s with dev := d }, false)
        | none => ({ s with dev := (s.dev.startPreempt m).getD s.dev }, false)
      else (s, false)

/-- The candidates of one level in order. -/
def State.pickList (s : State) (lead : Bool) : List Nat → State × Option Nat
  | [] => (s, none)
  | m :: r =>
    match s.pickOne m lead with
    | (t, true) => (t, some m)
    | (t, false) => t.pickList false r

/-- The levels from `p − 1` down; `top` while no level has had a candidate. The answer names the block bound and those
that came first. -/
def State.pickLevels (s : State) (top : Bool) (firsts : List Nat) : Nat → State × Option Nat × List Nat
  | 0 => (s, none, firsts)
  | p + 1 =>
    let l := sortBy s.dev.pickKey (s.dev.candidates.filter fun b => s.dev.effPrio b == p)
    let f := match l with | m :: _ => m :: firsts | [] => firsts
    match s.pickList top l with
    | (t, some m) => (t, some m, f)
    | (t, none) => t.pickLevels (top && l.isEmpty) f p

/-- The counts of consecutive picks in which candidates came first (R333). -/
def Device.countFirsts (d : Device) (firsts : List Nat) (bound : Option Nat) : Device :=
  let upd (e : Nat × Block) : Nat × Block :=
    if firsts.contains e.1 ∧ bound ≠ some e.1 then (e.1, { e.2 with firsts := e.2.firsts + 1 })
    else (e.1, { e.2 with firsts := 0, isHeld := false })
  d.updTab fun t => { t with blocks := t.blocks.map upd }

/-- `HARBOURMASTER_PICK` (R333). -/
def execHarbourmasterPick (s : State) : Host.Outcome State Fault Refusal :=
  let (t, bound, firsts) := s.pickLevels true [] 8
  s.event (some { t with dev := t.dev.countFirsts firsts bound })

/-- `CANDIDATE_HELD` (R333). -/
def execCandidateHeld (blk : Nat) (s : State) : Host.Outcome State Fault Refusal :=
  s.devEvent (guardOpt (s.dev.candidate blk && decide (4096 ≤ (s.dev.block blk).firsts))
    (s.dev.updBlock blk fun m => { m with isHeld := true }))

/-! ## The save area's size and the bound of a pre-emption (R65, R339) -/

/-- The sum of the greatest lengths of the sections of a save area (R339). -/
def saveSize (i : Image) (shape : Nat) (prot : Bool) : Nat :=
  let n := shapeCells shape
  let lower := 4 * 96 * 1024 + i.poolSave false
  let upper := 4 * 96 * 1024 + i.poolSave true + 1220 * 1024
  40960 * ceilDiv (groupCells shape prot) 8 + n * (9 * 1024 + lower + (if lowerOnly shape then 0 else upper))

/-- The cycles within which a block's pre-emption completes (R65). -/
def Device.preemptBound (d : Device) (b : Nat) : Nat :=
  cyclesUs 2 + ceilDiv (saveSize (d.imageOf b) ((d.block b).get fShape) ((d.block b).get fProt == 1) * 18) 25000

/-- `RECALL_GRACE_EXPIRY` (R335): `rgrace` cycles after the recall began, or as early as the bound of 1 ms asks. -/
def execRecallGraceExpiry (blk : Nat) (s : State) : Host.Outcome State Fault Refusal :=
  let d := s.dev
  s.devEvent (do
    let g ← (d.block blk).claim
    let t ← (d.block blk).recallAt
    let hs := d.holders ((d.block blk).groupAt g)
    let longest := hs.foldl (fun n b => Nat.max n (d.preemptBound b)) 0
    guardOpt (decide (t + Nat.min d.tab.rgrace.toNat (cyclesMs 1 - longest) ≤ d.cycle))
      (hs.foldl (fun x b => x.preemptBlock b) (d.updBlock blk fun m => { m with recallAt := none })))

/-! ## The binding steps (R47, R48, R69, R73, R297, R313, R338, R439, R462) -/

/-- Whether the keys a block needs are loaded (R462): those of `rkid`, of a nonzero `dkid` and of its sharing domain,
where key identifier 0 names no key (R84). -/
def Device.keysLoaded (d : Device) (b : Nat) : Bool :=
  let m := d.block b
  let has (kid : Nat) : Bool := kid != 0 && (mfind d.tab.keys kid).isSome
  has (m.get fRkid) && (m.get fDkid == 0 || has (m.get fDkid)) && has (mget 0 d.tab.domains (m.get fSdom))

/-- A binding abandoned for a missing key (R462). -/
def Device.keyMissing (d : Device) (b : Nat) : Device :=
  let d1 := ((d.release b).updBlock b fun m => { m with retire := false }).setMstate b sSuspended
  (d1.postBlock 5 0 b agHarbour 0 0).noteCandidates

/-- A core as a binding's start leaves it: the boundaries of its tier, every region zero, no claim, no limit (R69, R73,
R297, R313, R314). -/
def Core.fresh (k : Core) (i : Image) (upper : Bool) : Core :=
  let (b1, b2, b3) := if upper then (i.upb1, i.upb2, i.upb3) else (i.lpb1, i.lpb2, i.lpb3)
  let pages := span b1.toNat (b2.toNat - b1.toNat) ++ span b3.toNat ((if upper then 768 else 1024) - b3.toNat)
  { k with pb1 := b1, pb2 := b2, pb3 := b3, scratch := [], unzeroed := pages, l1 := [], limit := 0, frzcnt := 0,
           slots := [], banks := [], mq := [] }

/-- Every core and context of a group set for a binding. -/
def Device.freshGroup (d : Device) (k : Binding) (i : Image) : Device :=
  let d1 := k.cores.foldl (fun x n => x.updCore n fun c => c.fresh i (isUpper n)) d
  k.agents.foldl (fun x a => x.updCtx a Ctx.cleared) d1

/-- The entry record written and the entry task enqueued (R48, R338, R439), or the delivery that its failed checks make;
`none` while its page is absent. -/
def State.enqueueEntry (s : State) (b : Nat) (k : Binding) (unit : Nat) : Option State :=
  let d := s.dev
  let e := (d.block b).get fEntry * 64
  let bad (cls : Nat) (cause : BitVec 8) : State := { s with dev := d.kDeliver cls b agHarbour cause (va57 e) none }
  match findEnt (k.seen d.cycle) (va57 e) with
  | none => some (bad 4 cTASKREC)
  | some w =>
    let pa := w.pa (va57 e)
    if w.ab then none
    else if w.kind ≠ 0 then some (bad 4 cTASKREC)
    else
      let (s1, x) := s.draw
      match d.seeLine x 0 w.kid.toNat pa with
      | .error _ => some (bad 3 cPOISON)
      | .ok bs =>
        let r := recOf bs
        let (a0, w3) := rearm k.bseq r
        let w0 := setBits a0 35 32 8
        let st := stampAbove x (if isRemote pa then d.top else d.writeFloor [pa / 64])
        let wr : Writer := ⟨agHarbour, st, some b, w.kid.toNat⟩
        let parts : List (Nat × List Byte) := [(0, toBytes w0.toNat 8), (24, toBytes w3.toNat 8), (60, toBytes unit 4)]
        let d1 :=
          if isRemote pa then
            (d.askPeer (some b) pa 64).sendFor (some b)
              ⟨peerOf pa, parts.map fun y => ((pa + y.1) % 2 ^ 42, .store y.2), none⟩
          else (parts.foldl (fun y z => y.poke (pa + z.1) z.2) (d.touchRange wr pa 64 false)).published st
        some { s1 with dev := d1.readyEnqueue b e st { r with w0 := w0, w3 := w3 } }

/-- The agent identifier of a context in a group that has moved (R67): the same logical core and context number. -/
def Binding.moved (old new : Binding) (a : Nat) : Nat :=
  let core := coreOf a
  4 * (2 * new.pcell (old.lcell (cellOf core)) + core % 2) + a % 4

/-- A saved context as it is restored (R58, R67, R97, R116, R239, R261, R262): READY, or in the wait that lasts, or HALTED by
its own `HALT`, with the rotations that were due after the cycles that remained. -/
def Ctx.restored (c here : Ctx) (win : List WinEnt) (cycle : Nat) : Ctx :=
  { c with run := if c.task.isNone then (if c.run = .halted then .halted else .vacant)
                  else match c.resumeWait with | some w => .blocked w | none => .ready
           resumeWait := none, far := [], floor := Nat.max c.floor (Nat.max here.stamp here.floor)
           ntDue := c.ntDue.map fun x => (x.1 + cycle, x.2), task := c.task.map fun t => t.outdated.retranslate win
           drains := [], due := [], vacantAt := 0, refAt := (0, 0, 0) }

/-- A core's claims after its group has moved. -/
def OpSlot.moved (o : OpSlot) (f : Nat → Nat) : OpSlot := { o with claim := o.claim.map f }

/-- The saved state of a block laid into its new group (R67, R339). -/
def Device.restore (d : Device) (b : Nat) (k : Binding) (v : Saved) : Device :=
  let mv := v.group.moved k
  let core (x : Device) (e : SavedCore) : Device :=
    let n := 2 * k.pcell (e.lcore / 2) + e.lcore % 2
    let put (y : Device) (n : Nat) : Device :=
      y.updCore n fun c => { c with scratch := e.body.scratch, unzeroed := [], banks := e.body.banks,
                                    slots := e.body.slots.map fun s => (s.1, s.2.moved mv) }
    if k.prot then put (put x n) (n + 2) else put x n
  let ctx (x : Device) (e : SavedCtx) : Device :=
    x.updCtx (4 * (2 * k.pcell (e.lcore / 2) + e.lcore % 2) + e.ctx) fun here => e.body.restored here k.win d.cycle
  let cell (x : Device) (e : SavedCell) : Device :=
    x.updCell (k.pcell e.lcell) fun c => { c with up := { ents := e.up.map QEnt.settled }, down := { ents := e.down.map QEnt.settled } }
  let d1 := v.cells.foldl cell (v.ctxs.foldl ctx (v.cores.foldl core d))
  let d2 : Device := { d1 with ops := d1.ops ++ v.ops.map fun o => { o with agent := mv o.agent } }
  let held := k.deferred.map (·.ent)
  let d3 := d2.updBinding b fun k => { k with deferred := [] }
  (v.ready ++ held).foldl (fun x e => x.enqueue e) d3

/-- Whether a restored binding has a context that will issue: otherwise it is RUNNING at once. -/
def Device.willIssue (d : Device) (b : Nat) (k : Binding) : Bool :=
  k.agents.any (fun a => (d.ctx a).run == .ready) || d.ready.any fun e => e.2.any fun x => x.blk == b

/-- The last of the binding steps (R338): the keys, the group's state, and the entry task or the saved state, whose
uncorrectable section kills the micro-context (R462). -/
def State.bindingSteps (s : State) (b : Nat) (k : Binding) : Option State :=
  let d := s.dev
  let i := d.imageOf b
  let run (x : Device) : Device := x.updBinding b fun k => { k with running := true }
  if !d.keysLoaded b then some { s with dev := d.keyMissing b }
  else
    match (d.block b).saved with
    | some v =>
      if d.saveBad b then some { s with dev := (d.postBlock 3 3 b agHarbour cERRASYNC 0).kill b cERRASYNC }
      else
        let d1 := run ((d.freshGroup k i).restore b k v)
        some { s with dev := if d1.willIssue b k then d1 else d1.enterRunning b }
    | none =>
      match (d.block b).head with
      | some r =>
        if r.done then
          let s1 : State := { s with dev := d.freshGroup k i }
          (s1.enqueueEntry b k r.unit).map fun t => { t with dev := run t.dev }
        else none
      | none => none

/-- `ENTRY_TASK_ENQUEUE` (R338, R67): an absent entry page is asked of the Pilot, and the steps wait for it. -/
def execEntryTaskEnqueue (blk : Nat) (s : State) : Host.Outcome State Fault Refusal :=
  s.event (do
    let k ← s.dev.binding blk
    if s.dev.mstate blk ≠ sBinding ∨ k.running then none
    else
      match s.bindingSteps blk k with
      | some t => some t
      | none =>
        match findEnt k.win (va57 ((s.dev.block blk).get fEntry * 64)) with
        | some w =>
          if w.ab then some { s with dev := s.dev.askPage blk (va57 ((s.dev.block blk).get fEntry * 64)) } else none
        | none => none)

/-! ## The end of a binding (R38, R328, R341, R342, R461) -/

/-- The state of a block that is no longer bound (R37): SUSPENDED for a suspend or a retire, else by its queue. -/
def Device.settle (d : Device) (b : Nat) (susp : Bool) : Device :=
  let d1 := d.skipAbandoned b
  let m := d1.block b
  let st := if susp || m.retire then sSuspended else if m.recs.isEmpty then sIdle else sQueued
  ((d1.updBlock b fun m => { m with retire := false }).setMstate b st).noteCandidates

/-- The suspend commands of a block completed. -/
def State.suspended (s : State) (b : Nat) : State :=
  if s.dev.mstate b = sSuspended then s.finishKind (· == .suspend b) 0 0 else s

/-- `BINDING_RECORD_TIMEOUT` (R328): 20 µs after the start, or once the record is abandoned. -/
def execBindingRecordTimeout (blk : Nat) (s : State) : Host.Outcome State Fault Refusal :=
  s.devEvent (do
    let k ← s.dev.binding blk
    let r ← (s.dev.block blk).head
    let d := (s.dev.release blk).updBlock blk fun m =>
      { m with recs := match m.recs with | x :: l => { x with deferred := !x.abandoned } :: l | [] => [] }
    guardOpt (s.dev.mstate blk == sBinding && !k.running && (s.dev.block blk).saved.isNone && !r.done &&
      (r.abandoned || decide (k.since + cyclesUs 20 ≤ s.dev.cycle))) (d.settle blk false))

/-- Whether an unconfirmed gang member holds something (R371): remote traffic, or what its tenant's rings would launch. -/
def Device.gangHolds (d : Device) (b : Nat) (k : Binding) : Bool :=
  match k.gang with
  | some g => !g.sends.isEmpty || !(d.waitingRings ((d.block b).get fTenant)).isEmpty
  | none => false

/-- Whether a binding has nothing left to do (R38, R371). -/
def Device.bindingOver (d : Device) (b : Nat) (k : Binding) : Bool :=
  k.gone.isEmpty && !(d.ready.any fun e => e.2.any fun x => x.blk == b) && k.agents.all (fun a => (d.ctx a).task.isNone) &&
    k.committing.isEmpty && k.parked.isEmpty && k.deferred.isEmpty && k.kdel.all (fun x => x.ctx.isSome) &&
    !(d.ops.any fun o => o.blk == b) && !d.gangHolds b k

/-- The head record's error reply with status 5, when its binding ends without a final reply (R342). -/
def Device.unanswered (d : Device) (b : Nat) (k : Binding) : Device :=
  match (d.block b).head with
  | some r => if k.replied || r.abandoned then d else d.errorReply b r 5
  | none => d

/-- `BINDING_END` (R38). -/
def execBindingEnd (blk : Nat) (s : State) : Host.Outcome State Fault Refusal :=
  s.event (do
    let k ← s.dev.binding blk
    let susp := match k.preempt with | some p => p.suspend | none => false
    let d := (((s.dev.unanswered blk k).release blk).popHead blk).settle blk susp
    guardOpt (s.dev.mstate blk == sRunning && k.running && s.dev.bindingOver blk k) (State.suspended { s with dev := d } blk))

/-! ## Pre-emption (R64, R65, R341, R464) -/

/-- Whether a group's commits are complete and its matrix queues drained, which a save waits for (R64, R301). -/
def Device.drainedGroup (d : Device) (k : Binding) : Bool :=
  k.committing.isEmpty && k.cores.all fun n => (d.core n).mq.isEmpty

/-- Whether every context of a group has halted or is VACANT, with its slotted reads returned, its segments and matrix queues
drained and its commits complete (R62, R64, R111, R301). -/
def Device.allStopped (d : Device) (k : Binding) : Bool :=
  k.agents.all (fun a => let c := d.ctx a; c.run == .halted || (c.run == .vacant && c.task.isNone)) &&
    k.agents.all (fun a => (d.ctx a).slds.isEmpty && (d.ctx a).drains.isEmpty) && d.drainedGroup k

/-- A pre-emption completed: the save area written, the cells free, the block PREEMPTED or SUSPENDED. -/
def State.preempted (s : State) (b : Nat) (k : Binding) : State :=
  let (s1, st) := s.masterStamp
  let susp := (match k.preempt with | some p => p.suspend | none => false) || (s.dev.block b).retire
  let v := s1.dev.saveOf b k
  let s2 := s1.writeSave b v
  let d := (s2.dev.release b).updBlock b fun m => { m with saved := some v, age := st, retire := false }
  State.suspended { s2 with dev := (d.setMstate b (if susp then sSuspended else sPreempted)).noteCandidates } b

/-- `PREEMPTION_COMPLETE` (R65); a binding that is over ends instead (R337). -/
def execPreemptionComplete (blk : Nat) (s : State) : Host.Outcome State Fault Refusal :=
  s.event (do
    let k ← s.dev.binding blk
    guardOpt (k.preempt.isSome && s.dev.allStopped k && !s.dev.bindingOver blk k) (s.preempted blk k))

/-- A logical cell of a group whose contexts have all stopped saved and released before the others (R65); the last is
released as the pre-emption completes. -/
def State.saveCell (s : State) (b l : Nat) : Option State := do
  let k ← s.dev.binding b
  let cells := k.cells.filter fun c => k.lcell c == l
  let d := s.dev.updBlock b fun m => { m with part := m.part.append (s.dev.partOf k cells) }
  guardOpt (k.preempt.isSome && !cells.isEmpty && decide (cells.length < k.cells.length) && s.dev.allStopped k &&
      !s.dev.bindingOver b k)
    { s with dev := (d.freeCells cells).setBinding b { k with gone := k.gone ++ cells }, last := .done }

/-- A context that was not saved discarded (R464): its unpinned task aborted; a pinned one kills the micro-context. -/
def Device.discardCtx (d : Device) (b a : Nat) : Device :=
  match (d.ctx a).task with
  | none => d
  | some t =>
    if t.blk ≠ b ∨ d.mstate b = sDead then d
    else if t.pin = .none then d.abortTask a cPREEMPT 0
    else d.kill b cPREEMPT

/-- `PREEMPTION_TIMEOUT` (R464): which halted contexts had been saved is the device's choice. Matrix queues drain, and
commits complete, before the rest is saved (R64, R301). -/
def execPreemptionTimeout (blk : Nat) (s : State) : Host.Outcome State Fault Refusal :=
  s.event (do
    let k ← s.dev.binding blk
    let p ← k.preempt
    let due := p.since + s.dev.preemptBound blk
    let (s1, x) := s.draw
    let lost (a : Nat) : Bool := !s.dev.allStopped k || Config.freeBool x a
    let d := k.agents.foldl (fun y a => if lost a then y.discardCtx blk a else y) s1.dev
    let d1 := d.postDev 7 0 agHarbour (word (s.dev.cycle - due))
    let t : State := { s1 with dev := d1 }
    guardOpt (decide (due ≤ s.dev.cycle) && s.dev.drainedGroup k) (match d1.binding blk with | some k1 => t.preempted blk k1 | none => t))

end Sys2Proof.Machine
end

