-- ==== Sys2Proof/Machine/Requests.lean ====
section
/-! DEFINITION. Requests as they arrive (R322 to R329, R347, R459 to R461): the parser's checks, the lookup of the block,
the allocation of a record, the verification of a segment, and records that are abandoned. -/

namespace Sys2Proof.Machine

/-! ## The header (R323) -/

/-- Doubleword `i` of a datagram's header. -/
def dgDw (g : Datagram) (i : Nat) : Word := g.hdr.extractLsb' (64 * i) 64

def dgRkid (g : Datagram) : Nat := bits (dgDw g 0) 11 0
def dgFnid (g : Datagram) : Nat := bits (dgDw g 1) 63 32
def dgReqid (g : Datagram) : Word := dgDw g 2
def dgTlen (g : Datagram) : Nat := bits (dgDw g 3) 63 32
def dgNseg (g : Datagram) : Nat := bits (dgDw g 3) 15 8
def dgSeg (g : Datagram) : Nat := bits (dgDw g 3) 7 0
def dgSlen (g : Datagram) : Nat := bits (dgDw g 4) 13 0
def dgNonce (g : Datagram) : Nat := bits (dgDw g 6) 31 0 * 2 ^ 64 + (dgDw g 5).toNat

/-- Bytes of a full segment (R324). -/
abbrev segBytes : Nat := 8832

/-- The segments of a message (R324). -/
def segsOf (tlen : Nat) : Nat := Nat.max 1 (ceilDiv tlen segBytes)

/-- Whether a header passes the checks of R323 and R459 as a request. -/
def dgOk (g : Datagram) : Bool :=
  let n := segsOf (dgTlen g)
  let want := if dgSeg g + 1 < n then segBytes else dgTlen g - segBytes * (n - 1)
  bits (dgDw g 0) 63 32 == 0x53524451 && bits (dgDw g 0) 31 24 == 1 && bits (dgDw g 0) 23 20 == 0 &&
    bits (dgDw g 0) 19 12 == 0 && bits (dgDw g 1) 31 27 == 0 && bits (dgDw g 3) 31 24 == 0 &&
    bits (dgDw g 4) 47 14 == 0 && bits (dgDw g 6) 63 32 == 0 && dgDw g 7 == 0 &&
    decide (dgTlen g ≤ 1048576 ∧ dgNseg g = n ∧ dgSeg g < n ∧ dgSlen g = want ∧ g.body.length = dgSlen g)

/-- A frame dropped and counted in the firmware's port statistics (R459). -/
def Device.dropFrame (d : Device) : Device := d.updOut fun o => { o with dropped := o.dropped + 1 }

/-- Bytes of a frame: Ethernet and IPv6 headers, its tags, the datagram and the frame check sequence (R322, R323). -/
def frameBytes (g : Datagram) : Nat := 14 + 4 * g.tags.length + 40 + 8 + 64 + g.body.length + 16 + 4

/-- Whether a frame holds a service datagram (R322): its port has stripped the one tag that it may carry. -/
def Device.isService (d : Device) (g : Datagram) : Bool :=
  let p := mget {} d.out.eth g.port.toNat
  g.udp6 && decide (g.tags.length ≤ 1) && p.addrs.contains g.daddr && p.service == some g.dport

/-- A frame handed to the network and fabric firmware (R322). -/
def Device.toFirmware (d : Device) (port : BitVec 1) : Device := d.send (.frame port)

/-! ## Lookup (R326, R346, R347) -/

/-- Where a datagram goes: a block, a buoy's device and block, or nowhere. -/
inductive Found where
  | block (b : Nat)
  | buoy (dev : Nat)
  | nothing
  deriving DecidableEq, Repr

/-- The key of the context hash table (R326). -/
def hashKey (rkid fnid : Nat) : Nat := rkid * 2 ^ 32 + fnid

/-- Whether a buoy still stands (R347): for 100 ms after cut-over. -/
def Device.afloat (d : Device) (u : Buoy) : Bool := decide (d.cycle < u.since + cyclesMs 100)

/-- The buoy that stands for an index and generation (R347). -/
def Device.buoy (d : Device) (key : Nat) : Option Buoy := (mfind d.out.buoys key).bind fun u => guardOpt (d.afloat u) u

/-- The buoy that stands for the block that held a pair (R347). -/
def Device.buoyOfPair (d : Device) (key : Nat) : Option Buoy :=
  (d.out.buoys.find? fun e => e.2.pair == key && d.afloat e.2).map (·.2)

/-- The target of a request (R326): by its hint, by a buoy that stands for the hinted block (R347), by the table, or by a
buoy that stands for the pair's block. -/
def Device.lookup (d : Device) (g : Datagram) : Found :=
  let hint := bits (dgDw g 1) 14 0
  let hgen := bits (dgDw g 1) 23 16
  let m := d.block hint
  if (dgDw g 1).getLsbD 15 && m.get fState != sFree && m.get fGen == hgen && m.get fFnid == dgFnid g &&
      m.get fRkid == dgRkid g then .block hint
  else
    let pair := hashKey (dgRkid g) (dgFnid g)
    let moved : Found := match d.buoyOfPair pair with | some u => .buoy u.dev | none => .nothing
    match (if (dgDw g 1).getLsbD 15 then d.buoy (hint * 256 + hgen) else none) with
    | some u => .buoy u.dev
    | none =>
      match mfind d.tab.hash pair with
      | some b => if d.mstate b = sFree then moved else .block b
      | none => moved

/-! ## Records (R327) -/

/-- Whether a record is of a datagram's request. -/
def Rec.of (r : Rec) (g : Datagram) : Bool :=
  r.rkid.toNat == dgRkid g && r.fnid.toNat == dgFnid g && r.reqid == dgReqid g && !r.done && r.origin.isNone

/-- The newest record that is not done of a datagram's request, with its place in the queue. -/
def Block.matching (m : Block) (g : Datagram) : Option (Rec × Nat) :=
  (m.recs.zipIdx.filter fun e => e.1.of g).getLast?

/-- The newest record that is not done of a datagram's request, in whichever block holds it, with its place there (R327). -/
def Device.matching (d : Device) (g : Datagram) : Option (Nat × Rec × Nat) :=
  d.tab.blocks.foldl (fun best e =>
    match e.2.matching g with
    | none => best
    | some (r, i) =>
      match best with
      | some (_, r0, _) => if r0.arrst < r.arrst then some (e.1, r, i) else best
      | none => some (e.1, r, i)) none

/-- The address of a unit of a block's queue (R34, R327). -/
def Block.unitPa (m : Block) (u : Nat) : Nat := m.get fQbase * 64 + 64 * (u % 2 ^ m.get fQlog)

/-- Bytes of a request written to a block's queue under its `dkid` (R84, R327); an address that names no local memory
is not written. -/
def State.queuePut (s : State) (b agent pa : Nat) (bs : List Byte) : State :=
  State.linePut agent (some ((s.dev.block b).get fDkid)) (bs.length / 64 + 2) pa bs s

/-- The 64 bytes of a header unit (R327). -/
def Rec.header (r : Rec) : List Byte :=
  let w3 := r.tlen * 2 ^ 32 + r.sport.toNat * 2 ^ 16 + b2n r.eport * 2 ^ 15 + r.pcls.toNat
  let got := r.got.length + b2n r.done * 2 ^ 63
  toBytes r.reqid.toNat 8 ++ toBytesBE r.saddr.toNat 16 ++ toBytes w3 8 ++ toBytes r.arrst 8 ++ toBytes got 8 ++
    toBytes r.fnid.toNat 8 ++ toBytes 0 8

/-- Whether `n` units are free in a block's queue. -/
def Block.hasUnits (m : Block) (n : Nat) : Bool := decide (m.get fQcnt + n ≤ 2 ^ m.get fQlog)

/-- The units of a record of `tlen` bytes. -/
def unitsOf (tlen : Nat) : Nat := 1 + ceilDiv tlen 64

/-- A record appended to a block's queue (R327, R37): its header unit written with the Harbourmaster's stamp, and an IDLE
block QUEUED. -/
def State.appendRec (s : State) (b : Nat) (r : Rec) : State :=
  let m := s.dev.block b
  let unit := m.get fQtail
  let (s1, x) := s.draw
  let st := stampAbove x s1.dev.top
  let r1 : Rec := { r with unit := unit, arrst := st, arrived := s.dev.cycle }
  let s2 : State := { s1 with dev := { s1.dev with top := st } }
  let s3 := s2.queuePut b agHarbour (m.unitPa unit) r1.header
  let d := s3.dev.updBlock b fun m =>
    ({ m with recs := m.recs ++ [r1] }.set fQtail ((unit + r.units) % 2 ^ m.get fQlog)).set fQcnt (m.get fQcnt + r.units)
  { s3 with dev := (if d.mstate b = sIdle then d.setMstate b sQueued else d).noteCandidates }

/-- Whether the image of a block is of a retired generation (R341). -/
def Device.retiredImage (d : Device) (b : Nat) : Bool :=
  match mfind d.tab.images ((d.block b).get fImage) with
  | some i => d.tab.retired.contains i.gen
  | none => false

/-- The status of R329 for which a request cannot be appended to a block, 0 when it can. -/
def Device.appendStatus (d : Device) (b units : Nat) : Nat :=
  let m := d.block b
  if m.get fState = sDead then 2
  else if d.retiredImage b then 4
  else if !m.hasUnits units then 3
  else 0

/-- The record that a datagram's request allocates. -/
def newRec (g : Datagram) : Rec :=
  { unit := 0, units := unitsOf (dgTlen g), rkid := BitVec.ofNat 12 (dgRkid g), fnid := BitVec.ofNat 32 (dgFnid g),
    reqid := dgReqid g, pcls := BitVec.ofNat 3 (bits (dgDw g 1) 26 24), tlen := dgTlen g, nseg := dgNseg g,
    saddr := g.saddr, sport := g.sport, eport := g.port == 1 }

/-- The reply target of a datagram that names a block, or none. -/
def dgReply (g : Datagram) (b : Option Nat) : ReplyTo :=
  { rkid := dgRkid g, fnid := dgFnid g, pcls := bits (dgDw g 1) 26 24, reqid := (dgReqid g).toNat, blk := b,
    port := g.port == 1, saddr := g.saddr, sport := g.sport }

/-- A segment that waits for its tag to be verified. -/
def State.queueSegment (s : State) (g : Datagram) : State :=
  { s with dev := s.dev.updOut fun o => { o with segWait := o.segWait ++ [g] } }

/-- A segment of a request that has a record (R327, R459). -/
def State.joinRec (s : State) (r : Rec) (g : Datagram) : State :=
  if r.tlen ≠ dgTlen g ∨ r.nseg ≠ dgNseg g then { s with dev := s.dev.dropFrame } else s.queueSegment g

/-- The first segment of a request, which found block `b` (R327, R329): it allocates a record, or is answered. -/
def State.requestFor (s : State) (b : Nat) (g : Datagram) : State :=
  let st := s.dev.appendStatus b (unitsOf (dgTlen g))
  if st ≠ 0 then { s with dev := s.dev.sendMessage (dgReply g (some b)) 3 0 st [] }
  else (s.appendRec b (newRec g)).queueSegment g

/-- A frame at a port (R322, R326, R327, R347, R459). -/
def State.receive (s : State) (g : Datagram) : State :=
  if !g.fcsOk then { s with dev := s.dev.dropFrame }
  else if !s.dev.isService g then { s with dev := s.dev.toFirmware g.port }
  else if !g.udpOk ∨ !dgOk g then { s with dev := s.dev.dropFrame }
  else if (s.dev.key (dgRkid g)).isNone then s
  else
    match s.dev.matching g with
    | some (_, r, _) => s.joinRec r g
    | none =>
      match s.dev.lookup g with
      | .block b => s.requestFor b g
      | .buoy dev => if s.dev.reachable dev then { s with dev := s.dev.send (.forward dev g) } else s
      | .nothing => { s with dev := s.dev.sendMessage (dgReply g none) 3 0 1 [] }

/-! ## Verification (R324, R327, R459) -/

/-- Whole seconds since reset. -/
def Device.second (d : Device) : Nat := d.cycle / 1800000000

/-- A tag that does not verify (R459): a class-6 record for the first of each `rkid` in each second. -/
def Device.tagFailed (d : Device) (g : Datagram) : Device :=
  let k := dgRkid g
  if mfind d.out.tagErrAt k = some d.second then d
  else (d.updOut fun o => { o with tagErrAt := mset o.tagErrAt k d.second }).postDev 6 0 (0x0900 + g.port.toNat) 0

/-- The pieces of a segment's plaintext, one per unit of the queue. -/
def unitPieces : Nat → List Byte → List (List Byte)
  | 0, _ => []
  | n + 1, bs => if bs.isEmpty then [] else bs.take 64 :: unitPieces n (bs.drop 64)

/-- A record that has become done (R327, R328, R343, R416): counted, no longer deferred, and in a DEAD block answered and
gone. -/
def Device.recordDone (d : Device) (b : Nat) (r : Rec) (i : Nat) : Device :=
  let d1 := d.updMeter ((d.block b).get fTenant) fun m => { m with nreq := m.nreq + 1 }
  if d1.mstate b = sDead then
    (d1.updBlock b fun m => { m with recs := (m.recs.zipIdx.filter fun e => e.2 != i).map (·.1) }).errorReply b r 2
  else d1.noteCandidates

/-- The plaintext of a verified segment written, and its record brought up to date (R327). -/
def State.writeSegment (s : State) (b i : Nat) (r : Rec) (g : Datagram) (plain : List Byte) : State :=
  let m := s.dev.block b
  let agent := 0x0900 + g.port.toNat
  let first := r.unit + 1 + dgSeg g * (segBytes / 64)
  let s1 := (unitPieces 138 plain).zipIdx.foldl (fun t e => t.queuePut b agent (m.unitPa (first + e.2)) e.1) s
  let got := r.got ++ [dgSeg g]
  let r1 : Rec := { r with got := got, done := got.length == r.nseg, deferred := r.deferred && got.length != r.nseg }
  let s2 := s1.queuePut b agent (m.unitPa r.unit + 0x28) (toBytes (got.length + b2n r1.done * 2 ^ 63) 8)
  let d := (s2.dev.updBlock b fun m => { m with recs := lset m.recs i r1 }).updMeter (m.get fTenant) fun x =>
    { x with ibyt := x.ibyt + word plain.length }
  { s2 with dev := if r1.done then d.recordDone b r1 i else d }

/-- A segment that waits for its tag (R324, R327, R459). -/
def State.verify (s : State) (g : Datagram) : State :=
  match s.dev.key (dgRkid g) with
  | none => s
  | some (key, _) =>
    match gcmOpen (toBytes key.toNat 32) (toBytes (dgNonce g) 12) (toBytes g.hdr.toNat 64) g.body (toBytes g.tag.toNat 16) with
    | none => { s with dev := s.dev.tagFailed g }
    | some plain =>
      match s.dev.matching g with
      | some (b, r, i) =>
        if r.abandoned ∨ r.got.contains (dgSeg g) ∨ r.tlen ≠ dgTlen g ∨ r.nseg ≠ dgNseg g then
          { s with dev := s.dev.dropFrame }
        else s.writeSegment b i r g plain
      | none => { s with dev := s.dev.dropFrame }

/-! ## Exhausted keys, links and keys (R459, R460) -/

/-- `REPLY_COUNTER_EXHAUSTED` (R460). -/
def execReplyCounterExhausted (rkid : Nat) (s : State) : Host.Outcome State Fault Refusal :=
  s.devEvent (do
    let k ← s.dev.key rkid
    guardOpt (decide (2 ^ 63 ≤ k.2) && !s.dev.tab.exhausted.contains rkid)
      ((s.dev.updTab fun t => { t with exhausted := rkid :: t.exhausted }).postDev 5 0 0x0902 (word rkid)))

/-- `ETHERNET_LINK_CHANGE` (R459): a port loses or regains its link. -/
def execEthernetLinkChange (port : Nat) (up : Bool) (s : State) : Host.Outcome State Fault Refusal :=
  s.devEvent (guardOpt (decide (port < 2) && s.dev.out.ethUp.getLsbD port != up)
    (s.dev.updOut fun o => { o with ethUp := setBits o.ethUp port port (b2n up) }))

/-- `KEY_LOAD` (R84, R325, R460): a key with its reply counter, loaded by the security firmware. -/
def execKeyLoad (kid : Nat) (key : BitVec 256) (ctr : Nat) (s : State) : Host.Outcome State Fault Refusal :=
  s.devEvent (guardOpt (decide (1 ≤ kid ∧ kid ≤ 4095 ∧ ctr ≤ 2 ^ 63))
    (s.dev.updTab fun t =>
      { t with keys := mset t.keys kid (key, ctr), exhausted := t.exhausted.filter (· != kid) }))

end Sys2Proof.Machine
end

