-- ==== Sys2Proof/Machine/Paging.lean ====
section
/-! DEFINITION. Pages (R80, R95 to R101, R345, R443 to R449, R455, R463): the Pilot's and the firmware's answers,
shoot-downs, the quarantine, pages pending clear, retirement, the version heap's parked tasks, the Dredge and drains. -/

namespace Sys2Proof.Machine

/-- The memory-management firmware's agent identifier (R26, R362). -/
abbrev agMemory : Nat := 0x0912

/-! ## Page-table entries by address (R86 to R88) -/

/-- The entries that a walk reads from the table of a level down, each with its address. -/
def Device.walkPath (d : Device) (va : Nat) : Nat → Nat → List (Nat × Word)
  | 0, table =>
    let a := table + 8 * (va / 2 ^ 16 % 32)
    [(a, d.rd64 a)]
  | l + 1, table =>
    let idx := match l with
      | 0 => va / 2 ^ 21 % 512
      | 1 => va / 2 ^ 30 % 512
      | n + 2 => va / 2 ^ (39 + 9 * n) % 512
    let a := table + 8 * idx
    let e := d.rd64 a
    if e.getLsbD 0 && pteReserved e && e.getLsbD 1 then (a, e) :: d.walkPath va l (ptePa e)
    else if l = 0 ∧ e.getLsbD 8 then
      let f := table + 8 * (idx / 16 * 16)
      [(f, d.rd64 f)]
    else [(a, e)]

/-- The address of the leaf at which the walk of a block's address ends. -/
def Device.leafAddr (d : Device) (b va : Nat) : Nat :=
  match (d.walkPath va 4 ((d.block b).get fPtroot * 4096)).getLast? with
  | some e => e.1
  | none => 0

/-! ## Pages reported present (R95, R444) -/

/-- The window entries of `size` bytes from an address read again. -/
def Device.rereadEnts (d : Device) (b va size : Nat) : Device :=
  let fresh (e : WinEnt) : WinEnt :=
    let base := e.vpn.toNat * 65536
    if va < base + 2 ^ winShift e.sz ∧ base < va + size then e.renew (d.makeEnt b e.sz base) d.cycle else e
  d.updBinding b fun k => { k with win := k.win.map fresh }

/-- The page of `size` bytes at an address reported: its window entries are read again, and the tasks parked on entries
that are present now enqueued in park order. -/
def Device.reported (d : Device) (b va size : Nat) : Device :=
  let d1 := d.rereadEnts b va size
  match d1.binding b with
  | none => d1
  | some k =>
    let there (p : Parked) : Bool :=
      match p.va with
      | some v => (match findEnt k.win (va57 v) with | some e => !e.ab | none => false)
      | none => false
    let ready := k.parked.filter there
    let d2 := d1.setBinding b { k with parked := k.parked.filter fun p => !there p }
    ready.foldl (fun x p => x.enqueue p.ent) d2

/-- Every task parked on an address's page, or pinned and blocked there, taken to rung 3 (R444, R463), one after another: the
parked ones in park order, then the pinned ones. The flag says that there was one; the caller has written the record. -/
def Device.unpark (d : Device) (b va : Nat) (cause : BitVec 8) (val : Word) : Device × Bool :=
  match d.binding b with
  | none => (d, false)
  | some k =>
    match findEnt k.win (va57 va) with
    | none => (d, false)
    | some w =>
      let out (p : Parked) : Bool := match p.va with | some v => w.holds (va57 v) | none => false
      let hit := k.parked.filter out
      let pinned := k.agents.filter fun a =>
        match (d.ctx a).run with | .blocked (.absent v) => w.holds (va57 v) | _ => false
      let d1 := d.setBinding b { k with parked := k.parked.filter fun p => !out p }
      let d2 := hit.foldl (fun x p => x.kQueue b cause val (some p.ent)) d1
      (pinned.foldl (fun x a => x.kQueueFor b cause val none (some a)) d2, !hit.isEmpty || !pinned.isEmpty)

/-! ## The Pilot (R95, R345, R463) -/

/-- The fetches of `size` bytes from an address no longer listed. -/
def Device.dropFetch (d : Device) (b va size : Nat) : Device :=
  d.updTab fun t => { t with fetches := t.fetches.filter fun f => !(f.blk == b && decide (va ≤ f.va ∧ f.va < va + size)) }

/-- The pages of weight SRAM that lie in a range of addresses no longer there (R22, R80): what the range holds is no longer
what they copied. -/
def Device.unplaced (d : Device) (pa size : Nat) : Device :=
  let apart (e : Nat × SramPage) : Bool :=
    let base := e.1 / 4 * 65536
    decide (base + 2 ^ winShift (BitVec.ofNat 2 (e.1 % 4)) ≤ pa ∨ pa + size ≤ base)
  d.updTab fun t => { t with placed := t.placed.filter apart }

/-- A local page of a size made all zero, its lines' records and their copies in every L1, in L2 and in weight SRAM gone. -/
def Device.wipe (d : Device) (pa size : Nat) (keep : Nat → Bool) : Device :=
  let gone (a : Nat) : Bool := decide (pa ≤ a ∧ a < pa + size) && !keep a
  let core (e : Nat × Core) : Nat × Core := (e.1, { e.2 with l1 := e.2.l1.filter fun x => !gone (x.1 * 64) })
  let d1 : Device := { d with mem := d.mem.filter (fun c => !gone c.1), lines := d.lines.filter (fun e => !gone (e.1 * 64))
                              l2 := d.l2.map fun e => (e.1, e.2.filter fun l => !gone (l * 64)), cores := d.cores.map core }
  d1.unplaced pa size

/-! ## Shared-weight copies (R85, R341) -/

/-- The initial contents of `size` bytes from an address, as an image gives them (R202): pieces by offset, zero between. -/
def Image.contents (i : Image) (va size : Nat) : List (Nat × List Byte) :=
  i.buffers.filterMap fun u =>
    let lo := Nat.max va u.va
    let hi := Nat.min (va + size) (u.va + u.init.length)
    if lo < hi then some (lo - va, (u.init.drop (lo - u.va)).take (hi - lo)) else none

/-- The bytes that pieces make of a page of `size` bytes. -/
def partBytes (size : Nat) (parts : List (Nat × List Byte)) : List Byte :=
  rdBytes (parts.foldl (fun m p => wrBytes m p.1 p.2) []) 0 size

/-- The digests by which a page is known (R85): of each 2 MiB piece, or of the whole of a 64 KiB page. -/
def pageDigests (size : Nat) (bytes : List Byte) : List (List Byte) :=
  (List.range (ceilDiv size (2 ^ 21))).map fun j => sha384 ((bytes.drop (j * 2 ^ 21)).take (2 ^ 21))

/-- The digests of a block's shared-weight page: those that a migration named it by (R346), or those of its image. -/
def Device.expected (d : Device) (b va size : Nat) : List (List Byte) :=
  match (d.block b).shared.find? fun x => x.1 == va with
  | some x => x.2
  | none => pageDigests size (partBytes size ((d.imageOf b).contents va size))

/-- The copies changed. -/
def Device.updCopies (d : Device) (f : Map SharedCopy → Map SharedCopy) : Device :=
  d.updTab fun t => { t with copies := f t.copies }

/-- Pages that map copies no longer mapping them. -/
def Device.unmap (d : Device) (p : Nat × Nat → Bool) : Device :=
  d.updCopies fun m => m.map fun e => (e.1, { e.2 with maps := e.2.maps.filter fun x => !p x })

/-- The copy that a sharing domain holds of a page's contents (R85). -/
def Device.copyOfDigests (d : Device) (sz : BitVec 2) (sdom : Nat) (ds : List (List Byte)) : Option (Nat × SharedCopy) :=
  d.tab.copies.find? fun e => e.2.sz == sz && e.2.sdom == sdom && e.2.digests == ds

/-- Whether a physical page holds no copy, or one of a sharing domain's page of these contents (R85): pages of different
domains or contents never share one. -/
def Device.copyFits (d : Device) (page : Nat) (sz : BitVec 2) (sdom : Nat) (ds : List (List Byte)) : Bool :=
  match mfind d.tab.copies page with
  | some c => c.sz == sz && c.sdom == sdom && c.digests == ds
  | none => true

/-- A page that maps the copy at a physical page, which is listed as a copy from now on. -/
def Device.mapCopy (d : Device) (page : Nat) (sz : BitVec 2) (sdom : Nat) (ds : List (List Byte)) (x : Nat × Nat) (here : Bool) :
    Device :=
  let c := (mfind d.tab.copies page).getD { sz := sz, sdom := sdom, digests := ds }
  d.updCopies fun m => mset m page { c with maps := x :: c.maps.filter (· != x), here := c.here || here }

/-- The page table's leaf of a mapping written by an agent, its window entries read again and what waited let go. -/
def State.relist (s : State) (agent b va size : Nat) (pte : Word) : State :=
  let t := s.agentPut agent (s.dev.leafAddr b va) (toBytes pte.toNat 8)
  { t with dev := (t.dev.dropFetch b va size).reported b va size }

/-! ## A fetched page (R95, R345, R463) -/

/-- The class-7 record that ends a retirement (R449). -/
def Device.retired (d : Device) (g out : Nat) : Device :=
  d.post { cls := 7, agent := BitVec.ofNat 16 agMemory, pa := some (BitVec.ofNat 52 (g * 65536)), aux := word out }

/-- The leaves of every page that maps a copy made resident (R85, R345), which ends a retirement that waited for it
(R448). -/
def State.copyHere (s : State) (page size : Nat) : State :=
  match mfind s.dev.tab.copies page with
  | none => s
  | some c =>
    let one (t : State) (x : Nat × Nat) : State :=
      match t.dev.walk x.1 x.2 with
      | .leaf _ p => if p.getLsbD 9 then t.relist agPilot x.1 x.2 size (setBits p 9 9 0) else t
      | .invalid => t
    let t := c.maps.foldl one { s with dev := s.dev.updCopies fun m => mset m page { c with here := true, retire := none } }
    { t with dev := match c.retire with | some g => t.dev.retired g 3 | none => t.dev }

/-- A page copied into the weight SRAM of the stacks of a mask that did not hold it (R22, R80): every byte it has in HBM. -/
def Device.placePage (d : Device) (page size : Nat) (mask : BitVec 4) : Device :=
  let key := page * 4 + size
  let base := page * 65536
  let copy := d.mem.filter fun c => decide (base ≤ c.1 ∧ c.1 < base + 2 ^ winShift (BitVec.ofNat 2 size))
  let old := mget {} d.tab.placed key
  let new : SramPage := { mask := old.mask ||| mask, data := copy, bad := old.bad }
  d.updTab fun t => { t with placed := mset t.placed key new }

/-- The placement mask of a page in weight SRAM. -/
def Device.placedMask (d : Device) (page size : Nat) : BitVec 4 := (mget {} d.tab.placed (page * 4 + size)).mask

/-- A fetched page placed and made resident (R95, R345, R482); `va` is its base, `parts` its contents. A shared-weight page
that weight SRAM holds is written there by the Pilot as well (R22). -/
def State.placePage (s : State) (b va : Nat) (sz : BitVec 2) (pte : Word) (parts : List (Nat × List Byte)) : State :=
  let pa := ptePa pte
  let size := 2 ^ winShift sz
  let kid := s.dev.pageKid b (bits pte 7 6) (pte.getLsbD 5)
  let mask := s.dev.placedMask (pa / 65536) sz.toNat
  let s1 : State := { s with dev := s.dev.wipe pa size fun _ => false }
  let s2 := parts.foldl (fun t p => State.linePut agPilot (some kid) (size / 64 + 2) (pa + p.1) p.2 t) s1
  if bits pte 7 6 = 2 then
    let d := s2.dev.mapCopy (pa / 65536) sz ((s.dev.block b).get fSdom) (s.dev.expected b va size) (b, va) true
    State.copyHere { s2 with dev := if mask = 0 then d else d.placePage (pa / 65536) sz.toNat mask } (pa / 65536) size
  else s2.relist agPilot b va size (setBits pte 9 9 0)

/-- The pages that stay absent with a page whose fetch has failed: those that map the same copy, or the page alone (R85). -/
def Device.absentWith (d : Device) (b va : Nat) : List (Nat × Nat) :=
  match d.walk b va with
  | .leaf _ p =>
    match (if bits p 7 6 = 2 then mfind d.tab.copies (ptePa p / 65536) else none) with
    | some c => (b, va) :: c.maps.filter (· != (b, va))
    | none => [(b, va)]
  | .invalid => [(b, va)]

/-- The pages of a fetch that failed twice listed as absent, and the tasks parked there taken to rung 3 in every binding
(R463); the flag says that there was one. -/
def Device.losePages (d : Device) (seq : Word) : List (Nat × Nat) → Device × Bool
  | [] => (d, false)
  | p :: r =>
    let x := (d.dropFetch p.1 p.2 1).updTab fun t =>
      { t with fetches := t.fetches ++ [{ blk := p.1, va := p.2, failed := some seq }] }
    let y := x.unpark p.1 p.2 cERRASYNC seq
    let z := y.1.losePages seq r
    (z.1, y.2 || z.2)

/-- A fetch that failed twice (R463): the Pilot's record, of rung 3 where a task was parked on the page, and what follows. -/
def Device.fetchLost (d : Device) (b va cls : Nat) : Device :=
  let pages := d.absentWith b va
  let hit := (d.losePages d.nextSeq pages).2
  ((d.postBlock cls (if hit then 3 else 0) b agPilot (if hit then cERRASYNC else 0) 0).losePages d.nextSeq pages).1

/-- A fetch that failed: repeated once, from flash, and then lost (R463). -/
def Device.fetchMissed (d : Device) (f : Fetch) (cls : Nat) : Device :=
  if f.again then d.fetchLost f.blk f.va cls
  else
    let mark (x : Fetch) : Fetch := if x.blk = f.blk ∧ x.va = f.va then { x with again := true } else x
    d.updTab fun t => { t with fetches := t.fetches.map mark }

/-- What a fetch's end does to its absent page (R345, R463): a shared-weight page is taken only with its digests, from a peer
while the fetch has not failed, and into a page that holds no other copy (R85); every other page's contents are those of its
image. -/
def State.fetched (s : State) (f : Fetch) (sz : BitVec 2) (pte : Word) (res : FetchResult) : Option State :=
  let base := pageBase sz f.va
  let size := 2 ^ winShift sz
  let weights := decide (bits pte 7 6 = 2)
  let parts := (s.dev.imageOf f.blk).contents base size
  let fits := !weights || s.dev.copyFits (ptePa pte / 65536) sz ((s.dev.block f.blk).get fSdom) (s.dev.expected f.blk base size)
  let matches_ (ps : List (Nat × List Byte)) : Bool :=
    pageDigests size (partBytes size ps) == s.dev.expected f.blk base size
  let fail (cls : Nat) : State := { s with dev := s.dev.fetchMissed f cls }
  if !fits || s.dev.mm.retires f.blk base then none
  else match res with
  | .peer bytes =>
    if weights ∧ !f.again then
      some (if matches_ [(0, bytes)] then s.placePage f.blk base sz pte [(0, bytes.take size)] else fail 3)
    else none
  | .peerFailed => if weights ∧ !f.again then some (fail 6) else none
  | .flash => some (if !weights || matches_ parts then s.placePage f.blk base sz pte parts else fail 3)
  | .flashFailed => some (fail 6)
  | .flashBad => if weights then some (fail 3) else none

/-- `PILOT_FETCH_COMPLETE` (R345, R463): a fetch in flight ends, and the next ones start. -/
def execPilotFetchComplete (blk va : Nat) (res : FetchResult) (s : State) : Host.Outcome State Fault Refusal :=
  let d := s.dev.startFetches 64
  s.event (do
    let f ← d.tab.fetches.find? fun f => f.blk == blk && f.va == va && f.started && f.failed.isNone
    let t ← match d.walk blk va with
      | .invalid => none
      | .leaf sz pte =>
        if pte.getLsbD 9 then State.fetched { s with dev := d } f sz pte res
        else some { s with dev := d.dropFetch blk va 1 }
    some { t with dev := t.dev.startFetches 64 })

/-! ## Quarantine of copies (R85, R99) -/

/-- The wait of a new head noted. -/
def Mm.headWait (m : Mm) (cycle : Nat) : Mm :=
  match m.ring with
  | (p, st, none) :: r => { m with ring := (p, st, some cycle) :: r }
  | _ => m

/-- An entry of the quarantine ring written to memory (R101): 16 bytes, of which the manual does not give the form; the page
word comes first (log entry 69). -/
def Device.ringWrite (d : Device) (page st : Word) : Device :=
  let pa := d.mm.qqbase.toNat + 16 * ((d.mm.head.toNat + d.mm.ring.length) % 16384)
  if isLocal pa then (d.rekey (pa / 64) 0).poke pa (toBytes page.toNat 8 ++ toBytes st.toNat 8) else d

/-- A page pushed onto the quarantine ring with a free stamp (R99); where the ring is full, the record, and the page kept by
the firmware, which pushes it again once `cnt` falls (R446). -/
def Device.quarantine (d : Device) (page fs : Word) : Device :=
  if d.mm.ring.length ≥ 16384 then
    let x := d.postDev 5 0 agMemory page
    { x with mm := { x.mm with unpushed := x.mm.unpushed ++ [(page, fs)] } }
  else
    let st := word (Nat.max fs.toNat d.mm.lastAck)
    let d1 := d.ringWrite page st
    let m := { d1.mm with ring := d1.mm.ring ++ [(page, st, none)] }
    { d1 with mm := if d1.mm.ring.isEmpty then m.headWait d.cycle else m }

/-- Copies that no page maps freed through the quarantine, and no longer in weight SRAM (R80, R85). -/
def Device.purge (d : Device) : Device :=
  let dead := d.tab.copies.filter fun e => e.2.maps.isEmpty
  dead.foldl (fun x e => (x.unplaced (e.1 * 65536) (2 ^ winShift e.2.sz)).quarantine (word (e.1 * 65536 + e.2.sz.toNat)) 0)
    (d.updCopies fun m => m.filter fun e => !e.2.maps.isEmpty)

/-! ## The firmware's answer (R85, R444) -/

/-- A leaf installed by the memory-management firmware at an address of its table (R85, R444): a shared-weight page is mapped
to the copy that its sharing domain holds of the same contents, or makes a new one. -/
def State.installLeaf (s : State) (b va : Nat) (sz : BitVec 2) (p : Word) : State :=
  let base := pageBase sz va
  let size := 2 ^ winShift sz
  let d := s.dev.unmap (· == (b, base))
  let sdom := (d.block b).get fSdom
  if bits p 7 6 = 2 then
    let ds := d.expected b base size
    let t := match d.copyOfDigests sz sdom ds with
      | some (page, c) =>
        State.relist { s with dev := d.mapCopy page sz sdom ds (b, base) false } agMemory b base size
          (setBits (setBits p 51 12 (page * 16)) 9 9 (b2n !c.here))
      | none =>
        let d1 := d.mapCopy (ptePa p / 65536) sz sdom ds (b, base) (!p.getLsbD 9)
        { s with dev := (d1.dropFetch b base size).reported b base size }
    { t with dev := t.dev.purge }
  else { s with dev := ((d.dropFetch b base size).reported b base size).purge }

/-- The record of an address that the firmware has declared unmappable (R444). -/
def Device.unmappable (d : Device) (b va : Nat) : Device :=
  d.post { cls := 4, rung := 3, agent := BitVec.ofNat 16 agMemory, cause := cNOMAP, va := some (BitVec.ofNat 57 va), mctx := d.who b }

/-- Whether a granule is on the bad-page list (R411). -/
def Device.badGranule (d : Device) (g : Nat) : Bool := d.flash.bad.any fun e => bits e 51 16 == g

/-- Whether some granule of a page is on the bad-page list: the firmware allocates no such page (R411). -/
def Device.badIn (d : Device) (pa size : Nat) : Bool :=
  d.flash.bad.any fun e => decide (pa ≤ bits e 51 16 * 65536 ∧ bits e 51 16 * 65536 < pa + size)

/-- Whether the firmware installs a leaf (R85, R411): on no bad granule, and on no page that holds another copy. -/
def Device.installable (d : Device) (b va : Nat) (sz : BitVec 2) (p : Word) : Bool :=
  let size := 2 ^ winShift sz
  !(isLocal (ptePa p) && d.badIn (ptePa p) size) &&
    (bits p 7 6 != 2 || d.copyFits (ptePa p / 65536) sz ((d.block b).get fSdom) (d.expected b (pageBase sz va) size))

/-- `FIRMWARE_LEAF_ANSWER` (R444): a page-table entry written at its address, or the address declared unmappable. -/
def execFirmwareLeafAnswer (blk va : Nat) (leaf : Option (Nat × BitVec 64)) (s : State) :
    Host.Outcome State Fault Refusal :=
  match leaf with
  | some (pa, pte) =>
    s.event (
      let t := s.agentPut agMemory pa (toBytes pte.toNat 8)
      let ok := isLocal pa && pa % 8 == 0
      match t.dev.walk blk va with
      | .leaf sz p => guardOpt (ok && t.dev.installable blk va sz p) (t.installLeaf blk va sz p)
      | .invalid => guardOpt ok t)
  | none =>
    s.devEvent (
      match s.dev.walk blk va with
      | .leaf _ _ => none
      | .invalid =>
        match (s.dev.unmappable blk va).unpark blk va cNOMAP (va57 va) with
        | (d, true) => some d
        | (_, false) =>
          if (s.dev.binding blk).isSome then some ((s.dev.unmappable blk va).kQueue blk cNOMAP (va57 va) none) else none)

/-- `FIRMWARE_MEMORY_WRITE` (R482): what would be short waits for the version heap, line by line (R455). -/
def execFirmwareMemoryWrite (agent pa : Nat) (bytes : List (BitVec 8)) (s : State) : Host.Outcome State Fault Refusal :=
  if isRemote pa ∨ bytes.isEmpty ∨ agent < 0x0910 ∨ 0x0917 < agent then .next { s with last := .ignored }
  else if !isLocal pa ∨ !isLocal (pa + bytes.length - 1) then .fault .reservedPhysical
  else s.event (some (s.agentPut agent pa bytes))

/-- Whether a physical page of a size holds a copy of a shared-weight page (R22, R85). -/
def Device.weightPage (d : Device) (page size : Nat) : Bool :=
  match mfind d.tab.copies page with
  | some c => c.sz.toNat == size && c.here
  | none => false

/-- `WEIGHT_SRAM_PLACEMENT` (R14, R22, R80): a shared-weight page, by PA[51:16] and size code, copied into the SRAM of stacks
that have room for it, by the firmware or by a copy engine in system mode (log entry 119). -/
def execWeightSramPlacement (page size : Nat) (mask : BitVec 4) (s : State) : Host.Outcome State Fault Refusal :=
  let bytes := 2 ^ winShift (BitVec.ofNat 2 size)
  let new (st : Nat) : Bool := mask.getLsbD st && !(s.dev.placedMask page size).getLsbD st
  let room := (List.range 4).all fun st => !new st || decide (s.dev.sramUsed st + bytes ≤ sramSize)
  s.devEvent (guardOpt (decide (size < 4 ∧ page * 65536 % bytes = 0) && isLocal (page * 65536) &&
      s.dev.weightPage page size && room && !(s.dev.lines.any fun l => decide (page * 1024 ≤ l.1 ∧ l.1 < page * 1024 + bytes / 64) && l.2.poison))
    (s.dev.placePage page size mask))

/-! ## Shoot-downs (R97, R445) -/

/-- Window entries that lie on some pages marked absent, and the unpinned running tasks of the binding aborted (R97,
steps 1 and 2). -/
def Device.shootWindow (d : Device) (b : Nat) (hit : WinEnt → Bool) : Device :=
  match d.binding b with
  | none => d
  | some k =>
    let mark (e : WinEnt) : WinEnt := if hit e then { e with ab := true } else e
    let d1 := d.setBinding b { k with win := k.win.map mark }
    k.agents.foldl (fun x a =>
      match (x.ctx a).task with
      | some t => if t.pin != .firm && t.blk == b then x.abortTask a cSHOOT 0 else x
      | none => x) d1

/-- What a shoot-down waits for (R97, steps 3 and 4): the pinned running tasks and the operations issued before it. -/
def Device.shootWaits (d : Device) (b q : Nat) : Shoot :=
  let agents := match d.binding b with | some k => k.agents | none => []
  { since := d.cycle, q := q
    pins := agents.filterMap fun a => (d.ctx a).task.map fun t => (a, t.snapS)
    ops := (d.ops.filter fun o => o.blk == b).map fun o => (o.agent, o.e, o.num) }

/-- The entry of a window that begins nearest above an address. -/
def nextStart (win : List WinEnt) (va : Nat) : Option Nat :=
  ((win.map fun e => e.vpn.toNat * 65536).filter fun a => decide (va < a)).foldl
    (fun b a => some (match b with | some x => Nat.min x a | none => a)) none

/-- The virtual addresses of window entries that a shoot-down of `n` pages covers (R97): from the page that holds its
address, as many pages of the window, or of 64 KiB where the window holds none. `fuel` counts the entries and the gaps
before them. -/
def shootSpan (win : List WinEnt) : Nat → Nat → Nat → List Nat
  | 0, _, _ => []
  | _ + 1, 0, _ => []
  | fuel + 1, n + 1, va =>
    match findEnt win (va57 va) with
    | some e => va :: shootSpan win fuel n (e.vpn.toNat * 65536 + 2 ^ winShift e.sz)
    | none =>
      match nextStart win va with
      | none => []
      | some a =>
        let gap := ceilDiv (a - va) 65536
        if n + 1 ≤ gap then [] else shootSpan win fuel (n + 1 - gap) (va + 65536 * gap)

/-- The shoot-down of `n` pages from an address of a bound block begun (R97), by the command of queue `q`. -/
def Device.beginShoot (d : Device) (b q va n : Nat) : Device :=
  let win := d.window b
  let vas := shootSpan win (2 * win.length + 1) n va
  let x := d.shootWindow b fun e => vas.any fun va => e.holds (va57 va)
  x.updBinding b fun k => { k with shoots := k.shoots ++ [x.shootWaits b q] }

/-- Whether what a shoot-down waits for has ended. -/
def Device.shootDone (d : Device) (h : Shoot) : Bool :=
  h.pins.all (fun p => match (d.ctx p.1).task with | some t => t.snapS != p.2 | none => true) &&
    h.ops.all fun p => !(d.ops.any fun o => o.is p.1 p.2.1 p.2.2)

/-- A stamp taken for an acknowledgement (R97, R446). -/
def State.ackStamp (s : State) : State × Nat :=
  let (s1, st) := s.masterStamp
  ({ s1 with dev := { s1.dev with mm := { s1.dev.mm with lastAck := Nat.max s1.dev.mm.lastAck st } } }, st)

/-- Whether a pending command is a shoot-down of block `b` that this device acknowledges: its own, one that a migration's
abort has left with it, or one that a source has forwarded (R445). -/
def PendKind.shootsAt (k : PendKind) (b : Nat) : Bool :=
  match k with
  | .shoot x => x == b
  | .heldShoot x _ _ => x == b
  | .farShoot _ _ x => x == b
  | _ => false

/-- A shoot-down acknowledged with its stamp: by its completion, or to the source that forwarded it (R445). -/
def State.endShootdown (s : State) (p : Pending) (st : Nat) : State :=
  match p.kind with
  | .farShoot dev src _ =>
    { s with dev := (s.dev.updOut fun o => { o with pend := o.pend.filter fun x => !decide (x = p) }).send (.shootAck dev src st) }
  | _ => s.finishPend p 0 (word st)

/-- `SHOOTDOWN_ACK` (R97, R445): of a block that is bound, once its wait is over; of one that is not, at once, unless it is
MIGRATING. -/
def execShootdownAck (blk : Nat) (s : State) : Host.Outcome State Fault Refusal :=
  s.event (do
    let p ← s.dev.out.pend.find? fun p => p.kind.shootsAt blk
    let over_ := match s.dev.binding blk with
      | none => s.dev.mstate blk != sMigrating
      | some k => match k.shoots.find? fun h => h.q == p.q with | some h => s.dev.shootDone h | none => true
    let (s1, st) := s.ackStamp
    let d := s1.dev.updBinding blk fun k => { k with shoots := k.shoots.filter fun h => h.q != p.q }
    guardOpt over_ (State.endShootdown { s1 with dev := d } p st))

/-- A forwarded shoot-down taken up at a migration's destination (R445): begun on the block, which has to be bound for its
window to hold anything, and then acknowledged to source block `src` of device `dev`. -/
def Device.farShootdown (d : Device) (dev src b va n : Nat) : Device :=
  let q := d.out.pend.foldl (fun m p => Nat.max m (p.q + 1)) 32769
  let p : Pending := { q := q, seq := 0, type := 0x18, cpl := false, kind := .farShoot dev src b }
  (if (d.binding b).isSome then d.beginShoot b q va n else d).updOut fun o => { o with pend := o.pend ++ [p] }

/-- The destination's acknowledgement of a forwarded shoot-down of old block `src`, with its stamp (R445): the command
completes with it. -/
def State.shootAcked (s : State) (src st : Nat) : Option State := do
  let p ← s.dev.out.pend.find? fun p => p.kind == .sentShoot src
  let m := s.dev.mm
  pure (State.finishPend { s with dev := { s.dev with mm := { m with lastAck := Nat.max m.lastAck st } } } p 0 (word st))

/-- `SHOOTDOWN_TIMEOUT` (R445): the binding is pre-empted under the save policy. -/
def execShootdownTimeout (blk : Nat) (s : State) : Host.Outcome State Fault Refusal :=
  s.devEvent (do
    let k ← s.dev.binding blk
    guardOpt (k.preempt.isNone && k.shoots.any fun h => decide (h.since + cyclesMs 10 ≤ s.dev.cycle) && !s.dev.shootDone h)
      (s.dev.requestPreempt blk true false))

/-! ## Quarantine and pending clear (R98 to R101, R446, R450) -/

/-- `QQFS_WRITE` (R101, R446). -/
def execQqfsWrite (v : BitVec 64) (s : State) : Host.Outcome State Fault Refusal :=
  s.devEvent (some (s.dev.quarantine s.dev.mm.qqpg v))

/-- A page pending clear (R100, R448): its lines and L2 copies discarded, and every byte zero but those of bad granules,
which are withheld. -/
def Device.pendingClear (d : Device) (page : Word) : Device :=
  let g := bits page 51 16
  let sz := bits page 1 0
  let d1 := d.wipe (g * 65536) (2 ^ winShift (BitVec.ofNat 2 sz)) fun a => d.badGranule (a / 65536)
  { d1 with mm := { d1.mm with clearing := mset d1.mm.clearing g sz } }

/-- The head of the quarantine ring gone: its page pending clear, and reported on the firmware's free notification (R99);
the first page that the firmware keeps for want of room is pushed again (R446). -/
def Device.releaseHead (d : Device) (page : Word) (rest : List (Word × Word × Option Nat)) : Device :=
  let m := { d.mm with ring := rest, head := d.mm.head + 1, unpushed := d.mm.unpushed.drop 1 }
  let d1 := ({ d with mm := m.headWait d.cycle }.pendingClear page).send (.pageFreed page)
  match d.mm.unpushed with
  | p :: _ => d1.quarantine p.1 p.2
  | [] => d1

/-- `QUARANTINE_RELEASE` (R99): the head leaves once `qsc` exceeds its free stamp; versions of its lines no longer hold up
writes (R100, R482). -/
def execQuarantineRelease (s : State) : Host.Outcome State Fault Refusal :=
  s.event (
    match s.dev.mm.ring with
    | [] => none
    | (page, st, _) :: r =>
      let d := s.dev.noteQsc
      guardOpt (decide (st.toNat < d.qsc)) (State.retried { s with dev := d.releaseHead page r }))

/-- `QUARANTINE_HEAD_TIMEOUT` (R446). -/
def execQuarantineHeadTimeout (s : State) : Host.Outcome State Fault Refusal :=
  s.devEvent (
    match s.dev.mm.ring with
    | (page, st, some t) :: r =>
      let d : Device := { s.dev with mm := { s.dev.mm with ring := (page, st, none) :: r } }
      guardOpt (decide (t + cyclesMs 10 < s.dev.cycle)) (d.postDev 7 0 agMemory st)
    | _ => none)

/-- `PENDING_CLEAR_DONE` (R100): by PA[51:16] of the page. -/
def execPendingClearDone (page : Nat) (s : State) : Host.Outcome State Fault Refusal :=
  s.devEvent ((mfind s.dev.mm.clearing page).map fun _ =>
    { s.dev with mm := { s.dev.mm with clearing := mdel s.dev.mm.clearing page } })

/-! ## The Dredge and the version heap (R149, R455) -/

/-- `DREDGE_RECLAIM` (R149): a line's versions and pre-images that nothing needs are freed; tasks of the tenant that wait
for an entry hear of it, and writes that wait are made as far as the heap takes them (R482). -/
def execDredgeReclaim (line : Nat) (s : State) : Host.Outcome State Fault Refusal :=
  let l := s.dev.line line
  let l1 := s.dev.dredged l
  let hear (b : Nat) (k : Binding) : Binding :=
    if (s.dev.block b).get fTenant = l.tenant then
      { k with parked := k.parked.map fun p => if p.va.isNone then { p with freed := true } else p }
    else k
  s.event (guardOpt (decide (l1.held < l.held))
    (State.retried { s with dev := (s.dev.reclaim line).updTab fun t =>
      { t with bindings := t.bindings.map fun e => (e.1, hear e.1 e.2) } }))

/-- `VHEAP_PARK_RELEASE` (R455): the oldest task of the block that waits for the heap. -/
def execVheapParkRelease (blk : Nat) (s : State) : Host.Outcome State Fault Refusal :=
  s.devEvent (do
    let k ← s.dev.binding blk
    let r ← takeFirst (fun p : Parked => p.va.isNone) k.parked
    guardOpt (r.1.freed || decide (r.1.since + cyclesMs 1 ≤ s.dev.cycle))
      ((s.dev.setBinding blk { k with parked := r.2 }).enqueue r.1.ent))

/-! ## Page retirement (R448, R449) -/

/-- The leaves that map the page holding a granule, each once. -/
def Device.mappings (d : Device) (g : Nat) : List Mapping :=
  let of (b va : Nat) : Option Mapping :=
    match d.walk b va with
    | .leaf sz p =>
      if ptePa p ≤ g * 65536 ∧ g * 65536 < ptePa p + 2 ^ winShift sz then some ⟨b, pageBase sz va, sz, p⟩ else none
    | .invalid => none
  let all := d.liveBlocks.flatMap fun b => (d.declared b).filterMap (of b)
  all.foldl (fun l m => if l.contains m then l else l ++ [m]) []

/-- Whether a block's page tables use a granule (R86). -/
def Device.tablesIn (d : Device) (b g : Nat) : Bool :=
  let root := (d.block b).get fPtroot * 4096
  root / 65536 == g || (d.declared b).any fun va =>
    (d.walkPath va 4 root).any fun e => e.2.getLsbD 0 && e.2.getLsbD 1 && ptePa e.2 / 65536 == g

/-- `size` bytes copied from one local page to another with their lines' records, versions and pre-images, poison
included; the old page's lines have no records left. -/
def Device.copyPage (d : Device) (old fresh size : Nat) : Device :=
  let d1 := d.wipe fresh size fun _ => false
  let in_ (a : Nat) : Bool := decide (old ≤ a ∧ a < old + size)
  let mem := (d1.mem.filter fun c => in_ c.1).foldl (fun m c => mput 0 m (c.1 - old + fresh) c.2) d1.mem
  let moved := (d1.lines.filter fun e => in_ (e.1 * 64)).foldl (fun m e => mset m (e.1 - old / 64 + fresh / 64) e.2) d1.lines
  { d1 with mem := mem, lines := moved.filter fun e => !in_ (e.1 * 64) }

/-- Whether some line of a page is poisoned. -/
def Device.anyPoison (d : Device) (pa size : Nat) : Bool :=
  d.lines.any fun e => e.2.poison && decide (pa ≤ e.1 * 64 ∧ e.1 * 64 < pa + size)

/-- A block's request queue and save area: each field with its unit, base address and length in bytes. -/
def Block.areas (m : Block) : List (Fld × Nat × Nat × Nat) :=
  [(fQbase, 64, m.get fQbase * 64, 64 * 2 ^ m.get fQlog), (fSavea, 65536, m.get fSavea * 65536, m.get fSavelen * 65536)].filter
    fun x => decide (0 < x.2.2.1 ∧ 0 < x.2.2.2)

/-- The queues and save areas of a block that touch a page, by base address and length. -/
def Block.ownedIn (m : Block) (pa size : Nat) : List (Nat × Nat) :=
  (m.areas.filter fun x => decide (x.2.2.1 < pa + size ∧ pa < x.2.2.1 + x.2.2.2)).map fun x => x.2.2

/-- Whether a block's queue or save area touches a page. -/
def Block.ownsIn (m : Block) (pa size : Nat) : Bool := !(m.ownedIn pa size).isEmpty

/-- The blocks of which a queue or save area touches a page. -/
def Device.ownersIn (d : Device) (pa size : Nat) : List Nat := d.liveBlocks.filter fun b => (d.block b).ownsIn pa size

/-- A block's queue and save area, where they begin in an old range, at the same place in the fresh one. -/
def Block.repoint (m : Block) (old fresh size : Nat) : Block :=
  m.areas.foldl (fun x a =>
    if old ≤ a.2.2.1 ∧ a.2.2.1 < old + size then x.set a.1 ((a.2.2.1 - old + fresh) / a.2.1) else x) m

/-- A leaf with its page's address replaced (R87). -/
def pteAt (e : Word) (pa : Nat) : Word := setBits e 51 12 (pa / 4096)

/-- The leaf of a mapping written by the firmware. -/
def State.putLeaf (s : State) (m : Mapping) (pte : Word) : State :=
  s.agentPut agMemory (s.dev.leafAddr m.blk m.va) (toBytes pte.toNat 8)

/-- The number that stands for the retirement's own shoot-downs among those of the queues, none of which bears it. -/
def retireQ : Nat := 32768

/-- The shoot-down of a mapping within a retirement begun (R97, R448), with what it waits for. -/
def Device.shootMapping (d : Device) (m : Mapping) : Device :=
  let size := 2 ^ winShift m.sz
  let hit (e : WinEnt) : Bool := decide (m.va ≤ e.vpn.toNat * 65536 ∧ e.vpn.toNat * 65536 < m.va + size)
  let x := d.shootWindow m.blk hit
  let w := x.shootWaits m.blk retireQ
  x.updBinding m.blk fun k => { k with shoots := k.shoots ++ [w] }

/-- Whether the retirement's shoot-downs of a block are over: what they wait for has ended, or the block is not bound. -/
def Device.shotDown (d : Device) (m : Mapping) : Bool :=
  match d.binding m.blk with
  | some k => k.shoots.all fun h => h.q != retireQ || d.shootDone h
  | none => true

/-- A block without the retirement's shoot-downs. -/
def Device.endShoot (d : Device) (m : Mapping) : Device :=
  d.updBinding m.blk fun k => { k with shoots := k.shoots.filter fun h => h.q != retireQ }

/-- The copy at one physical page moved to another, to be fetched again (R85, R448): the retirement of granule `g` ends with
that fetch, or at once where nothing is listed to fetch. -/
def Device.moveCopy (d : Device) (g old fresh : Nat) : Device :=
  match mfind d.tab.copies old with
  | some c =>
    (d.unplaced (old * 65536) (2 ^ winShift c.sz)).updCopies fun m => mset (mdel m old) fresh { c with here := false, retire := some g }
  | none => d.retired g 3

/-- A block that is not bound SUSPENDED, from a state in which a suspend command finds it (R37). -/
def Device.suspendIdle (d : Device) (b : Nat) : Device :=
  let st := d.mstate b
  if st = sIdle ∨ st = sQueued ∨ st = sPreempted then d.setMstate b sSuspended else d

/-- A SUSPENDED block resumed (R37). -/
def Device.resumed (d : Device) (b : Nat) : Device :=
  let m := d.block b
  d.setMstate b (if m.saved.isSome || !m.recs.isEmpty then sQueued else sIdle)

/-- The blocks that a retirement waits for SUSPENDED until it ends (R448): a bound one is pre-empted first, as a suspend does
(R37). -/
def Device.holdOwners (d : Device) (owners : List Nat) : Device :=
  let hold (x : Device) (b : Nat) : Device :=
    (x.requestPreempt b ((x.block b).get fPol == 1) true).suspendIdle b
  let mine := owners.filter fun b => d.mstate b != sSuspended
  let d1 := (mine.foldl hold d).noteCandidates
  { d1 with mm := { d1.mm with retiring := uniq (d1.mm.retiring ++ mine) } }

/-- The blocks that a retirement had SUSPENDED resumed (R37, R448). -/
def Device.freeOwners (d : Device) : Device :=
  let back (x : Device) (b : Nat) : Device := if x.mstate b = sSuspended ∧ !x.retiredImage b then x.resumed b else x
  ({ d.mm.retiring.foldl back d with mm := { d.mm with retiring := [] } } : Device).noteCandidates

/-- The retirement under way no longer so, and its owners resumed. -/
def Device.endRetire (d : Device) (r : Retire) : Device :=
  let d1 := r.maps.foldl Device.endShoot d
  ({ d1 with mm := { d1.mm with retire := none } } : Device).freeOwners

/-- Whether a granule begins a page that can take the place of one at `old` (R411, R448): local, aligned, on no bad granule,
and apart from it. -/
def Device.freshPage (d : Device) (fresh old size align : Nat) : Bool :=
  let pa := fresh * 65536
  decide (pa % align = 0 ∧ (pa + size ≤ old ∨ old + size ≤ pa)) && isLocal pa && isLocal (pa + size - 1) && !d.badIn pa size

/-- The retirement of a mapped page begun (R448): its leaves carry `ab` = 1 and are shot down, and the blocks whose queue or
save area lies there are SUSPENDED. -/
def State.beginMapped (s : State) (g fresh : Nat) (ms : List Mapping) (m : Mapping) : Option State :=
  let size := 2 ^ winShift m.sz
  let old := ptePa m.pte
  let owners := s.dev.ownersIn old size
  let t := ms.foldl (fun t m => t.putLeaf m (setBits m.pte 9 9 1)) s
  let r : Retire := { gran := g, fresh := fresh, maps := ms, areas := owners.flatMap fun b => (s.dev.block b).ownedIn old size }
  let d := (ms.foldl Device.shootMapping t.dev).holdOwners owners
  guardOpt (s.dev.freshPage fresh old size size && !(ms.any fun m => s.dev.mstate m.blk == sMigrating))
    { t with dev := { d with mm := { d.mm with retire := some r } } }

/-- The retirement of a mapped page ended, once its shoot-downs are over and its owners are not bound (R448): the page
copied with its versions, its leaf naming the new page, and the old page in quarantine; or, for shared weights, every
mapping pointed at a new copy, which is fetched. -/
def State.endMapped (s : State) (r : Retire) (m : Mapping) : Option State :=
  let size := 2 ^ winShift m.sz
  let old := ptePa m.pte
  let owners := s.dev.ownersIn old size
  let (s1, _) := s.ackStamp
  let page := word (old + m.sz.toNat)
  let move (t : State) (ab : Nat) : State := r.maps.foldl (fun t m => t.putLeaf m (setBits (pteAt m.pte (r.fresh * 65536)) 9 9 ab)) t
  let over_ := r.maps.all s.dev.shotDown && owners.all fun b => (s.dev.binding b).isNone
  guardOpt over_ (
    if bits m.pte 7 6 = 2 then
      let t := move s1 1
      let ask (x : Device) (m : Mapping) : Device := if (x.binding m.blk).isSome then x.requestFetch m.blk m.va else x
      let d := (t.dev.moveCopy r.gran (old / 65536) r.fresh).endRetire r
      { t with dev := (r.maps.foldl ask d).quarantine page 0 }
    else
      let bad := s1.dev.anyPoison old size
      let d1 := owners.foldl (fun x b => x.updBlock b fun k => k.repoint old (r.fresh * 65536) size)
        (s1.dev.copyPage old (r.fresh * 65536) size)
      let t := move { s1 with dev := d1 } 0
      let d2 := r.maps.foldl (fun x m => x.reported m.blk m.va size) (t.dev.endRetire r)
      { t with dev := (d2.quarantine page 0).retired r.gran (if bad then 2 else 1) })

/-- The entries of a block's page tables, and its root, that name a granule made to name the fresh one (R444, R448). -/
def State.retable (s : State) (b g fresh : Nat) : State :=
  let at_ (pa : Nat) : Nat := if pa / 65536 = g then fresh * 65536 + pa % 65536 else pa
  let root := (s.dev.block b).get fPtroot * 4096
  let s1 : State := { s with dev := s.dev.updBlock b fun m => m.set fPtroot (at_ root / 4096) }
  let fix (t : State) (e : Nat × Word) : State :=
    if e.2.getLsbD 0 ∧ e.2.getLsbD 1 ∧ ptePa e.2 / 65536 = g then
      t.agentPut agMemory (at_ e.1) (toBytes (pteAt e.2 (at_ (ptePa e.2))).toNat 8)
    else t
  ((s.dev.declared b).flatMap fun va => s.dev.walkPath va 4 root).foldl fix s1

/-- A page of tables retired (R444, R448): the firmware writes it from its own records into a fresh page and repoints what
names it. -/
def State.retireTable (s : State) (g fresh : Nat) (tabled : List Nat) : State :=
  let old := g * 65536
  let put := State.agentPut { s with dev := s.dev.wipe (fresh * 65536) 65536 fun _ => false } agMemory (fresh * 65536)
    (rdBytes s.dev.mem old 65536)
  let t := tabled.foldl (fun t b => t.retable b g fresh) put
  { t with dev := (t.dev.quarantine (word old) 0).retired g 1 }

/-- The lowest address of some areas, and the end of the last. -/
def areaBox (xs : List (Nat × Nat)) : Nat × Nat :=
  match xs with
  | [] => (0, 0)
  | x :: r => r.foldl (fun b y => (Nat.min b.1 y.1, Nat.max b.2 (y.1 + y.2))) (x.1, x.1 + x.2)

/-- The retirement of a granule that queues or save areas touch begun (R448): their blocks SUSPENDED, a bound one pre-empted
first. -/
def State.beginAreas (s : State) (g fresh : Nat) (owners : List Nat) : Option State :=
  let xs := owners.flatMap fun b => (s.dev.block b).ownedIn (g * 65536) 65536
  let box := areaBox xs
  let d := s.dev.holdOwners owners
  guardOpt (s.dev.freshPage fresh (box.1 / 65536 * 65536) (ceilDiv box.2 65536 * 65536 - box.1 / 65536 * 65536) 65536)
    { s with dev := { d with mm := { d.mm with retire := some { gran := g, fresh := fresh, areas := xs } } } }

/-- The retirement of such a granule ended, once no owner is bound (R448): each queue or save area copied whole, its block
pointed at the copy, and the granule in quarantine. -/
def State.endAreas (s : State) (r : Retire) : Option State :=
  let old := r.gran * 65536
  let owners := s.dev.ownersIn old 65536
  let lo := (areaBox r.areas).1 / 65536 * 65536
  let bad := r.areas.any fun x => s.dev.anyPoison x.1 x.2
  let move (d : Device) (x : Nat × Nat) : Device :=
    let to_ := r.fresh * 65536 + (x.1 - lo)
    owners.foldl (fun y b => y.updBlock b fun k => k.repoint x.1 to_ 1) (d.copyPage x.1 to_ x.2)
  let d := r.areas.foldl move s.dev
  guardOpt (owners.all fun b => (s.dev.binding b).isNone)
    { s with dev := ((d.quarantine (word old) 0).endRetire r).retired r.gran (if bad then 2 else 1) }

/-- What retires a granule whose bad-page entry has just reached flash (R448): it begins, or is over at once for a granule
that is free, in quarantine, a page of tables, or of the version heap, whose entries are no bytes of memory here (log entry
74). -/
def State.beginRetire (s : State) (g fresh : Nat) : Option State :=
  match s.dev.mappings g with
  | m :: ms => s.beginMapped g fresh (m :: ms) m
  | [] =>
    let tabled := s.dev.liveBlocks.filter fun b => s.dev.tablesIn b g
    let owners := s.dev.ownersIn (g * 65536) 65536
    if !tabled.isEmpty then guardOpt (s.dev.freshPage fresh (g * 65536) 65536 65536) (s.retireTable g fresh tabled)
    else if !owners.isEmpty then s.beginAreas g fresh owners
    else some { s with dev := s.dev.retired g (if s.dev.mm.heapHolds g then 1 else 4) }

/-- `PAGE_RETIREMENT` (R411, R448, R449): the oldest bad-page entry that was on its way has reached flash, and the
retirement of the page of its granule begins; or the retirement under way ends. `fresh` is the granule at which the page
that takes its place begins. -/
def execPageRetirement (gran fresh : Nat) (s : State) : Host.Outcome State Fault Refusal :=
  s.event (
    match s.dev.mm.retire, s.dev.flash.bpBusy with
    | some r, _ =>
      if r.gran ≠ gran ∨ r.fresh ≠ fresh then none
      else match r.maps with
        | m :: _ => s.endMapped r m
        | [] => s.endAreas r
    | none, e :: l =>
      let f := { s.dev.flash with bad := s.dev.flash.bad ++ [e], bpBusy := l }
      if bits e 51 16 == gran then State.beginRetire { s with dev := { s.dev with flash := f } } gran fresh else none
    | none, [] => none)

end Sys2Proof.Machine
end

