-- ==== Sys2Proof/Machine/Drain.lean ====
section
/-! DEFINITION. Drains and checkpoints (R147, R148, R363, R457, R458): what a drain writes to the flash tier, its root
record, and the checkpoint that a reset finds. -/

namespace Sys2Proof

/-- The bytes of a manifest, which lists every page of a checkpoint (R147): no manual gives their form. -/
opaque Config.manifestBytes (pages : List Machine.CkptPage) : List Byte

end Sys2Proof

namespace Sys2Proof.Machine

/-! ## Root blocks in flash (R148, R458) -/

/-- The first 16 bytes of a manifest's digest, the first lowest. -/
def manifestDigest (m : List Byte) : Nat := ofBytes ((sha384 m).take 16)

/-- The checkpoint whose root a side of a block holds. -/
def Flash.ckpt (f : Flash) (b side : Nat) : Ckpt := mget {} f.ckpts (2 * b + side)

/-- The root record of a side of a block when it is valid (R458): its magic and version, and the digest of its manifest. -/
def Flash.validRoot (f : Flash) (b side : Nat) : Option (BitVec 512) :=
  (mfind f.roots (2 * b + side)).filter fun r =>
    bits (r.extractLsb' 0 64) 63 16 == 0x53524D520001 && (r.extractLsb' 384 128).toNat == manifestDigest (f.ckpt b side).manifest

/-- The drain sequence number of a side's committed drain. -/
def Flash.dseq (f : Flash) (b side : Nat) : Option Word32 := (f.validRoot b side).map fun r => r.extractLsb' 288 32

/-- The snapshot stamp of a side's committed drain. -/
def Flash.snapst (f : Flash) (b side : Nat) : Nat :=
  match f.validRoot b side with
  | some r => (r.extractLsb' 128 64).toNat
  | none => 0

/-- The side that holds the current checkpoint of a block as the root blocks tell it (R458). -/
def Flash.current (f : Flash) (b : Nat) : Option Nat :=
  match f.dseq b 0, f.dseq b 1 with
  | some x, some y => some (if y = x + 1 then 1 else if x = y + 1 then 0 else if x.toNat < y.toNat then 1 else 0)
  | some _, none => some 0
  | none, some _ => some 1
  | none, none => none

/-- Whether a block's two valid root blocks have `dseq` values that do not differ by one (R458). -/
def Flash.atOdds (f : Flash) (b : Nat) : Bool :=
  match f.dseq b 0, f.dseq b 1 with
  | some x, some y => y != x + 1 && x != y + 1
  | _, _ => false

/-- The blocks of which flash holds a root. -/
def Flash.rooted (f : Flash) : List Nat := uniq (f.roots.map fun e => e.1 / 2)

/-- A reset's reading of the root blocks (R458): the class-3 records of those at odds. -/
def Device.readRoots (d : Device) : Device :=
  (d.flash.rooted.filter d.flash.atOdds).foldl (fun x _ => x.post { cls := 3, agent := BitVec.ofNat 16 agDrain }) d

/-- The flash tier after a reset: stamps begin again, so that no page counts as unchanged since a checkpoint. -/
def Flash.aged (f : Flash) : Flash := { f with ckpts := f.ckpts.map fun e => (e.1, { e.2 with stale := true }) }

/-- The flash tier without a block's checkpoints. -/
def Flash.forget (f : Flash) (b : Nat) : Flash :=
  { f with roots := f.roots.filter (fun e => e.1 / 2 != b), ckpts := f.ckpts.filter fun e => e.1 / 2 != b }

/-! ## What a drain writes (R147, step 1) -/

/-- A line as of a handle's stamp: its contents, the stamp of the write that left them, and whether they are poisoned. -/
structure LineAt where
  data : LineBits
  st : Nat
  poison : Bool := false

/-- A line as of a handle's stamp (R135, R143, R147, R447): its pre-image for the handle, the version that the handle
reads, or, where nothing has been written since, what stands there. -/
def Device.lineAsOf (d : Device) (b h : Nat) (line : Nat) : LineAt :=
  let e := d.snap b h
  let l := d.line line
  match l.pre.find? fun p => p.owner == b * 16 + h && p.gen == e.gen with
  | some p => ⟨p.data, p.st, false⟩
  | none =>
    if l.wts ≤ e.st then ⟨d.lineBits line, l.wts, l.poison⟩
    else
      match l.versions.find? fun v => decide (v.st ≤ e.st) with
      | some v => ⟨v.data, v.st, v.poison⟩
      | none => if l.first then ⟨0, 0, false⟩ else ⟨d.lineBits line, l.wts, l.poison⟩

/-- A writable local page of a micro-context: its virtual address, size and physical address. -/
structure OwnPage where
  va : Nat
  size : Nat
  pa : Nat
  deriving DecidableEq, Repr

/-- The writable local pages of a block. -/
def Device.drainPages (d : Device) (b : Nat) : List OwnPage :=
  (d.imageOf b).buffers.flatMap fun u => u.pages.filterMap fun va =>
    match d.leafFor b u.psz va with
    | some (lsz, p) => if p.getLsbD 3 && !p.getLsbD 9 && isLocal (ptePa p) then some ⟨va, 2 ^ winShift u.psz, leafPage lsz p va⟩ else none
    | none => none

/-- The recorded lines of a page. -/
def Device.pageLines (d : Device) (p : OwnPage) : List Nat :=
  (d.lines.map (·.1)).filter fun l => decide (p.pa ≤ l * 64 ∧ l * 64 < p.pa + p.size)

/-- The bytes of a page as of a handle's stamp, by offset. -/
def Device.pageAsOf (d : Device) (b h : Nat) (p : OwnPage) : List Host.Cell :=
  let base := (d.mem.filter fun c => decide (p.pa ≤ c.1 ∧ c.1 < p.pa + p.size)).map fun c => (c.1 - p.pa, c.2)
  (d.pageLines p).foldl (fun m l => wrBytes m (l * 64 - p.pa) (toBytes (d.lineAsOf b h l).data.toNat 64)) base

/-- The checkpoint of the last committed drain of a block, with its stamp: the one that `msel` selects. -/
def Device.lastCkpt (d : Device) (b : Nat) : Ckpt × Nat :=
  let sel := (d.block b).get fMsel
  if (d.flash.validRoot b sel).isSome then (d.flash.ckpt b sel, d.flash.snapst b sel) else ({}, 0)

/-- Whether a page is to be written: changed since the last committed drain, or not in its checkpoint. -/
def Device.changed (d : Device) (b h : Nat) (p : OwnPage) : Bool :=
  let c := d.lastCkpt b
  c.1.stale || !(c.1.pages.any fun x => x.va == p.va) || (d.pageLines p).any fun l => decide (c.2 < (d.lineAsOf b h l).st)

/-- The pages that a drain of handle `h` writes. -/
def Device.drainWrites (d : Device) (b h : Nat) : List OwnPage := (d.drainPages b).filter (d.changed b h)

/-- Whether a line that a drain is to write is poisoned as of the drain's stamp (R457). -/
def Device.drainPoisoned (d : Device) (b h : Nat) : Bool :=
  (d.drainWrites b h).any fun p => (d.pageLines p).any fun l => (d.lineAsOf b h l).poison

/-- The extents of 2 MiB that some pages take, one after another. -/
def extentsFor (ps : List OwnPage) : Nat := ceilDiv (ps.foldl (fun n p => n + p.size) 0) (2 ^ 21)

/-- The extents that hold `size` bytes from offset `off` of a drain, with their drives, which alternate (R363). -/
def drainPlace (m : Allotment) (off size : Nat) : List (Bool × BitVec 63) :=
  (span (off / 2 ^ 21) (ceilDiv (off % 2 ^ 21 + size) (2 ^ 21))).filterMap fun j =>
    (m.extents[j]?).map fun x => (xor m.first (j % 2 == 1), x)

/-- The pages of a checkpoint, `off` bytes of the drain written before them: those written now, and those that the last
checkpoint holds. -/
def Device.ckptPages (d : Device) (b h : Nat) (m : Allotment) : Nat → List OwnPage → List CkptPage
  | _, [] => []
  | off, p :: r =>
    if d.changed b h p then
      { va := p.va, size := p.size, place := drainPlace m off p.size, off := off % 2 ^ 21, data := d.pageAsOf b h p } ::
        d.ckptPages b h m (off + p.size) r
    else ((d.lastCkpt b).1.pages.filter fun x => x.va == p.va) ++ d.ckptPages b h m off r

/-- The checkpoint that a drain of handle `h` writes (R147, steps 1 and 2). -/
def Device.newCkpt (d : Device) (b h : Nat) (m : Allotment) : Ckpt :=
  let ps := d.ckptPages b h m 0 (d.drainPages b)
  { pages := ps, manifest := Config.manifestBytes ps }

/-! ## The end of a drain (R147, R148, R457) -/

/-- The root record of a checkpoint (R148); the manifest lies on drive 0 for an even generation (R363). -/
def rootRecord (c : Ckpt) (mlba : BitVec 63) (snap : Snap) (dseq : Word32) : BitVec 512 :=
  let dw (i v : Nat) : Nat := v * 2 ^ (64 * i)
  BitVec.ofNat 512 (dw 0 (0x53524D52 * 2 ^ 32 + 2 ^ 16) + dw 1 snap.gen.toNat + dw 2 (snap.st % 2 ^ 64) +
    dw 3 (snap.gen.toNat % 2 * 2 ^ 63 + mlba.toNat) + dw 4 (dseq.toNat * 2 ^ 32 + ceilDiv c.manifest.length 4096 % 2 ^ 32) +
    dw 5 c.pages.length + dw 6 (manifestDigest c.manifest))

/-- A handle after its drain (R141, R145, R457). -/
def Snap.drained (e : Snap) (res : BitVec 2) : Snap := { e with dres := res, state := if e.state = 3 then 0 else 1 }

/-- The oldest drain under way of a block's handles, or of the device table's. -/
def Device.draining (d : Device) (b : Nat) : Option Nat := (d.block b).drains.head?

/-- A drain no longer under way. -/
def Device.endDrain (d : Device) (b h : Nat) (res : BitVec 2) : Device :=
  (d.updBlock b fun m => { m with drains := m.drains.drop 1 }).updSnap b h fun e => e.drained res

/-- A drain committed (R147, steps 1 to 5): its pages and manifest in flash, then the root record for the side that `msel`
does not select, first in flash and then in memory, and `msel` inverted. -/
def State.commitDrain (s : State) (b h : Nat) (m : Allotment) : State :=
  let k := s.dev.block b
  let sel := k.get fMsel
  let other := 1 - sel
  let dseq : Word32 := match s.dev.flash.dseq b sel with | some n => n + 1 | none => 1
  let c := s.dev.newCkpt b h m
  let r := rootRecord c m.mlba (s.dev.snap b h) dseq
  let f := { s.dev.flash with roots := mset s.dev.flash.roots (2 * b + other) r
                              ckpts := mset s.dev.flash.ckpts (2 * b + other) c }
  let t := State.agentPut { s with dev := { s.dev with flash := f } } agDrain
    (k.get (if other = 0 then fRoota else fRootb) * 64) (toBytes r.toNat 64)
  { t with dev := (t.dev.updBlock b fun x => x.set fMsel other).endDrain b h 1 }

/-- Whether a drain of the device table's handle `h` meets a poisoned line (R146, R457): one of a writable page of some
micro-context, as of the handle's stamp. -/
def Device.devicePoisoned (d : Device) (h : Nat) : Bool :=
  d.liveBlocks.any fun b => (d.drainPages b).any fun p => (d.pageLines p).any fun l => (d.lineAsOf devTable h l).poison

/-- Whether the drain of a table's handle meets a poisoned line. -/
def Device.poisonedDrain (d : Device) (b h : Nat) : Bool :=
  if b = devTable then d.devicePoisoned h else d.drainPoisoned b h

/-- `DRAIN_COMMIT` (R147): of a generation that is not broken, with no poisoned line to write (R457), into the extents that
the tiers firmware allotted. -/
def execDrainCommit (blk : Nat) (m : Allotment) (s : State) : Host.Outcome State Fault Refusal :=
  s.event (do
    let h ← s.dev.draining blk
    if (s.dev.snap blk h).broken then none
    else if blk = devTable then guardOpt (!s.dev.devicePoisoned h) { s with dev := s.dev.endDrain blk h 1 }
    else
      guardOpt (!s.dev.drainPoisoned blk h && m.extents.length == extentsFor (s.dev.drainWrites blk h)) (s.commitDrain blk h m))

/-- The class of the record of a failed drain (R457). -/
def drainClass : DrainFault → Nat
  | .drive => 6
  | .extent => 5
  | .broken => 5
  | .poisoned => 3

/-- `DRAIN_FAIL` (R457): what the drain has written is dropped, and `msel` and both roots stand. -/
def execDrainFail (blk : Nat) (why : DrainFault) (s : State) : Host.Outcome State Fault Refusal :=
  s.devEvent (do
    let h ← s.dev.draining blk
    let d := s.dev.endDrain blk h 2
    let r : ErrRec := { cls := BitVec.ofNat 8 (drainClass why), agent := BitVec.ofNat 16 agDrain,
                        mctx := if blk = devTable then none else s.dev.who blk }
    guardOpt ((why != .broken || (s.dev.snap blk h).broken) && (why != .poisoned || s.dev.poisonedDrain blk h)) (d.post r))

end Sys2Proof.Machine
end

