-- ==== Sys2Proof/Machine/Migration.lean ====
section
/-! DEFINITION. Live migration (R346, R347, R465): the copy that leaves, the copy that arrives, cut-over, the buoy, and what
undoes a migration. -/

namespace Sys2Proof.Machine

/-! ## Blocks that become FREE (R37) -/

/-- A block FREE, with nothing queued or saved, the shared-weight pages it mapped no longer counted (R85), and nothing of its
checkpoints left for the block's next use. -/
def Device.freeBlock (d : Device) (b : Nat) : Device :=
  let d1 := (d.updBlock b fun m =>
    { m with recs := [], saved := none, claim := none, recallAt := none, retire := false, unconfirmed := none,
             copyFrom := none, isHeld := false, firsts := 0, drains := [], shared := [] }).setMstate b sFree
  let d2 := ({ d1 with flash := d1.flash.forget b }.unmap fun x => x.1 == b).purge
  d2.noteCandidates

/-- A block's pairs gone from the context hash table. -/
def Device.dropPairs (d : Device) (b : Nat) : Device :=
  d.updTab fun t => { t with hash := t.hash.filter fun e => e.2 != b }

/-! ## The copy (R346) -/

/-- The local pages that are a block's own (R83, R346): all but shared-weight pages, as (address, bytes). -/
def Device.ownPages (d : Device) (b : Nat) : List (Nat × Nat) :=
  (d.declared b).filterMap fun va =>
    match d.walk b va with
    | .leaf sz p => if bits p 7 6 ≠ 2 ∧ isLocal (ptePa p) ∧ !p.getLsbD 9 then some (ptePa p, 2 ^ winShift sz) else none
    | .invalid => none

/-- Whether an address lies in one of some ranges. -/
def inRanges (rs : List (Nat × Nat)) (a : Nat) : Bool := rs.any fun r => decide (r.1 ≤ a ∧ a < r.1 + r.2)

/-- The 128 bits of a snapshot-table entry (R141). -/
def Snap.bits128 (e : Snap) : BitVec 128 :=
  BitVec.ofNat 128 (e.gen.toNat * 2 ^ 96 + e.dres.toNat * 2 ^ 66 + e.state.toNat * 2 ^ 64 + e.st % 2 ^ 64)

/-- The entry that 128 bits hold. -/
def snapOf (x : BitVec 128) : Snap :=
  { st := bits x 63 0, gen := x.extractLsb' 96 32, dres := x.extractLsb' 66 2, state := x.extractLsb' 64 2 }

/-- Where a block's save area lies while it holds a saved state (R339). -/
def Device.saveArea (d : Device) (b : Nat) : List (Nat × Nat) :=
  let m := d.block b
  if m.saved.isSome then [(m.get fSavea * 65536, m.get fSavelen * 65536)] else []

/-- The shared-weight pages of a block, by address with their digests (R346). -/
def Device.weightNames (d : Device) (b : Nat) : List (Nat × List (List Byte)) :=
  uniqFst ((d.declared b).filterMap fun va =>
    match d.walk b va with
    | .leaf sz p =>
      if bits p 7 6 = 2 then some (pageBase sz va, d.expected b (pageBase sz va) (2 ^ winShift sz)) else none
    | .invalid => none)

/-- The copy of a block that a migration ships (R346). -/
def Device.copyOf (d : Device) (b dev : Nat) (susp : Bool) : Out :=
  let m := d.block b
  let st := if susp then sSuspended else if m.recs.isEmpty then sIdle else sQueued
  let m1 := ((m.set fState st).set fBound 0).set fGbase 0
  let rs := (m.get fQbase * 64, 64 * 2 ^ m.get fQlog) :: d.ownPages b ++ d.saveArea b
  .migrate dev {
    sdev := d.out.devno, srcBlk := b, blk := b, words := (List.range 15).map m1.dw,
    snaps := (span 1 15).map fun h => (d.snap b h).bits128, snapGen := mget 0 d.tab.snapGen b, shared := d.weightNames b,
    cover := rs, bytes := d.mem.filter (fun c => inRanges rs c.1), last := true }

/-- Records that have changed in a MIGRATING block copied to its destination (R346). -/
def Device.copyChanges (before after : Device) : Device :=
  after.out.migs.foldl (fun d e =>
    if (before.block e.1).recs = (after.block e.1).recs then d else d.send (after.copyOf e.1 e.2.dev e.2.susp)) after

/-! ## The destination (R346, R465) -/

/-- The records that a queue's memory holds, `left` units from a unit on (R327); `x` names the free identifiers of launched
ones. -/
def Device.parseRecs (d : Device) (m : Block) (x : Nat) : Nat → Nat → Nat → List Rec
  | 0, _, _ => []
  | n + 1, unit, left =>
    if left = 0 then []
    else
      let pa := m.unitPa unit
      let w3 := d.rd64 (pa + 24)
      let got := d.rd64 (pa + 40)
      let tlen := bits w3 63 32
      let saddr : BitVec 128 := BitVec.ofNat 128 (ofBytesBE (rdBytes d.mem (pa + 8) 16))
      let r : Rec := {
        unit := unit, units := unitsOf tlen, rkid := BitVec.ofNat 12 (m.get fRkid), fnid := BitVec.ofNat 32 (d.rd64 (pa + 48)).toNat,
        reqid := d.rd64 pa, pcls := w3.extractLsb' 0 3, tlen := tlen, nseg := segsOf tlen,
        got := List.range (bits got 62 0 % 256), saddr := saddr, sport := w3.extractLsb' 16 16, eport := w3.getLsbD 15,
        arrived := d.cycle, arrst := (d.rd64 (pa + 32)).toNat, done := got.getLsbD 63,
        origin := if saddr.toNat < 2 ^ 16 ∧ bits w3 31 15 = 0 then some (saddr.toNat, Config.freeNat (x + unit)) else none }
      r :: d.parseRecs m x n ((unit + r.units) % 2 ^ m.get fQlog) (left - r.units)

/-- Whether a block can take a migrated copy: FREE, or a copy that still waits for its confirmation. -/
def Device.takesCopy (d : Device) (b : Nat) : Bool := d.mstate b == sFree || (d.block b).unconfirmed.isSome

/-- A part of a copy laid down: the ranges it covers, zero where it lists no byte, and its bytes, at the addresses that the
destination's firmware gave them, the control block with the source it comes from, the
snapshot table with the generation it has reached, and the names of shared-weight pages, which the Pilot fetches (R345). -/
def State.layCopy (s : State) (m : MigrationCopy) : State :=
  let stale := (s.dev.mem.filter fun c => inRanges m.cover c.1).map fun c => (c.1, (0 : Byte))
  let s1 := (stale ++ m.bytes).foldl (fun t e => t.agentPut 0x0915 e.1 [e.2]) s
  let words (k : Block) : Block :=
    if m.words.isEmpty then k
    else { k with words := m.words.zipIdx.foldl (fun w e => mset w e.2 e.1) k.words }
  let d0 := s1.dev.updBlock m.blk fun k =>
    { (words k).set fState (k.get fState) with copyFrom := some (m.sdev.toNat, m.srcBlk), shared := if m.shared.isEmpty then k.shared else m.shared }
  let d := if m.snaps.isEmpty then d0 else d0.updTab fun t => { t with snapGen := mset t.snapGen m.blk m.snapGen }
  { s1 with dev := m.snaps.zipIdx.foldl (fun x e => x.updSnap m.blk (e.2 + 1) fun _ => snapOf e.1) d }

/-- A copy that is whole (R346, R465): the block in its state, its records and saved state read back, its hash-table pair
added, and the acknowledgement sent. -/
def State.wholeCopy (s : State) (m : MigrationCopy) : State :=
  let (s1, x) := s.draw
  let d := s1.dev
  let k := d.block m.blk
  let recs := d.parseRecs k x 65536 (k.get fQhead) (k.get fQcnt)
  let area := k.get fSavea * 65536
  let saved := if bits (d.rd64 area) 63 32 = saveMagic then Config.savedOf (rdBytes d.mem area (k.get fSavelen * 65536)) else none
  let asked := match m.words.head? with | some w => bits w 3 0 | none => k.get fState
  let st := if asked = sSuspended then sSuspended else if recs.isEmpty then sIdle else sQueued
  let d1 := (d.updBlock m.blk fun k =>
    { k with recs := recs, saved := saved, unconfirmed := some d.cycle, copyFrom := some (m.sdev.toNat, m.srcBlk) }).setMstate m.blk st
  let d2 := d1.updTab fun t => { t with hash := mset t.hash (hashKey (k.get fRkid) (k.get fFnid)) m.blk }
  { s1 with dev := (d2.send (.migrateAck m.sdev.toNat m.srcBlk)).noteCandidates }

/-- `MIGRATION_COPY_RECEIVE` (R346): a part of a copy, by the addresses and the index that the destination's firmware gave
it; a block that cannot take one refuses it. -/
def execMigrationCopyReceive (m : MigrationCopy) (s : State) : Host.Outcome State Fault Refusal :=
  s.event (guardOpt (decide (m.blk < 32768) && s.dev.takesCopy m.blk && (m.bytes.all fun e => isLocal e.1) &&
      m.cover.all fun r => isLocal r.1 && isLocal (r.1 + r.2))
    (if m.last then (s.layCopy m).wholeCopy m else s.layCopy m))

/-- The parts of a copy of source block `src` of a device dropped, before the copy is whole, after the migration's abort
(R465). -/
def Device.dropCopy (d : Device) (dev src b : Nat) : Option Device :=
  guardOpt (d.mstate b == sFree && (d.block b).copyFrom == some (dev, src))
    (((d.updBlock b fun _ => { (d.block b) with words := [] }).updTab fun t =>
      { t with snaps := t.snaps.filter fun e => e.1 / 16 != b, snapGen := mdel t.snapGen b }).freeBlock b)

/-- `CUTOVER_CONFIRM_RECEIVE` (R465). -/
def execCutoverConfirmReceive (blk : Nat) (s : State) : Host.Outcome State Fault Refusal :=
  s.devEvent ((s.dev.block blk).unconfirmed.map fun _ =>
    (s.dev.updBlock blk fun m => { m with unconfirmed := none, copyFrom := none }).noteCandidates)

/-- `UNCONFIRMED_COPY_DROP` (R465): 10 s after the acknowledgement. -/
def execUnconfirmedCopyDrop (blk : Nat) (s : State) : Host.Outcome State Fault Refusal :=
  s.devEvent (do
    let t ← (s.dev.block blk).unconfirmed
    guardOpt (decide (t + cyclesMs 10000 ≤ s.dev.cycle)) ((s.dev.freeBlock blk).dropPairs blk))

/-! ## The source (R346, R347, R465) -/

/-- The migration of a block, while it is MIGRATING. -/
def Device.migration (d : Device) (b : Nat) : Option Migration :=
  if d.mstate b = sMigrating then mfind d.out.migs b else none

/-- A block's migration no longer under way. -/
def Device.endMigration (d : Device) (b : Nat) : Device := d.updOut fun o => { o with migs := mdel o.migs b }

/-- The shoot-downs held for a MIGRATING block forwarded to its destination (R445). -/
def Device.forwardShoots (d : Device) (b dev dst : Nat) : Device :=
  let sent (k : PendKind) : Option Out :=
    match k with
    | .heldShoot x va n => if x = b then some (.shootDown dev b dst va n) else none
    | _ => none
  let mark (p : Pending) : Pending := if (sent p.kind).isSome then { p with kind := .sentShoot b } else p
  (d.out.pend.filterMap fun p => sent p.kind).foldl Device.send (d.updOut fun o => { o with pend := o.pend.map mark })

/-- `MIGRATION_CUTOVER` (R346, R445): the destination's acknowledgement, which names the block's index there. -/
def execMigrationCutover (blk dst : Nat) (s : State) : Host.Outcome State Fault Refusal :=
  s.event ((s.dev.migration blk).map fun g =>
    let d := s.dev
    let buoy : Buoy := { dev := g.dev, blk := dst, since := d.cycle, pages := d.ownPages blk,
                         pair := hashKey ((d.block blk).get fRkid) ((d.block blk).get fFnid) }
    let key := blk * 256 + (d.block blk).get fGen
    let d1 := (((d.endMigration blk).dropPairs blk).freeBlock blk).updOut fun o => { o with buoys := mset o.buoys key buoy }
    let d2 := (d1.send (.migrateConfirm g.dev dst)).forwardShoots blk g.dev dst
    State.finishKind { s with dev := d2 } (· == .migrate blk) 0 0)

/-- A migration aborted (R465): the block as it was before, the destination told to drop its copy, and `CB_MIGRATE` completed
with status 10. -/
def State.abortMigration (s : State) (b : Nat) (g : Migration) : State :=
  let done := match (s.dev.block b).head with | some r => r.done | none => false
  let st := if g.susp then sSuspended else if done then sQueued else sIdle
  let d := (((s.dev.endMigration b).setMstate b st).noteCandidates).send (.migrateDrop g.dev b)
  State.finishKind { s with dev := d } (· == .migrate b) 10 0

/-- `MIGRATION_ABORT` (R465). -/
def execMigrationAbort (blk : Nat) (s : State) : Host.Outcome State Fault Refusal :=
  s.event ((s.dev.migration blk).map fun g => s.abortMigration blk g)

/-- The destination of a block's migration queried (R465). -/
def Device.queryCopy (d : Device) (b : Nat) (g : Migration) : Device :=
  (d.updOut fun o => { o with migs := mset o.migs b { g with asked := some d.cycle } }).send (.migrateQuery g.dev b)

/-- `MIGRATION_ACK_TIMEOUT` (R465): a query every 100 ms after the copy's end, and after 10 s the abort. -/
def execMigrationAckTimeout (blk : Nat) (s : State) : Host.Outcome State Fault Refusal :=
  s.event (do
    let g ← s.dev.migration blk
    if g.since + cyclesMs 10000 ≤ s.dev.cycle then some (s.abortMigration blk g)
    else guardOpt (decide (g.asked.getD g.since + cyclesMs 100 ≤ s.dev.cycle)) { s with dev := s.dev.queryCopy blk g })

/-- The source asked for the confirmation that a copy of this device still waits for (R465). -/
def Device.askConfirm (d : Device) (b : Nat) : Option Device := do
  let (dev, src) ← (d.block b).copyFrom
  guardOpt (d.block b).unconfirmed.isSome (d.send (.confirmQuery dev src b))

/-- The answer to the source's query about the copy of its block `src` at `b` (R465): the acknowledgement again, while the
copy waits for its confirmation. -/
def Device.ackAsked (d : Device) (dev src b : Nat) : Option Device :=
  guardOpt ((d.block b).unconfirmed.isSome && (d.block b).copyFrom == some (dev, src)) (d.send (.migrateAck dev src))

/-- The answer to the destination's query about the block of this device that it holds as `b` (R465): its buoy confirms. -/
def Device.confirmAsked (d : Device) (dev src b : Nat) : Option Device :=
  guardOpt (d.out.buoys.any fun e => e.1 / 256 == src && e.2.dev == dev && e.2.blk == b && d.afloat e.2)
    (d.send (.migrateConfirm dev b))

/-- `BUOY_EXPIRY` (R347): 100 ms after cut-over. -/
def execBuoyExpiry (blk : Nat) (s : State) : Host.Outcome State Fault Refusal :=
  let old (e : Nat × Buoy) : Bool := e.1 / 256 == blk && decide (e.2.since + cyclesMs 100 ≤ s.dev.cycle)
  s.devEvent (guardOpt (s.dev.out.buoys.any old)
    (s.dev.updOut fun o => { o with buoys := o.buoys.filter fun e => !old e }))

end Sys2Proof.Machine
end

