-- ==== Sys2Proof/Machine/Arrivals.lean ====
section
/-! DEFINITION. What arrives for a block (R327, R346, R459, R461): datagrams, verified segments and records that are
abandoned, each copied to the destination while the block is MIGRATING. -/

namespace Sys2Proof.Machine

/-- An arrival that happens, or that the state does not admit; what it changes in a MIGRATING block's records is copied. -/
def State.arrival (s : State) (t : Option State) : Host.Outcome State Fault Refusal :=
  s.event (t.map fun x => { x with dev := s.dev.copyChanges x.dev })

/-- `SERVICE_DATAGRAM_RECEIVE` (R322, R327): a frame at a port that has its link, of no more bytes than a port carries. -/
def execServiceDatagramReceive (g : Datagram) (s : State) : Host.Outcome State Fault Refusal :=
  s.arrival (guardOpt (s.dev.out.ethUp.getLsbD g.port.toNat && decide (frameBytes g ≤ 9216)) (s.receive g))

/-- `SEGMENT_VERIFY` (R327): the oldest segment that the packet crypto units hold. -/
def execSegmentVerify (s : State) : Host.Outcome State Fault Refusal :=
  s.arrival (match s.dev.out.segWait with
    | [] => none
    | g :: r => some (State.verify { s with dev := s.dev.updOut fun o => { o with segWait := r } } g))

/-- `RECORD_ABANDON` (R461): the record whose header unit is `slot`, 100 ms after it arrived. At the head of a queue that
is not bound it goes at once. -/
def execRecordAbandon (blk slot : Nat) (s : State) : Host.Outcome State Fault Refusal :=
  s.arrival (do
    let m := s.dev.block blk
    let r ← m.recs.find? fun r => r.unit == slot && !r.done && !r.abandoned
    let put (x : Rec) : Rec := if x.unit = slot then { x with abandoned := true, deferred := false } else x
    let d := s.dev.updBlock blk fun m => { m with recs := m.recs.map put }
    let d1 := if (s.dev.binding blk).isSome then d else d.skipAbandoned blk
    let d2 := if d1.mstate blk = sQueued && (d1.block blk).recs.isEmpty then d1.setMstate blk sIdle else d1
    guardOpt (decide (r.arrived + cyclesMs 100 ≤ s.dev.cycle)) { s with dev := d2.noteCandidates })

end Sys2Proof.Machine
end

