-- ==== Sys2Proof/Machine/Atomics.lean ====
section
/-! DEFINITION. Returning atomics, reductions and the task instructions (R253 to R261). -/

namespace Sys2Proof.Machine

/-! ## Returning atomics (R253, R254) -/

/-- The new value that the atomic of selector `f` writes over `old` (R253), both `n` bytes wide; `none` when `AMOCAS`
(selector 8) does not write. -/
def amoNew (f n old b cmp : Nat) : Option Nat :=
  let m := 2 ^ (8 * n)
  match f with
  | 0 => some ((old + b) % m)
  | 1 => some (sMinMax false n old b)
  | 2 => some (sMinMax true n old b)
  | 3 => some (Nat.min old b)
  | 4 => some (Nat.land old b)
  | 5 => some (Nat.lor old b)
  | 6 => some (Nat.xor old b)
  | 7 => some b
  | _ => if old = cmp then some b else none

/-- A returning atomic on `n` bytes of committed local memory at one stamp (R117, R123, R253): the state and the old
bytes' value. An `AMOCAS` that does not write has read at its stamp, below which no later write falls. -/
def State.amoLocal (s : State) (p : Piece) (f n b cmp : Nat) : Except Stop (State × Nat) :=
  let lines := linesOf p.pa n
  if (s.dev.line (p.pa / 64)).poison then .error (.abort cPOISON (word p.pa))
  else
    let (s1, st) := s.takeStamp (s.dev.writeFloor lines)
    let old := ofBytes (s.dev.bytesUnder p.kid p.pa n)
    match amoNew f n old b cmp with
    | some v =>
      let w : Writer := ⟨s.me, st, some s.blk, p.kid⟩
      .ok ({ s1 with dev := ((s1.dev.touchRange w p.pa n false).poke p.pa (toBytes v n)).published st }, old)
    | none =>
      let read (x : Device) (l : Nat) : Device := x.updLine l fun e => { e with lease := Nat.max e.lease st }
      .ok ({ s1 with dev := (lines.foldl read s1.dev).published st }, old)

/-- Whether the binding's gang is not yet confirmed, so that its remote atomics wait (R371). -/
def State.gangHeld (s : State) : Bool := s.binding.gang.isSome

/-- The checks of a remote returning atomic: it waits for its gang's confirmation (R371), and fails at an unreachable
peer (R471). -/
def State.remoteOk (s : State) (p : Piece) : Except Stop Unit :=
  if s.gangHeld then blockOn .gang
  else if s.dev.reachable (peerOf p.pa) then .ok ()
  else .error (.abort cPOISON (word p.pa))

/-- A returning atomic at the peer whose memory it names (R81, R126): its old value, and whether the peer returns it poisoned
(R447), are free (log entry 10). -/
def State.amoRemote (s : State) (p : Piece) (f n b cmp : Nat) : Except Stop (State × Nat) := do
  s.remoteOk p
  let (s1, x) := s.draw
  let (s2, _) := s1.takeStamp 0
  let d := s2.dev.send (.remoteAtomic (peerOf p.pa) (s.dev.portTo (peerOf p.pa) p.pa) (s.dev.source (some s.blk)) (p.pa % 2 ^ 42) n (BitVec.ofNat 4 f) (word b) (word cmp))
  if Config.freeBool x 0 then .error (.abort cPOISON (word p.pa))
  else return ({ s2 with dev := d }, (Config.freeWord x).toNat % 2 ^ (8 * n))

/-- The pin, the stamp and the effect of a returning atomic (R253). -/
def State.amoPerform (s : State) (p : Piece) (f n b cmp : Nat) : Except Stop (State × Given) := do
  let s1 ← s.pin
  let r ← if isRemote p.pa then s1.amoRemote p f n b cmp else s1.amoLocal p f n b cmp
  return (r.1, ⟨word r.2, {}⟩)

/-- The checks of an access that must name one live page (R253, R258, R260). -/
def State.livePiece (s : State) (va : Word) (n : Nat) (acc : Acc) : Except Stop Piece := do
  let ps ← s.translate va n acc
  let p := ps.headD ⟨va, 0, n, 0, 0⟩
  require (p.kind == 0) cKIND va
  return p

/-- A returning atomic (R253): selector `f`, `n` bytes. -/
def amoOp (f n : Nat) (d a b : BitVec 6) (s : State) : Host.Outcome State Fault Refusal :=
  s.slot (do
    let va := s.sreg a
    aligned va n
    let p ← s.livePiece va n .atomic
    let bv := (s.sreg b).toNat % 2 ^ (8 * n)
    let cmp := (s.sreg d).toNat % 2 ^ (8 * n)
    let r ← s.external .amo [word (16 * n + f), va, word bv, word (if f = 8 then cmp else 0)]
      (fun t => t.amoPerform p f n bv cmp)
    return r.1.setS d r.2.res)

def execAmoadd (d a b : BitVec 6) (s : State) : Host.Outcome State Fault Refusal := amoOp 0 8 d a b s
def execAmomin (d a b : BitVec 6) (s : State) : Host.Outcome State Fault Refusal := amoOp 1 8 d a b s
def execAmomax (d a b : BitVec 6) (s : State) : Host.Outcome State Fault Refusal := amoOp 2 8 d a b s
def execAmominu (d a b : BitVec 6) (s : State) : Host.Outcome State Fault Refusal := amoOp 3 8 d a b s
def execAmoand (d a b : BitVec 6) (s : State) : Host.Outcome State Fault Refusal := amoOp 4 8 d a b s
def execAmoor (d a b : BitVec 6) (s : State) : Host.Outcome State Fault Refusal := amoOp 5 8 d a b s
def execAmoxor (d a b : BitVec 6) (s : State) : Host.Outcome State Fault Refusal := amoOp 6 8 d a b s
def execAmoswp (d a b : BitVec 6) (s : State) : Host.Outcome State Fault Refusal := amoOp 7 8 d a b s
def execAmoaddW (d a b : BitVec 6) (s : State) : Host.Outcome State Fault Refusal := amoOp 0 4 d a b s
def execAmominW (d a b : BitVec 6) (s : State) : Host.Outcome State Fault Refusal := amoOp 1 4 d a b s
def execAmomaxW (d a b : BitVec 6) (s : State) : Host.Outcome State Fault Refusal := amoOp 2 4 d a b s
def execAmominuW (d a b : BitVec 6) (s : State) : Host.Outcome State Fault Refusal := amoOp 3 4 d a b s
def execAmoandW (d a b : BitVec 6) (s : State) : Host.Outcome State Fault Refusal := amoOp 4 4 d a b s
def execAmoorW (d a b : BitVec 6) (s : State) : Host.Outcome State Fault Refusal := amoOp 5 4 d a b s
def execAmoxorW (d a b : BitVec 6) (s : State) : Host.Outcome State Fault Refusal := amoOp 6 4 d a b s
def execAmoswpW (d a b : BitVec 6) (s : State) : Host.Outcome State Fault Refusal := amoOp 7 4 d a b s
def execAmocas (d a b : BitVec 6) (s : State) : Host.Outcome State Fault Refusal := amoOp 8 8 d a b s
def execAmocasW (d a b : BitVec 6) (s : State) : Host.Outcome State Fault Refusal := amoOp 8 4 d a b s

/-! ## Reductions (R255, R256) -/

/-- A reduction held as a pending operation on its bytes (R255). -/
def redOp (n : Nat) (k : Word → BufKind) (a b : BitVec 6) (s : State) : Host.Outcome State Fault Refusal :=
  s.slot (do
    let va := s.sreg a
    aligned va n
    let ps ← s.translate va n .store
    let p := ps.headD ⟨va, 0, n, 0, 0⟩
    s.putOp p.kind { va := va.toNat, pa := p.pa, kind := k (s.sreg b), versioned := p.kind == 1, kid := p.kid })

def execRedAdd (a b : BitVec 6) (s : State) : Host.Outcome State Fault Refusal := redOp 8 (.redAdd 8) a b s
def execRedMin (a b : BitVec 6) (s : State) : Host.Outcome State Fault Refusal := redOp 8 (.redMin 8) a b s
def execRedMax (a b : BitVec 6) (s : State) : Host.Outcome State Fault Refusal := redOp 8 (.redMax 8) a b s
def execRedFadd (a b : BitVec 6) (s : State) : Host.Outcome State Fault Refusal :=
  redOp 4 (fun v => .redFadd [v.setWidth 32]) a b s

/-! ## Task instructions (R258 to R260) -/

/-- `TSPAWN` (R259): the record named, to be decremented at the task's commit. -/
def execTspawn (a : BitVec 6) (s : State) : Host.Outcome State Fault Refusal :=
  s.slot (do
    let va := s.sreg a
    aligned va 64
    let _ ← s.livePiece va 8 .store
    let n := match s.ctx.task with | some t => t.spawns.length | none => 0
    require (decide (n < 32)) cSPAWNOVF va
    return s.updTask fun t => { t with spawns := t.spawns ++ [va.toNat] })

/-- `trap_after` of the slot at hand (R205): of two in a bundle the lower slot's decides (R422, log entry 108). -/
def State.trapAfter (s : State) (cause : BitVec 8) (val : Word) : State :=
  s.updBun fun b => { b with after := some (b.after.getD ⟨b.slot, cause, val, 0⟩) }

/-- A record's count changed by `delta`, as the record's new doublewords 0 and 3 say it or, on remote memory, as the peer
makes it (R44, R126, R260). -/
def Device.changeCount (d : Device) (b : Nat) (w : Writer) (prot : Bool) (bseq : BitVec 31) (delta : Int) (pa : Nat)
    (w0 w3 : Word) : Device :=
  if isRemote pa then
    d.send (.remoteAtomic (peerOf pa) (d.portTo (peerOf pa) pa) (d.source (some b)) (pa % 2 ^ 42) 64 9 (wordI delta) (countWord bseq prot))
  else d.writePred w pa w0 w3

/-- A change of a record's `pred` by `delta` (R260): the state, the old count, and whether the new one was in range. In
protected mode a result out of range still re-arms the record, and the trap comes after the commit. The record of remote
memory is as the peer returns it (R81, log entry 10). -/
def State.count (s : State) (va : Word) (p : Piece) (delta : Int) : Except Stop (State × Given) := do
  if isRemote p.pa then s.remoteOk p
  let (s0, x) := s.draw
  let (s1, st) := s0.takeStamp (if isRemote p.pa then 0 else s.dev.writeFloor (linesOf p.pa 64))
  let bs ← s1.dev.seeLine x 1 p.kid p.pa
  let r := recOf bs
  let (w0, w3) := rearm s.binding.bseq r
  let old := bits w0 15 0
  let new : Int := old + delta
  let w : Writer := ⟨s.me, st, some s.blk, p.kid⟩
  let put (y : State) (w0 : Word) : Device := y.dev.changeCount s.blk w s.binding.prot s.binding.bseq delta p.pa w0 w3
  if new < 0 ∨ 65535 < new then
    if s.binding.prot then return ({ s1 with dev := put s1 w0 }, ⟨word (2 ^ 32 + old), {}⟩)
    else trapWith cCOUNT (word old)
  else
    let s2 ← s1.pin
    let w0' := setBits w0 15 0 new.toNat
    let d := put s2 w0'
    return ({ s2 with dev := if 0 < old ∧ new = 0 then d.readyEnqueue s.blk (va.toNat % 2 ^ 57) st { r with w0 := w0', w3 := w3 }
              else d }, {})

/-- `TDEC` and `TADD` (R260). -/
def countOp (kind : Ext) (a : BitVec 6) (delta : Word) (s : State) : Host.Outcome State Fault Refusal :=
  s.slot (do
    let va := s.sreg a
    aligned va 64
    let p ← s.livePiece va 8 .atomic
    let r ← s.external kind [va, delta] fun t => t.count va p delta.toInt
    return (if r.2.res.getLsbD 32 then r.1.trapAfter cCOUNT (word (bits r.2.res 15 0)) else r.1))

def execTdec (a : BitVec 6) (s : State) : Host.Outcome State Fault Refusal := countOp .tdec a (BitVec.allOnes 64) s
def execTadd (a b : BitVec 6) (s : State) : Host.Outcome State Fault Refusal := countOp .tadd a (s.sreg b) s

/-! ## `NTR` (R56, R57, R261) -/

/-- The tile dispenser's next index for a binding (R57, R201): the tile word of `nt0`, `none` when none remains or the
image declares no tile space. -/
def Binding.nextTile (k : Binding) : Option Nat := if k.tile < k.tx * k.ty * k.tz then some k.tile else none

/-- The word that a dispensed tile puts in `nt0`, or the null tile's (R57, R201). -/
def tileWord (k : Binding) : Option Nat → Word
  | none => 0x8000000000000000
  | some n => word (n % k.tx + 2 ^ 16 * (n / k.tx % k.ty) + 2 ^ 32 * (n / (k.tx * k.ty)))

/-- The registers of a task that `NTR` begins (R222, R261): both loop levels inactive, all others kept. -/
def Regs.ntrStart (r : Regs) : Regs := { r with lpc0 := 0, lpc1 := 0 }

/-- A context that begins a task at its next bundle with a dispensed tile, due at cycle `due`, 24 cycles after the `NTR`,
its event flag clear (R56, R58, R238, R261). -/
def Ctx.beginTiled (c : Ctx) (t : Task) (due : Nat) (tile : Word) : Ctx :=
  let c1 : Ctx := { c with regs := c.regs.ntrStart, ntDue := c.ntDue ++ [(due, tile)], segOpen := false, seg := {}, event := false }
  let r : Restart := { regs := c1.rotateAll.regs, trap := c.trap }
  { c1 with task := some { blk := t.blk, recVa := t.recVa, restart := r, tiled := true, tile := tile, lclus := t.lclus,
                           cmask := t.cmask, tier := t.tier, began := some (due - 24) } }

/-- `NTR` (R56, R261): the task commits with its bundle, and the next tile begins a new task on the context, which then
takes a trap or a wait that the bundle's other slots leave. -/
def execNtr (s : State) : Host.Outcome State Fault Refusal :=
  s.slot (do
    s.ntrCheck
    let a := s.me
    let (u, d0) ← s.commitTask
    match (d0.ctx a).task with
    | none => return { u with dev := d0, bundle := none, last := .done }
    | some t =>
      let k := (d0.binding t.blk).getD { gbase := 0 }
      let tile := k.nextTile
      let d := d0.updBinding t.blk fun b => { b with tile := if tile.isSome then b.tile + 1 else b.tile }
      let d1 := d.updCtx a fun c => c.beginTiled t (s.dev.cycle + 24) (tileWord k tile)
      return u.follow d1 (d1.ctx a).regs.pc)

end Sys2Proof.Machine
end

