-- ==== Sys2Proof/Machine/CalendarEvents.lean ====
section
/-! DEFINITION. The events of the memory calendar (R107, R109, R113, R374, R451, R453): exchanges of plans, slots, forced
refreshes, hot-row windows, the high range, and slotted reads that return. -/

namespace Sys2Proof.Machine

/-- A controller after a write to `calsw` (R107). -/
def Hbm.writeCalsw (h : Hbm) (v : Word) : Hbm := if v.getLsbD 0 then { h with calsw := 1 } else h

/-- `CALSW_WRITE` (R107): a 1 in bit 0 makes an exchange pending; while one is pending it has no effect. -/
def execCalswWrite (hbm : Nat) (v : BitVec 64) (s : State) : Host.Outcome State Fault Refusal :=
  s.devEvent (guardOpt (decide (hbm < 8)) (s.dev.updHbm hbm fun h => h.writeCalsw v))

/-- Whether the controller refuses an exchange (R107). -/
def Hbm.refuses (h : Hbm) : Bool := !planRefreshes h.idle 1 || (h.high && !planRefreshes h.idle 2)

/-- The reads in flight on every pseudo-channel of a stack placed anew from slot index `i` on (R107). -/
def Device.replaceAll (d : Device) (hbm i : Nat) : Device :=
  ((d.hbm hbm).chans.map (·.1)).foldl (fun x c => x.replaceSlds hbm c i) d

/-- The two banks exchanged (R107): from slot index `i` on the other is in force; the slots before it whose issue windows
have passed keep the plan that was. A second refresh slot of the high range ends with the plan that needed it (R453). -/
def Hbm.exchange (h : Hbm) (i : Nat) : Hbm :=
  { h with force1 := !h.force1, calsw := 0, since := i, prev := h.plan, extra := false }

/-- `CALENDAR_EXCHANGE` (R107): a pending exchange at a rotation boundary, made or refused. -/
def execCalendarExchange (hbm : Nat) (s : State) : Host.Outcome State Fault Refusal :=
  let h := s.dev.hbm hbm
  s.devEvent (guardOpt (decide (hbm < 8 ∧ s.dev.cycle % 288 = 0 ∧ h.calsw = 1))
    (if h.refuses then s.dev.updHbm hbm fun h => { h with calsw := 3 }
     else (s.dev.updHbm hbm fun h => h.exchange (s.dev.cycle / 18)).replaceAll hbm (s.dev.cycle / 18)))

/-- `CHANNEL_SLOT_START` (R104, R113): slot `slot` of a pseudo-channel at its first cycle on the channel, 54 cycles after
its issue window began, when every read issued by the end of that window and of the two after it is known; whether other
traffic takes a slot that no slotted read takes is the device's choice. -/
def execChannelSlotStart (hbm pch slot : Nat) (s : State) : Host.Outcome State Fault Refusal :=
  let i := slotsBegun s.dev.cycle - 1
  s.event (guardOpt
    (decide (hbm < 8 ∧ pch < 512 ∧ transit ≤ s.dev.cycle ∧ s.dev.cycle % 18 = 0 ∧ i % 16 = slot ∧
      ((s.dev.hbm hbm).chan pch).begun ≤ i)) (
      let (s1, x) := s.draw
      let d := s1.dev.updHbm hbm fun h => h.updChan pch fun c => { c with begun := i + 1 }
      { s1 with dev := d.slotStart hbm pch i (Config.freeBool x pch) }))

/-- `FORCED_REFRESH_END` (R104, R113): once the last slot of it has ended on the channel, the balance is 0 and the pointer
unchanged. -/
def execForcedRefreshEnd (hbm pch : Nat) (s : State) : Host.Outcome State Fault Refusal :=
  s.devEvent (do
    let e ← ((s.dev.hbm hbm).chan pch).forced
    guardOpt (decide (e + transit ≤ s.dev.cycle)) (s.dev.updHbm hbm fun h => h.updChan pch fun c =>
      { c with bal := 0, forced := none, lastForced := some e }))

/-- `HOT_ROW_WINDOW_END` (R451): every 32 ms; the reads that spacing has put off are placed anew. -/
def execHotRowWindowEnd (hbm : Nat) (s : State) : Host.Outcome State Fault Refusal :=
  let clear (c : Chan) : Chan := { c with counts := [], hot := [] }
  s.devEvent (guardOpt (decide (hbm < 8 ∧ s.dev.cycle % cyclesMs 32 = 0))
    ((s.dev.updHbm hbm fun h => { h with chans := h.chans.map fun e => (e.1, clear e.2) }).replaceAll hbm
      (slotsBegun s.dev.cycle)))

/-- `HIGH_RANGE_ENTRY` (R374, R453): one record when some pseudo-channel begins to refresh in a second slot, whose owned
reads go to their owner's next window. -/
def execHighRangeEntry (hbm : Nat) (s : State) : Host.Outcome State Fault Refusal :=
  let h := s.dev.hbm hbm
  let d := (s.dev.updHbm hbm fun h => { h with high := true, extra := true }).replaceAll hbm (slotsBegun s.dev.cycle)
  s.devEvent (guardOpt (decide (hbm < 8) && !h.high)
    (if h.extra || planRefreshes h.plan 2 then d else d.post { cls := 5, struct := 14, aux := word (hbm * 512) }))

/-- `HIGH_RANGE_EXIT` (R374); a second refresh slot stays until another plan is installed (R453). -/
def execHighRangeExit (hbm : Nat) (s : State) : Host.Outcome State Fault Refusal :=
  s.devEvent (guardOpt (decide (hbm < 8) && (s.dev.hbm hbm).high)
    (s.dev.updHbm hbm fun h => { h with high := false }))

/-- The `refbal` that a returned read leaves (R114): that of its serving slot, or, where that slot's start has not been
seen, the channel's present balance; a read that no pseudo-channel served leaves it unchanged. -/
def Device.sldRefbal (d : Device) (p : PendSld) (old : Word) : Word :=
  match p.chan with
  | none => old
  | some (hb, c) => p.refbal.getD (refbalOf hb c ((d.hbm hb).chan c).bal)

/-- The 64 bytes that HBM moved for a slotted read, and the cycles that hot-row throttling held it, charged to the tenant of
the context's binding (R343, R452); weight SRAM moves none of HBM's. -/
def Device.chargeRead (d : Device) (a : Nat) (p : PendSld) : Device :=
  match d.blockOf a, p.chan with
  | some b, some _ => d.updMeter ((d.block b).get fTenant) fun m => { m with mbyt := m.mbyt + 64, thr := m.thr + word p.held }
  | _, _ => d

/-- Where a slotted read stands among those that its context had served: by its slot, then as issued. -/
def PendSld.key (p : PendSld) : Nat × Nat × Nat := (p.win.getD 0, p.issue, p.pos)

/-- Whether a read was not served before the one at `k`. -/
def PendSld.notBefore (p : PendSld) (k : Nat × Nat × Nat) : Bool :=
  let q := p.key
  decide (k.1 < q.1) || (q.1 == k.1 && (decide (k.2.1 < q.2.1) || (q.2.1 == k.2.1 && decide (k.2.2 ≤ q.2.2))))

/-- A slotted read returned (R109, R114): `slat` updated, and `refbal` where none of the context's reads served after it has
returned before; its hold charged and its claim gone. -/
def Device.returnSld (d : Device) (a : Nat) (p : PendSld) : Device :=
  let newest (c : Ctx) : Bool := p.chan.isSome && p.notBefore c.refAt
  let d1 := (d.chargeRead a p).updCtx a fun c =>
    { c with slds := c.slds.erase p, slat := c.slat + word p.late
             refbal := if newest c then d.sldRefbal p c.refbal else c.refbal, refAt := if newest c then p.key else c.refAt }
  match p.chan, p.win with
  | some (hb, c), some i => d1.updHbm hb fun h => h.updChan c fun x => { x with claims := x.claims.filter fun e => !(e.slot == i && e.line == p.line) }
  | _, _ => d1

/-- Whether a slotted read returns by the present cycle: its slot is known, and its cycle has come. -/
def Device.sldDue (d : Device) (p : PendSld) : Bool := decide (p.ret ≤ d.cycle) && (p.chan.isNone || p.win.isSome)

/-- `SLD_RETURN` (R109): the oldest read of the context whose cycle of return has come. -/
def execSldReturn (agent : Nat) (s : State) : Host.Outcome State Fault Refusal :=
  s.devEvent (((s.dev.ctx agent).slds.find? s.dev.sldDue).map fun p => s.dev.returnSld agent p)

end Sys2Proof.Machine
end

