-- ==== Sys2Proof/Machine/ImageLoad.lean ====
section
/-! DEFINITION. The image loader (R70, R89, R200 to R204): an image's bytes read into its tables, or rejected. -/

namespace Sys2Proof.Machine

/-- The doubleword at a byte offset of an image. -/
def imgDw (bs : List Byte) (off : Nat) : Word := word (ofBytes ((bs.drop off).take 8))

/-- Whether a doubleword is zero outside the bits of a mask. -/
def onlyBits (w mask : Word) : Bool := w &&& ~~~mask == 0

/-- The bytes of the tables of an image: header, buffers, queues, barriers and touch list (R200). -/
def tableBytes (nbuf nq nbar ntouch : Nat) : Nat := 128 + 32 * nbuf + 8 * (nq + nbar + ntouch)

/-- Whether an image's header passes the checks of R201 and R204. -/
def headerOk (bs : List Byte) : Bool :=
  let w (i : Nat) : Word := imgDw bs (8 * i)
  let modes := bits (w 1) 15 14
  let size := bits (w 1) 19 16
  w 0 == word (2 ^ 32 + 0x495A5844) && onlyBits (w 1) 0xFFFFFFFF001FC001 && onlyBits (w 2) 0x07FF07FF07FF &&
    onlyBits (w 3) 0x07FF07FF07FF && onlyBits (w 5) 0x01FFFFFFFFFFFFC0 && onlyBits (w 6) 0x0000FFFFFFFFFFFF &&
    onlyBits (w 7) 0x000001FF007F03FF && onlyBits (w 8) 0xFFFFFFFF && ((List.range 7).all fun i => w (9 + i) == 0) &&
    modes != 0 && decide (size ≤ 8) && !(size == 8 && modes == 2) && decide (rmOf (w 4) ≤ 4) &&
    decide (1 ≤ bits (w 7) 9 0 ∧ bits (w 7) 9 0 ≤ 512 ∧ bits (w 7) 22 16 ≤ 64 ∧ bits (w 7) 40 32 ≤ 256)

/-- Whether a boundary set divides a pool of `top` pages (R70). -/
def boundsOk (b1 b2 b3 : BitVec 11) (top : Nat) : Bool :=
  decide (1 ≤ b1.toNat ∧ b1.toNat ≤ 16 ∧ b1.toNat ≤ b2.toNat ∧ b2.toNat ≤ b3.toNat ∧ b3.toNat ≤ top)

/-- The buffer entry at an offset (R202) with its initial contents, and whether its fields and initial contents pass the
checks of R204. -/
def readBuffer (bs : List Byte) (off : Nat) : Buffer × Bool :=
  let w (i : Nat) : Word := imgDw bs (off + 8 * i)
  let u : Buffer := {
    va := (w 0).toNat, size := (w 1).toNat, psz := (w 2).extractLsb' 0 2, kind := (w 2).extractLsb' 2 2,
    w := (w 2).getLsbD 4, x := (w 2).getLsbD 5, e := (w 2).getLsbD 6
    init := if (w 2).getLsbD 7 then (bs.drop (w 3).toNat).take (bits (w 2) 63 24 * 4096) else [] }
  let page := 2 ^ winShift u.psz
  let flen := bits (w 2) 63 24 * 4096
  (u, onlyBits (w 0) 0x01FFFFFFFFFF0000 && onlyBits (w 2) 0xFFFFFFFFFF0000FF && onlyBits (w 3) 0xFFFFFFFFFF &&
    decide (u.va % page = 0 ∧ u.size % page = 0 ∧ flen ≤ u.size ∧ (flen = 0 ∨ (w 3).toNat + flen ≤ bs.length)))

/-- Whether two buffers overlap (R89). -/
def Buffer.meets (a b : Buffer) : Bool := decide (a.va < b.va + b.size ∧ b.va < a.va + a.size)

/-- Whether no two elements of a list are related. -/
def pairwiseNot {α : Type} (p : α → α → Bool) : List α → Bool
  | [] => true
  | x :: r => r.all (fun y => !p x y) && pairwiseNot p r

/-- Whether an address lies in a buffer. -/
def inBuffers (us : List Buffer) (va : Nat) : Bool := us.any fun u => decide (u.va ≤ va ∧ va < u.va + u.size)

/-- The queue entry of a doubleword, and whether its fields are in range (R203). -/
def readQueue (w : Word) : (Nat × StreamQ) × Bool :=
  ((bits w 5 0, { cap := bits w 23 8, prod := bits w 40 32, cons := bits w 56 48 }),
    onlyBits w 0x01FF01FF00FFFF3F && decide (1 ≤ bits w 23 8))

/-- The barrier entry of a doubleword, and whether its fields are in range (R203). -/
def readBarrier (w : Word) : (Nat × Nat) × Bool :=
  ((bits w 7 0, bits w 26 16), onlyBits w 0x07FF00FF && decide (1 ≤ bits w 26 16 ∧ bits w 26 16 ≤ 1024))

/-- Whether every core's queue pool holds the stream queues it consumes (R70). -/
def poolsHold (qs : List (Nat × StreamQ)) (lpb3 upb3 : BitVec 11) : Bool :=
  qs.all fun e =>
    let c := e.2.cons
    let used := (qs.filter fun f => f.2.cons == c).foldl (fun n f => n + f.2.cap) 0
    decide (used ≤ (if c % 2 = 1 then 768 - upb3.toNat else 1024 - lpb3.toNat) * 16)

/-- An image of a base-model generation and sharing domain as its bytes give it, with its identifier, or none where the
loader rejects it (R204). -/
def loadImage (bs : List Byte) (gen sdom : Word32) : Option (Nat × Image) :=
  let w (i : Nat) : Word := imgDw bs (8 * i)
  let nbuf := bits (w 7) 9 0
  let nq := bits (w 7) 22 16
  let nbar := bits (w 7) 40 32
  let ntouch := bits (w 8) 31 0
  let shape := bits (w 1) 20 16
  if bs.length < 128 ∨ !headerOk bs ∨ bs.length < tableBytes nbuf nq nbar ntouch then none
  else
    let us := (List.range nbuf).map fun i => readBuffer bs (128 + 32 * i)
    let q0 := 128 + 32 * nbuf
    let qs := (List.range nq).map fun i => readQueue (imgDw bs (q0 + 8 * i))
    let ns := (List.range nbar).map fun i => readBarrier (imgDw bs (q0 + 8 * (nq + i)))
    let ts := (List.range ntouch).map fun i => imgDw bs (q0 + 8 * (nq + nbar + i))
    let bufs := us.map (·.1)
    let i : Image := {
      shape := BitVec.ofNat 5 shape, modes := (w 1).extractLsb' 14 2, sys := (w 1).getLsbD 0,
      lpb1 := (w 2).extractLsb' 0 11, lpb2 := (w 2).extractLsb' 16 11, lpb3 := (w 2).extractLsb' 32 11,
      upb1 := (w 3).extractLsb' 0 11, upb2 := (w 3).extractLsb' 16 11, upb3 := (w 3).extractLsb' 32 11,
      fcsr := fcsrWrite 0 (w 4), entry := (w 5).toNat, tx := bits (w 6) 15 0, ty := bits (w 6) 31 16, tz := bits (w 6) 47 32,
      buffers := bufs, queues := qs.foldl (fun m e => mset m e.1.1 e.1.2) [],
      bars := ns.foldl (fun m e => mset m e.1.1 e.1.2) [], touch := ts.map (·.toNat), gen := gen, sdom := sdom }
    let ok := us.all (·.2) && qs.all (·.2) && ns.all (·.2) && ts.all (fun t => onlyBits t 0x01FFFFFFFFFF0000) &&
      boundsOk i.lpb1 i.lpb2 i.lpb3 1024 &&
      (if lowerOnly shape then w 3 == 0 else boundsOk i.upb1 i.upb2 i.upb3 768) &&
      poolsHold (qs.map (·.1)) i.lpb3 i.upb3 && pairwiseNot Buffer.meets bufs &&
      decide ((bufs.flatMap Buffer.pages).length ≤ 512) && pairwiseNot (fun a b => a.1.1 == b.1.1) qs &&
      pairwiseNot (fun a b => a.1.1 == b.1.1) ns && inBuffers bufs i.entry && i.touch.all (inBuffers bufs)
    if ok then some (bits (w 1) 63 32, i) else none

end Sys2Proof.Machine
end

