-- ==== Sys2Proof/Machine/Launch.lean ====
section
/-! DEFINITION. Launches (R347, R370, R371, R472, R473): the commands, the packets that arrive, replies and refusals, and a
gang's acknowledgements, confirmation and abort. -/

namespace Sys2Proof.Machine

/-! ## A packet at its target (R347, R370, R472) -/

/-- What becomes of a launch packet: appended, forwarded by a buoy, or refused with a reason. -/
inductive Fate where
  | taken (s : State)
  | sent (s : State)
  | refused (reason : Nat)
  | lost
  deriving Repr

/-- The record that a launch makes (R370): its `reqid` is free (the manual states none). -/
def launchRec (m : Block) (l : LaunchPacket) (x : Nat) : Rec :=
  { unit := 0, units := unitsOf l.payload.length, rkid := BitVec.ofNat 12 (m.get fRkid),
    fnid := BitVec.ofNat 32 (m.get fFnid), reqid := Config.freeWord x, pcls := l.pcls, tlen := l.payload.length, got := [0],
    saddr := l.sdev.zeroExtend 128, done := true, origin := some (l.sdev.toNat, l.id), gang := l.gang }

/-- A launched request appended to a block's queue with its payload (R327, R343, R370). -/
def State.appendLaunch (s : State) (b : Nat) (l : LaunchPacket) : State :=
  let (s1, x) := s.draw
  let m := s1.dev.block b
  let r := launchRec m l x
  let s2 := s1.appendRec b r
  let first := m.get fQtail + 1
  let s3 := (unitPieces (l.payload.length / 64 + 1) l.payload).zipIdx.foldl
    (fun t e => t.queuePut b agHarbour (m.unitPa (first + e.2)) e.1) s2
  let d := s3.dev.updMeter (m.get fTenant) fun k =>
    { k with ibyt := k.ibyt + word l.payload.length, nreq := k.nreq + 1 }
  { s3 with dev := s.dev.copyChanges d }

/-- A launch packet handled at this device: by the block it names, or by a buoy that stands for it (R347). -/
def State.takeLaunch (s : State) (l : LaunchPacket) : Fate :=
  let m := s.dev.block l.blk
  if l.blk < 32768 ∧ m.get fState ≠ sFree ∧ m.get fGen = l.gen.toNat then
    match s.dev.appendStatus l.blk (unitsOf l.payload.length) with
    | 0 => .taken (s.appendLaunch l.blk l)
    | st => .refused st
  else
    match s.dev.buoy (l.blk * 256 + l.gen.toNat) with
    | some u => if s.dev.reachable u.dev then .sent { s with dev := s.dev.send (.launch u.dev { l with blk := u.blk }) } else .lost
    | none => .refused 1

/-! ## Access control (R369) -/

/-- The valid access-control entries in ascending index. -/
def Device.aclEntries (d : Device) : List Acl := (d.out.acl.map (·.2)).filter fun e => e.w0.getLsbD 63

/-- The rights of the first entry of a source device and tenant whose range covers some addresses or indexes; `typ` 0 for
memory, 1 for blocks. The answer holds the entry's key identifier. -/
def Device.aclMatch (d : Device) (typ : Bool) (sdev ten lo hi : Nat) : Option (Nat × Nat) :=
  (d.aclEntries.find? fun e =>
    e.w0.getLsbD 62 == typ && bits e.w0 8 0 == sdev && bits e.w0 39 28 == ten && decide (e.w1.toNat ≤ lo ∧ hi ≤ e.w2.toNat)).map
    fun e => (bits e.w0 55 52, bits e.w0 51 40)

/-- Whether a source may launch a block. -/
def Device.mayLaunch (d : Device) (sdev ten b : Nat) : Bool :=
  match d.aclMatch true sdev ten b b with
  | some (rt, _) => rt.testBit 3
  | none => false

/-- The record of a denial (R471). -/
def Device.denied (d : Device) (sdev : Nat) : Device := d.postDev 4 0 0x0915 (word sdev)

/-- A launch packet from the fabric (R369, R370, R472). -/
def State.launchArrives (s : State) (l : LaunchPacket) : State :=
  let fail (t : State) (reason : Nat) : State :=
    { t with dev := t.dev.send (.launchFail l.sdev.toNat l.id (BitVec.ofNat 16 reason)) }
  if !s.dev.mayLaunch l.sdev.toNat l.ten.toNat l.blk then fail { s with dev := s.dev.denied l.sdev.toNat } 0xFFFF
  else
    match s.takeLaunch l with
    | .taken t => t
    | .sent t => t
    | .refused r => fail s r
    | .lost => fail s 15

/-- `LAUNCH_PACKET_RECEIVE` (R370). -/
def execLaunchPacketReceive (l : LaunchPacket) (s : State) : Host.Outcome State Fault Refusal :=
  s.event (some (s.launchArrives l))

/-! ## The commands (R357, R370, R371) -/

/-- The bytes of payload words. -/
def wordBytes (ws : List Word32) : List Byte := ws.flatMap fun w => toBytes w.toNat 4

/-- The tenant that a command's launches carry (R369): the device ring's. -/
def Device.launchTenant (d : Device) (who : Nat) : BitVec 12 := BitVec.ofNat 12 ((d.tenantOf who).getD 0)

/-- A member's hold, of its binding or of what a pre-emption saved of it. -/
def Device.gangHold (d : Device) (b : Nat) : Option GangHold :=
  match d.binding b with
  | some k => k.gang
  | none => (d.block b).saved.bind fun v => v.group.gang

/-- Whether a device ring's tenant has a gang member that is not yet confirmed, bound or saved: its launch packets are held
(R371). -/
def Device.launchHeld (d : Device) (who : Nat) : Bool :=
  let held (b : Nat) : Bool := (d.gangHold b).isSome && (d.block b).get fTenant + 260 == who
  decide (260 ≤ who) && ((d.tab.bindings.any fun e => held e.1) || d.tab.blocks.any fun e => held e.1)

/-- A packet sent to a device, or handled here when the number is this device's own. -/
def State.sendLaunch (s : State) (dev : Nat) (l : LaunchPacket) : Fate :=
  if dev = s.dev.out.devno.toNat then s.takeLaunch l
  else if s.dev.reachable dev then .sent { s with dev := s.dev.send (.launch dev l) }
  else .lost

/-- A launch noted under its number. -/
def Device.noteLaunch (d : Device) (id n : Nat) (x : Launch) : Device :=
  d.updOut fun o => { o with launches := mset o.launches id x, nextLaunch := id + n }

/-- The reply address of a launch: a device ring's is ignored (R357). -/
def replyAddr (d : Device) (q addr : Nat) : Option Nat := if (d.hq q).dev then none else some addr

/-- What `LAUNCH` does (R370, R472). -/
def launchPerform (c : Cmd) (s : State) : CmdEnd :=
  let n := pw c 5
  if 512 ≤ pw c 0 ∨ 32768 ≤ pw c 1 ∨ 256 ≤ pw c 2 ∨ 1024 < n then refuse s 5
  else
    let id := s.dev.out.nextLaunch
    let l : LaunchPacket := {
      sdev := s.dev.out.devno, ten := s.dev.launchTenant c.who, id := id, blk := pw c 1, gen := BitVec.ofNat 8 (pw c 2),
      pcls := c.arg.extractLsb' 0 3, gang := false, payload := wordBytes (c.words.drop 6) }
    let x : Launch := { q := c.q, reply := replyAddr s.dev c.q (pd c 3), members := [(pw c 0, pw c 1)], since := s.dev.cycle }
    match s.sendLaunch (pw c 0) l with
    | .taken t => .under { t with dev := t.dev.noteLaunch id 1 x } (.launch id)
    | .sent t => .under { t with dev := t.dev.noteLaunch id 1 x } (.launch id)
    | .refused r => .done s 8 (word r)
    | .lost => refuse s 15

/-- `LAUNCH` (R370): count 6 + n. -/
def execLaunch (c : Cmd) (s : State) : Host.Outcome State Fault Refusal :=
  if s.dev.launchHeld c.who then .next { s with last := .ignored }
  else
    s.command c 0x30 (decide (6 ≤ c.words.length) && c.words.length == 6 + pw c 5 && decide (c.arg.toNat < 8))
      { o := true, d := true } (launchPerform c)

/-- The members that a `GANG_LAUNCH` names: device, index and generation. -/
def gangMembers (c : Cmd) : List (Nat × Nat × Nat) :=
  (List.range (pw c 0)).map fun i => (pw c (4 + 3 * i), pw c (5 + 3 * i), pw c (6 + 3 * i))

/-- What `GANG_LAUNCH` does (R371): member i's packet bears the launch's number plus i. -/
def gangPerform (c : Cmd) (s : State) : CmdEnd :=
  let ms := gangMembers c
  if pw c 0 < 2 ∨ 16 < pw c 0 ∨ ms.any (fun m => decide (512 ≤ m.1 ∨ 32768 ≤ m.2.1 ∨ 256 ≤ m.2.2)) then refuse s 5
  else
    let id := s.dev.out.nextLaunch
    let send (t : State) (e : (Nat × Nat × Nat) × Nat) : State :=
      let l : LaunchPacket := {
        sdev := s.dev.out.devno, ten := s.dev.launchTenant c.who, id := id + e.2, blk := e.1.2.1,
        gen := BitVec.ofNat 8 e.1.2.2, pcls := c.arg.extractLsb' 0 3, gang := true,
        payload := wordBytes (c.words.drop (4 + 3 * pw c 0)) }
      match t.sendLaunch e.1.1 l with
      | .taken u => u
      | .sent u => u
      | .refused _ => t
      | .lost => t
    let x : Launch := { q := c.q, reply := replyAddr s.dev c.q (pd c 1), members := ms.map fun m => (m.1, m.2.1), gang := true,
                        since := s.dev.cycle }
    let t := ms.zipIdx.foldl send s
    .under { t with dev := t.dev.noteLaunch id ms.length x } (.launch id)

/-- `GANG_LAUNCH` (R371): count 4 + 3m + n. -/
def execGangLaunch (c : Cmd) (s : State) : Host.Outcome State Fault Refusal :=
  if s.dev.launchHeld c.who then .next { s with last := .ignored }
  else
    s.command c 0x31 (decide (4 ≤ c.words.length) && c.words.length == 4 + 3 * pw c 0 + pw c 3 && decide (c.arg.toNat < 8))
      { o := true, d := true } (gangPerform c)

/-! ## What comes back to the originator (R370 to R373, R472, R473) -/

/-- The launch that bears a number. -/
def Device.launchOf (d : Device) (id : Nat) : Option Launch := mfind d.out.launches id

/-- A launch changed. -/
def Device.setLaunch (d : Device) (id : Nat) (x : Launch) : Device :=
  d.updOut fun o => { o with launches := mset o.launches id x }

/-- A launch gone and its command completed. -/
def State.endLaunch (s : State) (id st : Nat) (v : Word) : State :=
  State.finishKind { s with dev := s.dev.updOut fun o => { o with launches := mdel o.launches id } } (· == .launch id) st v

/-- A reply's payload written at the reply address, after what earlier replies of the launch have written there. -/
def State.replyBytes (s : State) (x : Launch) (payload : List Byte) : State :=
  match x.reply with
  | some a => s.cmdPut x.q false (a + x.bytes) payload
  | none => s

/-- `LAUNCH_REPLY_RECEIVE` (R370, R371, R472): a reply of the launched binding, or the refusal of its packet; a gang's
command completes with the final reply of member 0 once the gang is confirmed. -/
def execLaunchReplyReceive (id : Nat) (payload : List (BitVec 8)) (final : Bool) (refused : Option (BitVec 16)) (s : State) :
    Host.Outcome State Fault Refusal :=
  s.event (do
    let x ← s.dev.launchOf id
    match refused with
    | some r => guardOpt (!x.gang) (if r = 15 then s.endLaunch id 15 0 else s.endLaunch id 8 (r.zeroExtend 64))
    | none =>
      let t := s.replyBytes x payload
      let y : Launch := { x with bytes := x.bytes + payload.length, final := if final then some payload.length else none }
      if final ∧ !x.gang then some (t.endLaunch id 0 (word payload.length))
      else some { t with dev := t.dev.setLaunch id y })

/-- The gang launch that member number `id` belongs to: its number, the launch and the member's place. -/
def Device.gangOf (d : Device) (id : Nat) : Option (Nat × Launch × Nat) :=
  (d.out.launches.find? fun e => e.2.gang && decide (e.1 ≤ id ∧ id < e.1 + e.2.members.length)).map fun e => (e.1, e.2, id - e.1)

/-- Every member of a launch sent a message. -/
def Device.toMembers (d : Device) (x : Launch) (msg : Nat → Nat → Out) : Device :=
  x.members.foldl (fun y m => y.send (msg m.1 m.2)) d

/-- `GANG_ACK_RECEIVE` (R371, R473): an acknowledgement within 20 µs of the last packet; with the last of them the
confirmation goes to every member. -/
def execGangAckReceive (id dev : Nat) (s : State) : Host.Outcome State Fault Refusal :=
  s.event (do
    let (base, x, i) ← s.dev.gangOf id
    let m ← x.members[i]?
    let acks := if x.acks.contains i then x.acks else i :: x.acks
    let y : Launch := { x with acks := acks }
    let all := decide (acks.length = x.members.length)
    let d := if all then (s.dev.setLaunch base { y with gang := false }).toMembers x fun a b => .gangConfirm a b
      else s.dev.setLaunch base y
    let t : State := { s with dev := d }
    guardOpt (m.1 == dev && decide (s.dev.cycle ≤ x.since + cyclesUs 20))
      (match all, x.final with | true, some n => t.endLaunch base 0 (word n) | _, _ => t))

/-- `GANG_ACK_TIMEOUT` (R473): every member aborted, and the command completed with the device of the first that has not
acknowledged. -/
def execGangAckTimeout (id : Nat) (s : State) : Host.Outcome State Fault Refusal :=
  s.event (do
    let x ← s.dev.launchOf id
    let e ← x.members.zipIdx.find? fun e => !x.acks.contains e.2
    let d := s.dev.toMembers x fun a b => .gangAbort a b
    guardOpt (x.gang && decide (x.since + cyclesUs 20 < s.dev.cycle)) (State.endLaunch { s with dev := d } id 8 (word e.1.1)))

/-! ## A gang's member (R371, R473) -/

/-- A member without its hold. -/
def Device.endHold (d : Device) (b : Nat) : Device :=
  match d.binding b with
  | some k => d.setBinding b { k with gang := none }
  | none => d.updBlock b fun m => { m with saved := m.saved.map fun v => { v with group := { v.group with gang := none } } }

/-- `GANG_CONFIRM_RECEIVE` (R371): the held traffic leaves in commit order, of a member that has been pre-empted as well. -/
def execGangConfirmReceive (blk : Nat) (s : State) : Host.Outcome State Fault Refusal :=
  s.devEvent (do
    let g ← s.dev.gangHold blk
    let d := s.dev.endHold blk
    let mark := d.updBlock blk fun m =>
      { m with recs := match m.recs with | r :: l => { r with gang := false } :: l | [] => [] }
    some (g.sends.foldl (fun x y => x.emit (some blk) y) mark))

/-- The launch packets that wait in the device rings of a block's tenant dropped (R473). -/
def Device.dropHeld (d : Device) (b : Nat) : Device :=
  (d.waitingRings ((d.block b).get fTenant)).foldl (fun x q => Device.dropLaunches q 1024 x) d

/-- A member's launch undone (R473): the held traffic, its launch packets among it, and its record dropped, its unpinned
tasks aborted with GANG, and its binding ended. -/
def Device.gangAbort (d : Device) (b origin : Nat) : Device :=
  match d.binding b with
  | none => d
  | some k =>
    let d1 := (d.setBinding b { k with gang := none }).dropHeld b
    let abort (x : Device) (a : Nat) : Device :=
      match (x.ctx a).task with
      | some t => if t.blk = b ∧ t.pin ≠ .firm then x.abortTask a cGANG (word origin) else x
      | none => x
    let d2 := ((k.agents.foldl abort d1).release b).popHead b
    d2.settle b false

/-- The record of a gang launched from `origin` that a queue not bound holds, dropped (R473), with the traffic and the state
that a pre-emption of its binding had saved. -/
def Device.dropGangRecord (d : Device) (b origin : Nat) : Option Device :=
  let mine (r : Rec) : Bool := r.gang && (match r.origin with | some o => o.1 == origin | none => false)
  match (d.block b).recs.find? mine with
  | none => none
  | some r =>
    let recs := (d.block b).recs.map fun x => if x.unit = r.unit then { x with abandoned := true, gang := false } else x
    let atHead : Bool := match (d.block b).head with | some x => x.unit == r.unit | none => false
    let d1 := if atHead && (d.gangHold b).isSome then d.dropHeld b else d
    let d2 := d1.updBlock b fun m => { m with recs := recs, saved := if atHead then none else m.saved }
    if atHead ∧ d.mstate b = sPreempted then some (d2.settle b false)
    else
      let d3 := d2.skipAbandoned b
      some (if d3.mstate b = sQueued ∧ (d3.block b).recs.isEmpty then d3.setMstate b sIdle else d3).noteCandidates

/-- `GANG_ABORT_RECEIVE` (R473): by the binding that serves the launch, or by the queue that still holds its record; a
member that holds none ignores it. -/
def execGangAbortReceive (blk origin : Nat) (s : State) : Host.Outcome State Fault Refusal :=
  s.devEvent (
    let serving : Bool := match s.dev.binding blk, (s.dev.block blk).head with
      | some _, some r => r.gang && (match r.origin with | some o => o.1 == origin | none => false)
      | _, _ => false
    if serving then some (s.dev.gangAbort blk origin)
    else s.dev.dropGangRecord blk origin)

/-- `GANG_MEMBER_TIMEOUT` (R473): 1 ms after the acknowledgement. -/
def execGangMemberTimeout (blk : Nat) (s : State) : Host.Outcome State Fault Refusal :=
  s.devEvent (do
    let g ← s.dev.gangHold blk
    let d ← if (s.dev.binding blk).isSome then some (s.dev.gangAbort blk g.origin) else s.dev.dropGangRecord blk g.origin
    guardOpt (decide (g.since + cyclesMs 1 ≤ s.dev.cycle)) d)

end Sys2Proof.Machine
end

