-- ==== Sys2Proof/Machine/Fabric.lean ====
section
/-! DEFINITION. The scale-up fabric (R81, R126, R347, R368, R369, R470 to R472): numbering, links, and the remote accesses that
reach this device or go unanswered. -/

namespace Sys2Proof

/-- The key that the two shares of a link's exchange give (R368): the exchange's own, of which no manual gives the form. -/
opaque Config.linkKey (own peer : List Byte) : BitVec 256

end Sys2Proof

namespace Sys2Proof.Machine

/-! ## Numbering and links (R368, R470) -/

/-- The number of scale-up link ports (R25). -/
def linkPorts : Nat := 24

/-- One end's share of a link's key exchange: the end's own choice, of which the manual gives no form. -/
def linkShare (x : Nat) : List Byte := (List.range 6).flatMap fun i => toBytes (Config.freeWord (x + i)).toNat 8

/-- `LINK_TRAINING` (R368): this end's share leaves, signed with its attestation key; the link comes up under the key that
both shares give, the other end's signature having been found good. -/
def execLinkTraining (port : Nat) (s : State) : Host.Outcome State Fault Refusal :=
  let (s1, x) := s.drawN 12
  let own := linkShare x
  let offer : Out := .linkOffer port own (signWith s.dev.cdi2 labelAttest own)
  s.event (guardOpt (decide (port < linkPorts)) { s1 with dev := (s1.dev.updOut fun o =>
    { o with linkUp := setBits o.linkUp port port 1, flitTries := mdel o.flitTries port
             linkKeys := mset o.linkKeys port (Config.linkKey own (linkShare (x + 6))) }).send offer })

/-- The device without a port in its links and route sets. -/
def Device.dropPort (d : Device) (port : Nat) : Device :=
  d.updOut fun o => { o with linkUp := setBits o.linkUp port port 0, linkKeys := mdel o.linkKeys port
                             flitTries := mdel o.flitTries port
                             routes := o.routes.map fun r => (r.1, r.2.filter (· != port)) }

/-- The launches whose target can no longer be reached completed (R472). -/
def State.failLaunches (s : State) : State :=
  let lost (e : Nat × Launch) : Bool :=
    !e.2.gang && (match e.2.members with
      | [m] => m.1 != s.dev.out.devno.toNat && !s.dev.reachable m.1
      | _ => false)
  (s.dev.out.launches.filter lost).foldl (fun t e => t.endLaunch e.1 15 0) s

/-- The migrations whose destination can no longer be reached aborted (R465). -/
def State.failMigrations (s : State) : State :=
  (s.dev.out.migs.filter fun e => !s.dev.reachable e.2.dev).foldl
    (fun t e => match t.dev.migration e.1 with | some g => t.abortMigration e.1 g | none => t) s

/-- What a change of links or routes has left without a way ended (R465, R472). -/
def State.failUnreachable (s : State) : State := s.failLaunches.failMigrations

/-- A link that has gone down (R470): a class-6 record, the port out of every route set, and what needed it ended. -/
def State.linkLost (s : State) (port : Nat) : State :=
  State.failUnreachable { s with dev := (s.dev.dropPort port).postDev 6 0 (0x0A00 + port) 0 }

/-- `DEVICE_NUMBERING` (R368): the device number and the route table; what they leave without a way ends. -/
def execDeviceNumbering (devno : BitVec 9) (routes : List (Nat × List Nat)) (s : State) : Host.Outcome State Fault Refusal :=
  s.event (guardOpt (routes.all fun r => decide (r.1 < 512) && r.2.all fun p => decide (p < linkPorts))
    (State.failUnreachable { s with dev := s.dev.updOut fun o =>
      { o with devno := devno, routes := routes.foldl (fun m r => mset m r.1 r.2) [] } }))

/-- `FLIT_ERROR` (R470): a flit fails, and is sent again; when its 16 retries have failed too, the link goes down. -/
def execFlitError (port : Nat) (s : State) : Host.Outcome State Fault Refusal :=
  let n := mget 0 s.dev.out.flitTries port + 1
  s.event (guardOpt (decide (port < linkPorts) && s.dev.out.linkUp.getLsbD port)
    (if 16 < n then s.linkLost port
     else { s with dev := s.dev.updOut fun o => { o with flitTries := mset o.flitTries port n } }))

/-- `LINK_DOWN` (R470): a link that loses its lock. -/
def execLinkDown (port : Nat) (s : State) : Host.Outcome State Fault Refusal :=
  s.event (guardOpt (decide (port < linkPorts) && s.dev.out.linkUp.getLsbD port) (s.linkLost port))

/-! ## Remote accesses at this device (R81, R126, R369, R471) -/

/-- The key identifier under which a remote access to some bytes is served, or none where it is denied. -/
def Device.remoteKid (d : Device) (r : RemoteAccess) (right pa n : Nat) : Option Nat :=
  match d.aclMatch false r.sdev.toNat r.ten.toNat pa (pa + n - 1) with
  | some (rt, kid) => if rt.testBit right ∧ isLocal pa ∧ isLocal (pa + n - 1) then some kid else none
  | none => none

/-- A remote operation as a buffered one (R255). -/
def opKind : RemoteOp → BufKind
  | .store bs => .store bs
  | .red f v =>
    match f with
    | 0 => .redAdd 8 v
    | 1 => .redMin 8 v
    | 2 => .redMax 8 v
    | _ => .redFadd [v.setWidth 32]

/-- The leases of some lines raised to a stamp (R117). -/
def Device.leaseTo (d : Device) (lines : List Nat) (st : Nat) : Device :=
  lines.foldl (fun y l => y.updLine l fun e => { e with lease := Nat.max e.lease st }) d

/-- The poisoned ones among some lines that a peer reads recorded in this device's own fault-address queue (R447). -/
def Device.peerMet (d : Device) (lines : List Nat) : Device :=
  (lines.filter fun l => (d.line l).poison).foldl (fun x l => x.faqPush 3 2 l) d

/-- A remote load served under the key that its access-control entry gives (R84, R369): its bytes at a new stamp. -/
def State.remoteLoad (s : State) (r : RemoteAccess) (kid n : Nat) : State :=
  let (s1, st) := s.masterStamp
  let lines := linesOf r.pa n
  let bad := lines.any fun l => (s.dev.line l).poison
  { s1 with dev := ((s1.dev.leaseTo lines st).peerMet lines).send (.remoteData r.sdev.toNat (s.dev.bytesUnder kid r.pa n) bad) }

/-- The line and answer of a change of a record's count by operation 9 (R44, R45, R260): `w` as `countWord` lays it out. -/
def Device.remoteCount (d : Device) (wr : Writer) (pa : Nat) (v w : Word) : Device × List Byte :=
  let bs := d.lineUnder (pa / 64) wr.kid
  let (w0, w3) := rearm (w.extractLsb' 0 31) (recOf bs)
  let new : Int := bits w0 15 0 + v.toInt
  let d1 :=
    if 0 ≤ new ∧ new ≤ 65535 then d.writePred wr pa (setBits w0 15 0 new.toNat) w3
    else if w.getLsbD 31 then d.writePred wr pa w0 w3
    else d.published wr.st
  (d1, toBytes w0.toNat 8 ++ (bs.drop 8).take 16 ++ toBytes w3.toNat 8 ++ bs.drop 32)

/-- A remote atomic served (R123, R126, R253). -/
def State.remoteAtomic (s : State) (r : RemoteAccess) (kid n op : Nat) (v w : Word) : State :=
  let (s1, x) := s.draw
  if (s.dev.line (r.pa / 64)).poison then
    { s1 with dev := (s1.dev.peerMet [r.pa / 64]).send (.remoteData r.sdev.toNat [] true) }
  else
    let lines := linesOf r.pa n
    let wr : Writer := ⟨0x0A00 + r.port, stampAbove x (s.dev.writeFloor lines), none, kid⟩
    let old := s.dev.bytesUnder kid r.pa n
    let done : Device × List Byte :=
      if op = 9 then s.dev.remoteCount wr r.pa v w
      else match amoNew op n (ofBytes old) v.toNat w.toNat with
        | some z => (((s.dev.touchRange wr r.pa n false).poke r.pa (toBytes z n)).published wr.st, old)
        | none => ((s.dev.leaseTo lines wr.st).published wr.st, old)
    { s1 with dev := done.1.send (.remoteData r.sdev.toNat done.2 false) }

/-- A remote task's operations published as one event (R81, R126). -/
def State.remotePublish (s : State) (r : RemoteAccess) (ops : List BufOp) : State :=
  let (s1, x) := s.draw
  let st := stampAbove x (s.dev.writeFloor (bufLines ops))
  { s1 with dev := (s.dev.publish ⟨0x0A00 + r.port, st, none, 0⟩ ops).published st }

/-- The operations of a publication with the keys they are served under, or none where one is denied (R471). -/
def Device.remoteOps (d : Device) (r : RemoteAccess) : List (Nat × RemoteOp) → Option (List BufOp)
  | [] => some []
  | (pa, o) :: rest =>
    match d.remoteKid r 1 pa (opKind o).len, d.remoteOps r rest with
    | some kid, some l => some ({ va := 0, pa := pa, kind := opKind o, kid := kid } :: l)
    | _, _ => none

/-- A denied access (R471). -/
def State.refuseRemote (s : State) (r : RemoteAccess) : State :=
  { s with dev := (s.dev.denied r.sdev.toNat).send (.remoteDenied r.sdev.toNat) }

/-- The device to which a buoy forwards a write at an address (R347): that of the block whose own page it was. -/
def Device.buoyAt (d : Device) (pa : Nat) : Option Nat :=
  (d.out.buoys.find? fun e => d.afloat e.2 && inRanges e.2.pages pa).map fun e => e.2.dev

/-- The writes of a publication that a buoy forwards (R347, R465): to each destination those addressed to its block's old
pages; a destination that cannot be reached loses them, with a class-6 record. -/
def Device.forwardWrites (d : Device) (r : RemoteAccess) (ops : List (Nat × RemoteOp)) : Device :=
  (uniq (ops.filterMap fun o => d.buoyAt o.1)).foldl (fun x dev =>
    let mine := ops.filter fun o => d.buoyAt o.1 == some dev
    if d.reachable dev then x.send (.forwardAccess dev { r with kind := .publish mine })
    else x.postDev 6 0 (0x0A00 + r.port) 0) d

/-- A remote access that reaches this device (R347, R369, R465). -/
def State.remote (s : State) (r : RemoteAccess) : State :=
  match r.kind with
  | .load n =>
    match s.dev.remoteKid r 0 r.pa n with
    | some kid => s.remoteLoad r kid n
    | none => s.refuseRemote r
  | .atomic n op v w =>
    match s.dev.remoteKid r 2 r.pa n with
    | some kid => s.remoteAtomic r kid n op.toNat v w
    | none => s.refuseRemote r
  | .publish ops =>
    match s.dev.remoteOps r ops with
    | none => s.refuseRemote r
    | some l =>
      let here := l.filter fun o => (s.dev.buoyAt o.pa).isNone
      let t : State := { s with dev := s.dev.forwardWrites r ops }
      if here.isEmpty && !l.isEmpty then t else t.remotePublish r here

/-- `REMOTE_ACCESS_RECEIVE` (R369): over a link that is up. -/
def execRemoteAccessReceive (r : RemoteAccess) (s : State) : Host.Outcome State Fault Refusal :=
  s.event (guardOpt (decide (r.port < linkPorts) && s.dev.out.linkUp.getLsbD r.port) (s.remote r))

/-! ## Remote accesses of this device (R471) -/

/-- `REMOTE_ACCESS_TIMEOUT` (R471): the running task's load or atomic returns its bytes poisoned. -/
def execRemoteAccessTimeout (agent : Nat) (s : State) : Host.Outcome State Fault Refusal :=
  s.devEvent (
    match (s.dev.ctx agent).task with
    | some t => some ((s.dev.postBlock 6 0 t.blk agent cPOISON 0).abortOr agent cPOISON 0)
    | none => none)

end Sys2Proof.Machine
end

