-- ==== Sys2Proof/Machine/Recovery.lean ====
section
/-! DEFINITION. Detection and recovery (R397 to R420): lockstep comparisons and rewinds, storage errors by structure,
patrol reads, the error-handling firmware's taking of records, cells offline, and stack resets. -/

namespace Sys2Proof.Machine

/-! ## Lockstep pairs (R402 to R406) -/

/-- The binding and block of a context's task. -/
def Device.taskBinding (d : Device) (a : Nat) : Option (Nat × Binding) := do
  let t ← (d.ctx a).task
  let k ← d.binding t.blk
  return (t.blk, k)

/-- The bundle whose copy the pair of context `c` compares next (R402): the last one committed while it has not compared,
and otherwise the one that the context is to issue, whose external operations, drain or task commit come after its
comparison (R62, R403). -/
def Ctx.comparing (c : Ctx) : Word := c.lastPc.getD c.regs.pc

/-- `LOCKSTEP_COMPARE` (R402, R406): the pair of the leader's context `agent` compares its follower's bundle. -/
def execLockstepCompare (agent : Nat) (same : Bool) (synd : BitVec 32) (s : State) : Host.Outcome State Fault Refusal :=
  s.devEvent (do
    let (_, k) ← s.dev.taskBinding agent
    let d := s.dev
    let next :=
      if same then d.updCtx agent fun c => { c with lastPc := none }
      else (d.mismatchRecord agent (d.ctx agent).comparing synd).rewind agent d.nextSeq
    guardOpt (k.prot && !k.follower (cellOf (coreOf agent))) next)

/-- `REWIND_REISSUE` (R404): 40 cycles after the detection the pair issues its `SEGB` bundle again. -/
def execRewindReissue (agent : Nat) (s : State) : Host.Outcome State Fault Refusal :=
  s.devEvent (do
    let t ← (s.dev.ctx agent).seg.stopped
    guardOpt ((s.dev.ctx agent).segOpen && decide (t + 40 ≤ s.dev.cycle))
      (s.dev.updCtx agent fun c => { c with seg := { c.seg with stopped := none } }))

/-! ## Storage errors (R398 to R401) -/

/-- The stack on which an event's structure lies. -/
def eccStack (e : EccEvent) : Nat :=
  match e.struct with
  | 11 => hbmOf e.pa / 2
  | 12 => hbmOf e.pa / 2
  | 13 => e.unit % 4
  | 14 => hbmOf e.pa / 2
  | 15 => 0
  | 18 => 0
  | _ => stackOf (cellOf (coreOf e.agent)) % 4

/-- Whether a structure's error names a physical address. -/
def hasPa (struct : Nat) : Bool := decide (11 ≤ struct ∧ struct ≤ 14)

/-- The tier of the fault-address queue for a memory structure (R410). -/
def tierOf (struct : Nat) : Nat := if struct = 13 then 2 else if struct = 14 then 3 else 1

/-- The block that an event concerns (R407). -/
def Device.eccBlock (d : Device) (e : EccEvent) : Option Nat :=
  if e.struct = 15 ∨ e.struct = 16 then some (e.unit % 32768)
  else if hasPa e.struct ∨ e.struct = 17 ∨ e.struct = 18 then none
  else d.holder (coreOf e.agent)

/-- The context that holds the task of a context's pair: the leader's, for one on a follower core (R61, R402). -/
def Device.pairCtx (d : Device) (a : Nat) : Nat :=
  match d.holder (coreOf a) with
  | some b => (match d.binding b with | some k => if k.follower (cellOf (coreOf a)) then a - 8 else a | none => a)
  | none => a

/-- An event's record of a class and rung (R407): the stamp, the rewinds and the bundle are those of the pair's task; the
`aux` of cause ERROR or ERRASYNC is the record's own `seq` (R421). -/
def Device.eccPost (d : Device) (e : EccEvent) (cls rung : Nat) (cause : BitVec 8) : Device :=
  let c := d.ctx (d.pairCtx e.agent)
  d.post { cls := BitVec.ofNat 8 cls, rung := BitVec.ofNat 3 rung, agent := BitVec.ofNat 16 e.agent, cause := cause,
           struct := BitVec.ofNat 16 e.struct, synd := e.synd, stamp := word c.stamp,
           rwc := BitVec.ofNat 8 (c.rewindsNow (rung == 1)),
           pc := if e.struct ≤ 10 ∧ c.task.isSome then c.comparing.setWidth 57 else 0,
           aux := if cause = cERROR ∨ cause = cERRASYNC then d.nextSeq else 0,
           pa := if hasPa e.struct then some (BitVec.ofNat 52 e.pa) else none,
           mctx := match d.eccBlock e with | some b => d.who b | none => none }

/-- A further corrected error identical to one whose class-1 record waits in the queue, merged into it (R407). -/
def Device.mergeCorrected (d : Device) (e : EccEvent) : Device :=
  let pa := if hasPa e.struct then some (BitVec.ofNat 52 e.pa) else none
  let same (r : ErrRec) : Bool :=
    !r.prev && r.cls == 1 && r.struct.toNat == e.struct && r.agent.toNat == e.agent && r.pa == pa && r.synd == e.synd
  let count (r : ErrRec) : ErrRec := if same r then { r with cnt := BitVec.ofNat 16 (Nat.min 65535 (r.cnt.toNat + 1)) } else r
  { d with err := { d.err with queue := d.err.queue.map count } }

/-- A corrected error (R399): counted by structure and stack; the first of each second is recorded, further identical ones
are merged into its record, and a line's fourth within 24 hours is pushed onto the fault-address queue. -/
def Device.corrected (d : Device) (e : EccEvent) : Device :=
  let k := e.struct * 4 + eccStack e
  let x := { d.err with corrected := mset d.err.corrected k (mget 0 d.err.corrected k + 1) }
  let first := mfind x.firstAt k != some d.second
  let d1 : Device := { d with err := { x with firstAt := mset x.firstAt k d.second } }
  let d2 := if first then d1.eccPost e 1 0 0 else d1.mergeCorrected e
  if e.struct = 11 ∨ e.struct = 13 ∨ e.struct = 14 then
    let l := e.pa / 64
    let times := d.cycle :: ((mget [] d2.err.lineErrs l).filter fun t => decide (d.cycle < t + cyclesMs 86400000))
    let full := decide (4 ≤ times.length)
    let d3 : Device := { d2 with err := { d2.err with lineErrs := mset d2.err.lineErrs l (if full then [] else times) } }
    if full then d3.faqPush (tierOf e.struct) 1 l else d3
  else d2

/-- A cell's uncorrectable error remembered (R417). -/
def Device.cellError (d : Device) (core : Nat) : Device :=
  d.updCell (cellOf core) fun c => { c with errs := d.cycle :: c.errs }

/-- Whether rung 1 applies to a context's pair (R406, R414). -/
def Device.rungOne (d : Device) (a : Nat) : Bool :=
  match d.taskBinding a with
  | some (_, k) => k.prot && (d.ctx a).rungOne
  | none => false

/-- Rung 3 for the micro-context that holds a core: in the context's task, or as a delivery with no failed task. -/
def Device.failBinding (d : Device) (b : Option Nat) (a : Nat) (seq : Word) : Device :=
  if (d.ctx a).task.isSome then d.asyncTrap a cERRASYNC seq
  else match b with | some x => d.kQueue x cERRASYNC seq none | none => d

/-- Whether a core's binding is in protected mode. -/
def Device.protHere (d : Device) (core : Nat) : Bool :=
  match d.holder core with
  | some b => (match d.binding b with | some k => k.prot | none => false)
  | none => false

/-- An operand slot (0 to 63) or accumulator bank (64, 65) made zero with tag 0. -/
def Core.blank (k : Core) (unit : Nat) : Core :=
  if unit < 64 then { k with slots := mset k.slots unit { claim := (mget {} k.slots unit).claim } }
  else { k with banks := mset k.banks (unit - 64) {} }

/-- The context whose task issued the first entry that reads a slot or bank, while that task runs (R301, R398). -/
def Core.reader (k : Core) (unit : Nat) : Option Nat :=
  (k.mq.find? fun m => m.reads.contains unit && m.tasked).map (·.ctx)

/-- The matrix entry or engine operation numbered `n` of an engine context cancelled (R398, code 10), with whether the task
that issued it still runs. -/
def Device.cancelEntry (d : Device) (a e n : Nat) : Device × Bool :=
  let k := d.core (coreOf a)
  match k.mq.find? fun m => m.ctx == a && m.e == e && m.num == n with
  | some m =>
    let d1 := d.setCore (coreOf a) { k with mq := k.mq.filter fun x => !(x.ctx == a && x.e == e && x.num == n) }
    (d1.updCtx a fun c => { c with tls := mset c.tls e ((mget {} c.tls e).drop n) }, m.tasked)
  | none => (d.cancelOps a fun o => o.is a e n, d.ops.any fun o => o.is a e n && o.tasked)

/-- A page of weight SRAM no longer held on a stack (R80). -/
def SramPage.drop (p : SramPage) (stack : Nat) : SramPage :=
  { p with mask := setBits p.mask stack stack 0, bad := p.bad.filter fun e => e.1 != stack }

/-- A page's copy removed from a stack's weight SRAM (R80, R398). -/
def Device.unplace (d : Device) (stack pa : Nat) : Device :=
  let on (key : Nat) : Bool :=
    let s := winShift (BitVec.ofNat 2 (key % 4))
    decide (key / 4 * 65536 ≤ pa ∧ pa < key / 4 * 65536 + 2 ^ s)
  d.updTab fun t => { t with placed := t.placed.map fun e => (e.1, if on e.1 then e.2.drop stack else e.2) }

/-- The block whose pre-emption context `a` has halted for with its task, and whether that task is pinned: what is read of it
after the request's cycle is read during its save (R64, R417, R420). -/
def Device.inSave (d : Device) (a : Nat) : Option (Nat × Bool) := do
  let b ← d.holder (coreOf a)
  let k ← d.binding b
  let p ← k.preempt
  let t ← (d.ctx a).task
  guardOpt (decide (p.since < d.cycle) && (d.ctx a).run == .halted) (b, t.pin != .none)

/-- A context whose state reads uncorrectable during its save (R417, R464): its task is discarded, or, when it is pinned, the
micro-context killed at rung 3. -/
def Device.saveError (d : Device) (e : EccEvent) (a b : Nat) (pinned : Bool) : Device :=
  if pinned then (d.eccPost e 3 3 cERRASYNC).kill b cERRASYNC else (d.eccPost e 3 2 cPREEMPT).abortTask a cPREEMPT 0

/-- An uncorrectable error in a core's own storage (R398, codes 1 to 10): on either core of a lockstep pair it befalls the
pair's task (R402, R406). An error in a slot, a bank or an entry befalls the task that issued what reads or holds it; for
code 10 `unit` is the engine context with 8 times the entry's number. An error in the state of a context that is being
saved has the fate of R417. -/
def Device.coreError (d : Device) (e : EccEvent) : Device :=
  let a := d.pairCtx e.agent
  let seq := d.nextSeq
  let d0 := d.cellError (coreOf e.agent)
  let rewinding (x : Device) : Device :=
    let rung := if x.rungOne a then 1 else x.rungTask a
    (x.eccPost e 3 rung (rungCause rung)).rewind a seq
  let task (x : Device) (a : Nat) : Device := (x.eccPost e 3 (x.rungTask a) (rungCause (x.rungTask a))).failTask a seq
  let context (x : Device) : Device := (x.eccPost e 3 3 cERRASYNC).failBinding (x.holder (coreOf a)) a seq
  let zero (c : Ctx) : Ctx := { c with v := mset c.v (e.unit % 64) {} }
  match (if e.struct ∈ [1, 2, 6, 7] then d0.inSave a else none) with
  | some (b, pinned) => if e.struct = 2 then (d0.saveError e a b pinned).updCtx a zero else d0.saveError e a b pinned
  | none =>
  match e.struct with
  | 1 => rewinding d0
  | 2 => if d.rungOne a then rewinding d0 else (rewinding d0).updCtx a zero
  | 3 => if d.protHere (coreOf a) then d.corrected e else context d0
  | 4 => (d.updCore (coreOf e.agent) fun k => { k with l1 := mdel k.l1 (e.pa / 64) }).corrected e
  | 5 => context d0
  | 6 => rewinding d0
  | 7 => task d0 a
  | 8 => d.corrected e
  | 9 =>
    let d1 := d0.updCore (coreOf e.agent) fun k => k.blank e.unit
    match (d.core (coreOf a)).reader e.unit with
    | some r => task d1 r
    | none => d1.eccPost e 3 0 0
  | _ =>
    let (d1, mine) := d0.cancelEntry a (e.unit % 8) (e.unit / 8)
    if mine then task d1 a else d1.eccPost e 3 0 0

/-- An uncorrectable error in memory, tables, links or firmware (R398, codes 11 to 18). For L2, `unit` tells a clean line
(0) from one newer than HBM. -/
def Device.farError (d : Device) (e : EccEvent) : Device :=
  let seq := d.nextSeq
  match e.struct with
  | 11 => if e.unit = 0 then d.corrected e else d.poisonLine 11 1 (e.pa / 64) e.agent e.synd
  | 12 => d.eccPost e 3 5 0
  | 13 => (d.eccPost e 3 0 0).unplace (e.unit % 4) e.pa
  | 14 => d.poisonLine 14 3 (e.pa / 64) e.agent e.synd
  | 15 => (d.eccPost e 3 3 cERRASYNC).kill (e.unit % 32768) cERRASYNC
  | 16 => (d.eccPost e 3 3 cERRASYNC).kQueue (e.unit % 32768) cERRASYNC seq none
  | 17 => d.eccPost e 6 5 0
  | _ => d.eccPost e 9 0 0

/-- Whether an event's named parts exist, as far as its structure has them. -/
def Device.eccFits (d : Device) (e : EccEvent) : Bool :=
  let blk := e.unit % 32768
  if e.struct = 0 ∨ 18 < e.struct then false
  else if e.struct ≤ 10 then decide (e.agent < 2048)
  else if hasPa e.struct then isLocal e.pa
  else if e.struct = 15 then d.mstate blk != sFree && d.mstate blk != sDead
  else if e.struct = 16 then (d.binding blk).isSome
  else true

/-- `ECC_ERROR_DETECT` (R398, R399). -/
def execEccErrorDetect (e : EccEvent) (s : State) : Host.Outcome State Fault Refusal :=
  let d := s.dev
  let silent := e.struct == 8 && e.unit != 0
  let count (x : Device) : Device :=
    let k := 32 + eccStack e
    { x with err := { x.err with corrected := mset x.err.corrected k (mget 0 x.err.corrected k + 1) } }
  s.devEvent (guardOpt (d.eccFits e)
    (if silent then count d
     else if e.corrected then d.corrected e
     else if e.struct ≤ 10 then d.coreError e
     else d.farError e))

/-- A line that a patrol read found uncorrectable (R398, R400, R410): the fate of its structure, and an entry of type 3. -/
def Device.patrolError (d : Device) (site : PatrolSite) (line : Nat) : Device :=
  match site with
  | .hbm => (d.poisonLine 14 3 line 0 0).faqRaise line
  | .l2 true => (d.poisonLine 11 1 line 0 0).faqRaise line
  | .l2 false => (d.farError { agent := 0, struct := 11, unit := 0, pa := line * 64, corrected := false, synd := 0 }).faqPush 1 3 line
  | .sram k => (d.farError { agent := 0, struct := 13, unit := k, pa := line * 64, corrected := false, synd := 0 }).faqPush 2 3 line

/-- Whether a patrol read has a line to read: weight SRAM holds those of the pages placed there, and L2
those that their home slices hold. -/
def Device.patrols (d : Device) (site : PatrolSite) (line : Nat) : Bool :=
  isLocal (line * 64) && (match site with
    | .sram k => decide (k < 4) && (d.sramPage k (line * 64)).isSome
    | .l2 _ => d.inL2 line
    | .hbm => true)

/-- `PATROL_READ` (R400, R410): a patrol read of a line, which takes a slot of the channel where it reads HBM and is held
like any other request, at no tenant's charge (R451, R452); one that finds it uncorrectable has the fate of its structure. -/
def execPatrolRead (line : PatrolLine) (bad : Bool) (s : State) : Host.Outcome State Fault Refusal :=
  s.devEvent (do
    guardOpt (s.dev.patrols line.site line.num) ()
    let d ← if line.site = .hbm then s.dev.access line.num else some s.dev
    pure (if bad then d.patrolError line.site line.num else d))

/-! ## Cells offline (R417, R340, R464) -/

/-- The claims of some blocks ended (R464). -/
def Device.dropClaims (d : Device) (p : Nat → Block → Bool) : Device :=
  let drop (e : Nat × Block) : Nat × Block :=
    if p e.1 e.2 then (e.1, { e.2 with claim := none, recallAt := none }) else e
  d.updTab fun t => { t with blocks := t.blocks.map drop }

/-- A cell taken offline (R417): its bindings pre-empted, its reservations without it, and claims on it ended. -/
def Device.offline (d : Device) (c : Nat) : Device :=
  let d0 := d.post { cls := 7, rung := 4, agent := BitVec.ofNat 16 (8 * c) }
  let d1 := d0.updCell c fun x => { x with offline := true, errs := [], rewinds := [] }
  let d2 := match (d.cell c).held with | some b => d1.preemptBlock b | none => d1
  let d3 := d2.updTab fun t =>
    { t with resv := t.resv.map fun e => (e.1, { e.2 with cells := setBits e.2.cells c c 0 }) }
  (d3.dropClaims fun _ m => match m.claim with | some g => (m.groupAt g).contains c | none => false).noteCandidates

/-- The entries of a list of cycles that are at most `span` cycles old. -/
def Device.recent (d : Device) (l : List Nat) (n : Nat) : Nat := (l.filter fun t => decide (d.cycle < t + n)).length

/-- Whether a cell's counts reach a threshold of R417. -/
def Device.cellWorn (d : Device) (c : Nat) : Bool :=
  let x := d.cell c
  let pair (upper : Bool) : List Nat := (x.rewinds.filter fun r => r.2 == upper).map (·.1)
  !x.offline && (decide (3 ≤ d.recent x.errs (cyclesMs 86400000)) ||
    [false, true].any fun u => decide (16 ≤ d.recent (pair u) 1800000000))

/-! ## Stack resets (R31, R32, R418) -/

/-- Whether a local address lies in the HBM pair of a stack. -/
def inPair (stack pa : Nat) : Bool := isLocal pa && hbmOf pa / 2 == stack

/-- Whether a block depends on memory of a stack's pair (R418): its save area, queue, page-table root or a writable
page. -/
def Device.livesIn (d : Device) (b stack : Nat) : Bool :=
  let m := d.block b
  inPair stack (m.get fSavea * 65536) || inPair stack (m.get fQbase * 64) || inPair stack (m.get fPtroot * 4096) ||
    (d.declared b).any fun va =>
      match d.walk b va with
      | .leaf _ p => p.getLsbD 3 && inPair stack (ptePa p)
      | .invalid => false

/-- What a stack reset does to a block bound there: a kill, or its tasks discarded and the block a candidate again. -/
def Device.resetBlock (d : Device) (stack b : Nat) : Device :=
  match d.binding b with
  | none => d
  | some k =>
    let here := k.agents.filter fun a => stackOf (cellOf (coreOf a)) == stack
    let pinned := here.any fun a => match (d.ctx a).task with | some t => t.pin != .none | none => false
    if pinned || d.livesIn b stack then d.kill b cERRASYNC
    else d.unbind b

/-- The shared-weight leaves of a stack's pair, among declared pages. -/
def Device.weightsIn (d : Device) (stack : Nat) : List Mapping :=
  let of (b va : Nat) : Option Mapping :=
    match d.walk b va with
    | .leaf sz p => if bits p 7 6 = 2 ∧ inPair stack (ptePa p) then some ⟨b, pageBase sz va, sz, p⟩ else none
    | .invalid => none
  d.liveBlocks.flatMap fun b => (d.declared b).filterMap (of b)

/-- The stack on whose lower die a link port lies (R25). -/
def stackOfPort (p : Nat) : Nat := p / 6

/-- The links of a stack's ports down, until they are trained again, and out of every route set (R25, R31). -/
def Outside.dropPorts (o : Outside) (stack : Nat) : Outside :=
  { o with linkUp := setBits o.linkUp (6 * stack + 5) (6 * stack) 0
           linkKeys := o.linkKeys.filter fun e => stackOfPort e.1 != stack
           routes := o.routes.map fun e => (e.1, e.2.filter fun p => stackOfPort p != stack) }

/-- The cores, contexts, cells, controllers and link ports of a stack as its reset leaves them; stamps stand (R116), and so
do what the control owner and firmware hold of a cell. -/
def Device.clearStack (d : Device) (stack : Nat) : Device :=
  let core (e : Nat × Core) : Nat × Core := if stackOf (cellOf e.1) = stack then (e.1, { ceiling := e.2.ceiling }) else e
  let ctx (e : Nat × Ctx) : Nat × Ctx := if stackOf (cellOf (coreOf e.1)) = stack then (e.1, e.2.cleared) else e
  let cell (e : Nat × Cell) : Nat × Cell := if stackOf e.1 = stack then (e.1, { e.2 with up := {}, down := {} }) else e
  { d with cores := d.cores.map core, ctxs := d.ctxs.map ctx, cells := d.cells.map cell,
           hbms := d.hbms.filter (fun e => e.1 / 2 != stack), l2 := d.l2.filter (fun e => e.1 / 16 != stack), out := d.out.dropPorts stack }

/-- A stack reset (R418). -/
def State.stackReset (s : State) (stack : Nat) : State :=
  let d := s.dev
  let again := match mfind d.err.stackLast stack with | some t => decide (d.cycle < t + cyclesMs 600000) | none => false
  let d1 : Device := { d with err := { d.err with
    stackReset := mset d.err.stackReset stack d.cycle, stackLast := mset d.err.stackLast stack d.cycle } }
  let bound := (d.tab.bindings.map (·.1)).filter fun b =>
    match d.binding b with | some k => k.cells.any fun c => stackOf c == stack | none => false
  let d2 := bound.foldl (fun x b => x.resetBlock stack b) d1
  let ws := d2.weightsIn stack
  let t := ws.foldl (fun t m => t.putLeaf m (setBits m.pte 9 9 1)) { s with dev := d2 }
  let d3 := ws.foldl (fun x m => (x.rereadEnts m.blk m.va (2 ^ winShift m.sz)).requestFetch m.blk m.va) t.dev
  let d4 := (d3.clearStack stack).wipe (stack * 2 ^ 37) (2 ^ 37) fun _ => false
  let d5 := d4.updTab fun x =>
    { x with placed := x.placed.map fun e => (e.1, e.2.drop stack)
             copies := x.copies.map fun e => (e.1, if inPair stack (e.1 * 65536) then { e.2 with here := false } else e.2) }
  let d6 := d5.dropClaims fun _ m => match m.claim with
    | some g => (m.groupAt g).any fun c => stackOf c == stack
    | none => false
  { t with dev := if again then d6.post { cls := 7, rung := 6, agent := BitVec.ofNat 16 (512 * stack) } else d6 }

/-- `STACK_RESET_COMPLETE` (R418). -/
def execStackResetComplete (stack : Nat) (s : State) : Host.Outcome State Fault Refusal :=
  s.devEvent ((mfind s.dev.err.stackReset stack).map fun _ =>
    { s.dev with err := { s.dev.err with stackReset := mdel s.dev.err.stackReset stack } })

/-! ## Records taken (R407, R408, R413) -/

/-- Firmware wall-clock time in nanoseconds (R407). -/
def Device.wallClock (d : Device) : Nat :=
  match d.tab.wclk with
  | none => d.cycle * 10 / 18
  | some (v, c) => v.toNat + (d.cycle - c) * 10 / 18

/-- The 512 bits of a record (R407). -/
def ErrRec.bits512 (r : ErrRec) : BitVec 512 :=
  let dw (i v : Nat) : Nat := v * 2 ^ (64 * i)
  let w5 := match r.mctx with
    | some (b, g, t) => t.toNat * 2 ^ 32 + g.toNat * 2 ^ 24 + b % 32768
    | none => 0
  BitVec.ofNat 512 (
    dw 0 (r.seq.toNat * 2 ^ 32 + r.cls.toNat * 2 ^ 24 + r.rung.toNat * 2 ^ 21 + b2n r.ov * 2 ^ 20 +
      b2n r.pa.isSome * 2 ^ 19 + b2n r.va.isSome * 2 ^ 18 + b2n r.mctx.isSome * 2 ^ 17 + b2n r.prev * 2 ^ 16 +
      r.agent.toNat) +
    dw 1 (r.struct.toNat * 2 ^ 48 + r.cause.toNat * 2 ^ 40 + r.rwc.toNat * 2 ^ 32 + r.synd.toNat) +
    dw 2 r.stamp.toNat + dw 3 (r.pa.getD 0).toNat + dw 4 (r.va.getD r.pc).toNat +
    dw 5 (r.cnt.toNat * 2 ^ 48 + w5) + dw 6 r.time.toNat + dw 7 r.aux.toNat)

/-- The host ring's record size when it is enabled (R408). -/
def Err.ringLog (e : Err) : Option Nat :=
  let n := bits e.elcfg 4 0
  if e.elbase.getLsbD 0 ∧ 6 ≤ n ∧ n ≤ 16 then some n else none

/-- A record written to the window, as the newest, and to the host ring if that is enabled, with the interrupt (R408). -/
def Device.writeRecord (d : Device) (r : ErrRec) : Device :=
  let bits512 := r.bits512
  let d1 : Device := { d with err := { d.err with window := mset d.err.window (r.seq.toNat % 32) bits512, newest := r.seq } }
  let d2 := match d.err.ringLog with
    | none => d1
    | some n => d1.hostWrite 0 (2 ^ 20) (bits d.err.elbase 63 12 * 4096 + 64 * (r.seq.toNat % 2 ^ n)) (toBytes bits512.toNat 64)
  if d.err.elcfg.getLsbD 63 then d2.interrupt 0 (bits d.err.elcfg 42 32) else d2

/-- The stack that a record of rung 5 names. -/
def ErrRec.stack (r : ErrRec) : Nat :=
  match r.pa with
  | some a => hbmOf a.toNat / 2
  | none => stackOf (cellOf (coreOf r.agent.toNat)) % 4

/-- A record kept in boot flash, among the last 16 (R419). -/
def Device.keepRecord (d : Device) (r : ErrRec) : Device :=
  let l := d.flash.kept ++ [r]
  { d with flash := { d.flash with kept := l.drop (l.length - 16) } }

/-- The oldest record taken: numbered, timed and written; the answer is the record and the state. -/
def State.takeRecord (s : State) (r : ErrRec) (rest : List ErrRec) : State × ErrRec :=
  let d := s.dev
  let seq := if r.prev then r.seq else d.err.seq
  let rec1 : ErrRec := { r with seq := seq, ov := d.err.lost || r.ov, time := if r.prev then r.time else word d.wallClock }
  let e := { d.err with queue := rest, lost := false, seq := if r.prev then d.err.seq else d.err.seq + 1 }
  ({ s with dev := { d with err := e }.writeRecord rec1 }, rec1)

end Sys2Proof.Machine
end

