-- ==== Sys2Proof/Machine/Power.lean ====
section
/-! DEFINITION. Resets and power (R372 to R380, R408, R411, R413, R417, R419, R475): what a reset keeps, rail and thermal
faults, the error-handling firmware's acts on records, current ceilings, and the gates of upper cores. -/

namespace Sys2Proof.Machine

/-! ## Device resets (R377, R378, R419, R458, R474) -/

/-- Whether a slot of a firmware function holds an image that passes its check (R364, R474). -/
def Firm.valid (g : Firm) (b : Bool) : Bool := if b then g.validB else g.validA

/-- A firmware function as a reset starts it: the slot last activated, or the other one when it fails its check. -/
def Firm.boot (g : Firm) : Firm :=
  { running := if g.valid g.running then g.running else if g.valid (!g.running) then !g.running else g.running,
    validA := g.validA, validB := g.validB, digA := g.digA, digB := g.digB }

/-- Whether a function has a slot that starts. -/
def Firm.boots (g : Firm) : Bool := g.validA || g.validB

/-- The device with every domain cleared: boot flash, the flash tier, firmware slots and the offline cells are kept (R408,
R411, R413, R419), the host's memory is not the device's, and everything else is as at the first reset. -/
def Device.cleared (d : Device) : Device :=
  let firm := d.out.firm.map fun e => (e.1, e.2.boot)
  let out : Outside := { firm := firm, hostMem := d.out.hostMem, outbox := d.out.outbox,
                         bootOk := !d.flash.udsBad && (List.range 8).all fun f => (mget ({} : Firm) firm f).boots }
  let x : Device := {
    cells := (d.cells.filter fun e => e.2.offline).map fun e => (e.1, { offline := true })
    flash := { d.flash.aged with bpBusy := [] }
    out := out }
  { x with dice := { layer1 := some (x.runDigest 4), base := some x.bootLog, reportSeq := d.dice.reportSeq } }

/-- The device after a reset: cleared, the records that the security root has kept posted again (R419), and the root blocks
read (R458). -/
def Device.reset (d : Device) : Device :=
  let x := d.cleared
  let y : Device := { x with
    err := { queue := d.flash.kept.map fun r => { r with prev := true } }
    flash := { x.flash with kept := [] } }
  y.readRoots

/-- The device reset and running (R378). -/
def State.resetDevice (s : State) : State := { s with dev := s.dev.reset, bundle := none }

/-- The device without power or held in reset, its outputs kept. -/
def State.powerDown (s : State) (p : Power) : State := { s with dev := { s.dev.cleared with power := p }, bundle := none }

/-- A record that the security root keeps at a reset it does not outlive (R419). -/
def Device.lastRecord (d : Device) (cls : Nat) (agent : Nat) : Device :=
  d.keepRecord { cls := BitVec.ofNat 8 cls, rung := 6, agent := BitVec.ofNat 16 agent, seq := d.err.seq,
                 time := word d.wallClock }

/-- `RAIL_FAULT` (R419): `FAULT_N`, and every domain held in reset. -/
def execRailFault (s : State) : Host.Outcome State Fault Refusal :=
  s.event (some (State.powerDown { s with dev := (s.dev.lastRecord 8 0x0917).send .faultN } .held))

/-- `THERMAL_TRIP` (R419): `THERMTRIP_N`, and every domain held in reset. -/
def execThermalTrip (s : State) : Host.Outcome State Fault Refusal :=
  s.event (some (State.powerDown { s with dev := (s.dev.lastRecord 8 0x0917).send .thermtripN } .held))

/-- `WATCHDOG_RESET` (R475): the security firmware has raised no beacon for 50 ms. -/
def execWatchdogReset (s : State) : Host.Outcome State Fault Refusal :=
  s.event (guardOpt (decide ((mget ({} : Firm) s.dev.out.firm 4).last + cyclesMs 50 ≤ s.dev.cycle))
    (State.resetDevice { s with dev := s.dev.lastRecord 9 0x0914 }))

/-- `POWER_ON` (R375, R378): a rising `PWROK` after the rails were down. -/
def execPowerOn (s : State) : Host.Outcome State Fault Refusal :=
  s.event (guardOpt (s.dev.power == .off) s.resetDevice)

/-- `RST_N_RESET` (R377): the whole device with its rails up; a device held in reset for a fault stays held (R419). -/
def execRstNReset (s : State) : Host.Outcome State Fault Refusal :=
  s.event (guardOpt (s.dev.power == .on) s.resetDevice)

/-- `PCIE_RESET` (R377): the link, the configuration space and the function state of R348; no binding, micro-context,
firmware core or other port is affected. -/
def execPcieReset (s : State) : Host.Outcome State Fault Refusal :=
  s.devEvent (some (s.dev.updPcie fun _ => { link := false }))

/-- `STANDBY` (R375): every rail removed. -/
def execStandby (s : State) : Host.Outcome State Fault Refusal :=
  s.event (guardOpt (s.dev.power != .off) (s.powerDown .off))

/-! ## The error-handling firmware (R408, R413, R417, R418) -/

/-- What the firmware does about a record it has taken: a device reset at rung 6, a stack reset at rung 5, with what needed
its link ports ended (R472), and a cell offline when its counts are reached. -/
def State.actOn (s : State) (r : ErrRec) : State :=
  let c := cellOf (coreOf r.agent.toNat)
  if r.prev then s
  else if r.rung = 6 then State.resetDevice { s with dev := s.dev.keepRecord r }
  else if r.rung = 5 then State.failMigrations (State.failLaunches (State.stackReset { s with dev := s.dev.keepRecord r } r.stack))
  else if (r.cls = 2 ∨ r.cls = 3) ∧ r.agent.toNat < 2048 ∧ s.dev.cellWorn c then { s with dev := s.dev.offline c }
  else s

/-- `ERROR_RECORD_TAKE` (R408). -/
def execErrorRecordTake (s : State) : Host.Outcome State Fault Refusal :=
  s.event (match s.dev.err.queue with
    | [] => none
    | r :: rest => let (t, x) := s.takeRecord r rest; some (t.actOn x))

/-- A failure that a stack's controllers or HBM pair cannot contain (R418): its record, which the firmware's taking follows
with the stack's reset. -/
def Device.stackFailure (d : Device) (stack : Nat) : Device :=
  d.post { cls := 7, rung := 5, agent := BitVec.ofNat 16 (512 * stack) }

/-! ## Ceilings, gates and cells (R373, R379, R380, R417) -/

/-- Whether the telemetry firmware lowers ceilings (R373): an estimate exceeds its limit, a compute die reaches 105 °C or an
HBM4E stack 95 °C. -/
def Sensors.over (x : Sensors) : Bool :=
  decide (2800 < x.pwr.toNat ∨ 3000 < x.module.toNat ∨ 105 ≤ x.tdie.toNat ∨ 95 ≤ x.thbm.toNat)

/-- Whether it raises them again (R373): the estimates 5 % below their limits and every temperature 5 °C below its
threshold. -/
def Sensors.under (x : Sensors) : Bool :=
  decide (x.pwr.toNat ≤ 2660 ∧ x.module.toNat ≤ 2850 ∧ x.tdie.toNat ≤ 100 ∧ x.thbm.toNat ≤ 90)

/-- Whether a ceiling may change to a value now (R373). -/
def Sensors.admits (x : Sensors) (old new : Nat) : Bool :=
  if new < old then x.over else if old < new then x.under else true

/-- `CURRENT_CEILING_WRITE` (R373). -/
def execCurrentCeilingWrite (core : Nat) (v : BitVec 16) (s : State) : Host.Outcome State Fault Refusal :=
  s.devEvent (guardOpt (decide (core < 512) && s.dev.out.sensors.admits (s.dev.core core).ceiling.toNat v.toNat)
    (s.dev.updCore core fun k => { k with ceiling := v }))

/-- A cell whose gate-request bit is written (R380). -/
def Cell.request (c : Cell) (b : Bool) : Cell :=
  if b then { c with ugreq := true, ungating := false } else { c with ugreq := false, ungating := c.gated }

/-- A write of `ugreq` register `w` (R379, R380). -/
def Device.writeUgreq (d : Device) (w : Nat) (v : Word) : Device :=
  (List.range 64).foldl (fun x i => x.updCell (64 * w + i) fun c => c.request (v.getLsbD i)) d

/-- `UGREQ_WRITE` (R380): by the control owner. -/
def execUgreqWrite (w : Nat) (v : BitVec 64) (s : State) : Host.Outcome State Fault Refusal :=
  s.devEvent (guardOpt (decide (w < 4) && s.dev.owner.isSome) (s.dev.writeUgreq w v))

/-- Whether a binding uses the upper core of a cell. -/
def Device.usesUpper (d : Device) (c : Nat) : Bool :=
  match (d.cell c).held with
  | some b => (match d.binding b with | some k => !lowerOnly k.shape.toNat | none => false)
  | none => false

/-- `UPPER_GATE_APPLY` (R33, R380): both FIFOs of the cell and the upper core's contents are lost. -/
def execUpperGateApply (cell : Nat) (s : State) : Host.Outcome State Fault Refusal :=
  let c := s.dev.cell cell
  s.devEvent (guardOpt (decide (cell < 256) && c.ugreq && !c.gated && !s.dev.usesUpper cell)
    ((s.dev.updCell cell fun c => { c with gated := true, up := {}, down := {} }).updCore (2 * cell + 1) fun k =>
      { ceiling := k.ceiling }))

/-- `UPPER_UNGATE_COMPLETE` (R33, R380). -/
def execUpperUngateComplete (cell : Nat) (s : State) : Host.Outcome State Fault Refusal :=
  s.devEvent (guardOpt ((s.dev.cell cell).gated && (s.dev.cell cell).ungating)
    (s.dev.updCell cell fun c => { c with gated := false, ungating := false }))

/-- A write of `coff` register `w`: each 1 returns a cell to service (R417). -/
def Device.writeCoff (d : Device) (w : Nat) (v : Word) : Device :=
  (List.range 64).foldl (fun x i =>
    if v.getLsbD i then x.updCell (64 * w + i) fun c => { c with offline := false } else x) d

/-- `COFF_WRITE` (R417): by the control owner. -/
def execCoffWrite (w : Nat) (v : BitVec 64) (s : State) : Host.Outcome State Fault Refusal :=
  s.devEvent (guardOpt (decide (w < 4) && s.dev.owner.isSome) (s.dev.writeCoff w v))

end Sys2Proof.Machine
end

