-- ==== Sys2Proof/Machine/Registers.lean ====
section
/-! DEFINITION. The device registers of BAR0 (R101, R150, R349 to R352, R379, R408, R410 to R412, R454): what each reads
and what a write of each does, and the doorbells. -/

namespace Sys2Proof.Machine

/-! ## Reads -/

/-- A register of 64 flags, one for each of 64 cells. -/
def Device.cellBits (d : Device) (w : Nat) (p : Cell → Bool) : Word :=
  word ((List.range 64).foldl (fun n i => n + b2n (p (d.cell (64 * w + i))) * 2 ^ i) 0)

/-- `owner` (R350). -/
def Device.ownerReg (d : Device) : Word := d.out.owner.zeroExtend 64

/-- `beacf` (R350). -/
def Device.beacon (d : Device) (f : Nat) : Word :=
  let g := d.fw f
  word (b2n g.running * 2 ^ 32 + g.cnt.toNat)

/-- `pstat` (R379): `thr`, and the sensors' readings. -/
def Device.pstat (d : Device) : Word :=
  let low := d.cores.any fun e => e.2.ceiling != 65535
  let x := d.out.sensors
  word (b2n low * 2 ^ 32 + x.thbm.toNat * 2 ^ 24 + x.tdie.toNat * 2 ^ 16 + x.pwr.toNat)

/-- The management register block (R350, R379, R408). -/
def Device.readManagement (d : Device) (off : Nat) : Word :=
  let i := off / 8
  if off = 0 then word (0x53524400 * 2 ^ 32 + Config.revision.toNat)
  else if off = 8 then d.ownerReg
  else if 0x40 ≤ off ∧ off < 0x80 then d.beacon (i - 8)
  else if 0x100 ≤ off ∧ off < 0x120 then d.cellBits (i - 0x20) (·.ugreq)
  else if 0x120 ≤ off ∧ off < 0x140 then d.cellBits (i - 0x24) (·.gated)
  else if off = 0x140 then d.pstat
  else if 0x180 ≤ off ∧ off < 0x1A0 then d.cellBits (i - 0x30) (·.offline)
  else if off = 0x200 then word d.err.newest.toNat
  else if off = 0x208 then d.err.elbase
  else if off = 0x210 then d.err.elcfg
  else if 0x800 ≤ off then (mget 0 d.err.window ((off - 0x800) / 64)).extractLsb' (8 * (off % 64)) 64
  else 0

/-- `qqstat` (R101). -/
def Mm.qqstat (m : Mm) : Word :=
  word (m.ring.length * 2 ^ 32 + (m.head.toNat + m.ring.length) % 2 ^ 14 * 2 ^ 16 + m.head.toNat)

/-- The memory-management register block (R101, R150, R412, R454), `faqpop` without its removal. -/
def Device.readMemory (d : Device) (off : Nat) : Word :=
  let m := d.mm
  match off with
  | 0x000 => word d.qsc
  | 0x008 => m.qqbase
  | 0x010 => m.qqstat
  | 0x028 => m.vtsel.zeroExtend 64
  | 0x030 => word (d.oldestLive m.vtsel.toNat)
  | 0x038 => word (d.heldBy m.vtsel.toNat)
  | 0x040 => m.vhbase
  | 0x048 => m.vhlen.zeroExtend 64
  | 0x050 => word d.vfree
  | 0x058 => m.faq.headD 0
  | 0x060 => m.faq.headD 0
  | 0x068 => word (b2n m.faqovf * 2 ^ 63 + m.faq.length)
  | 0x078 => word (b2n (decide (8192 ≤ d.flash.bad.length)) * 2 ^ 63 + b2n (!d.flash.bpBusy.isEmpty) * 2 ^ 62 + d.flash.bad.length)
  | 0x080 => m.bpidx.zeroExtend 64
  | 0x088 => d.flash.bad.getD m.bpidx.toNat 0
  | 0x090 => (mget 0 m.vquota m.vtsel.toNat).zeroExtend 64
  | 0x098 => m.vlowm.zeroExtend 64
  | _ => 0

/-- The channel balances of eight pseudo-channels, a byte each (R114, R349). -/
def Hbm.balances (h : Hbm) (c : Nat) : Word :=
  word ((List.range 8).foldl (fun n i => n + (BitVec.ofInt 5 (h.chan (c + i)).bal).toNat * 2 ^ (8 * i)) 0)

/-- Four entries of the plan that is not in force, from entry `n` on (R106, R107, R349). -/
def Hbm.readIdle (h : Hbm) (n : Nat) : Word :=
  word ((List.range 4).foldl (fun v i =>
    v + (planEntry h.idle ((n + i) / 16) ((n + i) % 16)).toNat * 2 ^ (16 * i)) 0)

/-- The controller registers of a stack (R349). -/
def Device.readController (d : Device) (h off : Nat) : Word :=
  if off = 0 then (d.hbm h).calsw.zeroExtend 64
  else if 0x1000 ≤ off ∧ off < 0x1200 then (d.hbm h).balances (off - 0x1000)
  else if 0x8000 ≤ off ∧ off < 0xC000 then (d.hbm h).readIdle ((off - 0x8000) / 2)
  else 0

/-- A doubleword of a queue descriptor (R351). -/
def HostQ.read (h : HostQ) (i : Nat) : Word :=
  match i with
  | 0 => h.d0
  | 1 => h.d1
  | 2 => h.d2
  | _ => word (h.rptr.toNat * 2 ^ 32 + h.wptr.toNat)

/-- What a BAR0 offset, 8-aligned, reads (R349). -/
def Device.readReg (d : Device) (off : Nat) : Word :=
  if off < 0x1000 then d.readManagement off
  else if off < 0x1800 then d.func ((off - 0x1000) / 8)
  else if 0x100000 ≤ off ∧ off < 0x101000 then d.readMemory (off - 0x100000)
  else if 0x200000 ≤ off ∧ off < 0x280000 then d.readController ((off - 0x200000) / 0x10000) (off % 0x10000)
  else if 0x400000 ≤ off ∧ off < 0x480000 then (d.hq ((off - 0x400000) / 32)).read (off / 8 % 4)
  else 0

/-- The oldest entry of the fault-address queue removed (R410). -/
def Device.faqPop (d : Device) : Device := { d with mm := { d.mm with faq := d.mm.faq.drop 1 } }

/-- A register read by an agent: the control owner's read of `faqpop` removes the entry (R410). -/
def State.readReg (s : State) (off : Nat) (owner : Bool) : State × Word :=
  (if off = 0x100058 ∧ owner then { s with dev := s.dev.faqPop } else s, s.dev.readReg off)

/-! ## Writes -/

/-- A bad-page entry added (R411, R449): refused while the list is full, and waiting while another is on its way. A write
with a bit of 59:52 set is ignored, as R411 says; so is one with a bit of 15:0 set, of which R411 says only that they must
be zero (DESIGN CHOICE, log entry 121). -/
def Device.addBadPage (d : Device) (v : Word) : Device :=
  if bits v 59 52 ≠ 0 ∨ bits v 15 0 ≠ 0 then d
  else if 8192 ≤ d.flash.bad.length + d.flash.bpBusy.length then
    (d.postDev 5 0 agMemory 0).retired (bits v 51 16) 5
  else { d with flash := { d.flash with bpBusy := d.flash.bpBusy ++ [v] } }

/-- A write to the management register block (R379, R408). -/
def Device.writeManagement (d : Device) (off : Nat) (v : Word) : Device :=
  let i := off / 8
  if 0x100 ≤ off ∧ off < 0x120 then d.writeUgreq (i - 0x20) v
  else if 0x180 ≤ off ∧ off < 0x1A0 then d.writeCoff (i - 0x30) v
  else if off = 0x208 then { d with err := { d.err with elbase := v &&& 0xFFFFFFFFFFFFF001 } }
  else if off = 0x210 then { d with err := { d.err with elcfg := v &&& 0x800007FF0000001F } }
  else d

/-- A write to the memory-management register block (R101, R150, R412, R454). -/
def Device.writeMemory (d : Device) (off : Nat) (v : Word) : Device :=
  let m := d.mm
  let free := d.heapHeld == 0
  match off with
  | 0x008 => if m.ring.isEmpty then { d with mm := { m with qqbase := v &&& 0x000FFFFFFFFC0000 } } else d
  | 0x018 => { d with mm := { m with qqpg := v } }
  | 0x020 => d.quarantine m.qqpg v
  | 0x028 => { d with mm := { m with vtsel := v.extractLsb' 0 12 } }
  | 0x040 => if free then { d with mm := { m with vhbase := v &&& 0x000FFFFFFFE00000 } } else d
  | 0x048 => if free then Device.lowWater d { d with mm := { m with vhlen := v.extractLsb' 0 32 } } else d
  | 0x068 => if v.getLsbD 63 then { d with mm := { m with faqovf := false } } else d
  | 0x070 => d.addBadPage v
  | 0x080 => { d with mm := { m with bpidx := v.extractLsb' 0 13 } }
  | 0x090 => { d with mm := { m with vquota := mset m.vquota m.vtsel.toNat (v.extractLsb' 0 32) } }
  | 0x098 => { d with mm := { m with vlowm := v.extractLsb' 0 32 } }
  | _ => d

/-- One entry of a plan written; its reserved bits are ignored and read zero, as does its reserved type, 3 (R6, R106), and an
entry of the default plan is not listed. -/
def putPlan (plan : Map (BitVec 16)) (n : Nat) (e : BitVec 16) : Map (BitVec 16) :=
  mput (defaultEntry (n % 16)) plan n (if bits e 15 14 == 3 then e &&& 0x1FF else e &&& 0xC1FF)

/-- The plan that is not in force changed. -/
def Hbm.updIdle (h : Hbm) (f : Map (BitVec 16) → Map (BitVec 16)) : Hbm :=
  if h.force1 then { h with plan0 := f h.plan0 } else { h with plan1 := f h.plan1 }

/-- A write to a stack's controller registers (R107, R349). -/
def Device.writeController (d : Device) (h off : Nat) (v : Word) : Device :=
  if off = 0 then d.updHbm h fun x => x.writeCalsw v
  else if 0x8000 ≤ off ∧ off < 0xC000 ∧ (d.hbm h).calsw ≠ 1 then
    let n := (off - 0x8000) / 2
    d.updHbm h fun x => x.updIdle fun p =>
      (List.range 4).foldl (fun q i => putPlan q (n + i) (v.extractLsb' (16 * i) 16)) p
  else d

/-- A write to a queue descriptor, while its queue is not enabled (R351): enabling it starts its pointers and counts. -/
def HostQ.write (h : HostQ) (i : Nat) (v : Word) : HostQ :=
  if h.en then h
  else
    match i with
    | 0 =>
      let w := v &&& 0xFFFCFFFFFFFF1FFF
      if w.getLsbD 63 then { d0 := w, d1 := h.d1, d2 := h.d2 } else { h with d0 := w }
    | 1 => { h with d1 := v &&& 0xFFFFFFFFFFFFF01F }
    | 2 => { h with d2 := v &&& 0xFFFFFFFFFFFFF000 }
    | _ => h

/-- A write to a BAR0 offset, 8-aligned, by the control owner (R349). -/
def Device.writeReg (d : Device) (off : Nat) (v : Word) : Device :=
  if off < 0x1000 then d.writeManagement off v
  else if off < 0x1800 then
    d.updOut fun o => { o with funcs := mset o.funcs ((off - 0x1000) / 8) (v &&& 0x8000000000000FFF) }
  else if 0x100000 ≤ off ∧ off < 0x101000 then d.writeMemory (off - 0x100000) v
  else if 0x200000 ≤ off ∧ off < 0x280000 then d.writeController ((off - 0x200000) / 0x10000) (off % 0x10000) v
  else if 0x400000 ≤ off ∧ off < 0x480000 then d.updHq ((off - 0x400000) / 32) fun h => h.write (off / 8 % 4) v
  else d

/-- `REGISTER_WRITE` (R349): a BAR0 write by the physical function, ignored while its driver is not the control owner. A new
quota or a larger heap may let waiting writes through (R455, R482). -/
def execRegisterWrite (off : Nat) (v : BitVec 64) (s : State) : Host.Outcome State Fault Refusal :=
  s.event (guardOpt (decide (off % 8 = 0) && s.dev.owner == some 0 && s.dev.out.pcie.has 0) (State.retried { s with dev := s.dev.writeReg off v }))

/-- `FAQPOP_READ` (R410): the control owner's read. -/
def execFaqpopRead (s : State) : Host.Outcome State Fault Refusal :=
  s.devEvent (guardOpt s.dev.owner.isSome s.dev.faqPop)

/-- `BPADD_WRITE` (R411): the control owner's write. -/
def execBpaddWrite (v : BitVec 64) (s : State) : Host.Outcome State Fault Refusal :=
  s.devEvent (guardOpt s.dev.owner.isSome (s.dev.addBadPage v))

/-- `DOORBELL_WRITE` (R348, R352): in the BAR2 of a function that is there; dropped for a queue of another function or one
that is not enabled. -/
def execDoorbellWrite (fn q : Nat) (wptr : BitVec 32) (s : State) : Host.Outcome State Fault Refusal :=
  let h := s.dev.hq q
  s.devEvent (guardOpt (decide (q < 16384) && h.en && !h.dev && h.fn == fn && s.dev.out.pcie.has fn)
    (s.dev.updHq q fun h => { h with wptr := wptr }))

end Sys2Proof.Machine
end

