-- ==== Sys2Proof/Machine/Versions.lean ====
section
/-! DEFINITION. Transactions and snapshots (R138, R139, R142 to R147, R267 to R270). -/

namespace Sys2Proof.Machine

/-! ## Transactions (R138, R268, R455) -/

/-- `TXB` (R268). -/
def execTxb (s : State) : Host.Outcome State Fault Refusal :=
  s.slot (do
    require (!s.spanOpen) cTXSTATE 0
    require (!s.selected) cSNAPRO 0
    let r := s.takeStamp 0
    return r.1.updTask fun t => { t with span := some { sx := r.2 } })

/-- The operations a segment holds, without those of a span. -/
def heldRest (held : List HeldOp) : List HeldOp :=
  held.filter fun h => match h with | .mem _ b => !b | .sp _ _ _ => true

/-- The operations of the open span, those a segment still holds among them. -/
def State.spanOps (s : State) : List BufOp :=
  match s.ctx.task with
  | some t => (heldFor s.ctx.seg.held true).foldl bufferOp (match t.span with | some p => p.buf | none => [])
  | none => []

/-- The span closed and its stores gone (R138, R268). -/
def State.closeSpan (s : State) : State :=
  (s.updMe fun c => { c with seg := { c.seg with held := heldRest c.seg.held } }).updTask fun t => { t with span := none }

/-- Whether a span's commit fails (R268, R455): a newer version of a versioned line of it, or a short version heap. -/
def State.spanFails (s : State) (ops : List BufOp) : Bool :=
  match s.ctx.task with
  | some t =>
    (match t.span with | some p => (s.dev.conflict ops p.sx s.me).isSome | none => false) ||
      (s.dev.firstShort ⟨s.me, 0, some t.blk, 0⟩ ((s.dev.block t.blk).get fTenant) ops).isSome
  | none => false

/-- The stamp, validation and publication of `TXC` (R138, R268): the result is 1 for a failure. -/
def State.txcPerform (s : State) : Except Stop (State × Given) :=
  let ops := s.spanOps
  match ops.find? (·.stale) with
  | some o => .error (.abort cABSENT (word o.va))
  | none =>
  let lines := (bufLines ops).filter fun l => isLocal (l * 64)
  let r := s.takeStamp (s.dev.writeFloor lines)
  if s.spanFails ops then .ok (r.1, ⟨1, {}⟩)
  else do
    let s1 ← r.1.pin
    let d := (s1.dev.publish ⟨s.me, r.2, some s.blk, 0⟩ ops).published r.2
    return ({ s1 with dev := d }.updTask fun t => { t with snapS := some (nextStamp r.2) }, ⟨0, {}⟩)

/-- `TXC` (R268). -/
def execTxc (d : BitVec 6) (s : State) : Host.Outcome State Fault Refusal :=
  s.slot (do
    require s.spanOpen cTXSTATE 0
    let r ← s.external .txc [] State.txcPerform
    return (r.1.closeSpan).setS d r.2.res)

/-- `TXA` (R268). -/
def execTxa (s : State) : Host.Outcome State Fault Refusal :=
  s.slot (do
    require s.spanOpen cTXSTATE 0
    return s.closeSpan)

/-! ## Snapshots (R142, R144, R145, R269, R270) -/

/-- The table that snapshot instructions of the context name: the device's in system mode (R146, R270). -/
def State.snapTable (s : State) : Nat := if s.mode = 2 then devTable else s.blk

/-- The lowest handle of a table that is FREE. -/
def Device.freeHandle (d : Device) (b : Nat) : Option Nat := (span 1 15).find? fun h => (d.snap b h).state = 0

/-- A snapshot placed in entry `h` of a table at a stamp (R141, R142): HELD with the next generation, later writes taking
stamps above it. R141 does not say what `dres` holds when a FREE entry is taken again: it is 0, no drain of the new handle
having been made (DESIGN CHOICE, log entry 107). -/
def Device.takeSnap (d : Device) (b h st : Nat) : Device × BitVec 32 :=
  let g := mget 0 d.tab.snapGen b + 1
  let d1 := { d.updTab fun t => { t with snapGen := mset t.snapGen b g } with snapLow := Nat.max d.snapLow st }
  (d1.updSnap b h fun _ => { st := st, gen := g, state := 1 }, g)

/-- A drain of a HELD handle requested (R147, R269): DRAINING, behind the drains of its micro-context under way. -/
def Device.startDrain (d : Device) (b h : Nat) : Device :=
  (d.updSnap b h fun x => { x with state := 2 }).updBlock b fun m => { m with drains := m.drains ++ [h] }

/-- What `SNAP` does at its bundle's commit (R142, R269): the device chooses h above every stamp taken so far, so that no
write that has been made lies above it (log entry 110). -/
def State.snapPerform (s : State) (drain : Bool) : Except Stop (State × Given) := do
  let b := s.snapTable
  match s.dev.freeHandle b with
  | none => trapWith cSNAPFULL 0
  | some h =>
    let s1 ← s.pin
    let r := s1.takeStamp s1.dev.top
    let p := r.1.dev.takeSnap b h r.2
    let d := if drain then p.1.startDrain b h else p.1
    return ({ r.1 with dev := d }.updBun fun x => { x with waits := x.waits ++ [Wait.snapshot] }, ⟨word (p.2.toNat * 2 ^ 32 + h), {}⟩)

/-- `SNAP` (R142, R269). -/
def execSnap (d : BitVec 6) (drain : Bool) (s : State) : Host.Outcome State Fault Refusal :=
  s.slot (do
    require (!(drain && s.mode == 2)) cOPERAND 0
    let r ← s.external .snap [word (b2n drain)] fun t => t.snapPerform drain
    return r.1.setS d r.2.res)

/-- A selection unless it is of handle `h` of table `b`; `blk` is the selecting context's block. -/
def unselected (sel : Option Selection) (blk b h : Nat) : Option Selection :=
  sel.filter fun x => !(x.handle == h && (if x.dev then devTable else blk) == b)

/-- A context without a selection of handle `h` of a table, at its segment's entry as well (R145). -/
def Ctx.unselect (c : Ctx) (b h : Nat) : Ctx :=
  match c.task with
  | some t =>
    { c with task := some { t with sel := unselected t.sel t.blk b h }
             seg := { c.seg with entrySel := unselected c.seg.entrySel t.blk b h } }
  | none => c

/-- A saved context without a selection of handle `h` of a table (R145). -/
def SavedCtx.unselect (c : SavedCtx) (b h : Nat) : SavedCtx := { c with body := c.body.unselect b h }

/-- A block none of whose saved contexts, of a whole save area or of the part saved so far (R65), has a selection of
handle `h` of a table (R145). -/
def Block.unselect (m : Block) (b h : Nat) : Block :=
  { m with saved := m.saved.map fun v => { v with ctxs := v.ctxs.map fun c => c.unselect b h }
           part := { m.part with ctxs := m.part.ctxs.map fun c => c.unselect b h } }

/-- A handle released (R145): HELD becomes FREE and DRAINING becomes RELEASING; contexts that had selected it, saved ones
among them, fall back to their snapshot stamp. -/
def Device.releaseSnap (d : Device) (b h : Nat) : Device :=
  let d1 := d.updSnap b h fun e => { e with state := if e.state = 1 then 0 else if e.state = 2 then 3 else e.state }
  let d2 := d1.updTab fun t => { t with blocks := t.blocks.map fun e => (e.1, e.2.unselect b h) }
  { d2 with ctxs := d2.ctxs.map fun e => (e.1, e.2.unselect b h) }

/-- The handle that a scalar names (R270). -/
def handleOf (w : Word) : Nat := bits w 3 0

/-- What `SNAPREL` does (R145, R270). -/
def State.snaprelPerform (s : State) (h : Nat) : Except Stop State := do
  let st := (s.dev.snap s.snapTable h).state
  require (h != 0 && (st == 1 || st == 2)) cHANDLE (word h)
  let s1 ← s.pin
  return { s1 with dev := s1.dev.releaseSnap s.snapTable h }

/-- `SNAPREL` (R270). -/
def execSnaprel (a : BitVec 6) (s : State) : Host.Outcome State Fault Refusal :=
  s.slot (s.externalUnit .snaprel [word (handleOf (s.sreg a))] fun t => t.snaprelPerform (handleOf (s.sreg a)))

/-- `SNAPSEL` (R144, R270). -/
def execSnapsel (a : BitVec 6) (s : State) : Host.Outcome State Fault Refusal :=
  s.slot (do
    let h := handleOf (s.sreg a)
    require (!s.spanOpen) cSNAPRO 0
    if h = 0 then return s.updTask fun t => { t with sel := none }
    else
      let st := (s.dev.snap s.snapTable h).state
      require (st == 1 || st == 2) cHANDLE (word h)
      return s.updTask fun t => { t with sel := some { dev := s.mode == 2, handle := h } })

end Sys2Proof.Machine
end

