-- ==== Sys2Proof/Machine/Commands.lean ====
section
/-! DEFINITION. The commands of R357: streams and signals, control blocks, images, the scheduling tables, page tables and
snapshots, meters, control ownership, registers and access control. -/

namespace Sys2Proof.Machine

/-- Whether a packet has `n` payload words and an `arg` below `2 ^ a` (R353). -/
def plain (c : Cmd) (n a : Nat) : Bool := c.words.length == n && decide (c.arg.toNat < 2 ^ a)

/-- The columns O; M and T; O, M and T (R357). -/
def whoO : Who := { o := true }
def whoMT : Who := { m := true, t := true }
def whoOMT : Who := { o := true, m := true, t := true }

/-- A command done with status 0. -/
def doneOk (s : State) (v : Word) : CmdEnd := .done s 0 v

/-- A command that names block `pw c 0`: status 5 where the index names none, status 2 where the issuer's rights do not
reach its tenant (R357). -/
def onBlock (c : Cmd) (s : State) (f : Nat → CmdEnd) : CmdEnd :=
  let b := pw c 0
  if 32768 ≤ b then refuse s 5
  else if !s.dev.reaches c.who ((s.dev.block b).get fTenant) then refuse s 2
  else f b

/-! ## Streams, signals and waits (R131, R354, R357, R466) -/

/-- `NOP` (R357). -/
def execCmdNop (c : Cmd) (s : State) : Host.Outcome State Fault Refusal :=
  s.command c 0x00 (decide (c.arg = 0)) { all := true } fun t => doneOk t 0

/-- `INDIRECT` (R354): the buffer becomes the innermost level of the queue's stream. -/
def execIndirect (c : Cmd) (s : State) : Host.Outcome State Fault Refusal :=
  s.command c 0x01 (plain c 3 0) whoOMT fun t =>
    if 4 ≤ c.level then refuse t 4
    else if pw c 2 = 0 ∨ 2 ^ 20 < pw c 2 then refuse t 5
    else doneOk { t with dev := t.dev.updHq c.q fun h => { h with levels := (pd c 0, pw c 2) :: h.levels } } 0

/-- A doubleword written to local memory as a committed store above every stamp so far (R131), with its stamp; it waits
while the version heap is short for it (R482). -/
def State.signalLocal (s : State) (pa : Nat) (v : Word) : State × Nat :=
  let (s1, x) := s.draw
  let w : HeldWrite := { agent := agCommand, kid := (s.dev.line (pa / 64)).kid, least := s.dev.top, pa := pa,
                         bytes := toBytes v.toNat 8 }
  let d := s1.dev.agentStore x w
  ({ s1 with dev := d }, (d.line (pa / 64)).wts)

/-- `SIGNAL` (R131, R357). -/
def execSignal (c : Cmd) (s : State) : Host.Outcome State Fault Refusal :=
  s.command c 0x02 (plain c 4 1) whoOMT fun t =>
    let a := pd c 0
    let v := word (pd c 2)
    if a % 8 ≠ 0 then refuse t 5
    else if c.arg = 0 then
      let (t1, st) := t.masterStamp
      doneOk (t1.cmdPut c.q false a (toBytes v.toNat 8)) (word st)
    else if isLocal a then
      let (t1, st) := t.signalLocal a v
      doneOk t1 (word st)
    else if isRemote a then
      if t.dev.reachable (peerOf a) then
        let (t1, st) := t.masterStamp
        doneOk { t1 with dev := t1.dev.emit none ⟨peerOf a, [(a % 2 ^ 42, .store (toBytes v.toNat 8))], none⟩ } (word st)
      else refuse t 15
    else refuse t 5

/-- Whether the doubleword that a `WAIT` watches meets its test; one in a peer's memory reads as the peer chooses. -/
def State.waitMet (s : State) (q : Nat) (dev : Bool) (addr : Nat) (v : Word) (eq : Bool) : Bool :=
  let x : Nat := if dev ∧ isRemote addr then (Config.freeWord s.free).toNat else ofBytes (s.dev.cmdGet q dev addr 8)
  if eq then x == v.toNat else decide (v.toNat ≤ x)

/-- `WAIT` (R357): done at once where the doubleword meets the test already. -/
def execWait (c : Cmd) (s : State) : Host.Outcome State Fault Refusal :=
  s.command c 0x03 (plain c 5 2) whoOMT fun t =>
    let a := pd c 0
    let v := word (pd c 2)
    let dev := c.arg.getLsbD 0
    let eq := c.arg.getLsbD 1
    let limit := if pw c 4 = 0 then none else some (t.dev.cycle + cyclesUs (pw c 4))
    if dev ∧ !isLocal a ∧ !isRemote a then refuse t 5
    else if dev ∧ isRemote a ∧ !t.dev.reachable (peerOf a) then refuse t 15
    else if t.waitMet c.q dev a v eq then doneOk { t with free := t.free + 1 } 0
    else .under { t with free := t.free + 1 } (.wait dev a v eq limit)

/-- `WAIT_SATISFIED` (R357). -/
def execWaitSatisfied (q : Nat) (s : State) : Host.Outcome State Fault Refusal :=
  let here (p : Pending) : Bool :=
    p.q == q && (match p.kind with | .wait dev a v eq _ => s.waitMet q dev a v eq | _ => false)
  s.event ((s.dev.out.pend.find? here).map fun p => State.finishPend { s with free := s.free + 1 } p 0 0)

/-- `WAIT_TIMEOUT` (R466). -/
def execWaitTimeout (q : Nat) (s : State) : Host.Outcome State Fault Refusal :=
  let late (p : Pending) : Bool :=
    p.q == q && (match p.kind with | .wait _ _ _ _ (some t) => decide (t ≤ s.dev.cycle) | _ => false)
  s.event ((s.dev.out.pend.find? late).map fun p => s.finishPend p 13 0)

/-! ## Control blocks (R34 to R37, R339, R357) -/

/-- The bits of doubleword `i` of a control block that are marked RW (R34). -/
def rwMask (i : Nat) : Word :=
  match i with
  | 0 => 0x00000FFFFFDFF800
  | 1 => 0xFFFFFFFFFFFFFFFF
  | 2 => 0x000FFFFFFFFFF000
  | 3 => 0x00000FFF0FFF0FFF
  | 4 => 0x000FFFFFFFFFFFCF
  | 6 => 0x000FFFFFFFFFFFC0
  | 7 => 0x000FFFFFFFFFFFC0
  | 8 => 0x000FFFFFFFFF0000
  | 9 => 0x00000000FFFFFFFF
  | 10 => 0x01FFFFFFFFFFFFC0
  | 11 => 0x01FFFFFFFFFFFFE0
  | _ => 0

/-- A control block with the bits of a mask of doubleword `i` written. -/
def Block.write (m : Block) (i : Nat) (v mask : Word) : Block :=
  { m with words := mset m.words i ((m.dw i &&& ~~~mask) ||| (v &&& mask)) }

/-- Whether a shape and mode are valid (R39, R40). -/
def Block.shapeOk (m : Block) : Bool :=
  decide (m.get fShape % 16 ≤ 8) && !(m.get fShape % 16 == 8 && m.get fProt == 1)

/-- Whether a block's image is installed and its save area large enough (R339). -/
def Device.saveOk (d : Device) (m : Block) : Bool :=
  match mfind d.tab.images (m.get fImage) with
  | some i => decide (saveSize i (m.get fShape) (m.get fProt == 1) ≤ m.get fSavelen * 65536)
  | none => false

/-- Whether another block that is not FREE holds a pair (R326): by the context hash table, or by its own fields. -/
def Device.pairHeld (d : Device) (b key : Nat) : Bool :=
  (match mfind d.tab.hash key with
   | some x => x != b && d.mstate x != sFree
   | none => false) ||
  d.tab.blocks.any fun e => e.1 != b && e.2.get fState != sFree && hashKey (e.2.get fRkid) (e.2.get fFnid) == key

/-- A FREE block as a create command makes it (R34, R37): the RW fields of the image given, the next generation, an empty
queue, and `bnum` as it stood. `msel` selects the checkpoint that a reset has left current (R458). -/
def createdBlock (m : Block) (side : Nat) (c : Cmd) : Block :=
  let ws := (List.range 15).foldl (fun (k : Block) i => k.write i (word (pd c (1 + 2 * i))) (rwMask i)) ({} : Block)
  (((ws.set fGen (m.get fGen + 1)).set fBnum (m.get fBnum)).set fMsel side).set fState sIdle

/-- `CB_CREATE` (R37, R326, R339). -/
def execCbCreate (c : Cmd) (s : State) : Host.Outcome State Fault Refusal :=
  s.command c 0x08 (plain c 65 0) whoO fun t => onBlock c t fun b =>
    let m := createdBlock (t.dev.block b) ((t.dev.flash.current b).getD 0) c
    let key := hashKey (m.get fRkid) (m.get fFnid)
    if t.dev.mstate b ≠ sFree then refuse t 3
    else if !m.shapeOk ∨ !t.dev.saveOk m ∨ t.dev.pairHeld b key then refuse t 5
    else
      let d := t.dev.updTab fun x =>
        { x with blocks := mset x.blocks b m, hash := mset x.hash key b
                 snaps := x.snaps.filter fun e => e.1 / 16 != b
                 snapGen := mdel x.snapGen b }
      doneOk { t with dev := d } 0

/-- Whether a masked write of doubleword `i` sets `pol` to 1 or writes `savea` or `savelen` of the block it makes (R339). -/
def Block.sized (m : Block) (i : Nat) (mask : Word) : Bool :=
  (i == 0 && mask.getLsbD 14 && m.get fPol == 1) || ((i == 8 || i == 9) && mask != 0)

/-- `CB_WRITE` (R35, R39, R339). -/
def execCbWrite (c : Cmd) (s : State) : Host.Outcome State Fault Refusal :=
  s.command c 0x09 (plain c 6 0) whoO fun t => onBlock c t fun b =>
    let i := pw c 1
    let mask := word (pd c 4) &&& rwMask i
    let m := t.dev.block b
    let m1 := m.write i (word (pd c 2)) mask
    let any := if i = 0 then mask &&& ~~~(0x7800 : Word) else mask
    let st := m.get fState
    if 14 < i then refuse t 5
    else if any ≠ 0 ∧ st ≠ sFree ∧ st ≠ sIdle ∧ st ≠ sSuspended then refuse t 3
    else if !m1.shapeOk ∨ (m1.sized i mask ∧ !t.dev.saveOk m1) then refuse t 5
    else
      let d := t.dev.updBlock b fun _ => m1
      let d1 := if m1.get fImage = m.get fImage then d else (d.unmap fun x => x.1 == b).purge
      doneOk { t with dev := d1.noteCandidates } 0

/-- The 512 bytes that `CB_READ` gives (R34, R141, R357). -/
def Device.cbBytes (d : Device) (b : Nat) : List Byte :=
  (List.range 15).flatMap (fun i => toBytes ((d.block b).dw i).toNat 8) ++ List.replicate 136 0 ++
    (span 1 15).flatMap (fun h => toBytes (d.snap b h).bits128.toNat 16) ++ List.replicate 16 0

/-- `CB_READ` (R357). -/
def execCbRead (c : Cmd) (s : State) : Host.Outcome State Fault Refusal :=
  s.command c 0x0A (plain c 3 0) whoMT fun t => onBlock c t fun b =>
    doneOk (t.cmdPut c.q false (pd c 1) (t.dev.cbBytes b)) 0

/-- Whether a `CB_STATE` packet asks for one change of state. -/
def stateArg (c : Cmd) (n : Nat) : Bool := c.words.length == 1 && c.arg.toNat == n

/-- A suspend command (R37): at once for a block that is not bound, and after its pre-emption for one that is RUNNING. -/
def execCbSuspend (c : Cmd) (s : State) : Host.Outcome State Fault Refusal :=
  s.command c 0x0B (stateArg c 1) whoO fun t => onBlock c t fun b =>
    let st := t.dev.mstate b
    if st = sIdle ∨ st = sQueued ∨ st = sPreempted then doneOk { t with dev := (t.dev.suspendIdle b).noteCandidates } 0
    else if st = sRunning then
      .under { t with dev := t.dev.requestPreempt b ((t.dev.block b).get fPol == 1) true } (.suspend b)
    else refuse t 3

/-- A resume command (R37); a block whose image is of a retired generation stays SUSPENDED (R341). -/
def execCbResume (c : Cmd) (s : State) : Host.Outcome State Fault Refusal :=
  s.command c 0x0B (stateArg c 2) whoO fun t => onBlock c t fun b =>
    let m := t.dev.block b
    if m.get fState ≠ sSuspended ∨ t.dev.retiredImage b then refuse t 3
    else
      doneOk { t with dev := (t.dev.resumed b).noteCandidates } 0

/-- What a kill ends beside the block (R346, R416): its migration, and a suspend that waits for its pre-emption. -/
def State.killed (s : State) (b : Nat) : State :=
  let d := if s.dev.mstate b = sMigrating then s.dev.endMigration b else s.dev
  ((({ s with dev := d.killBlock b } : State).finishKind (· == .migrate b) 10 0).finishKind (· == .suspend b) 3 0)

/-- A kill command (R37, R416). -/
def execCbKill (c : Cmd) (s : State) : Host.Outcome State Fault Refusal :=
  s.command c 0x0B (stateArg c 3) whoO fun t => onBlock c t fun b =>
    if t.dev.mstate b = sFree then refuse t 3 else doneOk (t.killed b) 0

/-- Whether the quiescence counter has passed a block's `bstamp` (R37, R98). -/
def Device.quiet (d : Device) (b : Nat) : Bool := decide ((d.block b).get fBstamp < d.qsc)

/-- A release command (R37): held until the quiescence counter passes `bstamp`. -/
def execCbRelease (c : Cmd) (s : State) : Host.Outcome State Fault Refusal :=
  s.command c 0x0B (stateArg c 4) whoO fun t => onBlock c t fun b =>
    if t.dev.mstate b ≠ sDead then refuse t 3
    else if t.dev.quiet b then doneOk { t with dev := t.dev.noteQsc.freeBlock b } 0
    else .under t (.release b)

/-- `CB_RELEASE_COMPLETE` (R37). -/
def execCbReleaseComplete (blk : Nat) (s : State) : Host.Outcome State Fault Refusal :=
  s.event (guardOpt ((s.dev.out.pend.any fun p => p.kind == .release blk) && s.dev.quiet blk)
    (State.finishKind { s with dev := s.dev.noteQsc.freeBlock blk } (· == .release blk) 0 0))

/-- `CB_MIGRATE` (R346): the copy leaves at once, and what arrives later is copied as it comes. -/
def execCbMigrate (c : Cmd) (s : State) : Host.Outcome State Fault Refusal :=
  s.command c 0x0C (plain c 2 0) whoO fun t => onBlock c t fun b =>
    let dev := pw c 1
    let st := t.dev.mstate b
    if 512 ≤ dev then refuse t 5
    else if st ≠ sIdle ∧ st ≠ sSuspended then refuse t 3
    else if 4096 ≤ t.dev.out.buoys.length then refuse t 6
    else if !t.dev.reachable dev then refuse t 15
    else
      let susp := st == sSuspended
      let g : Migration := { dev := dev, susp := susp, since := t.dev.cycle }
      let d := (t.dev.send (t.dev.copyOf b dev susp)).setMstate b sMigrating
      .under { t with dev := d.updOut fun o => { o with migs := mset o.migs b g } } (.migrate b)

/-- `EVENT` (R238): the event flags of the block's binding, if it is bound. -/
def execEvent (c : Cmd) (s : State) : Host.Outcome State Fault Refusal :=
  s.command c 0x0D (plain c 1 0) { o := true, t := true } fun t => onBlock c t fun b =>
    match t.dev.binding b with
    | some k => doneOk { t with dev := k.agents.foldl (fun x a => x.updCtx a fun e => { e with event := true }) t.dev } 0
    | none => doneOk t 0

/-! ## Images and generations (R200 to R204, R341) -/

/-- A sharing domain given a key identifier by the memory-management firmware, if it has none (R84): one that no other
domain, block or loaded key has, and among those the firmware's choice. -/
def State.domainKey (s : State) (dom : Nat) : State :=
  if (mfind s.dev.tab.domains dom).isSome then s
  else
    let (t, n) := s.draw
    let d := t.dev
    let used (k : Nat) : Bool := (d.tab.domains.any fun e => e.2 == k) || (mfind d.tab.keys k).isSome ||
      d.tab.blocks.any fun e => e.2.get fDkid == k || e.2.get fRkid == k
    let open_ := (span 1 4095).filter fun k => !used k
    match open_[Config.freeNat n % Nat.max 1 open_.length]? with
    | some kid => { t with dev := d.updTab fun x => { x with domains := mset x.domains dom kid } }
    | none => s

/-- `IMG_INSTALL` (R204): the Pilot then makes the image's pages resident for the blocks that use it (R345). -/
def execImgInstall (c : Cmd) (s : State) : Host.Outcome State Fault Refusal :=
  s.command c 0x10 (plain c 5 1) whoO fun t =>
    let a := pd c 0
    let n := pw c 2
    if 4096 ≤ pw c 4 ∨ (c.arg ≠ 0 ∧ !(isLocal a && isLocal (a + n - 1))) then refuse t 5
    else
      match loadImage (t.dev.cmdGet c.q (c.arg.getLsbD 0) a n) (BitVec.ofNat 32 (pw c 3)) (BitVec.ofNat 32 (pw c 4)) with
      | some (id, i) =>
        let u := t.domainKey (pw c 4)
        doneOk { u with dev := (u.dev.updTab fun x => { x with images := mset x.images id i }).noteCandidates } (word id)
      | none => refuse t 7

/-- A block of an image of a retired generation (R341): SUSPENDED at once, or when its binding ends. -/
def Block.retired (m : Block) : Block :=
  let st := m.get fState
  if st = sIdle ∨ st = sQueued ∨ st = sPreempted then m.set fState sSuspended
  else if st = sBinding ∨ st = sRunning then { m with retire := true }
  else m

/-- `IMG_RETIRE` (R341). -/
def execImgRetire (c : Cmd) (s : State) : Host.Outcome State Fault Refusal :=
  s.command c 0x11 (plain c 1 0) whoO fun t =>
    let d := t.dev.updTab fun x => { x with retired := BitVec.ofNat 32 (pw c 0) :: x.retired }
    let upd (e : Nat × Block) : Nat × Block :=
      match mfind d.tab.images (e.2.get fImage) with
      | some i => if i.gen.toNat = pw c 0 then (e.1, e.2.retired) else e
      | none => e
    doneOk { t with dev := (d.updTab fun x => { x with blocks := x.blocks.map upd }).noteCandidates } 0

/-- `HASH_SET` (R341, R357). -/
def execHashSet (c : Cmd) (s : State) : Host.Outcome State Fault Refusal :=
  s.command c 0x12 (plain c 3 0) whoO fun t =>
    let key := hashKey (pw c 0) (pw c 1)
    if 4096 ≤ pw c 0 ∨ 0x8000 < pw c 2 then refuse t 5
    else if pw c 2 = 0x8000 then doneOk { t with dev := t.dev.updTab fun x => { x with hash := mdel x.hash key } } 0
    else doneOk { t with dev := t.dev.updTab fun x => { x with hash := mset x.hash key (pw c 2) } } 0

/-! ## Reservations and policy (R330, R335, R340, R407) -/

/-- The eight words of `cells` of a `RESV_WRITE`. -/
def cellWords (c : Cmd) : BitVec 256 :=
  (List.range 8).foldl (fun x i => x ||| (BitVec.ofNat 256 (pw c (2 + i)) <<< (32 * i))) 0

/-- Cells removed from reservation `r` (R340, R464): its bindings that hold one are pre-empted, and claims of its blocks on
one end. -/
def Device.removeCells (d : Device) (r : Nat) (gone : BitVec 256) : Device :=
  let hit (g : List Nat) : Bool := g.any fun c => gone.getLsbD c
  let mine := (d.tab.bindings.filter fun e => (d.block e.1).get fResv == r && hit e.2.cells).map (·.1)
  (mine.foldl (fun x b => x.preemptBlock b) d).dropClaims fun _ m =>
    m.get fResv == r && (match m.claim with | some g => hit (m.groupAt g) | none => false)

/-- `RESV_WRITE` (R330, R340). -/
def execResvWrite (c : Cmd) (s : State) : Host.Outcome State Fault Refusal :=
  s.command c 0x14 (plain c 10 1) whoO fun t =>
    let r := pw c 0
    let e := t.dev.resvOf r
    let cells := if c.arg = 0 then e.cells else cellWords c
    let taken := t.dev.tab.resv.any fun x => x.1 != r && x.2.cells &&& cells != 0
    if 1024 ≤ r ∨ taken then refuse t 5
    else
      let e1 : Resv := { e with lend := (pw c 1).testBit 16, wt := BitVec.ofNat 16 (pw c 1), cells := cells }
      let d := (t.dev.updTab fun x => { x with resv := mset x.resv r e1 }).removeCells r (e.cells &&& ~~~cells)
      doneOk { t with dev := d.noteCandidates } 0

/-- `POLICY` on register 0, `rgrace` (R335). -/
def execPolicyRgrace (c : Cmd) (s : State) : Host.Outcome State Fault Refusal :=
  s.command c 0x15 (plain c 3 0) whoO fun t =>
    if pw c 0 ≠ 0 ∨ 1789200 < pd c 1 then refuse t 5
    else doneOk { t with dev := t.dev.updTab fun x => { x with rgrace := word (pd c 1) } } 0

/-- `POLICY` on register 1, the wall clock (R407). -/
def execPolicyWclk (c : Cmd) (s : State) : Host.Outcome State Fault Refusal :=
  s.command c 0x15 (plain c 3 0) whoO fun t =>
    if pw c 0 ≠ 1 then refuse t 5
    else doneOk { t with dev := t.dev.updTab fun x => { x with wclk := some (word (pd c 1), t.dev.cycle) } } 0

/-! ## Shoot-downs, snapshots and drains (R97, R145 to R147, R445) -/

/-- `SHOOTDOWN` (R97, R445): acknowledged at once where the block is neither bound nor MIGRATING; of a MIGRATING block the
destination's acknowledgement is waited for. -/
def execShootdown (c : Cmd) (s : State) : Host.Outcome State Fault Refusal :=
  s.command c 0x18 (plain c 4 0) whoO fun t => onBlock c t fun b =>
    let va := bits (word (pd c 1)) 56 0
    if (t.dev.binding b).isSome then .under { t with dev := t.dev.beginShoot b c.q va (pw c 3) } (.shoot b)
    else
      if t.dev.mstate b = sMigrating then .under t (.heldShoot b va (pw c 3))
      else
        let (t1, st) := t.ackStamp
        doneOk t1 (word st)

/-- Whether no commit's publication is under way (R142). -/
def Device.settled (d : Device) : Bool := d.tab.bindings.all fun e => e.2.committing.isEmpty

/-- `DEVSNAP` take (R142, R146): when every earlier publication is complete. -/
def execDevsnapTake (c : Cmd) (s : State) : Host.Outcome State Fault Refusal :=
  if !s.dev.settled then .next { s with last := .ignored }
  else
    s.command c 0x1A (plain c 0 0) whoO fun t =>
      match t.dev.freeHandle devTable with
      | none => refuse t 6
      | some h =>
        let (t1, st) := t.masterStamp
        let (d, g) := t1.dev.takeSnap devTable h st
        doneOk { t1 with dev := d } (word (g.toNat * 2 ^ 32 + h))

/-- `DEVSNAP` release (R145): of the handle in bits 7:4. -/
def execDevsnapRelease (c : Cmd) (s : State) : Host.Outcome State Fault Refusal :=
  s.command c 0x1A (c.words.length == 0 && decide (c.arg.toNat < 256) && decide (c.arg.toNat % 16 = 1)) whoO fun t =>
    let h := c.arg.toNat / 16
    if h = 0 then refuse t 5
    else if (t.dev.snap devTable h).state = 0 then refuse t 3
    else doneOk { t with dev := t.dev.releaseSnap devTable h } 0

/-- `CHECKPOINT` (R147): a drain of a HELD handle of a block, or of the device table. -/
def execCheckpoint (c : Cmd) (s : State) : Host.Outcome State Fault Refusal :=
  s.command c 0x1B (plain c 2 0) whoO fun t =>
    let b := if pw c 0 = 0xFFFFFFFF then devTable else pw c 0
    let h := pw c 1
    if (32768 ≤ b ∧ pw c 0 ≠ 0xFFFFFFFF) ∨ h = 0 ∨ 15 < h then refuse t 5
    else if (t.dev.snap b h).state ≠ 1 then refuse t 3
    else doneOk { t with dev := t.dev.startDrain b h } 0

/-! ## Meters and diagnostics (R90, R343, R344) -/

/-- The 64 bytes of a tenant's meter record (R343). -/
def Device.meterBytes (d : Device) (ten : Nat) : List Byte :=
  let m := mget ({} : Meter) d.tab.meters ten
  [m.ccyc, m.ibyt, m.obyt, m.nreq, m.nrep, m.mbyt, m.thr, m.nabt].flatMap fun w => toBytes w.toNat 8

/-- `METER_READ` (R343). -/
def execMeterRead (c : Cmd) (s : State) : Host.Outcome State Fault Refusal :=
  s.command c 0x1D (plain c 3 0) whoMT fun t =>
    if 4096 ≤ pw c 0 then refuse t 5
    else if !t.dev.reaches c.who (pw c 0) then refuse t 2
    else doneOk (t.cmdPut c.q false (pd c 1) (t.dev.meterBytes (pw c 0))) 0

/-- A meter report (R344): header, records and signature under the meter key; `st` is the stamp of its reading. -/
def Device.meterReport (d : Device) (first n st : Nat) : List Byte :=
  let dw (v : Nat) : List Byte := toBytes v 8
  let head := dw (0x53524D54 * 2 ^ 32) ++ dw (first * 2 ^ 16 + n) ++ dw d.dice.reportSeq.toNat ++ dw st ++ dw d.wallClock ++
    List.replicate 24 0
  let body := head ++ (List.range n).flatMap fun i => d.meterBytes (first + i)
  body ++ (signWith d.cdi2 labelMeter body).take 96

/-- `METER_REPORT` (R344): by a virtual function of its own tenant only. -/
def execMeterReport (c : Cmd) (s : State) : Host.Outcome State Fault Refusal :=
  s.command c 0x1E (plain c 4 0) whoMT fun t =>
    let first := pw c 0
    let n := pw c 1
    if n = 0 ∨ 4096 < n ∨ 4096 < first + n then refuse t 5
    else if !(List.range n).all fun i => t.dev.reaches c.who (first + i) then refuse t 2
    else
      let (t1, st) := t.masterStamp
      let d := { t1.dev with dice := { t1.dev.dice with reportSeq := t1.dev.dice.reportSeq + 1 } }
      doneOk (State.cmdPut { t1 with dev := d } c.q false (pd c 2) (t1.dev.meterReport first n st)) (word (160 + 64 * n))

/-- `DIAG_READ` (R90): zeros where the block has no such window entry. -/
def execDiagRead (c : Cmd) (s : State) : Host.Outcome State Fault Refusal :=
  s.command c 0x1F (plain c 4 0) { m := true } fun t => onBlock c t fun b =>
    if 511 < pw c 1 then refuse t 5
    else
      let v : BitVec 128 := match (t.dev.window b)[pw c 1]? with | some e => e.bits128 | none => 0
      doneOk (t.cmdPut c.q false (pd c 2) (toBytes v.toNat 16)) 0

/-! ## Control ownership (R350, R360, R361, R469) -/

/-- `owner` with agent `a` elected and no handover pending. -/
def ownerIs (a : Nat) : BitVec 8 := BitVec.ofNat 8 (4 + a % 4)

/-- The device with an `owner` register. -/
def Device.setOwner (d : Device) (o : BitVec 8) : Device := d.updOut fun x => { x with owner := o }

/-- Whether a claim by an agent comes in its turn (R360): of the claims of one cycle those of higher agents come first. -/
def Device.claimTurn (d : Device) (who : Nat) : Bool :=
  match d.out.claimed with
  | some (t, a) => !decide (t = d.cycle ∧ a < who)
  | none => true

/-- `OWNER` claim (R360): while none is elected, or by the recovery console. -/
def execOwnerClaim (c : Cmd) (s : State) : Host.Outcome State Fault Refusal :=
  if !s.dev.claimTurn c.who then .next { s with last := .ignored }
  else
    s.command c 0x20 (c.words.length == 1 && c.arg == 0 && pw c 0 == 0) { m := true } fun t =>
      let u : State := { t with dev := t.dev.updOut fun o => { o with claimed := some (t.dev.cycle, c.who) } }
      if u.dev.owner.isSome ∧ c.who ≠ 3 then refuse u 2
      else
        let d := u.dev.setOwner (ownerIs c.who)
        doneOk { u with dev := d } d.ownerReg

/-- `OWNER` hand over (R361): by the owner, naming a target. -/
def execOwnerHandover (c : Cmd) (s : State) : Host.Outcome State Fault Refusal :=
  s.command c 0x20 (c.words.length == 1 && c.arg == 1) whoO fun t =>
    if 3 < pw c 0 then refuse t 5
    else
      let o := setBits (setBits t.dev.out.owner 5 4 (pw c 0)) 7 7 1
      let d := t.dev.updOut fun x => { x with owner := o, handover := t.dev.cycle }
      doneOk { t with dev := d } d.ownerReg

/-- Whether a handover is pending, and has not lapsed (R361). -/
def Device.handing (d : Device) : Bool := d.out.owner.getLsbD 7 && decide (d.cycle ≤ d.out.handover + cyclesMs 1000)

/-- `OWNER` accept (R361): by the target, within 1 s. -/
def execOwnerAccept (c : Cmd) (s : State) : Host.Outcome State Fault Refusal :=
  s.command c 0x20 (c.words.length == 1 && c.arg == 2 && pw c 0 == 0) { m := true } fun t =>
    if !t.dev.handing ∨ bits t.dev.out.owner 5 4 ≠ c.who then refuse t 2
    else
      let d := t.dev.setOwner (ownerIs c.who)
      doneOk { t with dev := d } d.ownerReg

/-- `HANDOVER_LAPSE` (R361). -/
def execHandoverLapse (s : State) : Host.Outcome State Fault Refusal :=
  s.devEvent (guardOpt (s.dev.out.owner.getLsbD 7 && decide (s.dev.out.handover + cyclesMs 1000 ≤ s.dev.cycle))
    (s.dev.setOwner (setBits s.dev.out.owner 7 7 0)))

/-- Whether a management agent's channel is lost (R469): the PCIe link or function 0's state of the driver, every scale-up
link of the fabric manager, or 1 s without a response on the management bus. -/
def Device.channelLost (d : Device) (a : Nat) : Bool :=
  match a with
  | 0 => !d.out.pcie.link || d.out.pcie.reset0
  | 2 => d.out.linkUp == 0
  | a => decide (mget 0 d.out.mgmtLast a + cyclesMs 1000 ≤ d.cycle)

/-- The issuer of the commands of a queue or of an agent's channel. -/
def Device.issuerOf (d : Device) (q : Nat) : Nat := if isChannel q then q - 16384 else (d.hq q).issuer

/-- The commands that wait on an agent's channel not to start any more (R469). -/
def Device.revoke (d : Device) (a : Nat) : Device :=
  let qs := (d.out.hostq.map (·.1)).filter fun q => d.issuerOf q == a && (d.packet q).isSome
  qs.foldl (fun x q => x.updHq q fun h => { h with revoked := some (d.wptrOf q) }) d

/-- `OWNER_CHANNEL_LOST` (R469): `v` and a pending handover cleared, a class-6 record, and what the owner had not started
refused. -/
def execOwnerChannelLost (s : State) : Host.Outcome State Fault Refusal :=
  s.devEvent (do
    let a ← s.dev.owner
    let d := (s.dev.setOwner (setBits (setBits s.dev.out.owner 2 2 0) 7 7 0)).updPcie fun p =>
      { p with reset0 := if a = 0 then false else p.reset0 }
    guardOpt (s.dev.channelLost a) ((d.revoke a).postDev 6 0 agCommand 0))

/-! ## Registers, access control and system launches (R186, R349, R369) -/

/-- Whether an offset names a doubleword of BAR0. -/
def regOffset (off : Nat) : Bool := decide (off % 8 = 0 ∧ off < 0x800000)

/-- `REG_READ` (R357, R410). -/
def execRegRead (c : Cmd) (s : State) : Host.Outcome State Fault Refusal :=
  s.command c 0x24 (plain c 1 0) { m := true } fun t =>
    if !regOffset (pw c 0) then refuse t 5
    else
      let (t1, v) := t.readReg (pw c 0) (t.dev.owner == some c.who)
      doneOk t1 v

/-- `REG_WRITE` (R357). -/
def execRegWrite (c : Cmd) (s : State) : Host.Outcome State Fault Refusal :=
  s.command c 0x25 (plain c 3 0) whoO fun t =>
    if !regOffset (pw c 0) then refuse t 5
    else doneOk (State.retried { t with dev := t.dev.writeReg (pw c 0) (word (pd c 1)) }) 0

/-- `ACL_WRITE` (R369). -/
def execAclWrite (c : Cmd) (s : State) : Host.Outcome State Fault Refusal :=
  s.command c 0x28 (plain c 9 0) whoO fun t =>
    if 8192 ≤ pw c 0 then refuse t 5
    else
      let e : Acl := { w0 := word (pd c 1) &&& 0xC0FFFFFFF00001FF, w1 := word (pd c 3), w2 := word (pd c 5) }
      doneOk { t with dev := t.dev.updOut fun o => { o with acl := mset o.acl (pw c 0) e } } 0

/-- The record that a system launch puts into a block's queue: it has no payload and no sender to answer. -/
def sysRec (m : Block) (x : Nat) : Rec :=
  { unit := 0, units := 1, rkid := BitVec.ofNat 12 (m.get fRkid), fnid := BitVec.ofNat 32 (m.get fFnid),
    reqid := Config.freeWord x, got := [0], done := true, origin := some (sysOrigin, 0) }

/-- `SYS_LAUNCH` (R186): a block whose image is a system image, queued for a binding. -/
def execSysLaunch (c : Cmd) (s : State) : Host.Outcome State Fault Refusal :=
  s.command c 0x29 (plain c 1 0) whoO fun t => onBlock c t fun b =>
    if !(t.dev.imageOf b).sys then refuse t 5
    else if t.dev.mstate b = sFree ∨ t.dev.mstate b = sDead ∨ t.dev.retiredImage b then refuse t 3
    else if !(t.dev.block b).hasUnits 1 then refuse t 6
    else
      let (t1, x) := t.draw
      doneOk (t1.appendRec b (sysRec (t1.dev.block b) x)) 0

end Sys2Proof.Machine
end

