-- ==== Sys2Proof/Decode.lean ====
section
/-! DEFINITION. The decoder and the encoder of one slot, from the opcode map of R184 and the format classes of R180:
`decodeSlot` is total and rejects by name, `encode` gives the word of a well-formed slot instruction. The rules over a
whole bundle (R175 to R179, R182, R187) stand in Machine/Encoding.lean. -/

namespace Sys2Proof

/-- The `w` bits of `o` from bit `lo` up. -/
def field (o : BitVec 21) (lo w : Nat) : BitVec w := o.extractLsb' lo w

/-- Whether a field holds a number below 2^w, so that its bits above `w` are zero (R181). -/
def fits (w : Nat) {n : Nat} (x : BitVec n) : Bool := x.toNat < 2 ^ w

/-- A field read as a flag: its lowest bit. -/
def flag {n : Nat} (x : BitVec n) : Bool := x.getLsbD 0

/-- The operand bits with `x` placed from bit `lo` up. -/
def place (lo : Nat) {w : Nat} (x : BitVec w) : BitVec 21 := x.setWidth 21 <<< lo

/-! ## The operand layouts of R180 -/

/-- Class R, and class V with the mask in `f`: d, a, b, f. -/
def classR (d : BitVec 6) (a : BitVec 6) (b : BitVec 6) (f : BitVec 3) : BitVec 21 :=
  place 15 d ||| place 9 a ||| place 3 b ||| place 0 f

/-- Class I: d, a, imm9. -/
def classI (d : BitVec 6) (a : BitVec 6) (imm : BitVec 9) : BitVec 21 := place 15 d ||| place 9 a ||| place 0 imm

/-- Class L: d, imm15. -/
def classL (d : BitVec 6) (imm : BitVec 15) : BitVec 21 := place 15 d ||| place 0 imm

/-- Class M: t, base, off8, x. -/
def classM (t : BitVec 6) (base : BitVec 6) (off : BitVec 8) (x : BitVec 1) : BitVec 21 :=
  place 15 t ||| place 9 base ||| place 1 off ||| place 0 x

/-- Class Mv: t, base, tag, off4, x. -/
def classMv (t : BitVec 6) (base : BitVec 6) (tag : BitVec 4) (off : BitVec 4) (x : BitVec 1) : BitVec 21 :=
  place 15 t ||| place 9 base ||| place 5 tag ||| place 1 off ||| place 0 x

/-- Class Ms: t, base, dir, st, tag. -/
def classMs (t : BitVec 6) (base : BitVec 6) (dir : BitVec 1) (st : BitVec 4) (tag : BitVec 4) : BitVec 21 :=
  place 15 t ||| place 9 base ||| place 8 dir ||| place 4 st ||| place 0 tag

/-- Class K: d, fn, ka, 0, kb, 0. -/
def classK (d : BitVec 6) (fn : BitVec 3) (ka : BitVec 3) (y : BitVec 3) (kb : BitVec 3) (z : BitVec 3) : BitVec 21 :=
  place 15 d ||| place 12 fn ||| place 9 ka ||| place 6 y ||| place 3 kb ||| place 0 z

/-- Class W: imm21. -/
def classW (imm : BitVec 21) : BitVec 21 := place 0 imm

/-- Class T: four tests, n, 0. -/
def classT (t1 : BitVec 4) (t2 : BitVec 4) (t3 : BitVec 4) (t4 : BitVec 4) (n : BitVec 3) (z : BitVec 2) : BitVec 21 :=
  place 17 t1 ||| place 13 t2 ||| place 9 t3 ||| place 5 t4 ||| place 2 n ||| place 0 z

/-- Class G: leaf, off18. -/
def classG (leaf : BitVec 3) (off : BitVec 18) : BitVec 21 := place 18 leaf ||| place 0 off

/-- Class E: eng, reg, a, fn. -/
def classE (eng : BitVec 4) (reg : BitVec 6) (a : BitVec 6) (fn : BitVec 5) : BitVec 21 :=
  place 17 eng ||| place 11 reg ||| place 5 a ||| place 0 fn

/-- Class X: routine, acc, sa, sb. -/
def classX (routine : BitVec 8) (acc : BitVec 1) (sa : BitVec 6) (sb : BitVec 6) : BitVec 21 :=
  place 13 routine ||| place 12 acc ||| place 6 sa ||| place 0 sb

/-- Class V as `VCMP.cc` uses it (R281): condition, destination mask, a, b, k. -/
def classVm (cc : BitVec 3) (kd : BitVec 3) (a : BitVec 6) (b : BitVec 6) (k : BitVec 3) : BitVec 21 :=
  place 18 cc ||| place 15 kd ||| place 9 a ||| place 3 b ||| place 0 k

/-- Class V as `VCVT` and `VQNT` use it (R283): d, a, selector, tag, k. -/
def classVu (d : BitVec 6) (a : BitVec 6) (g : BitVec 2) (u : BitVec 4) (k : BitVec 3) : BitVec 21 :=
  place 15 d ||| place 9 a ||| place 7 g ||| place 3 u ||| place 0 k

/-- `NOP`: all operand bits zero. -/
def classN (z : BitVec 21) : BitVec 21 := place 0 z

/-! ## Decoding -/

/-- An instruction whose fields marked 0 must be zero (R180, R185): `z` says that they are. -/
def zeroed (z : Bool) (i : Instr) : Except Reject Instr := if z then .ok i else .error .zeroField

/-- Major opcodes 0x00 to 0x0F of the map of R184. -/
def decodeScalar (op : Nat) (o : BitVec 21) : Except Reject Instr :=
  match op with
  | 0x00 => zeroed ((field o 0 21) == 0) .nop
  | 0x01 =>
    match (field o 0 3).toNat with
    | 0 => .ok (.add (field o 15 6) (field o 9 6) (field o 3 6))
    | 1 => .ok (.sub (field o 15 6) (field o 9 6) (field o 3 6))
    | 2 => .ok (.and (field o 15 6) (field o 9 6) (field o 3 6))
    | 3 => .ok (.or (field o 15 6) (field o 9 6) (field o 3 6))
    | 4 => .ok (.xor (field o 15 6) (field o 9 6) (field o 3 6))
    | 5 => .ok (.andn (field o 15 6) (field o 9 6) (field o 3 6))
    | _ => .error .selector
  | 0x02 =>
    match (field o 0 3).toNat with
    | 0 => .ok (.mul (field o 15 6) (field o 9 6) (field o 3 6))
    | 1 => .ok (.mulh (field o 15 6) (field o 9 6) (field o 3 6))
    | 2 => .ok (.mulhu (field o 15 6) (field o 9 6) (field o 3 6))
    | 3 => .ok (.div (field o 15 6) (field o 9 6) (field o 3 6))
    | 4 => .ok (.divu (field o 15 6) (field o 9 6) (field o 3 6))
    | 5 => .ok (.rem (field o 15 6) (field o 9 6) (field o 3 6))
    | 6 => .ok (.remu (field o 15 6) (field o 9 6) (field o 3 6))
    | _ => .error .selector
  | 0x03 =>
    match (field o 0 3).toNat with
    | 0 => .ok (.shl (field o 15 6) (field o 9 6) (field o 3 6))
    | 1 => .ok (.shr (field o 15 6) (field o 9 6) (field o 3 6))
    | 2 => .ok (.sra (field o 15 6) (field o 9 6) (field o 3 6))
    | 3 => .ok (.min (field o 15 6) (field o 9 6) (field o 3 6))
    | 4 => .ok (.max (field o 15 6) (field o 9 6) (field o 3 6))
    | 5 => .ok (.minu (field o 15 6) (field o 9 6) (field o 3 6))
    | 6 => .ok (.maxu (field o 15 6) (field o 9 6) (field o 3 6))
    | _ => .error .selector
  | 0x04 =>
    match (field o 0 3).toNat with
    | 0 => zeroed ((field o 3 6) == 0) (.clz (field o 15 6) (field o 9 6))
    | 1 => zeroed ((field o 3 6) == 0) (.ctz (field o 15 6) (field o 9 6))
    | 2 => zeroed ((field o 3 6) == 0) (.popc (field o 15 6) (field o 9 6))
    | 3 => zeroed ((field o 3 6) == 0) (.mov (field o 15 6) (field o 9 6))
    | _ => .error .selector
  | 0x05 =>
    match (field o 0 3).toNat with
    | 0 => .ok (.bfx (field o 15 6) (field o 9 6) (field o 3 6))
    | 1 => .ok (.bfi (field o 15 6) (field o 9 6) (field o 3 6))
    | _ => .error .selector
  | 0x06 => .ok (.sel (field o 15 6) (field o 9 6) (field o 3 6) (field o 0 3))
  | 0x07 =>
    match (field o 0 3).toNat with
    | 0 => zeroed (fits 3 (field o 15 6)) (.cmpEq ((field o 15 6).setWidth 3) (field o 9 6) (field o 3 6))
    | 1 => zeroed (fits 3 (field o 15 6)) (.cmpNe ((field o 15 6).setWidth 3) (field o 9 6) (field o 3 6))
    | 2 => zeroed (fits 3 (field o 15 6)) (.cmpLt ((field o 15 6).setWidth 3) (field o 9 6) (field o 3 6))
    | 3 => zeroed (fits 3 (field o 15 6)) (.cmpGe ((field o 15 6).setWidth 3) (field o 9 6) (field o 3 6))
    | 4 => zeroed (fits 3 (field o 15 6)) (.cmpLtu ((field o 15 6).setWidth 3) (field o 9 6) (field o 3 6))
    | 5 => zeroed (fits 3 (field o 15 6)) (.cmpGeu ((field o 15 6).setWidth 3) (field o 9 6) (field o 3 6))
    | _ => .error .selector
  | 0x08 =>
    match (field o 0 3).toNat with
    | 0 => zeroed (fits 3 (field o 15 6) && fits 3 (field o 9 6) && fits 3 (field o 3 6)) (.pand ((field o 15 6).setWidth 3) ((field o 9 6).setWidth 3) ((field o 3 6).setWidth 3))
    | 1 => zeroed (fits 3 (field o 15 6) && fits 3 (field o 9 6) && fits 3 (field o 3 6)) (.por ((field o 15 6).setWidth 3) ((field o 9 6).setWidth 3) ((field o 3 6).setWidth 3))
    | 2 => zeroed (fits 3 (field o 15 6) && fits 3 (field o 9 6) && (field o 3 6) == 0) (.pnot ((field o 15 6).setWidth 3) ((field o 9 6).setWidth 3))
    | _ => .error .selector
  | _ => .error .opcode

/-- Major opcodes 0x10 to 0x1F of the map of R184. -/
def decodeImmediate (op : Nat) (o : BitVec 21) : Except Reject Instr :=
  match op with
  | 0x18 => .ok (.addi (field o 15 6) (field o 9 6) (field o 0 9))
  | 0x19 => .ok (.andi (field o 15 6) (field o 9 6) (field o 0 9))
  | 0x1A => .ok (.ori (field o 15 6) (field o 9 6) (field o 0 9))
  | 0x1B => .ok (.xori (field o 15 6) (field o 9 6) (field o 0 9))
  | 0x1C => zeroed (fits 6 (field o 0 9)) (.shli (field o 15 6) (field o 9 6) ((field o 0 9).setWidth 6))
  | 0x1D => zeroed (fits 6 (field o 0 9)) (.shri (field o 15 6) (field o 9 6) ((field o 0 9).setWidth 6))
  | 0x1E => zeroed (fits 6 (field o 0 9)) (.srai (field o 15 6) (field o 9 6) ((field o 0 9).setWidth 6))
  | 0x1F => .ok (.li (field o 15 6) (field o 0 15))
  | _ => .error .opcode

/-- Major opcodes 0x20 to 0x2F of the map of R184. -/
def decodeControl (op : Nat) (o : BitVec 21) : Except Reject Instr :=
  match op with
  | 0x20 => .ok (.lih (field o 15 6) (field o 0 15))
  | 0x21 => zeroed (fits 3 (field o 15 6)) (.cmpiEq ((field o 15 6).setWidth 3) (field o 9 6) (field o 0 9))
  | 0x22 => zeroed (fits 3 (field o 15 6)) (.cmpiNe ((field o 15 6).setWidth 3) (field o 9 6) (field o 0 9))
  | 0x23 => zeroed (fits 3 (field o 15 6)) (.cmpiLt ((field o 15 6).setWidth 3) (field o 9 6) (field o 0 9))
  | 0x24 => zeroed (fits 3 (field o 15 6)) (.cmpiGe ((field o 15 6).setWidth 3) (field o 9 6) (field o 0 9))
  | 0x25 => zeroed (fits 3 (field o 15 6)) (.cmpiLtu ((field o 15 6).setWidth 3) (field o 9 6) (field o 0 9))
  | 0x26 => zeroed (fits 3 (field o 15 6)) (.cmpiGeu ((field o 15 6).setWidth 3) (field o 9 6) (field o 0 9))
  | 0x28 => zeroed ((field o 0 2) == 0) (.tree (field o 17 4) (field o 13 4) (field o 9 4) (field o 5 4) (field o 2 3))
  | 0x29 => .ok (.tgt (field o 18 3) (field o 0 18))
  | 0x2A => zeroed ((field o 18 3) == 0) (.jmp (field o 0 18))
  | 0x2B => zeroed ((field o 18 3) == 0) (.call (field o 0 18))
  | 0x2C => .ok (.loop (field o 15 6) (field o 0 15))
  | 0x2D => zeroed (fits 3 (field o 15 6)) (.sloop ((field o 15 6).setWidth 3) (field o 9 6) (field o 0 9))
  | 0x2E =>
    match (field o 0 3).toNat with
    | 0 => zeroed ((field o 15 6) == 0 && (field o 9 6) == 0 && (field o 3 6) == 0) .ret
    | 1 => zeroed ((field o 15 6) == 0 && (field o 9 6) == 0 && (field o 3 6) == 0) .endTask
    | 2 => zeroed ((field o 15 6) == 0 && (field o 9 6) == 0 && (field o 3 6) == 0) .yield
    | 3 => zeroed ((field o 9 6) == 0 && (field o 3 6) == 0) (.rdv (field o 15 6))
    | 4 => zeroed ((field o 15 6) == 0 && (field o 9 6) == 0 && (field o 3 6) == 0) .segb
    | 5 => zeroed ((field o 15 6) == 0 && (field o 9 6) == 0 && (field o 3 6) == 0) .sege
    | 6 => zeroed ((field o 9 6) == 0 && (field o 3 6) == 0) (.brk (field o 15 6))
    | _ => .error .selector
  | _ => .error .opcode

/-- Major opcodes 0x30 to 0x3F of the map of R184. -/
def decodeMemory (op : Nat) (o : BitVec 21) : Except Reject Instr :=
  match op with
  | 0x30 =>
    match (field o 0 1).toNat with
    | 0 => .ok (.ldb (field o 15 6) (field o 9 6) (field o 1 8))
    | 1 => .ok (.ldbz (field o 15 6) (field o 9 6) (field o 1 8))
    | _ => .error .selector
  | 0x31 =>
    match (field o 0 1).toNat with
    | 0 => .ok (.ldh (field o 15 6) (field o 9 6) (field o 1 8))
    | 1 => .ok (.ldhz (field o 15 6) (field o 9 6) (field o 1 8))
    | _ => .error .selector
  | 0x32 =>
    match (field o 0 1).toNat with
    | 0 => .ok (.ldw (field o 15 6) (field o 9 6) (field o 1 8))
    | 1 => .ok (.ldwz (field o 15 6) (field o 9 6) (field o 1 8))
    | _ => .error .selector
  | 0x33 => zeroed ((field o 0 1) == 0) (.ldd (field o 15 6) (field o 9 6) (field o 1 8))
  | 0x34 => zeroed ((field o 0 1) == 0) (.stb (field o 15 6) (field o 9 6) (field o 1 8))
  | 0x35 => zeroed ((field o 0 1) == 0) (.sth (field o 15 6) (field o 9 6) (field o 1 8))
  | 0x36 => zeroed ((field o 0 1) == 0) (.stw (field o 15 6) (field o 9 6) (field o 1 8))
  | 0x37 => zeroed ((field o 0 1) == 0) (.std (field o 15 6) (field o 9 6) (field o 1 8))
  | 0x38 => .ok (.spl (field o 15 6) (field o 9 6) (field o 1 8) (flag (field o 0 1)))
  | 0x39 => .ok (.sps (field o 15 6) (field o 9 6) (field o 1 8) (flag (field o 0 1)))
  | 0x3A => .ok (.vldp (field o 15 6) (field o 9 6) (field o 5 4) (field o 1 4) (flag (field o 0 1)))
  | 0x3B => .ok (.vstp (field o 15 6) (field o 9 6) (field o 1 8) (flag (field o 0 1)))
  | 0x3C =>
    match (field o 0 1).toNat with
    | 0 => .ok (.vld (field o 15 6) (field o 9 6) (field o 5 4) (field o 1 4))
    | 1 => zeroed ((field o 5 4) == 0) (.vst (field o 15 6) (field o 9 6) (field o 1 4))
    | _ => .error .selector
  | 0x3D =>
    match (field o 8 1).toNat with
    | 0 => .ok (.vlds (field o 15 6) (field o 9 6) (field o 4 4) (field o 0 4))
    | 1 => zeroed ((field o 0 4) == 0) (.vsts (field o 15 6) (field o 9 6) (field o 4 4))
    | _ => .error .selector
  | 0x3E => zeroed ((field o 0 1) == 0) (.sld (field o 15 6) (field o 9 6) (field o 5 4) (field o 1 4))
  | 0x3F =>
    match (field o 0 3).toNat with
    | 0 => .ok (.trans (field o 15 6) (field o 9 6) (field o 3 6))
    | 1 => zeroed ((field o 15 6) == 0) (.pref (field o 9 6) (field o 3 6))
    | 2 => zeroed ((field o 15 6) == 0 && (field o 9 6) == 0 && (field o 3 6) == 0) .fence
    | _ => .error .selector
  | _ => .error .opcode

/-- Major opcodes 0x40 to 0x4F of the map of R184. -/
def decodeAtomic (op : Nat) (o : BitVec 21) : Except Reject Instr :=
  match op with
  | 0x40 =>
    match (field o 0 3).toNat with
    | 0 => .ok (.amoadd (field o 15 6) (field o 9 6) (field o 3 6))
    | 1 => .ok (.amomin (field o 15 6) (field o 9 6) (field o 3 6))
    | 2 => .ok (.amomax (field o 15 6) (field o 9 6) (field o 3 6))
    | 3 => .ok (.amominu (field o 15 6) (field o 9 6) (field o 3 6))
    | 4 => .ok (.amoand (field o 15 6) (field o 9 6) (field o 3 6))
    | 5 => .ok (.amoor (field o 15 6) (field o 9 6) (field o 3 6))
    | 6 => .ok (.amoxor (field o 15 6) (field o 9 6) (field o 3 6))
    | 7 => .ok (.amoswp (field o 15 6) (field o 9 6) (field o 3 6))
    | _ => .error .selector
  | 0x41 =>
    match (field o 0 3).toNat with
    | 0 => .ok (.amoaddW (field o 15 6) (field o 9 6) (field o 3 6))
    | 1 => .ok (.amominW (field o 15 6) (field o 9 6) (field o 3 6))
    | 2 => .ok (.amomaxW (field o 15 6) (field o 9 6) (field o 3 6))
    | 3 => .ok (.amominuW (field o 15 6) (field o 9 6) (field o 3 6))
    | 4 => .ok (.amoandW (field o 15 6) (field o 9 6) (field o 3 6))
    | 5 => .ok (.amoorW (field o 15 6) (field o 9 6) (field o 3 6))
    | 6 => .ok (.amoxorW (field o 15 6) (field o 9 6) (field o 3 6))
    | 7 => .ok (.amoswpW (field o 15 6) (field o 9 6) (field o 3 6))
    | _ => .error .selector
  | 0x42 =>
    match (field o 0 3).toNat with
    | 0 => .ok (.amocas (field o 15 6) (field o 9 6) (field o 3 6))
    | 1 => .ok (.amocasW (field o 15 6) (field o 9 6) (field o 3 6))
    | _ => .error .selector
  | 0x43 =>
    match (field o 0 3).toNat with
    | 0 => zeroed ((field o 15 6) == 0) (.redAdd (field o 9 6) (field o 3 6))
    | 1 => zeroed ((field o 15 6) == 0) (.redMin (field o 9 6) (field o 3 6))
    | 2 => zeroed ((field o 15 6) == 0) (.redMax (field o 9 6) (field o 3 6))
    | 3 => zeroed ((field o 15 6) == 0) (.redFadd (field o 9 6) (field o 3 6))
    | _ => .error .selector
  | 0x44 =>
    match (field o 0 3).toNat with
    | 0 => zeroed ((field o 15 6) == 0 && (field o 3 6) == 0) (.tspawn (field o 9 6))
    | 1 => zeroed ((field o 15 6) == 0 && (field o 3 6) == 0) (.tdec (field o 9 6))
    | 2 => zeroed ((field o 15 6) == 0) (.tadd (field o 9 6) (field o 3 6))
    | 3 => zeroed ((field o 15 6) == 0 && (field o 9 6) == 0 && (field o 3 6) == 0) .ntr
    | _ => .error .selector
  | 0x45 =>
    match (field o 15 6).toNat with
    | 0 => zeroed ((field o 9 6) == 0 && fits 8 (field o 0 9)) (.barr ((field o 0 9).setWidth 8))
    | 1 => zeroed ((field o 9 6) == 0 && fits 8 (field o 0 9)) (.bwait ((field o 0 9).setWidth 8))
    | 2 => zeroed ((field o 9 6) == 0 && fits 8 (field o 0 9)) (.barw ((field o 0 9).setWidth 8))
    | _ => .error .selector
  | 0x46 =>
    match (field o 0 3).toNat with
    | 0 => zeroed ((field o 15 6) == 0) (.qput (field o 9 6) (field o 3 6))
    | 1 => zeroed ((field o 3 6) == 0) (.qget (field o 15 6) (field o 9 6))
    | 2 => zeroed ((field o 15 6) == 0 && (field o 3 6) == 0) (.qeos (field o 9 6))
    | 3 => zeroed ((field o 9 6) == 0) (.vfput (field o 15 6) (field o 3 6))
    | 4 => zeroed ((field o 9 6) == 0 && (field o 3 6) == 0) (.vfget (field o 15 6))
    | _ => .error .selector
  | 0x47 =>
    match (field o 0 3).toNat with
    | 0 => zeroed (fits 3 (field o 15 6) && (field o 3 6) == 0) (.tlw ((field o 15 6).setWidth 3) (field o 9 6))
    | 1 => zeroed (fits 3 (field o 9 6) && (field o 3 6) == 0) (.tlr (field o 15 6) ((field o 9 6).setWidth 3))
    | _ => .error .selector
  | 0x48 =>
    match (field o 0 3).toNat with
    | 0 => zeroed ((field o 15 6) == 0 && (field o 9 6) == 0 && (field o 3 6) == 0) .txb
    | 1 => zeroed ((field o 9 6) == 0 && (field o 3 6) == 0) (.txc (field o 15 6))
    | 2 => zeroed ((field o 15 6) == 0 && (field o 9 6) == 0 && (field o 3 6) == 0) .txa
    | 3 => zeroed (fits 1 (field o 9 6) && (field o 3 6) == 0) (.snap (field o 15 6) (flag (field o 9 6)))
    | 4 => zeroed ((field o 15 6) == 0 && (field o 3 6) == 0) (.snaprel (field o 9 6))
    | 5 => zeroed ((field o 15 6) == 0 && (field o 3 6) == 0) (.snapsel (field o 9 6))
    | _ => .error .selector
  | _ => .error .opcode

/-- Major opcodes 0x50 to 0x5F of the map of R184. -/
def decodeVector (op : Nat) (o : BitVec 21) : Except Reject Instr :=
  match op with
  | 0x50 => .ok (.vadd (field o 15 6) (field o 9 6) (field o 3 6) (field o 0 3))
  | 0x51 => .ok (.vsub (field o 15 6) (field o 9 6) (field o 3 6) (field o 0 3))
  | 0x52 => .ok (.vmul (field o 15 6) (field o 9 6) (field o 3 6) (field o 0 3))
  | 0x53 => .ok (.vfma (field o 15 6) (field o 9 6) (field o 3 6) (field o 0 3))
  | 0x54 => .ok (.vfms (field o 15 6) (field o 9 6) (field o 3 6) (field o 0 3))
  | 0x55 => .ok (.vmin (field o 15 6) (field o 9 6) (field o 3 6) (field o 0 3))
  | 0x56 => .ok (.vmax (field o 15 6) (field o 9 6) (field o 3 6) (field o 0 3))
  | 0x57 =>
    match (field o 3 6).toNat with
    | 0 => .ok (.vneg (field o 15 6) (field o 9 6) (field o 0 3))
    | 1 => .ok (.vabs (field o 15 6) (field o 9 6) (field o 0 3))
    | 2 => .ok (.vrcp (field o 15 6) (field o 9 6) (field o 0 3))
    | 3 => .ok (.vrsq (field o 15 6) (field o 9 6) (field o 0 3))
    | 4 => .ok (.vsqrt (field o 15 6) (field o 9 6) (field o 0 3))
    | 5 => .ok (.vexp (field o 15 6) (field o 9 6) (field o 0 3))
    | 6 => .ok (.vlog (field o 15 6) (field o 9 6) (field o 0 3))
    | 7 => .ok (.vtanh (field o 15 6) (field o 9 6) (field o 0 3))
    | 8 => .ok (.vclass (field o 15 6) (field o 9 6) (field o 0 3))
    | 9 => .ok (.vnot (field o 15 6) (field o 9 6) (field o 0 3))
    | 10 => .ok (.vredsum (field o 15 6) (field o 9 6) (field o 0 3))
    | 11 => .ok (.vredmax (field o 15 6) (field o 9 6) (field o 0 3))
    | 12 => .ok (.vredmin (field o 15 6) (field o 9 6) (field o 0 3))
    | 13 => .ok (.vredarg (field o 15 6) (field o 9 6) (field o 0 3))
    | 14 => .ok (.vscan (field o 15 6) (field o 9 6) (field o 0 3))
    | 15 => .ok (.vmovs (field o 15 6) (field o 9 6) (field o 0 3))
    | 16 => .ok (.vhash (field o 15 6) (field o 9 6) (field o 0 3))
    | _ => .error .selector
  | 0x58 => .ok (.viadd (field o 15 6) (field o 9 6) (field o 3 6) (field o 0 3))
  | 0x59 => .ok (.visub (field o 15 6) (field o 9 6) (field o 3 6) (field o 0 3))
  | 0x5A => .ok (.vimul (field o 15 6) (field o 9 6) (field o 3 6) (field o 0 3))
  | 0x5B => .ok (.vimad (field o 15 6) (field o 9 6) (field o 3 6) (field o 0 3))
  | 0x5C => .ok (.vimin (field o 15 6) (field o 9 6) (field o 3 6) (field o 0 3))
  | 0x5D => .ok (.vimax (field o 15 6) (field o 9 6) (field o 3 6) (field o 0 3))
  | 0x5E => .ok (.vshl (field o 15 6) (field o 9 6) (field o 3 6) (field o 0 3))
  | 0x5F => .ok (.vshr (field o 15 6) (field o 9 6) (field o 3 6) (field o 0 3))
  | _ => .error .opcode

/-- Major opcodes 0x60 to 0x6F of the map of R184. -/
def decodeVectorMore (op : Nat) (o : BitVec 21) : Except Reject Instr :=
  match op with
  | 0x60 => .ok (.vsra (field o 15 6) (field o 9 6) (field o 3 6) (field o 0 3))
  | 0x61 => .ok (.vand (field o 15 6) (field o 9 6) (field o 3 6) (field o 0 3))
  | 0x62 => .ok (.vor (field o 15 6) (field o 9 6) (field o 3 6) (field o 0 3))
  | 0x63 => .ok (.vxor (field o 15 6) (field o 9 6) (field o 3 6) (field o 0 3))
  | 0x64 =>
    match (field o 18 3).toNat with
    | 0 => .ok (.vcmpEq (field o 15 3) (field o 9 6) (field o 3 6) (field o 0 3))
    | 1 => .ok (.vcmpNe (field o 15 3) (field o 9 6) (field o 3 6) (field o 0 3))
    | 2 => .ok (.vcmpLt (field o 15 3) (field o 9 6) (field o 3 6) (field o 0 3))
    | 3 => .ok (.vcmpLe (field o 15 3) (field o 9 6) (field o 3 6) (field o 0 3))
    | 4 => .ok (.vcmpGt (field o 15 3) (field o 9 6) (field o 3 6) (field o 0 3))
    | 5 => .ok (.vcmpGe (field o 15 3) (field o 9 6) (field o 3 6) (field o 0 3))
    | 6 => .ok (.vcmpUn (field o 15 3) (field o 9 6) (field o 3 6) (field o 0 3))
    | _ => .error .selector
  | 0x65 => .ok (.vsel (field o 15 6) (field o 9 6) (field o 3 6) (field o 0 3))
  | 0x66 =>
    match (field o 7 2).toNat with
    | 0 => .ok (.vcvt (field o 15 6) (field o 9 6) (field o 3 4) (field o 0 3))
    | 1 => zeroed ((field o 0 3) == 0) (.vqnt (field o 15 6) (field o 9 6) (field o 3 4))
    | _ => .error .selector
  | 0x67 => zeroed ((field o 0 3) == 0) (.vdqnt (field o 15 6) (field o 9 6) (field o 3 6))
  | 0x68 => .ok (.vpackts (field o 15 6) (field o 9 6) (field o 3 6) (field o 0 3))
  | 0x69 => .ok (.vshuf (field o 15 6) (field o 9 6) (field o 3 6) (field o 0 3))
  | 0x6A =>
    match (field o 0 3).toNat with
    | 0 => .ok (.vrot (field o 15 6) (field o 9 6) (field o 3 6))
    | 1 => .ok (.vslide (field o 15 6) (field o 9 6) (field o 3 6))
    | _ => .error .selector
  | 0x6B =>
    match (field o 0 3).toNat with
    | 0 => zeroed ((field o 3 6) == 0) (.vbcast (field o 15 6) (field o 9 6))
    | 1 => .ok (.vins (field o 15 6) (field o 9 6) (field o 3 6))
    | 2 => .ok (.vext (field o 15 6) (field o 9 6) (field o 3 6))
    | _ => .error .selector
  | 0x6C => .ok (.vgather (field o 15 6) (field o 9 6) (field o 3 6) (field o 0 3))
  | 0x6D => .ok (.vscat (field o 15 6) (field o 9 6) (field o 3 6) (field o 0 3))
  | 0x6E => .ok (.vdot (field o 15 6) (field o 9 6) (field o 3 6) (field o 0 3))
  | 0x6F =>
    match (field o 12 3).toNat with
    | 0 => zeroed (fits 3 (field o 15 6) && (field o 6 3) == 0 && (field o 0 3) == 0) (.kand ((field o 15 6).setWidth 3) (field o 9 3) (field o 3 3))
    | 1 => zeroed (fits 3 (field o 15 6) && (field o 6 3) == 0 && (field o 0 3) == 0) (.kor ((field o 15 6).setWidth 3) (field o 9 3) (field o 3 3))
    | 2 => zeroed (fits 3 (field o 15 6) && (field o 6 3) == 0 && (field o 3 3) == 0 && (field o 0 3) == 0) (.knot ((field o 15 6).setWidth 3) (field o 9 3))
    | 3 => zeroed ((field o 6 3) == 0 && (field o 3 3) == 0 && (field o 0 3) == 0) (.kpop (field o 15 6) (field o 9 3))
    | _ => .error .selector
  | _ => .error .opcode

/-- Major opcodes 0x70 to 0x7F of the map of R184. -/
def decodeSystem (op : Nat) (o : BitVec 21) : Except Reject Instr :=
  match op with
  | 0x70 =>
    match (field o 13 8).toNat with
    | 0 => .ok (.mcallMm (field o 12 1) (field o 6 6) (field o 0 6))
    | 8 => zeroed ((field o 0 6) == 0) (.mcallAccout (field o 12 1) (field o 6 6))
    | 9 => zeroed ((field o 0 6) == 0) (.mcallAccld (field o 12 1) (field o 6 6))
    | 10 => zeroed ((field o 0 6) == 0) (.mcallAccadd (field o 12 1) (field o 6 6))
    | 16 => zeroed ((field o 12 1) == 0) (.mcallTransp (field o 6 6) (field o 0 6))
    | _ => .error .selector
  | 0x71 => zeroed (fits 3 (field o 15 6) && (field o 3 6) == 0 && (field o 0 3) == 0) (.mpar ((field o 15 6).setWidth 3) (field o 9 6))
  | 0x72 =>
    match (field o 0 3).toNat with
    | 0 => zeroed ((field o 9 6) == 0 && (field o 3 6) == 0) (.oclm (field o 15 6))
    | 1 => zeroed ((field o 9 6) == 0 && (field o 3 6) == 0) (.orel (field o 15 6))
    | 2 => zeroed (fits 4 (field o 3 6)) (.old (field o 15 6) (field o 9 6) ((field o 3 6).setWidth 4))
    | 3 => zeroed ((field o 3 6) == 0) (.ost (field o 15 6) (field o 9 6))
    | 4 => zeroed (fits 1 (field o 15 6) && (field o 9 6) == 0 && (field o 3 6) == 0) (.macz ((field o 15 6).setWidth 1))
    | _ => .error .selector
  | 0x73 =>
    match (field o 0 3).toNat with
    | 0 => zeroed ((field o 15 6) == 0 && (field o 3 6) == 0) (.mlim (field o 9 6))
    | 1 => zeroed ((field o 15 6) == 0 && (field o 3 6) == 0) (.mupld (field o 9 6))
    | _ => .error .selector
  | 0x74 => zeroed (fits 3 (field o 11 6) && (field o 0 5) == 0) (.eset (field o 17 4) ((field o 11 6).setWidth 3) (field o 5 6))
  | 0x75 =>
    match (field o 17 4).toNat, (field o 0 5).toNat with
    | 0, 0 => zeroed (fits 3 (field o 5 6)) (.egoCopyMove (field o 11 6) ((field o 5 6).setWidth 3))
    | 0, 1 => zeroed (fits 3 (field o 5 6)) (.egoCopyFill (field o 11 6) ((field o 5 6).setWidth 3))
    | 0, 2 => zeroed (fits 3 (field o 5 6)) (.egoCopyMove2d (field o 11 6) ((field o 5 6).setWidth 3))
    | 1, 0 => zeroed (fits 3 (field o 5 6)) (.egoGatherGath (field o 11 6) ((field o 5 6).setWidth 3))
    | 1, 1 => zeroed (fits 3 (field o 5 6)) (.egoGatherScat (field o 11 6) ((field o 5 6).setWidth 3))
    | 2, 0 => zeroed (fits 3 (field o 5 6)) (.egoHashSha384 (field o 11 6) ((field o 5 6).setWidth 3))
    | 3, 0 => zeroed (fits 3 (field o 5 6)) (.egoCryptoSeal (field o 11 6) ((field o 5 6).setWidth 3))
    | 3, 1 => zeroed (fits 3 (field o 5 6)) (.egoCryptoOpen (field o 11 6) ((field o 5 6).setWidth 3))
    | 4, 0 => zeroed (fits 3 (field o 5 6)) (.egoCollBcast (field o 11 6) ((field o 5 6).setWidth 3))
    | 4, 1 => zeroed (fits 3 (field o 5 6)) (.egoCollSumf (field o 11 6) ((field o 5 6).setWidth 3))
    | 4, 2 => zeroed (fits 3 (field o 5 6)) (.egoCollSumi (field o 11 6) ((field o 5 6).setWidth 3))
    | 5, 1 => zeroed (fits 3 (field o 5 6)) (.egoNetPart (field o 11 6) ((field o 5 6).setWidth 3))
    | 5, 0 => zeroed (fits 3 (field o 5 6)) (.egoNetReply (field o 11 6) ((field o 5 6).setWidth 3))
    | _, _ => .error .selector
  | 0x76 =>
    match (field o 0 5).toNat with
    | 0 => zeroed (fits 3 (field o 17 4) && (field o 11 6) == 0) (.edep ((field o 17 4).setWidth 3) (field o 5 6))
    | 1 => zeroed (fits 3 (field o 17 4) && (field o 11 6) == 0) (.ebar ((field o 17 4).setWidth 3) (field o 5 6))
    | 2 => zeroed (fits 3 (field o 17 4) && (field o 11 6) == 0) (.ecan ((field o 17 4).setWidth 3) (field o 5 6))
    | _ => .error .selector
  | 0x78 => zeroed (fits 12 (field o 0 15)) (.csrr (field o 15 6) ((field o 0 15).setWidth 12))
  | 0x79 => zeroed (fits 12 (field o 0 15)) (.csrw (field o 15 6) ((field o 0 15).setWidth 12))
  | 0x7A => zeroed (fits 12 (field o 0 15)) (.csrs (field o 15 6) ((field o 0 15).setWidth 12))
  | 0x7B => zeroed (fits 12 (field o 0 15)) (.csrc (field o 15 6) ((field o 0 15).setWidth 12))
  | 0x7C => zeroed ((field o 15 6) == 0) (.trap (field o 0 15))
  | 0x7D =>
    match (field o 0 3).toNat with
    | 0 => zeroed ((field o 15 6) == 0 && (field o 9 6) == 0 && (field o 3 6) == 0) .tret
    | 1 => zeroed ((field o 15 6) == 0 && (field o 9 6) == 0 && (field o 3 6) == 0) .wfe
    | 2 => zeroed ((field o 15 6) == 0 && (field o 9 6) == 0 && (field o 3 6) == 0) .halt
    | _ => .error .selector
  | 0x7F => .ok (.wide (field o 0 21))
  | _ => .error .opcode

/-- The instruction that the opcode map of R184 gives the operand bits `o` under major opcode `op`. -/
def decodeOperands (op : Nat) (o : BitVec 21) : Except Reject Instr :=
  match op / 16 with
  | 0 => decodeScalar op o
  | 1 => decodeImmediate op o
  | 2 => decodeControl op o
  | 3 => decodeMemory op o
  | 4 => decodeAtomic op o
  | 5 => decodeVector op o
  | 6 => decodeVectorMore op o
  | 7 => decodeSystem op o
  | _ => .error .opcode

/-- An instruction whose fields lie in the ranges of R181 and of its own rule. -/
def inRange (i : Instr) : Except Reject Instr := if i.wf then .ok i else .error .range

/-- Whether a path tag may stand on the instruction (R176, R178): tags 6 and 7 are reserved, and `NOP`, `TREE` and
`TGT` take none. -/
def pathOk (p : BitVec 3) (i : Instr) : Bool :=
  match i with
  | .nop => p == 0
  | .tree _ _ _ _ _ => p == 0
  | .tgt _ _ => p == 0
  | _ => p.toNat ≤ 5

/-- The instruction of a major opcode and operand bits, with its fields in range. -/
def decodeCode (op : BitVec 7) (o : BitVec 21) : Except Reject Instr := do
  let i ← decodeOperands op.toNat o
  inRange i

/-- The slot that a word stands for (R174), or the reason it is an illegal encoding (R185). -/
def decodeSlot (w : Word32) : Except Reject Slot := do
  let i ← decodeCode (w.extractLsb' 21 7) (w.extractLsb' 0 21)
  let p := w.extractLsb' 28 3
  if pathOk p i then .ok { stop := w.getLsbD 31, path := p, instr := i } else .error .path

/-! ## Encoding -/

/-- The major opcode and the operand bits of a slot instruction; the event rows of the table have none. -/
def encode (i : Instr) : Option (BitVec 7 × BitVec 21) :=
  match i with
  | .nop => some (0x00, classN 0)
  | .add d a b => some (0x01, classR d a b 0)
  | .sub d a b => some (0x01, classR d a b 1)
  | .and d a b => some (0x01, classR d a b 2)
  | .or d a b => some (0x01, classR d a b 3)
  | .xor d a b => some (0x01, classR d a b 4)
  | .andn d a b => some (0x01, classR d a b 5)
  | .mul d a b => some (0x02, classR d a b 0)
  | .mulh d a b => some (0x02, classR d a b 1)
  | .mulhu d a b => some (0x02, classR d a b 2)
  | .div d a b => some (0x02, classR d a b 3)
  | .divu d a b => some (0x02, classR d a b 4)
  | .rem d a b => some (0x02, classR d a b 5)
  | .remu d a b => some (0x02, classR d a b 6)
  | .shl d a b => some (0x03, classR d a b 0)
  | .shr d a b => some (0x03, classR d a b 1)
  | .sra d a b => some (0x03, classR d a b 2)
  | .min d a b => some (0x03, classR d a b 3)
  | .max d a b => some (0x03, classR d a b 4)
  | .minu d a b => some (0x03, classR d a b 5)
  | .maxu d a b => some (0x03, classR d a b 6)
  | .clz d a => some (0x04, classR d a 0 0)
  | .ctz d a => some (0x04, classR d a 0 1)
  | .popc d a => some (0x04, classR d a 0 2)
  | .mov d a => some (0x04, classR d a 0 3)
  | .bfx d a b => some (0x05, classR d a b 0)
  | .bfi d a b => some (0x05, classR d a b 1)
  | .sel d a b c => some (0x06, classR d a b c)
  | .cmpEq d a b => some (0x07, classR (d.setWidth 6) a b 0)
  | .cmpNe d a b => some (0x07, classR (d.setWidth 6) a b 1)
  | .cmpLt d a b => some (0x07, classR (d.setWidth 6) a b 2)
  | .cmpGe d a b => some (0x07, classR (d.setWidth 6) a b 3)
  | .cmpLtu d a b => some (0x07, classR (d.setWidth 6) a b 4)
  | .cmpGeu d a b => some (0x07, classR (d.setWidth 6) a b 5)
  | .pand d a b => some (0x08, classR (d.setWidth 6) (a.setWidth 6) (b.setWidth 6) 0)
  | .por d a b => some (0x08, classR (d.setWidth 6) (a.setWidth 6) (b.setWidth 6) 1)
  | .pnot d a => some (0x08, classR (d.setWidth 6) (a.setWidth 6) 0 2)
  | .addi d a imm => some (0x18, classI d a imm)
  | .andi d a imm => some (0x19, classI d a imm)
  | .ori d a imm => some (0x1A, classI d a imm)
  | .xori d a imm => some (0x1B, classI d a imm)
  | .shli d a sh => some (0x1C, classI d a (sh.setWidth 9))
  | .shri d a sh => some (0x1D, classI d a (sh.setWidth 9))
  | .srai d a sh => some (0x1E, classI d a (sh.setWidth 9))
  | .li d imm => some (0x1F, classL d imm)
  | .lih d imm => some (0x20, classL d imm)
  | .cmpiEq d a imm => some (0x21, classI (d.setWidth 6) a imm)
  | .cmpiNe d a imm => some (0x22, classI (d.setWidth 6) a imm)
  | .cmpiLt d a imm => some (0x23, classI (d.setWidth 6) a imm)
  | .cmpiGe d a imm => some (0x24, classI (d.setWidth 6) a imm)
  | .cmpiLtu d a imm => some (0x25, classI (d.setWidth 6) a imm)
  | .cmpiGeu d a imm => some (0x26, classI (d.setWidth 6) a imm)
  | .tree t1 t2 t3 t4 n => some (0x28, classT t1 t2 t3 t4 n 0)
  | .tgt leaf off => some (0x29, classG leaf off)
  | .jmp off => some (0x2A, classG 0 off)
  | .call off => some (0x2B, classG 0 off)
  | .loop d imm => some (0x2C, classL d imm)
  | .sloop d q imm => some (0x2D, classI (d.setWidth 6) q imm)
  | .ret => some (0x2E, classR 0 0 0 0)
  | .endTask => some (0x2E, classR 0 0 0 1)
  | .yield => some (0x2E, classR 0 0 0 2)
  | .rdv n => some (0x2E, classR n 0 0 3)
  | .segb => some (0x2E, classR 0 0 0 4)
  | .sege => some (0x2E, classR 0 0 0 5)
  | .brk n => some (0x2E, classR n 0 0 6)
  | .ldb t base off => some (0x30, classM t base off 0)
  | .ldbz t base off => some (0x30, classM t base off 1)
  | .ldh t base off => some (0x31, classM t base off 0)
  | .ldhz t base off => some (0x31, classM t base off 1)
  | .ldw t base off => some (0x32, classM t base off 0)
  | .ldwz t base off => some (0x32, classM t base off 1)
  | .ldd t base off => some (0x33, classM t base off 0)
  | .stb t base off => some (0x34, classM t base off 0)
  | .sth t base off => some (0x35, classM t base off 0)
  | .stw t base off => some (0x36, classM t base off 0)
  | .std t base off => some (0x37, classM t base off 0)
  | .spl t base off ma => some (0x38, classM t base off (BitVec.ofBool ma))
  | .sps t base off ma => some (0x39, classM t base off (BitVec.ofBool ma))
  | .vldp t base tag off ma => some (0x3A, classMv t base tag off (BitVec.ofBool ma))
  | .vstp t base off ma => some (0x3B, classM t base off (BitVec.ofBool ma))
  | .vld t base tag off => some (0x3C, classMv t base tag off 0)
  | .vst t base off => some (0x3C, classMv t base 0 off 1)
  | .vlds t base st tag => some (0x3D, classMs t base 0 st tag)
  | .vsts t base st => some (0x3D, classMs t base 1 st 0)
  | .sld t base tag off => some (0x3E, classMv t base tag off 0)
  | .trans d a b => some (0x3F, classR d a b 0)
  | .pref a b => some (0x3F, classR 0 a b 1)
  | .fence => some (0x3F, classR 0 0 0 2)
  | .amoadd d a b => some (0x40, classR d a b 0)
  | .amomin d a b => some (0x40, classR d a b 1)
  | .amomax d a b => some (0x40, classR d a b 2)
  | .amominu d a b => some (0x40, classR d a b 3)
  | .amoand d a b => some (0x40, classR d a b 4)
  | .amoor d a b => some (0x40, classR d a b 5)
  | .amoxor d a b => some (0x40, classR d a b 6)
  | .amoswp d a b => some (0x40, classR d a b 7)
  | .amoaddW d a b => some (0x41, classR d a b 0)
  | .amominW d a b => some (0x41, classR d a b 1)
  | .amomaxW d a b => some (0x41, classR d a b 2)
  | .amominuW d a b => some (0x41, classR d a b 3)
  | .amoandW d a b => some (0x41, classR d a b 4)
  | .amoorW d a b => some (0x41, classR d a b 5)
  | .amoxorW d a b => some (0x41, classR d a b 6)
  | .amoswpW d a b => some (0x41, classR d a b 7)
  | .amocas d a b => some (0x42, classR d a b 0)
  | .amocasW d a b => some (0x42, classR d a b 1)
  | .redAdd a b => some (0x43, classR 0 a b 0)
  | .redMin a b => some (0x43, classR 0 a b 1)
  | .redMax a b => some (0x43, classR 0 a b 2)
  | .redFadd a b => some (0x43, classR 0 a b 3)
  | .tspawn a => some (0x44, classR 0 a 0 0)
  | .tdec a => some (0x44, classR 0 a 0 1)
  | .tadd a b => some (0x44, classR 0 a b 2)
  | .ntr => some (0x44, classR 0 0 0 3)
  | .barr h => some (0x45, classI 0 0 (h.setWidth 9))
  | .bwait h => some (0x45, classI 1 0 (h.setWidth 9))
  | .barw h => some (0x45, classI 2 0 (h.setWidth 9))
  | .qput q b => some (0x46, classR 0 q b 0)
  | .qget d q => some (0x46, classR d q 0 1)
  | .qeos q => some (0x46, classR 0 q 0 2)
  | .vfput d b => some (0x46, classR d 0 b 3)
  | .vfget d => some (0x46, classR d 0 0 4)
  | .tlw e a => some (0x47, classR (e.setWidth 6) a 0 0)
  | .tlr d e => some (0x47, classR d (e.setWidth 6) 0 1)
  | .txb => some (0x48, classR 0 0 0 0)
  | .txc d => some (0x48, classR d 0 0 1)
  | .txa => some (0x48, classR 0 0 0 2)
  | .snap d drain => some (0x48, classR d ((BitVec.ofBool drain).setWidth 6) 0 3)
  | .snaprel a => some (0x48, classR 0 a 0 4)
  | .snapsel a => some (0x48, classR 0 a 0 5)
  | .vadd d a b k => some (0x50, classR d a b k)
  | .vsub d a b k => some (0x51, classR d a b k)
  | .vmul d a b k => some (0x52, classR d a b k)
  | .vfma d a b k => some (0x53, classR d a b k)
  | .vfms d a b k => some (0x54, classR d a b k)
  | .vmin d a b k => some (0x55, classR d a b k)
  | .vmax d a b k => some (0x56, classR d a b k)
  | .vneg d a k => some (0x57, classR d a 0 k)
  | .vabs d a k => some (0x57, classR d a 1 k)
  | .vrcp d a k => some (0x57, classR d a 2 k)
  | .vrsq d a k => some (0x57, classR d a 3 k)
  | .vsqrt d a k => some (0x57, classR d a 4 k)
  | .vexp d a k => some (0x57, classR d a 5 k)
  | .vlog d a k => some (0x57, classR d a 6 k)
  | .vtanh d a k => some (0x57, classR d a 7 k)
  | .vclass d a k => some (0x57, classR d a 8 k)
  | .vnot d a k => some (0x57, classR d a 9 k)
  | .vredsum d a k => some (0x57, classR d a 10 k)
  | .vredmax d a k => some (0x57, classR d a 11 k)
  | .vredmin d a k => some (0x57, classR d a 12 k)
  | .vredarg d a k => some (0x57, classR d a 13 k)
  | .vscan d a k => some (0x57, classR d a 14 k)
  | .vmovs d a k => some (0x57, classR d a 15 k)
  | .vhash d a k => some (0x57, classR d a 16 k)
  | .viadd d a b k => some (0x58, classR d a b k)
  | .visub d a b k => some (0x59, classR d a b k)
  | .vimul d a b k => some (0x5A, classR d a b k)
  | .vimad d a b k => some (0x5B, classR d a b k)
  | .vimin d a b k => some (0x5C, classR d a b k)
  | .vimax d a b k => some (0x5D, classR d a b k)
  | .vshl d a b k => some (0x5E, classR d a b k)
  | .vshr d a b k => some (0x5F, classR d a b k)
  | .vsra d a b k => some (0x60, classR d a b k)
  | .vand d a b k => some (0x61, classR d a b k)
  | .vor d a b k => some (0x62, classR d a b k)
  | .vxor d a b k => some (0x63, classR d a b k)
  | .vcmpEq kd a b k => some (0x64, classVm 0 kd a b k)
  | .vcmpNe kd a b k => some (0x64, classVm 1 kd a b k)
  | .vcmpLt kd a b k => some (0x64, classVm 2 kd a b k)
  | .vcmpLe kd a b k => some (0x64, classVm 3 kd a b k)
  | .vcmpGt kd a b k => some (0x64, classVm 4 kd a b k)
  | .vcmpGe kd a b k => some (0x64, classVm 5 kd a b k)
  | .vcmpUn kd a b k => some (0x64, classVm 6 kd a b k)
  | .vsel d a b k => some (0x65, classR d a b k)
  | .vcvt d a u k => some (0x66, classVu d a 0 u k)
  | .vqnt d a u => some (0x66, classVu d a 1 u 0)
  | .vdqnt d a b => some (0x67, classR d a b 0)
  | .vpackts d a b k => some (0x68, classR d a b k)
  | .vshuf d a b k => some (0x69, classR d a b k)
  | .vrot d a n => some (0x6A, classR d a n 0)
  | .vslide d a b => some (0x6A, classR d a b 1)
  | .vbcast d a => some (0x6B, classR d a 0 0)
  | .vins d a n => some (0x6B, classR d a n 1)
  | .vext d a n => some (0x6B, classR d a n 2)
  | .vgather d a b k => some (0x6C, classR d a b k)
  | .vscat d a b k => some (0x6D, classR d a b k)
  | .vdot d a b k => some (0x6E, classR d a b k)
  | .kand d a b => some (0x6F, classK (d.setWidth 6) 0 a 0 b 0)
  | .kor d a b => some (0x6F, classK (d.setWidth 6) 1 a 0 b 0)
  | .knot d a => some (0x6F, classK (d.setWidth 6) 2 a 0 0 0)
  | .kpop d a => some (0x6F, classK d 3 a 0 0 0)
  | .mcallMm acc sa sb => some (0x70, classX 0 acc sa sb)
  | .mcallAccout acc sa => some (0x70, classX 8 acc sa 0)
  | .mcallAccld acc sa => some (0x70, classX 9 acc sa 0)
  | .mcallAccadd acc sa => some (0x70, classX 10 acc sa 0)
  | .mcallTransp sa sb => some (0x70, classX 16 0 sa sb)
  | .mpar d a => some (0x71, classR (d.setWidth 6) a 0 0)
  | .oclm o => some (0x72, classR o 0 0 0)
  | .orel o => some (0x72, classR o 0 0 1)
  | .old o a tag => some (0x72, classR o a (tag.setWidth 6) 2)
  | .ost o a => some (0x72, classR o a 0 3)
  | .macz acc => some (0x72, classR (acc.setWidth 6) 0 0 4)
  | .mlim a => some (0x73, classR 0 a 0 0)
  | .mupld a => some (0x73, classR 0 a 0 1)
  | .eset eng r a => some (0x74, classE eng (r.setWidth 6) a 0)
  | .egoCopyMove d e => some (0x75, classE 0 d (e.setWidth 6) 0)
  | .egoCopyFill d e => some (0x75, classE 0 d (e.setWidth 6) 1)
  | .egoCopyMove2d d e => some (0x75, classE 0 d (e.setWidth 6) 2)
  | .egoGatherGath d e => some (0x75, classE 1 d (e.setWidth 6) 0)
  | .egoGatherScat d e => some (0x75, classE 1 d (e.setWidth 6) 1)
  | .egoHashSha384 d e => some (0x75, classE 2 d (e.setWidth 6) 0)
  | .egoCryptoSeal d e => some (0x75, classE 3 d (e.setWidth 6) 0)
  | .egoCryptoOpen d e => some (0x75, classE 3 d (e.setWidth 6) 1)
  | .egoCollBcast d e => some (0x75, classE 4 d (e.setWidth 6) 0)
  | .egoCollSumf d e => some (0x75, classE 4 d (e.setWidth 6) 1)
  | .egoCollSumi d e => some (0x75, classE 4 d (e.setWidth 6) 2)
  | .egoNetPart d e => some (0x75, classE 5 d (e.setWidth 6) 1)
  | .egoNetReply d e => some (0x75, classE 5 d (e.setWidth 6) 0)
  | .edep e a => some (0x76, classE (e.setWidth 4) 0 a 0)
  | .ebar e a => some (0x76, classE (e.setWidth 4) 0 a 1)
  | .ecan e a => some (0x76, classE (e.setWidth 4) 0 a 2)
  | .csrr d csr => some (0x78, classL d (csr.setWidth 15))
  | .csrw d csr => some (0x79, classL d (csr.setWidth 15))
  | .csrs d csr => some (0x7A, classL d (csr.setWidth 15))
  | .csrc d csr => some (0x7B, classL d (csr.setWidth 15))
  | .trap n => some (0x7C, classL 0 n)
  | .tret => some (0x7D, classR 0 0 0 0)
  | .wfe => some (0x7D, classR 0 0 0 1)
  | .halt => some (0x7D, classR 0 0 0 2)
  | .wide imm => some (0x7F, classW imm)
  | .taskTake _ | .contextUnblock _ | .taskPublicationComplete _ | .deferredEnqueue _ | .rqfullTimeout _
  | .ntRotation _ | .queueEnlarge _ | .serviceDatagramReceive _ | .segmentVerify | .recordAbandon _ _
  | .harbourmasterPick | .candidateHeld _ | .recallGraceExpiry _ | .entryTaskEnqueue _
  | .bindingRecordTimeout _ | .bindingEnd _ | .preemptionComplete _ | .preemptionTimeout _
  | .pilotFetchComplete _ _ _ | .firmwareLeafAnswer _ _ _ | .shootdownAck _ | .shootdownTimeout _
  | .qqfsWrite _ | .quarantineRelease | .quarantineHeadTimeout | .pendingClearDone _ | .poolPageZeroed _ _
  | .calswWrite _ _ | .calendarExchange _ | .channelSlotStart _ _ _ | .forcedRefreshEnd _ _
  | .hotRowWindowEnd _ | .highRangeEntry _ | .sldReturn _ | .stampRaise | .dredgeReclaim _ | .snapReturn _
  | .drainCommit _ _ | .drainFail _ _ | .engineOpComplete _ _ | .engineFault _ _ _ | .kDeliveryTaskStart _
  | .kDeliveryTimeout _ | .replyCounterExhausted _ | .matrixEntryStart _ _ | .matrixEntryComplete _ _
  | .lockstepCompare _ _ _ | .rewindReissue _ | .eccErrorDetect _ | .patrolRead _ _ | .errorRecordTake
  | .stackResetComplete _ | .railFault | .thermalTrip | .watchdogReset | .powerOn | .rstNReset | .pcieReset
  | .standby | .currentCeilingWrite _ _ | .ugreqWrite _ _ | .upperGateApply _ | .upperUngateComplete _
  | .coffWrite _ _ | .faqpopRead | .bpaddWrite _ | .pageRetirement _ _ | .vheapParkRelease _
  | .doorbellWrite _ _ _ | .registerWrite _ _ | .cmdNop _ | .indirect _ | .signal _ | .wait _
  | .waitSatisfied _ | .waitTimeout _ | .cbCreate _ | .cbWrite _ | .cbRead _ | .cbSuspend _ | .cbResume _
  | .cbKill _ | .cbRelease _ | .cbReleaseComplete _ | .cbMigrate _ | .event _ | .imgInstall _ | .imgRetire _
  | .hashSet _ | .resvWrite _ | .policyRgrace _ | .policyWclk _ | .shootdown _ | .devsnapTake _
  | .devsnapRelease _ | .checkpoint _ | .meterRead _ | .meterReport _ | .diagRead _ | .ownerClaim _
  | .ownerHandover _ | .ownerAccept _ | .handoverLapse | .ownerChannelLost | .fwStage _ | .fwActivate _
  | .firstBeacon _ | .fwActivateTimeout _ | .firmwareSilent _ | .mailboxFullTimeout _ _ | .regRead _
  | .regWrite _ | .aclWrite _ | .sysLaunch _ | .launch _ | .gangLaunch _ | .ringOverrunTimeout _
  | .hostAccessFail _ _ | .atsInvalidation _ | .functionLevelReset _ | .getVersion _ | .getCapabilities _
  | .negotiateAlgorithms _ | .getDigests _ | .getCertificate _ | .challenge _ | .getMeasurements _
  | .deviceNumbering _ _ | .linkTraining _ | .flitError _ | .linkDown _ | .remoteAccessReceive _
  | .remoteAccessTimeout _ | .launchPacketReceive _ | .launchReplyReceive _ _ _ _ | .gangAckReceive _ _
  | .gangConfirmReceive _ | .gangAckTimeout _ | .gangAbortReceive _ _ | .gangMemberTimeout _
  | .migrationCutover _ _ | .migrationAckTimeout _ | .buoyExpiry _ | .freezeCycle _ | .illegalEncoding _
  | .instructionFetchFault _ | .beaconRaise _ | .keyLoad _ _ _ | .fuseChange _ | .highRangeExit _
  | .ethernetLinkChange _ _ | .migrationAbort _ | .migrationCopyReceive _ | .cutoverConfirmReceive _
  | .unconfirmedCopyDrop _ | .firmwareMemoryWrite _ _ _ | .weightSramPlacement _ _ _ => none

/-- The word of a slot: stop bit, path tag and code (R174). -/
def encodeSlot (x : Slot) : Option Word32 :=
  (encode x.instr).map fun c => BitVec.ofBool x.stop ++ x.path ++ c.1 ++ c.2

/-- The instruction of the opcode table's word `w` of `nbits` bits: one little-endian 32-bit slot (R2, R174). -/
def decodeTableWord (nbits w : Nat) : Option Instr :=
  match decodeSlot (BitVec.ofNat 32 (w % 2 ^ nbits)) with
  | .ok x => some x.instr
  | .error _ => none

end Sys2Proof
end

