-- ==== Sys2Proof/Machine/Encoding.lean ====
section
/-! DEFINITION. Fetching a bundle (R174, R175, R431) and the checks made on it before any slot executes: the encoding
checks over the whole bundle (R175 to R182, R185, R187, R235), the illegal-operand checks and the mode checks (R422,
R429), and its current weight (R311). -/

namespace Sys2Proof.Machine

/-! ## Registers a slot reads and writes (R177) -/

/-- The register that a CSR number names. -/
def csrReg (c : BitVec 12) : RegName :=
  let n := c.toNat
  if n = 2 then .lk
  else if 0x18 ≤ n ∧ n ≤ 0x1B then .nt (n - 0x18)
  else if 0x20 ≤ n ∧ n ≤ 0x27 then .mp (n - 0x20)
  else .csr n

/-- What a slot reads and what it writes. -/
structure Uses where
  reads : List RegName := []
  writes : List RegName := []
  deriving DecidableEq, Repr

/-- Scalars read, and one scalar written. -/
def usesS (reads : List (BitVec 6)) (d : Option (BitVec 6)) : Uses :=
  { reads := reads.map fun r => .s r.toNat, writes := (d.map fun r => .s r.toNat).toList }

/-- The registers of a mask operand: none for `k0`, which names all lanes. -/
def maskRead (k : BitVec 3) : List RegName := if k = 0 then [] else [.k k.toNat]

/-- A masked vector slot (R273): its sources, its mask and, when the mask is not `k0`, its destination. -/
def usesV (srcs : List (BitVec 6)) (d : BitVec 6) (k : BitVec 3) : Uses :=
  { reads := (srcs.map fun r => .v r.toNat) ++ maskRead k ++ (if k = 0 then [] else [.v d.toNat]), writes := [.v d.toNat] }

/-- A vector slot that writes its whole destination. -/
def usesVAll (srcs : List (BitVec 6)) (d : BitVec 6) (k : BitVec 3) : Uses :=
  { reads := (srcs.map fun r => .v r.toNat) ++ maskRead k, writes := [.v d.toNat] }

/-- `n` vector registers from `a` up. -/
def vGroup (a : BitVec 6) (n : Nat) : List RegName := (List.range n).map fun i => .v (a.toNat + i)

/-- The size of the register group of a block format (R284). -/
def groupSize (tag : BitVec 4) : Nat := if tag = 11 then 8 else 4

/-- An entry of the matrix queue captures the `mp` registers and writes `mp7` (R299). -/
def usesM (reads : List (BitVec 6)) : Uses :=
  { reads := (reads.map fun r => .s r.toNat) ++ (List.range 8).map .mp, writes := [.mp 7] }

/-- The predicates that a `TREE` tests. -/
def treeReads (t1 t2 t3 t4 : BitVec 4) (n : BitVec 3) : List RegName :=
  ([t1, t2, t3, t4].take n.toNat).map fun t => .p (bits t 2 0)

/-- The loop CSRs, which opening a level writes (R223). Which level a `LOOP` or `SLOOP` opens is known only when it executes,
and R177's conflicts are those of the bundle's text: each counts as writing the six of both levels (DESIGN CHOICE, log
entry 107). -/
def loopCsrs : List RegName := [0x30, 0x31, 0x32, 0x33, 0x34, 0x35].map .csr

/-- A predicate written from two scalars. -/
def usesCmp (d : BitVec 3) (reads : List (BitVec 6)) : Uses :=
  { reads := reads.map fun r => .s r.toNat, writes := [.p d.toNat] }

/-- What a slot's instruction reads and writes (R177); `s0`, `p0` and `k0` are left in and dropped by `Uses.clash`. The
predicate that a `QGET` of the token clears is that of whatever stream level names its queue when it executes (R264), which
the bundle's text does not tell: it is not counted (DESIGN CHOICE, log entry 107). -/
def usesOf (i : Instr) : Uses :=
  match i with
  | .add d a b | .sub d a b | .and d a b | .or d a b | .xor d a b | .andn d a b | .mul d a b | .mulh d a b
  | .mulhu d a b | .div d a b | .divu d a b | .rem d a b | .remu d a b | .shl d a b | .shr d a b | .sra d a b
  | .min d a b | .max d a b | .minu d a b | .maxu d a b | .bfx d a b | .trans d a b => usesS [a, b] (some d)
  | .clz d a | .ctz d a | .popc d a | .mov d a => usesS [a] (some d)
  | .bfi d a b => usesS [a, b, d] (some d)
  | .sel d a b c => { usesS [a, b] (some d) with reads := [.s a.toNat, .s b.toNat, .p c.toNat] }
  | .cmpEq d a b | .cmpNe d a b | .cmpLt d a b | .cmpGe d a b | .cmpLtu d a b | .cmpGeu d a b => usesCmp d [a, b]
  | .cmpiEq d a _ | .cmpiNe d a _ | .cmpiLt d a _ | .cmpiGe d a _ | .cmpiLtu d a _ | .cmpiGeu d a _ => usesCmp d [a]
  | .pand d a b | .por d a b => { reads := [.p a.toNat, .p b.toNat], writes := [.p d.toNat] }
  | .pnot d a => { reads := [.p a.toNat], writes := [.p d.toNat] }
  | .addi d a _ | .andi d a _ | .ori d a _ | .xori d a _ | .shli d a _ | .shri d a _ | .srai d a _ => usesS [a] (some d)
  | .li d _ => usesS [] (some d)
  | .lih d _ => usesS [d] (some d)
  | .tree t1 t2 t3 t4 n => { reads := treeReads t1 t2 t3 t4 n }
  | .call _ => { writes := [.lk] }
  | .ret => { reads := [.lk] }
  | .loop d _ => { reads := [.s d.toNat], writes := loopCsrs }
  | .sloop d _ _ => { writes := .p d.toNat :: loopCsrs }
  | .ldb t b _ | .ldbz t b _ | .ldh t b _ | .ldhz t b _ | .ldw t b _ | .ldwz t b _ | .ldd t b _ => usesS [b] (some t)
  | .stb t b _ | .sth t b _ | .stw t b _ | .std t b _ => usesS [t, b] none
  | .spl t b _ _ => usesS [b] (some t)
  | .sps t b _ _ => usesS [t, b] none
  | .vldp t b _ _ _ | .vld t b _ _ => { reads := [.s b.toNat], writes := [.v t.toNat] }
  | .vstp t b _ _ | .vst t b _ => { reads := [.s b.toNat, .v t.toNat] }
  | .vlds t b st _ => { reads := [.s b.toNat, .s st.toNat], writes := [.v t.toNat] }
  | .vsts t b st => { reads := [.s b.toNat, .s st.toNat, .v t.toNat] }
  | .sld t b _ _ => { reads := [.s b.toNat, .v t.toNat], writes := [.v t.toNat] }
  | .pref a b | .redAdd a b | .redMin a b | .redMax a b | .redFadd a b | .tadd a b => usesS [a, b] none
  | .amoadd d a b | .amomin d a b | .amomax d a b | .amominu d a b | .amoand d a b | .amoor d a b | .amoxor d a b
  | .amoswp d a b | .amoaddW d a b | .amominW d a b | .amomaxW d a b | .amominuW d a b | .amoandW d a b
  | .amoorW d a b | .amoxorW d a b | .amoswpW d a b => usesS [a, b] (some d)
  | .amocas d a b | .amocasW d a b => usesS [a, b, d] (some d)
  | .tspawn a | .tdec a | .snaprel a | .snapsel a | .mlim a | .mupld a => usesS [a] none
  | .tlw _ a | .eset _ _ a | .edep _ a | .ebar _ a | .ecan _ a => usesS [a] none
  | .ntr => { writes := [.nt 0, .nt 1, .nt 2, .nt 3] }
  | .qput _ b => { reads := [.v b.toNat] }
  | .qget d _ | .vfget d => { writes := [.v d.toNat] }
  | .vfput d b => { reads := [.v b.toNat], writes := [.s d.toNat] }
  | .tlr d _ | .txc d | .snap d _ => usesS [] (some d)
  | .vadd d a b k | .vsub d a b k | .vmul d a b k | .vmin d a b k | .vmax d a b k | .viadd d a b k | .visub d a b k
  | .vimul d a b k | .vimin d a b k | .vimax d a b k | .vshl d a b k | .vshr d a b k | .vsra d a b k | .vand d a b k
  | .vor d a b k | .vxor d a b k | .vpackts d a b k | .vshuf d a b k => usesV [a, b] d k
  | .vfma d a b k | .vfms d a b k | .vimad d a b k | .vdot d a b k => usesV [a, b, d] d k
  | .vneg d a k | .vabs d a k | .vrcp d a k | .vrsq d a k | .vsqrt d a k | .vexp d a k | .vlog d a k | .vtanh d a k
  | .vclass d a k | .vnot d a k | .vmovs d a k | .vhash d a k | .vcvt d a _ k => usesV [a] d k
  | .vredsum d a k | .vredmax d a k | .vredmin d a k | .vredarg d a k | .vscan d a k => usesVAll [a] d k
  | .vcmpEq kd a b k | .vcmpNe kd a b k | .vcmpLt kd a b k | .vcmpLe kd a b k | .vcmpGt kd a b k | .vcmpGe kd a b k
  | .vcmpUn kd a b k => { reads := [.v a.toNat, .v b.toNat] ++ maskRead k, writes := [.k kd.toNat] }
  | .vsel d a b k => usesVAll [a, b] d k
  | .vqnt d a u => { reads := vGroup a (groupSize u), writes := [.v d.toNat, .v (d.toNat + 1)] }
  | .vdqnt d a b => { reads := [.v a.toNat, .v b.toNat], writes := vGroup d 8 }
  | .vrot d a _ => usesVAll [a] d 0
  | .vslide d a b => { reads := [.v a.toNat, .s b.toNat], writes := [.v d.toNat] }
  | .vbcast d a => { reads := [.s a.toNat], writes := [.v d.toNat] }
  | .vins d a _ => { reads := [.s a.toNat, .v d.toNat], writes := [.v d.toNat] }
  | .vext d a _ => { reads := [.v a.toNat], writes := [.s d.toNat] }
  | .vgather d a b k => { usesV [b] d k with reads := .s a.toNat :: (usesV [b] d k).reads }
  | .vscat d a b k => { reads := [.s a.toNat, .v d.toNat, .v b.toNat] ++ maskRead k }
  | .kand d a b | .kor d a b => { reads := maskRead a ++ maskRead b, writes := [.k d.toNat] }
  | .knot d a => { reads := maskRead a, writes := [.k d.toNat] }
  | .kpop d a => { reads := maskRead a, writes := [.s d.toNat] }
  | .mcallMm _ _ _ | .mcallAccout _ _ | .mcallAccld _ _ | .mcallAccadd _ _ | .mcallTransp _ _ | .macz _ => usesM []
  | .old _ a _ | .ost _ a => usesM [a]
  | .mpar d a => { reads := [.s a.toNat], writes := [.mp d.toNat] }
  | .egoCopyMove d _ | .egoCopyFill d _ | .egoCopyMove2d d _ | .egoGatherGath d _ | .egoGatherScat d _
  | .egoHashSha384 d _ | .egoCryptoSeal d _ | .egoCryptoOpen d _ | .egoCollBcast d _ | .egoCollSumf d _
  | .egoCollSumi d _ | .egoNetPart d _ | .egoNetReply d _ => usesS [] (some d)
  | .csrr d c => { reads := [csrReg c], writes := [.s d.toNat] }
  | .csrw d c => { reads := [.s d.toNat], writes := [csrReg c] }
  | .csrs d c | .csrc d c => { reads := [.s d.toNat, csrReg c], writes := [csrReg c] }
  | _ => {}

/-- The registers whose writes are discarded conflict with nothing (R177, R189). -/
def RegName.discards (r : RegName) : Bool := r == .s 0 || r == .p 0

/-- Whether two slots that may execute together break a rule of R177. -/
def Uses.clash (x y : Uses) : Bool :=
  let wx := x.writes.filter fun r => !r.discards
  let wy := y.writes.filter fun r => !r.discards
  wx.any (fun r => wy.contains r || y.reads.contains r) || wy.any fun r => x.reads.contains r

/-- The cycles after which a dependent bundle may issue (R217, R271, R294, R317). The latencies of loads, of returning
atomics and of gathers, which are not exact, are left out (log entry 14). -/
def latencyOf : Instr → Nat
  | .clz _ _ | .ctz _ _ | .popc _ _ | .bfx _ _ _ | .bfi _ _ _ | .csrr _ _ | .tlr _ _ | .vfget _ | .vfput _ _ | .qget _ _ => 2
  | .mul _ _ _ | .mulh _ _ _ | .mulhu _ _ _ => 3
  | .trans _ _ _ => 4
  | .div _ _ _ | .divu _ _ _ | .rem _ _ _ | .remu _ _ _ => 20
  | .viadd _ _ _ _ | .visub _ _ _ _ | .vimul _ _ _ _ | .vimin _ _ _ _ | .vimax _ _ _ _ | .vimad _ _ _ _ | .vshl _ _ _ _
  | .vshr _ _ _ _ | .vsra _ _ _ _ | .vcmpEq _ _ _ _ | .vcmpNe _ _ _ _ | .vcmpLt _ _ _ _ | .vcmpLe _ _ _ _
  | .vcmpGt _ _ _ _ | .vcmpGe _ _ _ _ | .vcmpUn _ _ _ _ | .vbcast _ _ | .vins _ _ _ | .vext _ _ _ | .vrot _ _ _
  | .vslide _ _ _ | .vshuf _ _ _ _ | .vclass _ _ _ => 2
  | .vcvt _ _ _ _ | .vpackts _ _ _ _ | .vhash _ _ _ => 3
  | .vadd _ _ _ _ | .vsub _ _ _ _ | .vmul _ _ _ _ | .vfma _ _ _ _ | .vfms _ _ _ _ | .vmin _ _ _ _ | .vmax _ _ _ _
  | .vneg _ _ _ | .vabs _ _ _ | .vdot _ _ _ _ => 4
  | .vqnt _ _ _ | .vdqnt _ _ _ | .vredsum _ _ _ | .vredmax _ _ _ | .vredmin _ _ _ | .vredarg _ _ _ => 6
  | .vrcp _ _ _ | .vrsq _ _ _ | .vscan _ _ _ => 8
  | .vsqrt _ _ _ | .vexp _ _ _ | .vlog _ _ _ | .vtanh _ _ _ => 12
  | .egoCopyMove _ _ | .egoCopyFill _ _ | .egoCopyMove2d _ _ | .egoGatherGath _ _ | .egoGatherScat _ _
  | .egoHashSha384 _ _ | .egoCryptoSeal _ _ | .egoCryptoOpen _ _ | .egoCollBcast _ _ | .egoCollSumf _ _
  | .egoCollSumi _ _ | .egoNetPart _ _ | .egoNetReply _ _ => 2
  | _ => 1

/-! ## Resources (R182) -/

/-- The resource classes of R182. -/
inductive Res where
  | scalar | memory | vector | engine | branch | target | marker | system | free
  deriving DecidableEq, Repr

/-- The resource class of a slot word, by its opcode and, among the markers, its selector. -/
def resOf (w : Word32) : Res :=
  let op := bits w 27 21
  if op = 0 ∨ op = 0x7F then .free
  else if op ≤ 0x27 then .scalar
  else if op = 0x29 then .target
  else if op ≤ 0x2D then .branch
  else if op = 0x2E then (if bits w 2 0 = 0 then .branch else .marker)
  else if 0x30 ≤ op ∧ op ≤ 0x4F then .memory
  else if 0x50 ≤ op ∧ op ≤ 0x6F then .vector
  else if 0x70 ≤ op ∧ op ≤ 0x77 then .engine
  else if 0x78 ≤ op ∧ op ≤ 0x7D then .system
  else .free

/-- The limit of a resource class per bundle. -/
def Res.limit : Res → Nat
  | .scalar => 2
  | .memory => 2
  | .vector => 2
  | .engine => 1
  | .branch => 1
  | .target => 4
  | .marker => 1
  | .system => 1
  | .free => 8

/-- Whether a slot of class `x` counts toward class `r`: a system slot is a scalar slot as well. -/
def Res.counts (r x : Res) : Bool := r == x || (r == .scalar && x == .system)

/-- The weight of an issued slot (R311). -/
def Res.weight : Res → Nat
  | .memory => 2
  | .vector => 6
  | .free => 0
  | _ => 1

/-! ## The words of a bundle (R175) -/

/-- The run of words from a bundle start to the first stop bit, at most `n` of them. -/
def runOf : List Word32 → List Word32
  | [] => []
  | w :: r => if w.getLsbD 31 then [w] else w :: runOf r

/-- How many words a bundle at an address may hold before its 32-byte block ends. -/
def roomAt (pc : Word) : Nat := 8 - bits pc 4 2

/-- One word of code as the device fetches it (R84); of a peer's memory it is free (R81, log entry 10). -/
def State.codeWord (s : State) (kid pa : Nat) : Word32 :=
  if isRemote pa then (Config.freeLine s.free (pa / 64)).extractLsb' (8 * (pa % 64)) 32
  else BitVec.ofNat 32 (ofBytes (s.dev.bytesUnder kid pa 4))

/-- Whether a line of code comes poisoned (R401, R431): of a peer's memory as the peer returns it (log entry 10), and always
from an unreachable one (R471). -/
def State.codePoison (s : State) (pa : Nat) : Bool :=
  if isRemote pa then !s.dev.reachable (peerOf pa) || Config.freeBool s.free (pa / 64) else (s.dev.line (pa / 64)).poison

/-- The fetch of the bundle at `pc` for block `b` (R91, R92, R431): its words, or why it cannot issue. -/
def State.fetch (s : State) (b : Nat) (pc : Word) : Except Stop (List Word32) :=
  match findEnt (s.dev.window b) pc with
  | none => .error (.trap cFETCH pc)
  | some e =>
    if e.ab then .error (.abort cABSENT pc)
    else if !e.x then .error (.trap cFETCH pc)
    else
      let pa := e.pa pc
      if s.codePoison pa then .error (.abort cPOISON (word pa))
      else .ok (runOf ((List.range (roomAt pc)).map fun i => s.codeWord e.kid.toNat (pa + 4 * i)))

/-! ## The encoding checks (R175 to R182, R185, R187, R235) -/

/-- A slot word with what the decoder made of it. -/
structure Dec where
  word : Word32
  slot : Option Slot
  deriving DecidableEq, Repr

/-- A word decoded. -/
def decWord (w : Word32) : Dec := ⟨w, match decodeSlot w with | .ok x => some x | .error _ => none⟩

/-- The path tag of a word. -/
def Dec.path (d : Dec) : Nat := bits d.word 30 28

/-- The major opcode of a word. -/
def Dec.op (d : Dec) : Nat := bits d.word 27 21

/-- The instruction of a word that decodes. -/
def Dec.instr (d : Dec) : Option Instr := d.slot.map (·.instr)

/-- The forms that take a `WIDE` (R179). -/
def takesWide : Instr → Bool
  | .addi _ _ _ | .andi _ _ _ | .ori _ _ _ | .xori _ _ _ | .cmpiEq _ _ _ | .cmpiNe _ _ _ | .cmpiLt _ _ _
  | .cmpiGe _ _ _ | .cmpiLtu _ _ _ | .cmpiGeu _ _ _ | .li _ _ | .lih _ _ | .sloop _ _ _ | .loop _ _
  | .ldb _ _ _ | .ldbz _ _ _ | .ldh _ _ _ | .ldhz _ _ _ | .ldw _ _ _ | .ldwz _ _ _ | .ldd _ _ _
  | .stb _ _ _ | .sth _ _ _ | .stw _ _ _ | .std _ _ _ | .spl _ _ _ _ | .sps _ _ _ _ | .vstp _ _ _ _
  | .vldp _ _ _ _ _ | .vld _ _ _ _ | .vst _ _ _ | .sld _ _ _ _ | .tgt _ _ | .jmp _ | .call _ => true
  | _ => false

/-- Whether a word is a `WIDE`. -/
def Dec.isWide (d : Dec) : Bool := d.op == 0x7F

/-- Whether a word is a `TREE`. -/
def Dec.isTree (d : Dec) : Bool := d.op == 0x28

/-- The leaves of a bundle: one more than the tests of its first `TREE`, or none. -/
def leaves (ds : List Dec) : Option Nat := (ds.find? Dec.isTree).map fun d => bits d.word 4 2 + 1

/-- Whether a `TGT` word names a leaf of the tree, and that leaf. -/
def Dec.tgtLeaf (d : Dec) : Option Nat := if d.op = 0x29 then some (bits d.word 20 18) else none

/-- Whether a word names a resource of upper cores only (R187). -/
def Dec.upperOnly (d : Dec) : Bool :=
  (decide (0x70 ≤ d.op) && decide (d.op ≤ 0x72)) ||
    (decide (0x78 ≤ d.op) && decide (d.op ≤ 0x7B) && decide (0x20 ≤ bits d.word 11 0) && decide (bits d.word 11 0 ≤ 0x27))

/-- The kinds of slot that R182 and R235 forbid together. -/
inductive Mix where
  | endTask | ntr | yield | brk | trap | branch | other
  deriving DecidableEq, Repr

/-- The sort of a word. -/
def Dec.mix (d : Dec) : Mix :=
  match d.instr with
  | some .endTask => .endTask
  | some .ntr => .ntr
  | some .yield => .yield
  | some (.brk _) => .brk
  | some (.trap _) => .trap
  | _ => if resOf d.word = .branch then .branch else .other

/-- Whether two sorts may not stand in one bundle (R182, R235). -/
def Mix.excludes (x y : Mix) : Bool :=
  let ends := [Mix.endTask, .ntr, .yield]
  (ends.contains x && ends.contains y) ||
    ([Mix.endTask, .yield, .brk].contains x && y == .branch) || (x == .branch && [Mix.endTask, .yield, .brk].contains y) ||
    ([Mix.trap, .brk].contains x && ends.contains y) || (ends.contains x && [Mix.trap, .brk].contains y) ||
    (x == .trap && y == .brk) || (x == .brk && y == .trap)

/-- Whether two path tags may execute together (R177). -/
def together (x y : Nat) : Bool := x == y || x == 0 || y == 0

/-- Whether slot `d`, with the slots `before` it in the bundle, is at fault. -/
def slotBad (lower : Bool) (all before : List Dec) (d : Dec) : Bool :=
  let n := leaves all
  d.slot.isNone ||
  (lower && d.upperOnly) ||
  [Res.scalar, .memory, .vector, .engine, .branch, .target, .marker, .system].any (fun r =>
    r.counts (resOf d.word) && decide (r.limit ≤ (before.filter fun x => r.counts (resOf x.word)).length)) ||
  (d.isWide && (match before.getLast? with
    | none => true
    | some p => p.path != d.path || !(match p.instr with | some i => takesWide i | none => false))) ||
  (match n with
    | none => d.path != 0 || d.tgtLeaf.isSome
    | some m => decide (m < d.path) ||
        (match d.tgtLeaf with
          | some l => decide (m < l) || before.any fun x => x.tgtLeaf == some l
          | none => false)) ||
  before.any (fun x => x.mix.excludes d.mix) ||
  before.any fun x =>
    match x.instr, d.instr with
    | some i, some j => together x.path d.path && (usesOf i).clash (usesOf j)
    | _, _ => false

/-- The index of the first slot at fault from a split of the bundle. -/
def firstBad (lower : Bool) (all before : List Dec) : List Dec → Option Nat
  | [] => none
  | d :: r => if slotBad lower all before d then some before.length else firstBad lower all (before ++ [d]) r

/-- The lowest slot of a bundle at fault (R185): a slot, or the last slot of a run without a stop bit. -/
def encodingFault (lower : Bool) (ds : List Dec) : Option Nat :=
  match firstBad lower ds [] ds with
  | some i => some i
  | none =>
    match ds.getLast? with
    | some d => if d.word.getLsbD 31 then none else some (ds.length - 1)
    | none => none

/-! ## The illegal-operand checks (R71, R422, R429) -/

/-- The vector registers a slot names, members of groups included; the group of `VDQNT` follows the tag of `v[a]`. -/
def vregsOf (tagOf : BitVec 6 → BitVec 4) (i : Instr) : List Nat :=
  let u := usesOf i
  let pick (r : RegName) : Option Nat := match r with | .v n => some n | _ => none
  match i with
  | .vdqnt d a b => [a.toNat, b.toNat] ++ (List.range (groupSize (tagOf a))).map fun j => d.toNat + j
  | _ => (u.reads ++ u.writes).filterMap pick

/-- The least number of a list above a limit. -/
def leastFrom (limit : Nat) (l : List Nat) : Option Nat :=
  (l.filter fun n => decide (limit ≤ n)).foldl (fun acc n => match acc with | none => some n | some m => some (Nat.min m n)) none

/-- The offset of a loop's closing bundle (R223, R224), extended by a `WIDE`. -/
def loopOff (i : Instr) (wide : Option (BitVec 21)) : Option Int :=
  match i with
  | .loop _ imm => some (match wide with | none => (imm.toNat : Int) | some w => ((w ++ imm).toNat : Int))
  | .sloop _ _ imm => some (match wide with | none => imm.toInt | some w => (w ++ imm).toInt)
  | _ => none

/-- The illegal operand of a slot, if it has one: the `tval` of OPERAND. -/
def illegalOperand (limit : Nat) (tagOf : BitVec 6 → BitVec 4) (bytes : Nat) (i : Instr) (wide : Option (BitVec 21)) :
    Option Word :=
  match leastFrom limit (vregsOf tagOf i) with
  | some n => some (word n)
  | none =>
    match i with
    | .vdqnt d _ _ => if d.toNat % 8 = 0 then none else some (word d.toNat)
    | _ =>
      match loopOff i wide with
      | some off => if 4 * off < (bytes : Int) then some 0 else none
      | none => none

/-- The limit on vector-register numbers of a core (R71). -/
def Core.vlimit (k : Core) : Nat := Nat.min 64 (4 * k.pb1.toNat)

/-- The immediate of the `WIDE` that follows a slot. -/
def wideAfter (ds : List Dec) (i : Nat) : Option (BitVec 21) :=
  match ds[i + 1]? with
  | some d => match d.instr with
    | some (.wide imm) => some imm
    | _ => none
  | none => none

/-- The first slot with an illegal operand, and the `tval` of its trap. -/
def operandFault (limit : Nat) (tagOf : BitVec 6 → BitVec 4) (ds : List Dec) : Option (Nat × Word) :=
  ds.zipIdx.findSome? fun e =>
    match e.1.instr with
    | some i => (illegalOperand limit tagOf (4 * ds.length) i (wideAfter ds e.2)).map fun v => (e.2, v)
    | none => none

/-! ## The mode checks (R186, R190, R191) -/

/-- The least mode in which a CSR may be accessed (R190). -/
def csrMode (c : BitVec 12) : Nat := if 0x101 ≤ c.toNat then 1 else 0

/-- The least mode an instruction needs (R186, R191). -/
def modeOf : Instr → Nat
  | .tret | .wfe => 1
  | .halt | .mupld _ => 2
  | .csrr _ c | .csrw _ c | .csrs _ c | .csrc _ c => csrMode c
  | _ => 0

/-- Whether a slot of a bundle executes: its tag is 0 or the taken leaf (R178). -/
def Dec.taken (d : Dec) (leaf : Nat) : Bool := d.path == 0 || d.path == leaf

/-- The first taken slot that needs a higher mode. -/
def modeFault (mode : BitVec 2) (leaf : Nat) (ds : List Dec) : Option Nat :=
  (ds.zipIdx.find? fun e =>
    e.1.taken leaf && (match e.1.instr with | some i => decide (mode.toNat < modeOf i) | none => false)).map (·.2)

/-! ## The current weight (R311) -/

/-- The weight of a bundle's slots, taken or not. -/
def slotsWeight (ds : List Dec) : Nat := ds.foldl (fun n d => n + (resOf d.word).weight) 0

/-- The weight of the vertical FIFO entry that an instruction moves. -/
def fifoWeight : Instr → Nat
  | .vfput _ _ => entryWeight
  | .vfget _ => entryWeight
  | _ => 0

/-- The weight that a bundle would have (R311, R312): that of its slots, and of the vertical FIFO entries that it would move,
those of slots that turn out to block or to trap among them, since the core forms the weight before the cycle (DEDUCED, log
entry 117). -/
def bundleWeight (leaf : Nat) (ds : List Dec) : Nat :=
  slotsWeight ds + ds.foldl (fun n d => n + (match (if d.taken leaf then d.instr else none) with
    | some i => fifoWeight i
    | none => 0)) 0

end Sys2Proof.Machine
end

