-- ==== Sys2Proof/Machine/Control.lean ====
section
/-! DEFINITION. Decision trees, jumps, loops, markers and task ends (R218 to R232). -/

namespace Sys2Proof.Machine

/-! ## Decision trees and transfers (R218 to R221) -/

/-- `TREE`: the taken leaf of the bundle (R218). -/
def execTree (t1 t2 t3 t4 : BitVec 4) (n : BitVec 3) (s : State) : Host.Outcome State Fault Refusal :=
  .next (s.updBun fun b => { b with leaf := s.treeLeaf t1 t2 t3 t4 n })

/-- `TGT`: the transfer of its leaf, when that leaf is taken (R219). -/
def execTgt (leaf : BitVec 3) (off : BitVec 18) (s : State) : Host.Outcome State Fault Refusal :=
  .next (if s.bun.leaf = leaf.toNat then
    s.updBun fun b => { b with jump := some (s.target off), exits := true } else s)

/-- `JMP` (R221). -/
def execJmp (off : BitVec 18) (s : State) : Host.Outcome State Fault Refusal :=
  .next (s.updBun fun b => { b with jump := some (s.target off), exits := true })

/-- `CALL` (R221): the bundle's commit writes `lk` with the `cont_addr` it would have without the `CALL`. -/
def execCall (off : BitVec 18) (s : State) : Host.Outcome State Fault Refusal :=
  .next (s.updBun fun b => { b with jump := some (s.target off), called := true })

/-- `RET` (R221). -/
def execRet (s : State) : Host.Outcome State Fault Refusal :=
  .next (s.updBun fun b => { b with jump := some (bundleAddr s.ctx0.regs.lk), exits := true })

/-! ## Loop levels (R222 to R224) -/

/-- The words from a closing bundle to the end of its 32-byte block; none where no present window entry holds it. -/
def State.closingWords (s : State) (a : Word) : Option (List Word32) :=
  match findEnt (s.before.window s.blk) a with
  | some e =>
    if e.ab || isRemote (e.pa a) then none
    else some ((List.range (roomAt a)).map fun i => s.codeWord e.kid.toNat (e.pa a + 4 * i))
  | none => none

/-- The address after the closing bundle at `a` (R223): after the first slot with a stop bit in its block, else the
block's end; where its words are in no present window entry, the length is free. -/
def State.afterClosing (s : State) (a : Word) : State × Word :=
  match s.closingWords a with
  | some ws => (s, a + word (4 * (runOf ws).length))
  | none =>
    let (s1, n) := s.draw
    (s1, a + word (4 * (Config.freeNat n % roomAt a + 1)))

/-- A loop level opened at the bundle's commit: its start, its closing bundle and its `lpc`. -/
def Regs.openLevel (r : Regs) (lv1 : Bool) (lps lpe lpc : Word) : Regs :=
  if lv1 then { r with lps1 := lps, lpe1 := lpe, lpc1 := lpc } else { r with lps0 := lps, lpe0 := lpe, lpc0 := lpc }

/-- The checks of R223 and R224 on the body and on the depth. -/
def State.loopCheck (s : State) (ok : Bool) : Except Stop Unit := do
  require ok cOPERAND 0
  require (!lpActive s.ctx0.regs.lpc1) cLOOP 0

/-- `LOOP` (R223). -/
def execLoop (d : BitVec 6) (imm : BitVec 15) (s : State) : Host.Outcome State Fault Refusal :=
  s.slot (do
    let c := s.sreg d
    let off := 4 * (s.immU imm).toNat
    let b := s.bun
    s.loopCheck (bits c 63 62 == 0 && decide ((b.next - b.start).toNat ≤ off))
    let close := b.start + word off
    if c = 0 then
      let r := s.afterClosing close
      return r.1.updBun fun b => { b with jump := some r.2 }
    else
      return s.updRegs fun r => r.openLevel (lpActive s.ctx0.regs.lpc0) b.next close (setBits c 62 62 1))

/-- `SLOOP` (R224). -/
def execSloop (d : BitVec 3) (q : BitVec 6) (imm : BitVec 9) (s : State) : Host.Outcome State Fault Refusal :=
  s.slot (do
    let off := 4 * (s.immS imm).toInt
    let b := s.bun
    s.loopCheck (decide (((b.next - b.start).toNat : Int) ≤ off))
    let lpc := word (3 * 2 ^ 62 + q.toNat * 2 ^ 8 + d.toNat)
    return (s.updRegs fun r => r.openLevel (lpActive s.ctx0.regs.lpc0) b.next (b.start + wordI off) lpc).setP d true)

/-! ## Markers (R227 to R232) -/

/-- `END` (R228, R425): the bundle and the task commit, and the context becomes VACANT. -/
def execEndTask (s : State) : Host.Outcome State Fault Refusal := s.slot (s.endTask .vacant)

/-- `YIELD` (R229): the bundle commits, and issue passes as if the context had blocked; a wait that another slot of the
bundle leaves holds the context (R262). -/
def execYield (s : State) : Host.Outcome State Fault Refusal :=
  let t := s.commit
  .next (if t.last = .done then { t with dev := t.dev.leave s.me .ready } else t)

/-- The instructions that trap routines may not use (R425). -/
def State.notInTrap (s : State) : Except Stop Unit := require (s.mode != 1) cPRIV (s.bun.word.zeroExtend 64)

/-- `RDV` (R231, R405): a wait only while another pair of the group is rewinding. -/
def execRdv (_n : BitVec 6) (s : State) : Host.Outcome State Fault Refusal :=
  s.slot (do
    s.notInTrap
    require (!s.ctx0.segOpen) cSEGERR 0
    if s.binding.prot && s.before.otherEpisode s.binding s.me then blockOn .rendezvous else return s)

/-- Whether the context's segment is being issued again from its `SEGB` after a rewind (R404). -/
def Ctx.reissuing (c : Ctx) : Bool := c.segOpen && c.seg.replay == some 0 && c.seg.bundles == 0

/-- `SEGB` (R230): the segment-open state, and in protected mode the recorded entry. -/
def execSegb (s : State) : Host.Outcome State Fault Refusal :=
  s.slot (do
    s.notInTrap
    let c := s.ctx0
    if c.reissuing then return s.updMe fun x => { x with seg := { x.seg with stopped := none } }
    else
      require (!c.segOpen) cSEGERR 0
      let t := c.task
      let enter (g : Segment) : Segment :=
        { g with entry := c.regs, entryV := c.v, entryMp := c.mp, entrySpan := (match t with | some t => t.span | none => none),
                 entrySel := (match t with | some t => t.sel | none => none),
                 entrySpawns := (match t with | some t => t.spawns | none => []) }
      return s.updMe fun x => { x with segOpen := true, seg := if s.binding.prot then enter x.seg else x.seg })

/-- The global stores of a closed segment, in program order, passed into the open span or the task store buffer (R62). -/
def State.unhold (s : State) : List HeldOp → Except Stop State
  | [] => .ok s
  | .sp _ _ _ :: r => s.unhold r
  | .mem o _ :: r => do
    let t ← s.bufferAt o
    t.unhold r

/-- The scratchpad stores of a list of held operations. -/
def heldSp (held : List HeldOp) : List HeldOp := held.filter fun h => match h with | .sp _ _ _ => true | .mem _ _ => false

/-- `SEGE` (R230, R62, R403, R405): the segment closes; in protected mode its buffer drains, its scratchpad stores two
cycles later with the follower's commit, at which a rewind episode of it ends, and its log is cleared. A pre-emption that
waits for the segment's end halts the context afterwards. -/
def execSege (s : State) : Host.Outcome State Fault Refusal :=
  s.slot (do
    s.notInTrap
    require s.ctx0.segOpen cSEGERR 0
    let held := s.ctx.seg.held
    let rewound := s.binding.rewinding.contains s.me
    let late := if (heldSp held).isEmpty && !rewound then [] else [(s.dev.cycle + 2, heldSp held)]
    let s1 := (s.updMe fun x => { x with segOpen := false, seg := {}, drains := x.drains ++ late }).updBun fun b =>
      { b with compared := b.compared || s.binding.prot }
    let s2 ← s1.unhold held
    let mine (m : MEntry) : MEntry := if m.ctx = s.me then { m with inSeg := false } else m
    return { s2 with dev := s2.dev.updCore (coreOf s.me) fun k => { k with mq := k.mq.map mine } })

/-- `BRK` (R232). -/
def execBrk (n : BitVec 6) (s : State) : Host.Outcome State Fault Refusal :=
  s.slot (trapWith cBRK (n.zeroExtend 64))

end Sys2Proof.Machine
end

