-- ==== Sys2Proof/Machine/Scalar.lean ====
section
/-! DEFINITION. Scalar register operations and immediate forms (R206 to R216). -/

namespace Sys2Proof.Machine

/-- `NOP` (R176): no effect. -/
def execNop (s : State) : Host.Outcome State Fault Refusal := .next s

/-! ## Two-operand arithmetic and logic (R207) -/

/-- A scalar slot that writes `f A B` to `d` and does nothing else (R207). -/
def scalarOp (f : Word → Word → Word) (d a b : BitVec 6) (s : State) : Host.Outcome State Fault Refusal :=
  .next (s.setS d (f (s.sreg a) (s.sreg b)))

/-- The high half of the signed product (R207). -/
def mulHigh (x y : Word) : Word := wordI (x.toInt * y.toInt / 2 ^ 64)

/-- The high half of the unsigned product (R207). -/
def mulHighU (x y : Word) : Word := word (x.toNat * y.toNat / 2 ^ 64)

/-- A shift amount: bits 5:0 (R207). -/
def shiftAmt (y : Word) : Nat := y.toNat % 64

def execAdd (d a b : BitVec 6) (s : State) : Host.Outcome State Fault Refusal := scalarOp (· + ·) d a b s
def execSub (d a b : BitVec 6) (s : State) : Host.Outcome State Fault Refusal := scalarOp (· - ·) d a b s
def execAnd (d a b : BitVec 6) (s : State) : Host.Outcome State Fault Refusal := scalarOp (· &&& ·) d a b s
def execOr (d a b : BitVec 6) (s : State) : Host.Outcome State Fault Refusal := scalarOp (· ||| ·) d a b s
def execXor (d a b : BitVec 6) (s : State) : Host.Outcome State Fault Refusal := scalarOp (· ^^^ ·) d a b s
def execAndn (d a b : BitVec 6) (s : State) : Host.Outcome State Fault Refusal := scalarOp (fun x y => x &&& ~~~y) d a b s
def execMul (d a b : BitVec 6) (s : State) : Host.Outcome State Fault Refusal := scalarOp (· * ·) d a b s
def execMulh (d a b : BitVec 6) (s : State) : Host.Outcome State Fault Refusal := scalarOp mulHigh d a b s
def execMulhu (d a b : BitVec 6) (s : State) : Host.Outcome State Fault Refusal := scalarOp mulHighU d a b s
def execShl (d a b : BitVec 6) (s : State) : Host.Outcome State Fault Refusal :=
  scalarOp (fun x y => x <<< shiftAmt y) d a b s
def execShr (d a b : BitVec 6) (s : State) : Host.Outcome State Fault Refusal :=
  scalarOp (fun x y => x >>> shiftAmt y) d a b s
def execSra (d a b : BitVec 6) (s : State) : Host.Outcome State Fault Refusal :=
  scalarOp (fun x y => x.sshiftRight (shiftAmt y)) d a b s
def execMin (d a b : BitVec 6) (s : State) : Host.Outcome State Fault Refusal :=
  scalarOp (fun x y => if x.toInt ≤ y.toInt then x else y) d a b s
def execMax (d a b : BitVec 6) (s : State) : Host.Outcome State Fault Refusal :=
  scalarOp (fun x y => if x.toInt ≤ y.toInt then y else x) d a b s
def execMinu (d a b : BitVec 6) (s : State) : Host.Outcome State Fault Refusal :=
  scalarOp (fun x y => if x.toNat ≤ y.toNat then x else y) d a b s
def execMaxu (d a b : BitVec 6) (s : State) : Host.Outcome State Fault Refusal :=
  scalarOp (fun x y => if x.toNat ≤ y.toNat then y else x) d a b s

/-! ## Division (R208) -/

/-- The signed quotient and remainder, with the results for a zero divisor and for overflow (R208). -/
def sdivRem (x y : Word) : Word × Word :=
  if y = 0 then (BitVec.allOnes 64, x)
  else if x = 0x8000000000000000 ∧ y = BitVec.allOnes 64 then (x, 0)
  else (wordI (x.toInt.tdiv y.toInt), wordI (x.toInt.tmod y.toInt))

/-- The unsigned quotient and remainder, with the result for a zero divisor (R208). -/
def udivRem (x y : Word) : Word × Word :=
  if y = 0 then (BitVec.allOnes 64, x) else (word (x.toNat / y.toNat), word (x.toNat % y.toNat))

def execDiv (d a b : BitVec 6) (s : State) : Host.Outcome State Fault Refusal :=
  scalarOp (fun x y => (sdivRem x y).1) d a b s
def execDivu (d a b : BitVec 6) (s : State) : Host.Outcome State Fault Refusal :=
  scalarOp (fun x y => (udivRem x y).1) d a b s
def execRem (d a b : BitVec 6) (s : State) : Host.Outcome State Fault Refusal :=
  scalarOp (fun x y => (sdivRem x y).2) d a b s
def execRemu (d a b : BitVec 6) (s : State) : Host.Outcome State Fault Refusal :=
  scalarOp (fun x y => (udivRem x y).2) d a b s

/-! ## Bit counts and fields (R209, R210) -/

/-- A slot that writes a function of one scalar (R209). -/
def scalarUn (f : Word → Word) (d a : BitVec 6) (s : State) : Host.Outcome State Fault Refusal :=
  .next (s.setS d (f (s.sreg a)))

/-- Zero bits above the highest 1 bit; 64 for zero (R209). -/
def clz64 (x : Word) : Nat := if x = 0 then 64 else 63 - Nat.log2 x.toNat

/-- Zero bits below the lowest 1 bit; 64 for zero (R209). -/
def ctz64 (x : Word) : Nat := ((List.range 64).find? fun i => x.getLsbD i).getD 64

/-- The number of 1 bits (R209). -/
def popc64 (x : Word) : Nat := ((List.range 64).filter fun i => x.getLsbD i).length

def execClz (d a : BitVec 6) (s : State) : Host.Outcome State Fault Refusal := scalarUn (fun x => word (clz64 x)) d a s
def execCtz (d a : BitVec 6) (s : State) : Host.Outcome State Fault Refusal := scalarUn (fun x => word (ctz64 x)) d a s
def execPopc (d a : BitVec 6) (s : State) : Host.Outcome State Fault Refusal := scalarUn (fun x => word (popc64 x)) d a s
def execMov (d a : BitVec 6) (s : State) : Host.Outcome State Fault Refusal := scalarUn (fun x => x) d a s

/-- The position and the mask of a field descriptor (R210): lengths above 64 are read as 64, and bits beyond bit 63 do
not exist. -/
def fieldMask (desc : Word) : Nat × Word :=
  let pos := bits desc 5 0
  let n := Nat.min (Nat.min (bits desc 14 8) 64) (64 - pos)
  (pos, word (2 ^ n - 1) <<< pos)

def execBfx (d a b : BitVec 6) (s : State) : Host.Outcome State Fault Refusal :=
  scalarOp (fun x y => (x &&& (fieldMask y).2) >>> (fieldMask y).1) d a b s

/-- `BFI` (R210) reads `d` as well as writing it. -/
def execBfi (d a b : BitVec 6) (s : State) : Host.Outcome State Fault Refusal :=
  scalarOp (fun x y => (s.sreg d &&& ~~~(fieldMask y).2) ||| ((x <<< (fieldMask y).1) &&& (fieldMask y).2)) d a b s

/-- `SEL` (R211). -/
def execSel (d a b : BitVec 6) (c : BitVec 3) (s : State) : Host.Outcome State Fault Refusal :=
  scalarOp (fun x y => if s.preg c then x else y) d a b s

/-! ## Comparisons and predicates (R212, R213) -/

/-- A slot that writes predicate `d`. -/
def predOp (d : BitVec 3) (v : Bool) (s : State) : Host.Outcome State Fault Refusal := .next (s.setP d v)

def execCmpEq (d : BitVec 3) (a b : BitVec 6) (s : State) : Host.Outcome State Fault Refusal :=
  predOp d (s.sreg a == s.sreg b) s
def execCmpNe (d : BitVec 3) (a b : BitVec 6) (s : State) : Host.Outcome State Fault Refusal :=
  predOp d (s.sreg a != s.sreg b) s
def execCmpLt (d : BitVec 3) (a b : BitVec 6) (s : State) : Host.Outcome State Fault Refusal :=
  predOp d ((s.sreg a).slt (s.sreg b)) s
def execCmpGe (d : BitVec 3) (a b : BitVec 6) (s : State) : Host.Outcome State Fault Refusal :=
  predOp d (!(s.sreg a).slt (s.sreg b)) s
def execCmpLtu (d : BitVec 3) (a b : BitVec 6) (s : State) : Host.Outcome State Fault Refusal :=
  predOp d ((s.sreg a).ult (s.sreg b)) s
def execCmpGeu (d : BitVec 3) (a b : BitVec 6) (s : State) : Host.Outcome State Fault Refusal :=
  predOp d (!(s.sreg a).ult (s.sreg b)) s
def execPand (d a b : BitVec 3) (s : State) : Host.Outcome State Fault Refusal := predOp d (s.preg a && s.preg b) s
def execPor (d a b : BitVec 3) (s : State) : Host.Outcome State Fault Refusal := predOp d (s.preg a || s.preg b) s
def execPnot (d a : BitVec 3) (s : State) : Host.Outcome State Fault Refusal := predOp d (!s.preg a) s
def execCmpiEq (d : BitVec 3) (a : BitVec 6) (imm : BitVec 9) (s : State) : Host.Outcome State Fault Refusal :=
  predOp d (s.sreg a == s.immS imm) s
def execCmpiNe (d : BitVec 3) (a : BitVec 6) (imm : BitVec 9) (s : State) : Host.Outcome State Fault Refusal :=
  predOp d (s.sreg a != s.immS imm) s
def execCmpiLt (d : BitVec 3) (a : BitVec 6) (imm : BitVec 9) (s : State) : Host.Outcome State Fault Refusal :=
  predOp d ((s.sreg a).slt (s.immS imm)) s
def execCmpiGe (d : BitVec 3) (a : BitVec 6) (imm : BitVec 9) (s : State) : Host.Outcome State Fault Refusal :=
  predOp d (!(s.sreg a).slt (s.immS imm)) s
def execCmpiLtu (d : BitVec 3) (a : BitVec 6) (imm : BitVec 9) (s : State) : Host.Outcome State Fault Refusal :=
  predOp d ((s.sreg a).ult (s.immS imm)) s
def execCmpiGeu (d : BitVec 3) (a : BitVec 6) (imm : BitVec 9) (s : State) : Host.Outcome State Fault Refusal :=
  predOp d (!(s.sreg a).ult (s.immS imm)) s

/-! ## Immediate forms (R214 to R216) -/

/-- An immediate form: as the two-operand form with B the sign-extended immediate (R214). -/
def scalarImm (f : Word → Word → Word) (d a : BitVec 6) (imm : BitVec 9) (s : State) :
    Host.Outcome State Fault Refusal := .next (s.setS d (f (s.sreg a) (s.immS imm)))

def execAddi (d a : BitVec 6) (imm : BitVec 9) (s : State) : Host.Outcome State Fault Refusal :=
  scalarImm (· + ·) d a imm s
def execAndi (d a : BitVec 6) (imm : BitVec 9) (s : State) : Host.Outcome State Fault Refusal :=
  scalarImm (· &&& ·) d a imm s
def execOri (d a : BitVec 6) (imm : BitVec 9) (s : State) : Host.Outcome State Fault Refusal :=
  scalarImm (· ||| ·) d a imm s
def execXori (d a : BitVec 6) (imm : BitVec 9) (s : State) : Host.Outcome State Fault Refusal :=
  scalarImm (· ^^^ ·) d a imm s
def execShli (d a sh : BitVec 6) (s : State) : Host.Outcome State Fault Refusal :=
  scalarUn (fun x => x <<< sh.toNat) d a s
def execShri (d a sh : BitVec 6) (s : State) : Host.Outcome State Fault Refusal :=
  scalarUn (fun x => x >>> sh.toNat) d a s
def execSrai (d a sh : BitVec 6) (s : State) : Host.Outcome State Fault Refusal :=
  scalarUn (fun x => x.sshiftRight sh.toNat) d a s

/-- `LI` (R216). -/
def execLi (d : BitVec 6) (imm : BitVec 15) (s : State) : Host.Outcome State Fault Refusal :=
  .next (s.setS d (s.immS imm))

/-- `LIH` (R216): bits 63:28 from the unsigned immediate, bits 27:0 kept. -/
def execLih (d : BitVec 6) (imm : BitVec 15) (s : State) : Host.Outcome State Fault Refusal :=
  .next (s.setS d ((s.immU imm <<< 28) ||| (s.sreg d &&& 0x0FFFFFFF)))

end Sys2Proof.Machine
end

