-- ==== Sys2Proof/Machine/VectorMove.lean ====
section
/-! DEFINITION. Movement and permutation of lanes, gather and scatter, and the mask instructions (R287, R288, R293). -/

namespace Sys2Proof.Machine

/-! ## Movement (R287) -/

/-- `VSHUF` (R287). -/
def execVshuf (d a b : BitVec 6) (k : BitVec 3) (s : State) : Host.Outcome State Fault Refusal :=
  s.slot (do
    s.checkTag b [0, 4]
    return s.maskedCodes d k 32 (s.tagOf a) fun l => laneBits (s.vreg a) (laneBits (s.vreg b) l % 64))

/-- `VROT` (R287). -/
def execVrot (d a n : BitVec 6) (s : State) : Host.Outcome State Fault Refusal :=
  .next (s.wholeLanes d (s.vreg a).tag fun l => laneBits (s.vreg a) ((l + n.toNat) % 64))

/-- `VSLIDE` (R287): lanes from outside the register are zero. -/
def execVslide (d a b : BitVec 6) (s : State) : Host.Outcome State Fault Refusal :=
  let m := (s.sreg b).toInt
  .next (s.wholeLanes d (s.vreg a).tag fun l =>
    if 0 ≤ (l : Int) + m ∧ (l : Int) + m ≤ 63 then laneBits (s.vreg a) ((l : Int) + m).toNat else 0)

/-- `VBCAST` (R287): raw bits. -/
def execVbcast (d a : BitVec 6) (s : State) : Host.Outcome State Fault Refusal :=
  .next (s.wholeLanes d 0 fun _ => (s.sreg a).toNat % 2 ^ 32)

/-- `VINS` (R287): one lane, the others and the tag kept. -/
def execVins (d a n : BitVec 6) (s : State) : Host.Outcome State Fault Refusal :=
  .next (s.wholeLanes d (s.vreg d).tag fun l =>
    if l = n.toNat then (s.sreg a).toNat % 2 ^ 32 else laneBits (s.vreg d) l)

/-- `VEXT` (R287). -/
def execVext (d a n : BitVec 6) (s : State) : Host.Outcome State Fault Refusal :=
  .next (s.setS d (word (laneBits (s.vreg a) n.toNat)))

/-! ## Gather and scatter (R288) -/

/-- The active lanes of a mask. -/
def State.onLanes (s : State) (k : BitVec 3) : List Nat := (List.range 64).filter fun l => (s.kreg k).getLsbD l

/-- The addresses of the active lanes: the base plus signed word indexes (R288). -/
def State.laneAddrs (s : State) (a b : BitVec 6) (k : BitVec 3) : List Word :=
  (s.onLanes k).map fun l => s.sreg a + 4 * (BitVec.ofNat 32 (laneBits (s.vreg b) l)).signExtend 64

/-- The checks and translations of a gather or scatter, in lane order (R288, R422). -/
def State.lanePieces (s : State) (a b : BitVec 6) (k : BitVec 3) (acc : Acc) : Except Stop (List Piece) := do
  s.checkTag b [0, 4]
  s.translateAll 4 acc (s.laneAddrs a b k)

/-- A register with the words of some lanes replaced, taken from a byte string in lane order. -/
def putLanes (v : Vec) : List Nat → List Byte → Vec
  | [], _ => v
  | l :: r, bs => putLanes (setBits v (32 * l + 31) (32 * l) (ofBytes (bs.take 4))) r (bs.drop 4)

/-- `VGATHER` (R288): one stamp for all lanes; with no active lane, only the tag is written. -/
def execVgather (d a b : BitVec 6) (k : BitVec 3) (s : State) : Host.Outcome State Fault Refusal :=
  s.slot (do
    let ps ← s.lanePieces a b k .load
    let old := (s.vreg d).bits
    if ps.isEmpty then return s.setV d ⟨old, 0⟩
    else
      let r ← s.loadPieces ps
      return r.1.setV d ⟨putLanes old (s.onLanes k) r.2, 0⟩)

/-- `VSCAT` (R288): one buffered word a lane, in increasing lane order. -/
def execVscat (d a b : BitVec 6) (k : BitVec 3) (s : State) : Host.Outcome State Fault Refusal :=
  s.slot (do
    let ps ← s.lanePieces a b k .store
    s.putPieces ps ((s.onLanes k).flatMap fun l => toBytes (laneBits (s.vreg d) l) 4))

/-! ## Masks (R293) -/

def execKand (d a b : BitVec 3) (s : State) : Host.Outcome State Fault Refusal := .next (s.setK d (s.kreg a &&& s.kreg b))
def execKor (d a b : BitVec 3) (s : State) : Host.Outcome State Fault Refusal := .next (s.setK d (s.kreg a ||| s.kreg b))
def execKnot (d a : BitVec 3) (s : State) : Host.Outcome State Fault Refusal := .next (s.setK d (~~~(s.kreg a)))

/-- `KPOP` (R293). -/
def execKpop (d : BitVec 6) (a : BitVec 3) (s : State) : Host.Outcome State Fault Refusal :=
  .next (s.setS d (word (popc64 (s.kreg a))))

end Sys2Proof.Machine
end

