-- ==== Sys2Proof/Machine/Issue.lean ====
section
/-! DEFINITION. The issue of a bundle (R51, R174 to R178, R312, R422, R423, R431): its fetch and checks, its slots in
order, and its commit, with the meaning of an instruction as a parameter. -/

namespace Sys2Proof.Machine

/-- The meaning of an instruction. -/
abbrev Meaning := Instr → State → Host.Outcome State Fault Refusal

/-- The slots whose own effect comes after every other slot's: gather and scatter accesses (R288), and the slots that
commit their bundle. -/
inductive Last where
  | gather | ending
  deriving DecidableEq, Repr

/-- When a slot's effect comes last, and of which kind. -/
def lastOf : Instr → Option Last
  | .vgather _ _ _ _ => some .gather
  | .vscat _ _ _ _ => some .gather
  | .endTask => some .ending
  | .ntr => some .ending
  | .yield => some .ending
  | .trap _ => some .ending
  | .halt => some .ending
  | _ => none

/-- The checks of a slot that commits its bundle, made in slot order (R422). -/
def State.lastCheck (s : State) : Instr → Except Stop Unit
  | .endTask => s.endCheck
  | .halt => s.endCheck
  | .ntr => s.ntrCheck
  | _ => .ok ()

/-- The bundle at hand turned to slot `i`. -/
def State.atSlot (s : State) (ds : List Dec) (i : Nat) (d : Dec) : State :=
  s.updBun fun b => { b with slot := i, word := d.word, wide := wideAfter ds i }

/-- A step's outcome followed by `f` while the bundle is still open. -/
def andThen (o : Host.Outcome State Fault Refusal) (f : State → Host.Outcome State Fault Refusal) :
    Host.Outcome State Fault Refusal :=
  match o with
  | .next t => if t.bundle.isNone then .next t else f t
  | x => x

/-- The taken slots of a kind `k` of last effect, in order. A slot that traps, aborts or commits ends the bundle: of two
ending slots that no rule keeps apart, a `HALT` beside an `END`, `NTR` or `YIELD`, the lower one alone acts (DESIGN CHOICE,
log entry 107). -/
def runLast (ex : Meaning) (ds : List Dec) (leaf : Nat) (k : Last) : List (Dec × Nat) → State →
    Host.Outcome State Fault Refusal
  | [], s => .next s
  | (d, i) :: r, s =>
    match (if d.taken leaf then d.instr else none) with
    | none => runLast ex ds leaf k r s
    | some ins =>
      if lastOf ins = some k then andThen (ex ins (s.atSlot ds i d)) (runLast ex ds leaf k r)
      else runLast ex ds leaf k r s

/-- The stop of a slot, when no gather or scatter of a lower slot fails: the lowest slot that fails decides (R422). -/
def lowestStop (ex : Meaning) (ds : List Dec) (leaf : Nat) (lower : List (Dec × Nat)) (s t : State) :
    Host.Outcome State Fault Refusal :=
  match runLast ex ds leaf .gather lower s with
  | .next u => if u.bundle.isNone then .next u else .next t
  | o => o

/-- The taken slots of a bundle in order but for those whose effect comes last; of the ones that commit the bundle the checks
are made (R422). A slot that traps or aborts ends the bundle. `lower` holds the slots before. -/
def runSlots (ex : Meaning) (ds : List Dec) (leaf : Nat) (lower : List (Dec × Nat)) : List (Dec × Nat) → State →
    Host.Outcome State Fault Refusal
  | [], s => .next s
  | (d, i) :: r, s =>
    match (if d.taken leaf then d.instr else none) with
    | none => runSlots ex ds leaf lower r s
    | some ins =>
      let s1 := s.atSlot ds i d
      let next := runSlots ex ds leaf (lower ++ [(d, i)]) r
      match lastOf ins with
      | some .gather => next s
      | some .ending =>
        match s1.lastCheck ins with
        | .ok _ => next s1
        | .error x => lowestStop ex ds leaf lower s (s1.stopped x)
      | none =>
        match ex ins s1 with
        | .next t => if t.bundle.isNone then lowestStop ex ds leaf lower s t else next t
        | o => o

/-- From which cycle each register that a bundle's taken slots write is usable (R217, R271, R294), where that is later than
the next. -/
def resultsDue (cycle leaf : Nat) (ds : List Dec) : List (RegName × Nat) :=
  ds.flatMap fun d =>
    match (if d.taken leaf then d.instr else none) with
    | some i => if latencyOf i = 1 then [] else (usesOf i).writes.map fun r => (r, cycle + latencyOf i)
    | none => []

/-- The context at hand with the results of its bundle noted, and those that are usable forgotten. -/
def State.noteDue (s : State) (ds : List Dec) (leaf : Nat) : State :=
  let new := resultsDue s.dev.cycle leaf ds
  if new.isEmpty ∧ s.ctx.due.isEmpty then s
  else s.updMe fun c => { c with due := (c.due.filter fun x => decide (s.dev.cycle < x.2)) ++ new }

/-- The end of a bundle whose other slots have all passed: its gathers and scatters, whose checks come before it blocks
(R423); then it overruns its segment (R230), blocks, ends its task or commits. -/
def finish (ex : Meaning) (ds : List Dec) (leaf : Nat) (s : State) : Host.Outcome State Fault Refusal :=
  andThen (runLast ex ds leaf .gather ds.zipIdx s) fun t =>
    if t.ctx0.segOpen ∧ t.binding.prot ∧ 1024 ≤ t.ctx0.seg.bundles then
      .next ((t.updBun fun b => { b with slot := 0 }).stopped (.trap cSEGOVF (word t.ctx0.seg.bundles)))
    else
      match t.bun.blockedBy with
      | some w => .next { t with dev := t.before.leave t.me (.blocked w), bundle := none, last := .blocked }
      | none => andThen (runLast ex ds leaf .ending ds.zipIdx (t.noteDue ds leaf)) fun u => .next u.commit

/-- The taken leaf of a bundle, 0 without a `TREE`. -/
def State.leafOf (s : State) (ds : List Dec) : Nat :=
  match ds.findSome? fun d => match d.instr with | some (.tree t1 t2 t3 t4 n) => some (t1, t2, t3, t4, n) | _ => none with
  | some (t1, t2, t3, t4, n) => s.treeLeaf t1 t2 t3 t4 n
  | none => 0

/-- The slots of a fetched bundle that is not frozen: its checks in the order of R422, then its slots. -/
def State.runBundle (ex : Meaning) (s : State) (ds : List Dec) (leaf : Nat) : Host.Outcome State Fault Refusal :=
  let c := s.ctx0
  let fail (i : Nat) (cause : BitVec 8) (val : Word) : Host.Outcome State Fault Refusal :=
    .next ((s.updBun fun b => { b with slot := i }).stopped (.trap cause val))
  let wordAt (i : Nat) : Word := match ds[i]? with | some d => d.word.zeroExtend 64 | none => 0
  match encodingFault (!isUpper (coreOf s.me)) ds with
  | some i => fail i cILLEGAL (wordAt i)
  | none =>
    match operandFault (s.before.core (coreOf s.me)).vlimit (fun r => (mget {} c.v r.toNat).tag) ds with
    | some (i, v) => fail i cOPERAND v
    | none =>
      match modeFault c.trap.mode leaf ds with
      | some i => fail i cPRIV (wordAt i)
      | none => andThen (runSlots ex ds leaf [] ds.zipIdx s) (finish ex ds leaf)

/-- A block's first issued bundle takes it from BINDING to RUNNING (R37). -/
def Device.firstIssue (d : Device) (b : Nat) : Device := if d.mstate b = sBinding then d.enterRunning b else d

/-- Whether a slot waits for a slotted read of its context that has not returned (R109), reading or writing its destination,
or for a result that it reads (R217, R271, R294). -/
def Ctx.waitsFor (c : Ctx) (cycle : Nat) (i : Instr) : Bool :=
  (c.slds.any fun p => (usesOf i).reads.contains (.v p.dest) || (usesOf i).writes.contains (.v p.dest)) ||
    c.due.any fun x => decide (cycle < x.2) && (usesOf i).reads.contains x.1

/-- Whether a bundle waits by interlock: some slot that executes does. -/
def Ctx.interlocked (c : Ctx) (cycle leaf : Nat) (ds : List Dec) : Bool :=
  ds.any fun d =>
    match (if d.taken leaf then d.instr else none) with
    | some i => c.waitsFor cycle i
    | none => false

/-- The scratchpad address that a slot accesses, with the bytes of the access and its alignment (R246). -/
def State.spAddress (s : State) : Instr → Option (Word × Nat × Nat)
  | .spl _ b off _ => some (s.ea b off 8, 8, 8)
  | .sps _ b off _ => some (s.ea b off 8, 8, 8)
  | .vldp _ b _ off _ => some (s.ea b off 256, 256, 64)
  | .vstp _ b off _ => some (s.ea b off 256, 256, 64)
  | _ => none

/-- Whether a bundle makes a far scratchpad access to a core whose present cycle is frozen, which serves none: the bundle
waits for the cycle's end (R312, log entry 117). -/
def State.farHeld (s : State) (leaf : Nat) (ds : List Dec) : Bool :=
  ds.zipIdx.any fun e =>
    match (if e.1.taken leaf then e.1.instr else none) with
    | some i =>
      let s1 := s.atSlot ds e.2 e.1
      match s1.spAddress i with
      | some (a, n, align) =>
        match spTarget s1.before s1.binding (coreOf s1.me) a n align with
        | .ok r => a.getLsbD 26 && (s1.dev.core r.1).frozen
        | .error _ => false
      | none => false
    | none => false

/-- The bundle at `pc` of context `a` of block `b` issued (R422, R431), once what it waits for by interlock is there. -/
def State.issueAt (ex : Meaning) (s : State) (a b : Nat) : Host.Outcome State Fault Refusal :=
  let c := s.dev.ctx a
  let pc := c.regs.pc
  let open1 (d : Device) (n : Nat) (leaf : Nat) (opens : Bool) : Bundle :=
    { pre := d, agent := a, start := pc, next := pc + word (4 * n), leaf := leaf, opens := opens }
  match s.fetch b pc with
  | .error x =>
    let d := s.dev.firstIssue b
    .next ({ s with dev := d, bundle := some (open1 d 1 0 false) }.stopped x)
  | .ok ws =>
    let ds := ws.map decWord
    let shut : State := { s with bundle := some (open1 s.dev ws.length 0 false) }
    let leaf := shut.leafOf ds
    if c.interlocked s.dev.cycle leaf ds || shut.farHeld leaf ds then .next { s with last := .idle }
    else if (s.dev.core (coreOf a)).freezes (bundleWeight leaf ds) then
      .next { s with dev := s.dev.freezeCore (coreOf a), last := .idle }
    else
      let d := (s.dev.updCore (coreOf a) fun k => k.spend (slotsWeight ds)).firstIssue b
      let opens := ds.any fun x => x.taken leaf && x.instr == some .segb
      { s with dev := d, bundle := some (open1 d ws.length leaf opens) }.runBundle ex ds leaf

/-- A core issues (R50, R51), its context's tile registers rotated if that is due (R56) and its restored
stores translated again (R97): a held trap is delivered first (R236, R428); a pair that stopped for a rewind waits
(R404); a pre-emption that is under way stops the context after its bundle (R64, R66). -/
def State.issue (ex : Meaning) (s0 : State) (core : Nat) : Host.Outcome State Fault Refusal :=
  let d0 := if (s0.dev.core core).issued then s0.dev.tick else s0.dev
  let d1 := d0.passIssue (4 * core + 3)
  let a := d1.issuer core
  let d := (d1.rotateDue a).settleStores a
  let c := d.ctx a
  let s : State := { s0 with dev := d, bundle := none }
  match c.task with
  | none => .next { s with last := .idle }
  | some t =>
    if c.run ≠ .issuing ∨ (c.segOpen ∧ c.seg.stopped.isSome) then .next { s with last := .idle }
    else
      match c.pend with
      | some p =>
        .next { s with dev := d.trapDeliver a p,
                       last := .trapped p.cause }
      | none =>
        match s.issueAt ex a t.blk with
        | .next u => .next { u with dev := u.dev.stopIfDue a }
        | o => o

end Sys2Proof.Machine
end

