-- ==== Sys2Proof/Machine/CoreEvents.lean ====
section
/-! DEFINITION. The events of a core: entries of its matrix queue starting and completing (R300, R303, R130), freeze
cycles (R312), and the issue of a bundle that cannot be fetched or decoded (R185, R431). -/

namespace Sys2Proof.Machine

/-! ## The matrix queue (R300) -/

/-- The first entry of a path that has not started, with the entries before it. -/
def nextEntry (path : MatrixPath) : List MEntry → List MEntry → Option (List MEntry × MEntry)
  | _, [] => none
  | before, m :: r =>
    if m.op.transfer = (path == .transfer) ∧ !m.started then some (before, m) else nextEntry path (before ++ [m]) r

/-- The scratchpad that an entry of a core's transfer path names (R75, R303). -/
def Device.transferPlace (d : Device) (core addr : Nat) : Option (Nat × Nat) :=
  match d.holder core with
  | none => none
  | some b =>
    match d.binding b with
    | none => none
    | some k =>
      match spTarget d k core (word addr) 1 1 with
      | .ok r => some r
      | .error _ => none

/-- Bytes of a scratchpad. -/
def Core.spBytes (k : Core) (off n : Nat) : List Byte := (List.range n).map fun i => k.spByte (off + i)

/-- Two readings of some bytes mixed as the device chooses per byte (R303). -/
def mixBytes (choose : Nat → Bool) (old new : List Byte) : List Byte :=
  ((old.zip new).zipIdx).map fun e => if choose e.2 then e.1.2 else e.1.1

/-- Whether the binding that holds a core is in protected mode. -/
def Device.protCore (d : Device) (core : Nat) : Bool :=
  match d.holder core with
  | some b => (match d.binding b with | some k => k.prot | none => false)
  | none => false

/-- An entry marked started, with the bytes an `OLD` finds, and the context's segment, if the entry belongs to it, no
longer one that can rewind (R414). -/
def Device.startEntry (d : Device) (core : Nat) (m : MEntry) (cap : List Byte) : Device :=
  let put (x : MEntry) : MEntry :=
    if x.ctx = m.ctx ∧ x.e = m.e ∧ x.num = m.num then { x with started := true, due := m.cycles, cap := cap } else x
  let d1 := d.updCore core fun k => { k with mq := k.mq.map put }
  if m.inSeg then
    d1.updCtx m.ctx fun c => if c.segOpen then { c with seg := { c.seg with matrix := true } } else c
  else d1

/-- An entry started (R300, R303): an `OLD` reads its source; of an `OST`'s bytes the device chooses which land before
the entry completes. -/
def State.startEntry (s : State) (core : Nat) (m : MEntry) : State :=
  match m.op with
  | .old _ addr tag =>
    let cap := match s.dev.transferPlace core addr with
      | some (c, off) => (s.dev.core c).spBytes off (16384 + planeBytes tag.toNat)
      | none => []
    { s with dev := s.dev.startEntry core m cap }
  | .ost o addr tag =>
    let (s1, x) := s.draw
    let d := s1.dev.startEntry core m []
    match d.transferPlace core addr with
    | some (c, off) =>
      let bs := ((d.core core).slot o).bytes tag.toNat
      let mix := mixBytes (Config.freeBool x) ((d.core c).spBytes off bs.length) bs
      { s1 with dev := d.spStore (d.protCore core) c off mix }
    | none => { s1 with dev := d }
  | _ => { s with dev := s.dev.startEntry core m [] }

/-- `MATRIX_ENTRY_START` (R300): two cycles after its issue, with its path free and no earlier entry on its slots and
banks unfinished, and before the core forms the cycle's weight, which counts it (R312). -/
def execMatrixEntryStart (core : Nat) (path : MatrixPath) (s : State) : Host.Outcome State Fault Refusal :=
  s.event (do
    let (before, m) ← nextEntry path [] (s.dev.core core).mq
    guardOpt (m.free before && decide (m.issued + 2 ≤ s.dev.cycle) && !(s.dev.core core).issued) (s.startEntry core m))

/-- The entry of a path whose working cycles are over. -/
def Core.doneEntry (k : Core) (path : MatrixPath) : Option MEntry :=
  k.mq.find? fun m => m.op.transfer == (path == .transfer) && m.started && m.due == 0

/-- What an entry leaves (R300, R303): the core with its effect, the scratchpad bytes of an `OST`, and its flags. -/
def State.runEntry (s : State) (core : Nat) (m : MEntry) : State × Flags :=
  match m.op with
  | .old o addr tag =>
    let (s1, x) := s.draw
    let now := match s1.dev.transferPlace core addr with
      | some (c, off) => (s1.dev.core c).spBytes off (16384 + planeBytes tag.toNat)
      | none => m.cap
    ({ s1 with dev := s1.dev.updCore core fun k => k.runOld o (mixBytes (Config.freeBool x) m.cap now) }, 0)
  | .ost o addr tag =>
    match s.dev.transferPlace core addr with
    | some (c, off) =>
      ({ s with dev := s.dev.spStore (s.dev.protCore core) c off (((s.dev.core core).slot o).bytes tag.toNat) }, 0)
    | none => (s, 0)
  | _ =>
    let r := (s.dev.core core).runArray m
    ({ s with dev := s.dev.setCore core r.1 }, r.2)

/-- An entry gone from its queue, its number complete on its timeline (R128, R130, R300). -/
def Device.endEntry (d : Device) (core : Nat) (m : MEntry) (f : Flags) : Device :=
  let d1 := d.updCore core fun k => { k with mq := k.mq.filter fun x => !(x.ctx == m.ctx && x.e == m.e && x.num == m.num) }
  d1.updCtx m.ctx fun c =>
    { c with tls := mset c.tls m.e ((mget ({} : Timeline) c.tls m.e).finish m.num 0 (if m.tasked then f else 0)) }

/-- `MATRIX_ENTRY_COMPLETE` (R300). -/
def execMatrixEntryComplete (core : Nat) (path : MatrixPath) (s : State) : Host.Outcome State Fault Refusal :=
  s.event (((s.dev.core core).doneEntry path).map fun m =>
    let r := s.runEntry core m
    { r.1 with dev := r.1.dev.endEntry core m r.2 })

/-! ## Freeze cycles and faulting issue (R185, R312, R431) -/

/-- A meaning that is never called: the bundles of these events reach no slot's effect. -/
def noMeaning : Meaning := fun _ s => .next s

/-- The state as a core's issue would begin (R51). -/
def State.issuePoint (s : State) (core : Nat) : State :=
  let d0 := if (s.dev.core core).issued then s.dev.tick else s.dev
  let d1 := d0.passIssue (4 * core + 3)
  { s with dev := (d1.rotateDue (d1.issuer core)).settleStores (d1.issuer core), bundle := none }

/-- The context, block and fetched bundle of a core's next issue. -/
def State.nextBundle (s : State) (core : Nat) : Option (Nat × Nat × Except Stop (List Word32)) :=
  let a := s.dev.issuer core
  let c := s.dev.ctx a
  match c.task with
  | none => none
  | some t =>
    if c.run ≠ .issuing ∨ (c.segOpen ∧ c.seg.stopped.isSome) ∨ c.pend.isSome then none
    else some (a, t.blk, s.fetch t.blk c.regs.pc)

/-- The weight of the slots that a core's next bundle would issue (R311, R312): none while it waits by interlock. -/
def State.nextWeight (s : State) (core : Nat) : Nat :=
  match s.nextBundle core with
  | some (a, _, .ok ws) =>
    let ds := ws.map decWord
    let c := s.dev.ctx a
    let b : Bundle := { pre := s.dev, agent := a, start := c.regs.pc, next := c.regs.pc + word (4 * ws.length) }
    let shut : State := { s with bundle := some b }
    let leaf := shut.leafOf ds
    if c.interlocked s.dev.cycle leaf ds || shut.farHeld leaf ds then 0 else bundleWeight leaf ds
  | _ => 0

/-- `FREEZE_CYCLE` (R312). -/
def execFreezeCycle (core : Nat) (s : State) : Host.Outcome State Fault Refusal :=
  let t := s.issuePoint core
  s.event (guardOpt ((t.dev.core core).freezes (t.nextWeight core) && !(t.dev.core core).issued)
    { t with dev := t.dev.freezeCore core })

/-- The faulting bundle of context `agent` issued when a test of what was fetched holds. -/
def State.faultingIssue (s : State) (agent : Nat) (p : Except Stop (List Word32) → Bool) :
    Host.Outcome State Fault Refusal :=
  let t := s.issuePoint (coreOf agent)
  match t.nextBundle (coreOf agent) with
  | some (a, b, r) =>
    if a = agent ∧ p r then
      match t.issueAt noMeaning a b with
      | .next u => .next { u with dev := u.dev.stopIfDue a }
      | o => o
    else .next { s with last := .ignored }
  | none => .next { s with last := .ignored }

/-- `ILLEGAL_ENCODING` (R185): the next bundle of the context, fetched whole, fails its encoding checks. -/
def execIllegalEncoding (agent : Nat) (s : State) : Host.Outcome State Fault Refusal :=
  s.faultingIssue agent fun r =>
    match r with
    | .ok ws => (encodingFault (!isUpper (coreOf agent)) (ws.map decWord)).isSome
    | .error _ => false

/-- `INSTRUCTION_FETCH_FAULT` (R431): the next bundle of the context cannot be fetched. -/
def execInstructionFetchFault (agent : Nat) (s : State) : Host.Outcome State Fault Refusal :=
  s.faultingIssue agent fun r => match r with | .ok _ => false | .error _ => true

end Sys2Proof.Machine
end

