-- ==== Sys2Proof/Machine/Firmware.lean ====
section
/-! DEFINITION. The firmware complex (R362 to R367, R378, R474 to R476): mailboxes, writes of a function's own tables, staging
and activating images, beacons, probation, silent functions, and changes of the fuse configuration. -/

namespace Sys2Proof.Machine

/-! ## Mailboxes and tables (R362, R476) -/

/-- The messages of mailbox (i, j) (R362). -/
def Device.mailbox (d : Device) (i j : Nat) : List Message := mget [] d.out.mail (8 * i + j)

/-- Messages put into their mailboxes in order, up to one whose mailbox is full (R362). -/
def deliver (src : Nat) (mail : Map (List Message)) : List (Nat × Message) → Map (List Message) × List (Nat × Message)
  | [] => (mail, [])
  | (dst, m) :: r =>
    let box := mget [] mail (8 * src + dst)
    if 16 ≤ box.length then (mail, (dst, m) :: r) else deliver src (mput [] mail (8 * src + dst) (box ++ [m])) r

/-- The messages that a function has still to send, sent as far as its mailboxes take them; on probation they are held. A
full mailbox holds the function (R362, R475, R476). -/
def Device.flush (d : Device) (src : Nat) : Device :=
  let g := d.fw src
  if g.probation.isSome then d
  else
    let (mail, rest) := deliver src d.out.mail g.sends
    let held := if rest.isEmpty then none else some (g.held.getD d.cycle)
    (d.updOut fun o => { o with mail := mail }).updFw src fun g => { g with sends := rest, held := held }

/-- Whether an image on probation is held until its beacon: by its 257th write, which stands last (R476). -/
def Probation.holds (p : Probation) : Bool := decide (256 < p.staged.length)

/-- A message sent by a function that none of its mailboxes holds up (R362), nor its own writes (R476). -/
def Device.sendMail (d : Device) (src dst : Nat) (m : Message) : Option Device :=
  let g := d.fw src
  let free := match g.probation with | some p => !p.holds | none => g.sends.isEmpty
  guardOpt (decide (src < 8 ∧ dst < 8 ∧ src ≠ dst) && g.up && free)
    ((d.updFw src fun g => { g with sends := g.sends ++ [(dst, m)] }).flush src)

/-- The oldest message of mailbox (`src`, `dst`) that its function has not read, read (R362): it leaves, and what waits for
the room follows; on probation it stays (R476). -/
def Device.readMail (d : Device) (dst src : Nat) : Option Device :=
  let g := d.fw dst
  match g.probation with
  | some p =>
    let n := mget 0 p.read src
    guardOpt (decide (src < 8 ∧ dst < 8 ∧ n < (d.mailbox src dst).length) && !p.holds)
      (d.updFw dst fun g => { g with probation := some { p with read := mset p.read src (n + 1) } })
  | none =>
    guardOpt (decide (src < 8 ∧ dst < 8) && g.up && !(d.mailbox src dst).isEmpty)
      ((d.updOut fun o => { o with mail := mput [] o.mail (8 * src + dst) ((d.mailbox src dst).drop 1) }).flush src)

/-- The function that owns the table of a write (R362). -/
def FirmWrite.owner : FirmWrite → Nat
  | .plan _ _ _ => 2
  | _ => 1

/-- A firmware function's write to a table it owns (R34, R35, R39, R107, R326, R330, R335, R340). -/
def Device.firmWrite (d : Device) : FirmWrite → Device
  | .block b i v mask => (d.updBlock b fun m => m.write i v (mask &&& rwMask i)).noteCandidates
  | .hash rkid fnid b =>
    let key := hashKey rkid fnid
    d.updTab fun x => { x with hash := match b with | some i => mset x.hash key i | none => mdel x.hash key }
  | .resv r lend wt cells =>
    let e := d.resvOf r
    ((d.updTab fun x => { x with resv := mset x.resv r { e with lend := lend, wt := wt, cells := cells } }).removeCells r
      (e.cells &&& ~~~cells)).noteCandidates
  | .rgrace v => d.updTab fun x => { x with rgrace := v }
  | .wclk v => d.updTab fun x => { x with wclk := some (v, d.cycle) }
  | .plan stack off v => d.writeController stack (0x8000 + off % 0x4000 / 8 * 8) v

/-- Whether a table admits a write now: as the command that writes it does (R35, R39, R339, R340, R357). -/
def Device.firmAdmits (d : Device) : FirmWrite → Bool
  | .block b i v mask =>
    let m := d.block b
    let bitsOf := mask &&& rwMask i
    let m1 := m.write i v bitsOf
    let any := if i = 0 then bitsOf &&& ~~~(0x7800 : Word) else bitsOf
    let st := m.get fState
    decide (b < 32768 ∧ i ≤ 14) && (any == 0 || st == sFree || st == sIdle || st == sSuspended) && m1.shapeOk &&
      (!m1.sized i bitsOf || d.saveOk m1)
  | .hash rkid _ b => decide (rkid < 4096) && (match b with | some i => decide (i < 32768) | none => true)
  | .resv r _ _ cells => decide (r < 1024) && !(d.tab.resv.any fun x => x.1 != r && x.2.cells &&& cells != 0)
  | .rgrace v => decide (v.toNat ≤ 1789200)
  | .wclk _ => true
  | .plan stack _ _ => decide (stack < 8)

/-- A firmware function's write of its own accord (R476): at once, or staged on probation; after 256 staged writes the next
one holds the image, and is made at its first beacon after them. -/
def Device.tableWrite (d : Device) (f : Nat) (w : FirmWrite) : Option Device :=
  let g := d.fw f
  match g.probation with
  | some p =>
    guardOpt (w.owner == f && !p.holds && d.firmAdmits w)
      (d.updFw f fun g => { g with probation := some { p with staged := p.staged ++ [w] } })
  | none => guardOpt (w.owner == f && g.up && g.sends.isEmpty && d.firmAdmits w) (d.firmWrite w)

/-! ## Images (R364, R367, R474) -/

/-- A function's slot with an image's digest, or empty. -/
def Firm.fill (g : Firm) (b valid : Bool) (dig : Option (List Byte)) : Firm :=
  if b then { g with validB := valid, digB := dig } else { g with validA := valid, digA := dig }

/-- Whether a firmware image has the layout of R310, its signature verifies, and its version is not below its function's
fused minimum (R367). -/
def imagePasses (f : Nat) (bytes : List Byte) : Bool :=
  let n := bytes.length - 96
  decide (160 ≤ bytes.length) && libHeaderOk (bytes.take 64) && ofBytes ((bytes.drop 8).take 8) + 64 == n &&
    Config.sigOk (bytes.take n) (bytes.drop n) && decide (Config.fusedMinimum f ≤ ofBytes (bytes.take 4))

/-- `FW_STAGE` (R364, R474): into the slot that the function does not run; not while that slot is kept for a roll-back. -/
def execFwStage (c : Cmd) (s : State) : Host.Outcome State Fault Refusal :=
  s.command c 0x22 (c.words.length == 4 && c.arg == 0) { o := true } fun t =>
    let f := pw c 0
    if 7 < f then refuse t 5
    else
      let g := t.dev.fw f
      let bytes := t.dev.cmdGet c.q false (pd c 1) (pw c 3)
      if g.probation.isSome then refuse t 3
      else if imagePasses f bytes then
        .done { t with dev := t.dev.updFw f fun g => g.fill (!g.running) true (some (sha384 bytes)) } 0 0
      else .done { t with dev := t.dev.updFw f fun g => g.fill (!g.running) false none } 14 0

/-- The log extended by the image that a function now runs (R365). -/
def Device.logRunning (d : Device) (f : Nat) : Device := d.extendLog (d.runDigest f)

/-- `FW_ACTIVATE` (R364): the staged slot starts on probation; without one, status 3. -/
def execFwActivate (c : Cmd) (s : State) : Host.Outcome State Fault Refusal :=
  s.command c 0x23 (c.words.length == 1 && c.arg == 0) { o := true } fun t =>
    let f := pw c 0
    if 7 < f then refuse t 5
    else
      let g := t.dev.fw f
      if g.probation.isSome ∨ !g.valid (!g.running) then refuse t 3
      else
        let d := t.dev.updFw f fun g =>
          { g with running := !g.running, cnt := 0, last := t.dev.cycle, sends := [], held := none,
                   probation := some { since := t.dev.cycle, slot := g.running, cnt := g.cnt, sends := g.sends } }
        .under { t with dev := d.logRunning f } (.activate f)

/-- When the image of a function that has raised no beacon since the device's reset was started (R378). -/
def Firm.startedAt (g : Firm) (f : Nat) : Nat := g.started.getD (cyclesMs (if f = 4 then 30 else 60))

/-- Whether a function is starting after the device's reset (R378); where the boot failed only the security firmware is
(R474). -/
def Device.booting (d : Device) (f : Nat) : Bool := decide (f < 8) && !(d.fw f).up && (d.out.bootOk || f == 4)

/-- The messages that a function has read on probation out of their mailboxes (R476). -/
def Device.dropRead (d : Device) (f : Nat) (read : Map Nat) : Device :=
  d.updOut fun o => { o with mail := read.foldl (fun m e => mput [] m (8 * e.1 + f) ((mget [] m (8 * e.1 + f)).drop e.2)) o.mail }

/-- `FIRST_BEACON` (R364, R378, R476): within 50 ms of its start. At boot the function is then up. An image on probation owns
the mailboxes and tables: its staged writes are applied and its messages sent, the messages it has read are gone, and the
activation completes with its slot. -/
def execFirstBeacon (fn : Nat) (s : State) : Host.Outcome State Fault Refusal :=
  let g := s.dev.fw fn
  let now := s.dev.cycle
  s.event (match g.probation with
    | some p =>
      let d := (s.dev.dropRead fn p.read).updFw fn fun g => { g with cnt := 1, last := now, probation := none }
      let d1 := (p.staged.foldl Device.firmWrite d).flush fn
      guardOpt (decide (now ≤ p.since + cyclesMs 50))
        (State.finishKind { s with dev := d1 } (· == .activate fn) 0 (word (b2n g.running)))
    | none =>
      let at_ := g.startedAt fn
      guardOpt (s.dev.booting fn && decide (at_ ≤ now ∧ now ≤ at_ + cyclesMs 50))
        { s with dev := s.dev.updFw fn fun g => { g with up := true, started := none, cnt := 1, last := now } })

/-- `FW_ACTIVATE_TIMEOUT` (R364, R378, R476): no beacon within 50 ms. The previous slot resumes where it stopped, with the
messages it had still to send, and the activation completes with status 9; at boot the other slot is started, where it
holds an image that passes. -/
def execFwActivateTimeout (fn : Nat) (s : State) : Host.Outcome State Fault Refusal :=
  let now := s.dev.cycle
  s.event (match (s.dev.fw fn).probation with
    | some p =>
      let d := s.dev.updFw fn fun g =>
        { g with running := p.slot, cnt := p.cnt, last := now, probation := none, sends := p.sends }
      let d1 := ((d.postDev 9 0 0x0913 (word fn)).logRunning fn).flush fn
      guardOpt (decide (p.since + cyclesMs 50 ≤ now))
        (State.finishKind { s with dev := d1 } (· == .activate fn) 9 (word (b2n p.slot)))
    | none =>
      let swap (g : Firm) : Firm :=
        { g with running := if g.valid (!g.running) then !g.running else g.running, cnt := 0, started := some now }
      guardOpt (s.dev.booting fn && decide ((s.dev.fw fn).startedAt fn + cyclesMs 50 ≤ now))
        { s with dev := (s.dev.updFw fn swap).logRunning fn })

/-- `BEACON_RAISE` (R364): by an image that is up and not on probation. -/
def execBeaconRaise (fn : Nat) (s : State) : Host.Outcome State Fault Refusal :=
  s.devEvent (guardOpt (decide (fn < 8) && s.dev.carries fn)
    (s.dev.updFw fn fun g => { g with cnt := g.cnt + 1, last := s.dev.cycle }))

/-! ## Silent functions (R475) -/

/-- A function that counts as silent: restarted with a class-9 record; the second time in ten minutes on its other slot,
where that holds an image that passes; the third time at rung 6. The security firmware's silence is the watchdog's. -/
def State.silence (s : State) (f : Nat) : State :=
  let now := s.dev.cycle
  if f = 4 then State.resetDevice { s with dev := s.dev.lastRecord 9 0x0914 }
  else
    let g := s.dev.fw f
    let past := g.silent.filter fun t => decide (now < t + cyclesMs 600000)
    let slot := if past.length = 1 ∧ g.valid (!g.running) then !g.running else g.running
    let d := s.dev.updFw f fun g =>
      { g with running := slot, cnt := 0, last := now, silent := now :: past, sends := [], held := none }
    { s with dev := d.postDev 9 (if 2 ≤ past.length then 6 else 0) (0x0910 + f) 0 }

/-- `FIRMWARE_SILENT` (R475): no beacon for 50 ms from an image that is not on probation. -/
def execFirmwareSilent (fn : Nat) (s : State) : Host.Outcome State Fault Refusal :=
  let g := s.dev.fw fn
  s.event (guardOpt (decide (fn < 8) && s.dev.carries fn && decide (g.last + cyclesMs 50 ≤ s.dev.cycle)) (s.silence fn))

/-- `MAILBOX_FULL_TIMEOUT` (R475): a sender has been held for 100 ms by a full mailbox, and the receiver
counts as silent; the sender's hold is counted anew. -/
def execMailboxFullTimeout (src dst : Nat) (s : State) : Host.Outcome State Fault Refusal :=
  let g := s.dev.fw src
  let waits : Bool := match g.sends, g.held with
    | (j, _) :: _, some t => j == dst && decide (t + cyclesMs 100 ≤ s.dev.cycle)
    | _, _ => false
  let again : State := { s with dev := s.dev.updFw src fun g => { g with held := some s.dev.cycle } }
  s.event (guardOpt (decide (src < 8 ∧ dst < 8 ∧ src ≠ dst ∧ 16 ≤ (s.dev.mailbox src dst).length) && waits)
    (again.silence dst))

/-! ## Fuses (R365) -/

/-- `FUSE_CHANGE` (R365): the log is extended, and CDI2 and the layer-2 keys follow. -/
def execFuseChange (cfg : List (BitVec 8)) (s : State) : Host.Outcome State Fault Refusal :=
  s.devEvent (some (({ s.dev with flash := { s.dev.flash with fuses := some cfg } } : Device).extendLog (sha384 cfg)))

end Sys2Proof.Machine
end

