-- ==== Sys2Proof/Machine/Spdm.lean ====
section
/-! DEFINITION. SPDM (R366, R474): the security firmware's answers. The forms of the messages are those of SPDM 1.3, which the
manual names and does not restate (log entry 70). -/

namespace Sys2Proof.Machine

/-- A message's version byte: 1.0 for the version exchange and 1.3 after it. -/
def spdm10 : Byte := 0x10
def spdm13 : Byte := 0x13

/-- An answer with its code, two parameters and body. -/
def State.answer (s : State) (ver code p1 p2 : Byte) (body : List Byte) : State :=
  { s with dev := s.dev.send (.spdm code ([ver, code, p1, p2] ++ body)) }

/-- An ERROR answer (R474): 1 an invalid request, 4 a request out of order, 7 one that is not supported. -/
def State.spdmError (s : State) (code : Byte) : State := s.answer spdm13 0x7F code 0 []

/-- The exchange of versions, capabilities and algorithms so far. -/
def Device.agreed (d : Device) : Nat := d.dice.negotiated.toNat

def State.agree (s : State) (n : BitVec 2) : State :=
  { s with dev := { s.dev with dice := { s.dev.dice with negotiated := n } } }

/-- An answer for which the exchange must have come to step `n`; what comes too early is out of order. -/
def State.after (s : State) (n : Nat) (t : State) : State := if s.dev.agreed < n then s.spdmError 4 else t

/-- `GET_VERSION` (R366): SPDM 1.3, and the exchange starts again. -/
def execGetVersion (_r : SpdmRequest) (s : State) : Host.Outcome State Fault Refusal :=
  s.event (some ((s.agree 1).answer spdm10 0x04 0 0 [0, 1, 0, 0x13]))

/-- `GET_CAPABILITIES` (R366): certificates, challenge and fresh signed measurements, and no secure session; the timing
exponent and the transfer sizes are the device's own. -/
def execGetCapabilities (_r : SpdmRequest) (s : State) : Host.Outcome State Fault Refusal :=
  let (s1, x) := s.drawN 3
  let free (i n : Nat) : List Byte := toBytes (Config.freeWord (x + i)).toNat n
  s.event (some (s.after 1 ((s1.agree 2).answer spdm13 0x61 0 0
    ([0] ++ free 0 1 ++ [0, 0] ++ toBytes 0x36 4 ++ free 1 4 ++ free 2 4))))

/-- `NEGOTIATE_ALGORITHMS` (R366): SHA-384, and ECDSA over brainpoolP384r1 as an extended asymmetric algorithm of Finuri's
vendor registry entry, whose numbers are the device's own. -/
def execNegotiateAlgorithms (_r : SpdmRequest) (s : State) : Host.Outcome State Fault Refusal :=
  let (s1, x) := s.draw
  let body := toBytes 40 2 ++ [1, 0] ++ toBytes 4 4 ++ toBytes 0 4 ++ toBytes 2 4 ++ List.replicate 12 0 ++ [1, 0, 0, 0] ++
    toBytes (Config.freeWord x).toNat 4
  s.event (some (s.after 2 ((s1.agree 3).answer spdm13 0x63 0 0 body)))

/-- `GET_DIGESTS` (R366): of the chain in slot 0. -/
def execGetDigests (_r : SpdmRequest) (s : State) : Host.Outcome State Fault Refusal :=
  s.event (some (s.after 3 (s.answer spdm13 0x01 1 1 (sha384 s.dev.certificates))))

/-- `GET_CERTIFICATE` (R366): a portion of the chain of slot 0. -/
def execGetCertificate (r : SpdmRequest) (s : State) : Host.Outcome State Fault Refusal :=
  let chain := s.dev.certificates
  let part := (chain.drop r.offset.toNat).take r.len.toNat
  let left := chain.length - r.offset.toNat - part.length
  let ok := bits r.param1 3 0 == 0 && decide (r.offset.toNat < chain.length)
  s.event (some (s.after 3 (
    if ok then s.answer spdm13 0x02 0 0 (toBytes part.length 2 ++ toBytes left 2 ++ part) else s.spdmError 1)))

/-- The content of measurement `i` (R366). -/
def Device.measurement (d : Device) (i : Nat) : List Byte :=
  if i = 1 then Config.romDigest
  else if i = 2 then d.runDigest 4
  else if i ≤ 6 then d.runDigest (i - 3)
  else if i ≤ 9 then d.runDigest (i - 2)
  else if i = 10 then d.libDigest
  else if i = 11 then d.fuseDigest
  else toBytes ((List.range 8).foldl (fun n f => n + b2n (mget ({} : Firm) d.out.firm f).running * 2 ^ f) 0) 1

/-- A measurement block in the DMTF format (R366): digests for 1 to 11, and the raw bit stream of running slots. -/
def Device.measurementBlock (d : Device) (i : Nat) : List Byte :=
  let v := d.measurement i
  let kind : Nat := if i = 12 then 0x80 + 4 else if i = 1 then 0 else if i = 11 then 3 else 1
  toBytes i 1 ++ [1] ++ toBytes (v.length + 3) 2 ++ toBytes kind 1 ++ toBytes v.length 2 ++ v

/-- Whether the layer-2 keys are there to sign with (R365, R474). -/
def Device.canSign (d : Device) : Bool := d.out.bootOk

/-- An answer that ends in the device's nonce, `more`, no opaque data and the requester's context, and that the attestation
key signs, with the requester's nonce, where `sign` asks. -/
def State.noncedAnswer (s : State) (sign : Bool) (code p1 p2 : Byte) (r : SpdmRequest) (body more : List Byte) : State :=
  let (s1, x) := s.drawN 4
  let own := (List.range 4).flatMap fun i => toBytes (Config.freeWord (x + i)).toNat 8
  let full := body ++ own ++ more ++ toBytes 0 2 ++ toBytes r.context.toNat 8
  let sig := if sign then signWith s.dev.cdi2 labelAttest (r.nonce ++ [spdm13, code, p1, p2] ++ full) else []
  s1.answer spdm13 code p1 p2 (full ++ sig)

/-- The measurements that a challenge asks a summary of (R366): those of the trusted computing base, which are the boot
ROM and the security firmware, or all. -/
def summaryOf (p2 : BitVec 8) : Option (List Nat) :=
  if p2 = 0 then some []
  else if p2 = 1 then some [1, 2]
  else if p2 = 0xFF then some (span 1 12)
  else none

/-- `CHALLENGE` (R366): the digest of slot 0's chain and of the measurements asked for, signed. -/
def execChallenge (r : SpdmRequest) (s : State) : Host.Outcome State Fault Refusal :=
  s.event (some (s.after 3 (
    match summaryOf r.param2 with
    | none => s.spdmError 1
    | some is =>
      let summary := if is.isEmpty then [] else sha384 (is.flatMap s.dev.measurementBlock)
      if bits r.param1 3 0 ≠ 0 then s.spdmError 1
      else if !s.dev.canSign then s.spdmError 7
      else s.noncedAnswer true 0x03 0 1 r (sha384 s.dev.certificates) summary)))

/-- `GET_MEASUREMENTS` (R366): the number of blocks, one block, or all; signed where bit 0 of the attributes asks. -/
def execGetMeasurements (r : SpdmRequest) (s : State) : Host.Outcome State Fault Refusal :=
  let op := r.param2.toNat
  let is : List Nat := if op = 0 then [] else if op = 0xFF then (List.range 12).map (· + 1) else [op]
  let rec0 := is.flatMap s.dev.measurementBlock
  let body := toBytes is.length 1 ++ toBytes rec0.length 3 ++ rec0
  let p1 : Byte := if op = 0 then 12 else 0
  s.event (some (s.after 3 (
    if 12 < op ∧ op ≠ 0xFF then s.spdmError 1
    else if !s.dev.canSign then s.spdmError 7
    else s.noncedAnswer (r.param1.getLsbD 0) 0x60 p1 0 r body [])))

end Sys2Proof.Machine
end

