-- ==== Sys2Proof/Machine/Stream.lean ====
section
/-! DEFINITION. A host queue's stream (R351 to R355, R467, R468, R450): fetching packets at every level, overruns, failed host
accesses, and queues that are disabled. -/

namespace Sys2Proof.Machine

/-! ## Packets as commands (R353, R357) -/

/-- The command of a packet. -/
def Packet.cmd (p : Packet) (q who : Nat) : Cmd :=
  { who := who, q := q, level := p.level, cpl := p.head.getLsbD 13, arg := p.head.extractLsb' 0 13, words := p.words }

/-- The meaning of a command type (R357), `none` for one that is not listed or whose `arg` names no operation. -/
def runCommand (type : Nat) (c : Cmd) (s : State) : Option (Host.Outcome State Fault Refusal) :=
  let a := c.arg.toNat
  match type with
  | 0x00 => some (execCmdNop c s)
  | 0x01 => some (execIndirect c s)
  | 0x02 => some (execSignal c s)
  | 0x03 => some (execWait c s)
  | 0x08 => some (execCbCreate c s)
  | 0x09 => some (execCbWrite c s)
  | 0x0A => some (execCbRead c s)
  | 0x0B => if a = 1 then some (execCbSuspend c s) else if a = 2 then some (execCbResume c s)
            else if a = 3 then some (execCbKill c s) else if a = 4 then some (execCbRelease c s) else none
  | 0x0C => some (execCbMigrate c s)
  | 0x0D => some (execEvent c s)
  | 0x10 => some (execImgInstall c s)
  | 0x11 => some (execImgRetire c s)
  | 0x12 => some (execHashSet c s)
  | 0x14 => some (execResvWrite c s)
  | 0x15 => if pw c 0 = 1 then some (execPolicyWclk c s) else some (execPolicyRgrace c s)
  | 0x18 => some (execShootdown c s)
  | 0x1A => if a % 4 = 0 then some (execDevsnapTake c s) else some (execDevsnapRelease c s)
  | 0x1B => some (execCheckpoint c s)
  | 0x1D => some (execMeterRead c s)
  | 0x1E => some (execMeterReport c s)
  | 0x1F => some (execDiagRead c s)
  | 0x20 => if a = 0 then some (execOwnerClaim c s) else if a = 1 then some (execOwnerHandover c s)
            else if a = 2 then some (execOwnerAccept c s) else none
  | 0x22 => some (execFwStage c s)
  | 0x23 => some (execFwActivate c s)
  | 0x24 => some (execRegRead c s)
  | 0x25 => some (execRegWrite c s)
  | 0x28 => some (execAclWrite c s)
  | 0x29 => some (execSysLaunch c s)
  | 0x30 => some (execLaunch c s)
  | 0x31 => some (execGangLaunch c s)
  | _ => none

/-! ## The next command of a queue (R355, R467) -/

/-- Whether a queue has a command under way (R355). -/
def Device.busyQueue (d : Device) (q : Nat) : Bool := d.out.pend.any fun p => p.q == q

/-- A command taken, numbered and completed with a status and no other effect. -/
def State.failCommand (s : State) (q type : Nat) (cpl : Bool) (st : Nat) : State :=
  let seq := (s.dev.hq q).seq
  State.complete { s with dev := (s.dev.served q).updHq q fun h => { h with seq := h.seq + 1 } } q seq type cpl st 0

/-- A packet that runs past the end of its buffer (R467): status 11, and the rest of the buffer skipped. -/
def State.bufferOverrun (s : State) (q : Nat) (p : Packet) : State :=
  let t := s.failCommand q (packetType p.head) (p.head.getLsbD 13) 11
  { t with dev := t.dev.updHq q fun h => { h with levels := (openLevels h.levels).drop 1 }, last := .done }

/-- A packet's command (R353, R357): run, or completed with status 1 where its type is not listed; `s` is the state to which
a command that is not taken yet goes back. -/
def State.runPacket (t s : State) (type : Nat) (c : Cmd) : Host.Outcome State Fault Refusal :=
  match runCommand type c t with
  | none =>
    if t.dev.parses c.who type then .next { t.failCommand c.q type c.cpl 1 with last := .done }
    else .next { s with last := .ignored }
  | some (.next u) => .next (if u.last = .ignored then { s with last := .ignored } else u)
  | some o => o

/-- A packet that arrives on an agent's channel (R353, R359); those of the physical function's driver come through its host
queues. -/
def State.channelPacket (s : State) (agent : Nat) (head : Word32) (words : List Word32) : Host.Outcome State Fault Refusal :=
  let q := 16384 + agent
  if !(decide (1 ≤ agent) && isAgent agent) || s.dev.busyQueue q || (s.dev.packet q).isSome ||
      packetCount head != words.length then .next { s with last := .ignored }
  else s.runPacket s (packetType head) ((⟨head, words, 0, true⟩ : Packet).cmd q agent)

/-- Whether a queue that runs, or an agent's channel, holds words of which the command processor may take some (R355). -/
def Device.holdsWords (d : Device) (q : Nat) : Bool :=
  (isChannel q || (d.hq q).en) && !d.busyQueue q && (d.packet q).isSome

/-- The queue of some that follows the one served last in round-robin order. -/
def roundRobin (last : Nat) (qs : List Nat) : Option Nat :=
  let least (l : List Nat) : Option Nat := l.foldl (fun m q => some (match m with | some x => Nat.min x q | none => q)) none
  match least (qs.filter fun q => decide (last < q)) with
  | some q => some q
  | none => least qs

/-- The queue of some that the command processor serves (R355): those of the agent channels first, each class in round-robin
order. -/
def Device.chooses (d : Device) (qs : List Nat) : Option Nat :=
  match roundRobin d.out.lastFirst (qs.filter d.comesFirst) with
  | some q => some q
  | none => roundRobin d.out.lastQ qs

/-- The queues that hold words. -/
def Device.waiting (d : Device) : List Nat := (d.out.hostq.map (·.1)).filter d.holdsWords

/-- The queue that the command processor serves next (R355). -/
def Device.nextQueue (d : Device) : Option Nat := d.chooses d.waiting

/-- Whether a command whose packet has only just come to queue `q` is the next one (R355): nothing stands before it in its
queue, and its queue is the one to be served. -/
def Device.inTurn (d : Device) (q : Nat) : Bool := (d.packet q).isNone && d.chooses (q :: d.waiting) == some q

/-- The next command of a queue or of an agent's buffer (R354, R355): its packet runs, waits for its words, or is refused;
one that a lost owner had not started completes with status 2 (R469). -/
def State.nextCommand (s : State) (q : Nat) : Host.Outcome State Fault Refusal :=
  if s.dev.nextQueue ≠ some q then .next { s with last := .ignored }
  else
    match s.dev.packet q with
    | none => .next { s with last := .ignored }
    | some p =>
      if !p.fits then
        if p.level ≠ 0 then .next (s.bufferOverrun q p)
        else
          let wait (h : HostQ) : HostQ := { h with since := some (h.since.getD s.dev.cycle) }
          .next { s with dev := s.dev.updHq q wait, last := .ignored }
      else
        let t : State := { s with dev := s.dev.updHq q fun h => (h.past (1 + packetCount p.head)).pastRevoked }
        let c := p.cmd q (s.dev.issuerOf q)
        if (s.dev.hq q).revoked.isSome then .next { t.failCommand q (packetType p.head) c.cpl 2 with last := .done }
        else t.runPacket s (packetType p.head) c

/-! ## Stream errors (R467) -/

/-- `RING_OVERRUN_TIMEOUT` (R467): status 11, and the queue stops with `rptr` at the packet's header. -/
def execRingOverrunTimeout (q : Nat) (s : State) : Host.Outcome State Fault Refusal :=
  s.event (do
    let t ← (s.dev.hq q).since
    let p ← s.dev.packet q
    let u := s.failCommand q (packetType p.head) (p.head.getLsbD 13) 11
    guardOpt ((s.dev.hq q).en && !p.fits && p.level == 0 && decide (t + cyclesMs 10 ≤ s.dev.cycle))
      { u with dev := u.dev.updHq q HostQ.stop })

/-- A failed fetch of ring words (R467): the command at `rptr`, whose type the device cannot know, completes with status 12,
and the queue stops. -/
def State.fetchFailed (s : State) (q : Nat) : State :=
  let (s1, x) := s.draw
  let t := s1.failCommand q (bits (Config.freeWord x) 5 0) true 12
  { t with dev := t.dev.updHq q HostQ.stop }

/-- Whether a command of a type reads or writes data of its own in host memory (R357): a word that `SIGNAL` writes or `WAIT`
watches and an image, where bit 0 of `arg` puts them there, and what the other types copy. -/
def hasHostData (type : Nat) (arg : BitVec 13) : Bool :=
  if type = 0x02 ∨ type = 0x03 ∨ type = 0x10 then !arg.getLsbD 0 else [0x0A, 0x1D, 0x1E, 0x1F, 0x22].contains type

/-- A failed access to a command's own data (R467): of the `WAIT` under way, or of the next command, which has no other
effect. -/
def State.dataFailed (s : State) (q : Nat) : Option State :=
  match s.dev.out.pend.find? fun p => p.q == q with
  | some p =>
    match p.kind with
    | .wait false _ _ _ _ => some (s.finishPend p 12 0)
    | _ => none
  | none =>
    match s.dev.packet q with
    | some p =>
      let t : State := { s with dev := s.dev.updHq q fun h => (h.past (1 + packetCount p.head)).pastRevoked }
      guardOpt (p.fits && hasHostData (packetType p.head) (p.head.extractLsb' 0 13))
        (t.failCommand q (packetType p.head) (p.head.getLsbD 13) 12)
    | none => none

/-- `HOST_ACCESS_FAIL` (R467): of a queue in host memory, or of a command's data on an agent's channel. That a completion
record cannot be written shows, and stops the queue, when the record is due (`State.complete`). -/
def execHostAccessFail (q : Nat) (kind : HostAccess) (s : State) : Host.Outcome State Fault Refusal :=
  let ok := (s.dev.hq q).en && !(s.dev.hq q).dev
  s.event (match kind with
    | .ringFetch => guardOpt (ok && !s.dev.busyQueue q) (s.fetchFailed q)
    | .dataAccess => if isChannel q || (s.dev.hq q).en then s.dataFailed q else none
    | .completionWrite => guardOpt ok { s with dev := s.dev.updHq q fun h => { h with lose := true } })

/-! ## Queues disabled (R450, R468) -/

/-- A queue's commands under way ended without records: they keep their effect on the device under a number that no queue
bears, and a `WAIT` is gone. -/
def Device.orphan (d : Device) (q : Nat) : Device :=
  let away := q + 2 ^ 32
  let mark (p : Pending) : Pending := if p.q = q then { p with q := away, cpl := false } else p
  let isWait (p : Pending) : Bool := match p.kind with | .wait _ _ _ _ _ => p.q == q | _ => false
  let shoots (k : Binding) : Binding :=
    { k with shoots := k.shoots.map fun h => if h.q = q then { h with q := away } else h }
  let mute (x : Launch) : Launch := if x.q = q then { x with q := away, reply := none } else x
  let d1 := d.updTab fun t => { t with bindings := t.bindings.map fun e => (e.1, shoots e.2) }
  (d1.updHq q HostQ.stop).updOut fun o =>
    { o with pend := (o.pend.filter fun p => !isWait p).map mark, launches := o.launches.map fun e => (e.1, mute e.2) }

/-- The enabled host queues that satisfy a test. -/
def Device.queuesOf (d : Device) (p : HostQ → Bool) : List Nat :=
  (d.out.hostq.filter fun e => e.2.en && !e.2.dev && p e.2).map (·.1)

/-- `ATS_INVALIDATION` (R468): the queues of the PASID are dead, and then the invalidation completes. -/
def execAtsInvalidation (pasid : Nat) (s : State) : Host.Outcome State Fault Refusal :=
  let qs := s.dev.queuesOf fun h => h.pasid == pasid
  let d := (qs.foldl (fun d q => d.orphan q) s.dev).updPcie fun p => { p with atc := p.atc.filter fun e => e.2.1 != pasid }
  s.devEvent (some (d.send (.invalidationDone pasid)))

/-- `FUNCTION_LEVEL_RESET` (R450): of a virtual function. -/
def execFunctionLevelReset (fn : Nat) (s : State) : Host.Outcome State Fault Refusal :=
  let qs := s.dev.queuesOf fun h => h.fn == fn
  let off (o : Outside) : Outside :=
    { o with funcs := mset o.funcs fn (setBits (mget 0 o.funcs fn) 63 63 0), pcie := o.pcie.clear fun f => f == fn }
  s.devEvent (guardOpt (decide (1 ≤ fn ∧ fn ≤ 255)) ((qs.foldl (fun d q => d.orphan q) s.dev).updOut off))

end Sys2Proof.Machine
end

