-- ==== Sys2Proof/Machine/System.lean ====
section
/-! DEFINITION. Traps and system instructions (R234 to R239), and `WIDE` (R179). -/

namespace Sys2Proof.Machine

/-- `TRAP` (R234): the bundle commits, and the trap follows with `tepc` at `cont_addr`. Where another slot of the bundle has
a `trap_after` due, a protected count's (R260), the lower slot's is the one delivered (DEDUCED, log entry 108). -/
def execTrap (n : BitVec 15) (s : State) : Host.Outcome State Fault Refusal :=
  let mine : PendTrap := ⟨s.bun.slot, cTRAPI, n.zeroExtend 64, 0⟩
  let first (x : PendTrap) : PendTrap := if x.slot < s.bun.slot then x else mine
  .next (s.updBun fun b => { b with after := some ((b.after.map first).getD mine) }).commit

/-- `TRET` (R237, R425). -/
def execTret (s : State) : Host.Outcome State Fault Refusal :=
  s.slot (do
    require (s.mode != 0) cPRIV (s.bun.word.zeroExtend 64)
    s.tret)

/-- `WFE` (R238): the event flag is cleared, or the bundle blocks until it is set. -/
def execWfe (s : State) : Host.Outcome State Fault Refusal :=
  s.slot (do
    require (s.mode != 0) cPRIV (s.bun.word.zeroExtend 64)
    if s.ctx0.event then return s.updMe fun c => { c with event := false } else blockOn .eventFlag)

/-- `HALT` (R239): the task commits as with `END`, and the context takes no further task in its binding. -/
def execHalt (s : State) : Host.Outcome State Fault Refusal :=
  s.slot (do
    require (s.mode == 2) cPRIV (s.bun.word.zeroExtend 64)
    s.endTask .halted)

/-- `WIDE` (R179): it extends the immediate of the slot before it and has no effect of its own. -/
def execWide (_imm : BitVec 21) (s : State) : Host.Outcome State Fault Refusal := .next s

end Sys2Proof.Machine
end

