-- ==== Sys2Proof/Machine/Vector.lean ====
section
/-! DEFINITION. Vector arithmetic, comparison, conversion, quantisation, reductions and dot products (R275 to R286, R289
to R292). -/

namespace Sys2Proof.Machine

/-! ## Floating-point arithmetic (R275) -/

/-- An exact result with its invalid flag rounded once into the format of a tag, an overflow taking infinity (R164,
R166). -/
def roundArith (t rm : Nat) (sd : BitVec 32) (x : Val × Flags) : Rounded :=
  let r := roundTo (fmtOf t) rm false sd x.1
  { r with flags := r.flags ||| x.2 }

/-- An instruction of two sources of one floating-point tag, with the old destination as a third operand where `acc` says
so (R275). -/
def fpOp (acc : Bool) (f : Nat → Val → Val → Val → Val × Flags) (d a b : BitVec 6) (k : BitVec 3) (s : State) :
    Host.Outcome State Fault Refusal :=
  s.slot (do
    s.sameTags a b [5, 6, 7]
    let t := s.tagOf a
    if acc then s.checkTag d [t] else .ok ()
    let w := elWidth t
    let v (r : BitVec 6) (i : Nat) : Val := valOf t (elCode (s.vreg r).bits w i)
    return s.maskedEls d k w t fun i sd => roundArith t s.rm sd (f s.rm (v a i) (v b i) (v d i)))

/-- The smaller or larger of two values under the order of R170; NaN if either is NaN. -/
def pickVal (max : Bool) (a b : Val) : Val :=
  if a.isNan || b.isNan then .nan else if max then (if Val.below a b then b else a) else (if Val.below b a then b else a)

def execVadd (d a b : BitVec 6) (k : BitVec 3) (s : State) : Host.Outcome State Fault Refusal :=
  fpOp false (fun rm x y _ => Val.add rm x y) d a b k s
def execVsub (d a b : BitVec 6) (k : BitVec 3) (s : State) : Host.Outcome State Fault Refusal :=
  fpOp false (fun rm x y _ => Val.add rm x y.neg) d a b k s
def execVmul (d a b : BitVec 6) (k : BitVec 3) (s : State) : Host.Outcome State Fault Refusal :=
  fpOp false (fun _ x y _ => Val.mul x y) d a b k s
def execVfma (d a b : BitVec 6) (k : BitVec 3) (s : State) : Host.Outcome State Fault Refusal :=
  fpOp true (fun rm x y z => Val.fma rm x y z) d a b k s
def execVfms (d a b : BitVec 6) (k : BitVec 3) (s : State) : Host.Outcome State Fault Refusal :=
  fpOp true (fun rm x y z => Val.fma rm x y z.neg) d a b k s
def execVmin (d a b : BitVec 6) (k : BitVec 3) (s : State) : Host.Outcome State Fault Refusal :=
  fpOp false (fun _ x y _ => (pickVal false x y, 0)) d a b k s
def execVmax (d a b : BitVec 6) (k : BitVec 3) (s : State) : Host.Outcome State Fault Refusal :=
  fpOp false (fun _ x y _ => (pickVal true x y, 0)) d a b k s

/-! ## Unary operations (R276, R277) -/

/-- A unary floating-point instruction on element codes (R276). -/
def fpUnary (f : Fmt → Nat → BitVec 32 → Nat → Rounded) (d a : BitVec 6) (k : BitVec 3) (s : State) :
    Host.Outcome State Fault Refusal :=
  s.slot (do
    s.checkTag a [5, 6, 7]
    let t := s.tagOf a
    let w := elWidth t
    return s.maskedEls d k w t fun i sd => f (fmtOf t) s.rm sd (elCode (s.vreg a).bits w i))

/-- The sign of a code changed by `g`; NaN gives the canonical NaN (R276). -/
def signOp (g : Bool → Bool) (f : Fmt) (_ : Nat) (sd : BitVec 32) (c : Nat) : Rounded :=
  if (f.decode c).isNan then ⟨f.nan, 0, sd⟩
  else ⟨f.signed (g (c / f.signBit % 2 == 1)) (c % f.signBit), 0, sd⟩

/-- A faithfully rounded function as a unary instruction (R276). -/
def faithfulUnary (fn : Faithful) (f : Fmt) (_ : Nat) (sd : BitVec 32) (c : Nat) : Rounded :=
  let r := faithfulOp f fn c
  ⟨r.1, r.2, sd⟩

def execVneg (d a : BitVec 6) (k : BitVec 3) (s : State) : Host.Outcome State Fault Refusal :=
  fpUnary (signOp (!·)) d a k s
def execVabs (d a : BitVec 6) (k : BitVec 3) (s : State) : Host.Outcome State Fault Refusal :=
  fpUnary (signOp fun _ => false) d a k s
def execVrcp (d a : BitVec 6) (k : BitVec 3) (s : State) : Host.Outcome State Fault Refusal :=
  fpUnary (faithfulUnary .rcp) d a k s
def execVrsq (d a : BitVec 6) (k : BitVec 3) (s : State) : Host.Outcome State Fault Refusal :=
  fpUnary (faithfulUnary .rsq) d a k s
def execVsqrt (d a : BitVec 6) (k : BitVec 3) (s : State) : Host.Outcome State Fault Refusal :=
  fpUnary sqrtOp d a k s
def execVexp (d a : BitVec 6) (k : BitVec 3) (s : State) : Host.Outcome State Fault Refusal :=
  fpUnary (faithfulUnary .exp) d a k s
def execVlog (d a : BitVec 6) (k : BitVec 3) (s : State) : Host.Outcome State Fault Refusal :=
  fpUnary (faithfulUnary .log) d a k s
def execVtanh (d a : BitVec 6) (k : BitVec 3) (s : State) : Host.Outcome State Fault Refusal :=
  fpUnary (faithfulUnary .tanh) d a k s

/-- The class code of an element (R277). -/
def classCode (f : Fmt) (c : Nat) : Nat :=
  let sub := c / 2 ^ f.mb % 2 ^ f.eb == 0
  match f.decode c with
  | .nan => 8
  | .inf n => if n then 0 else 7
  | .fin n m _ => if m = 0 then (if n then 3 else 4) else if sub then (if n then 2 else 5) else (if n then 1 else 6)

/-- `VCLASS` (R276, R277): an integer code of the same width. -/
def execVclass (d a : BitVec 6) (k : BitVec 3) (s : State) : Host.Outcome State Fault Refusal :=
  s.slot (do
    s.checkTag a [5, 6, 7, 8, 9]
    let t := s.tagOf a
    let w := elWidth t
    return s.maskedCodes d k w (if w = 32 then 4 else if w = 16 then 3 else 1) fun i =>
      classCode (fmtOf t) (elCode (s.vreg a).bits w i))

/-- An instruction on the 32-bit lanes of one source of any tag (R276, R292). -/
def laneUnary (f : Nat → Nat) (tag : Nat → Nat) (d a : BitVec 6) (k : BitVec 3) (s : State) :
    Host.Outcome State Fault Refusal :=
  s.slot (do
    s.checkTag a (List.range 14)
    return s.maskedCodes d k 32 (tag (s.tagOf a)) fun l => f (laneBits (s.vreg a) l))

/-- The hash of R292. -/
def hash32 (x : Nat) : Nat :=
  let h0 := BitVec.ofNat 32 x
  let h1 := (h0 ^^^ (h0 >>> 16)) * 0x6A3D9B27
  let h2 := (h1 ^^^ (h1 >>> 15)) * 0x9E15C4B3
  (h2 ^^^ (h2 >>> 16)).toNat

def execVnot (d a : BitVec 6) (k : BitVec 3) (s : State) : Host.Outcome State Fault Refusal :=
  laneUnary (fun x => 2 ^ 32 - 1 - x) id d a k s
def execVmovs (d a : BitVec 6) (k : BitVec 3) (s : State) : Host.Outcome State Fault Refusal :=
  laneUnary id id d a k s
def execVhash (d a : BitVec 6) (k : BitVec 3) (s : State) : Host.Outcome State Fault Refusal :=
  laneUnary hash32 (fun _ => 4) d a k s

/-! ## Reductions and scan (R289, R290) -/

/-- The exact sum of values with its invalid flag: NaN for a NaN or for infinities of both signs (R289). -/
def sumVals (rm : Nat) (vs : List Val) : Val × Flags :=
  let both := vs.contains (.inf true) && vs.contains (.inf false)
  if both then (.nan, fNv)
  else match vs with
    | [] => (.fin false 0 0, 0)
    | v :: r => (r.foldl (fun acc x => (Val.add rm acc x).1) v, 0)

/-- The integers of values of an integer tag. -/
def Val.toInt : Val → Int
  | .fin n m e => signedAt n m e 0
  | _ => 0

/-- The exact sum of integer values. -/
def sumInts (vs : List Val) : Int := vs.foldl (fun acc v => acc + v.toInt) 0

/-- `VREDSUM` (R289). -/
def execVredsum (d a : BitVec 6) (k : BitVec 3) (s : State) : Host.Outcome State Fault Refusal :=
  s.slot (do
    s.checkTag a [1, 2, 3, 4, 5, 6, 7]
    let vs := (s.activeEls a k).map (·.2)
    if isIntTag (s.tagOf a) then
      let r := satInt 4 s.sat (sumInts vs)
      return (s.onlyFirst d 4 (intCode 32 r.1)).raise r.2
    else
      let r := roundArith 5 s.rm s.seed (sumVals s.rm vs)
      return ((s.onlyFirst d 5 r.code).raise r.flags).setSeed r.seed)

/-- The extreme of active elements: NaN if one is NaN; `none` when there is none. -/
def extreme (max : Bool) : List Val → Option Val
  | [] => none
  | v :: r => some (r.foldl (fun acc x => pickVal max acc x) v)

/-- The code that `VREDMAX` and `VREDMIN` give without an active element (R289). -/
def emptyExtreme (max : Bool) (t : Nat) : Nat :=
  if isIntTag t then intCode (elWidth t) (if max then (intRange t).1 else (intRange t).2) else (fmtOf t).nan

/-- The code of an exact value of a tag. -/
def exactCode (t : Nat) (v : Val) : Nat :=
  if isIntTag t then intCode (elWidth t) v.toInt else (roundTo (fmtOf t) 0 false 0 v).code

/-- `VREDMAX` and `VREDMIN` (R289). -/
def redExtreme (max : Bool) (d a : BitVec 6) (k : BitVec 3) (s : State) : Host.Outcome State Fault Refusal :=
  s.slot (do
    s.checkTag a [1, 2, 3, 4, 5, 6, 7, 8, 9, 13]
    let t := s.tagOf a
    return s.onlyFirst d t (match extreme max ((s.activeEls a k).map (·.2)) with
      | none => emptyExtreme max t
      | some v => exactCode t v))

def execVredmax (d a : BitVec 6) (k : BitVec 3) (s : State) : Host.Outcome State Fault Refusal := redExtreme true d a k s
def execVredmin (d a : BitVec 6) (k : BitVec 3) (s : State) : Host.Outcome State Fault Refusal := redExtreme false d a k s

/-- The index of the first active NaN, else of the first largest active value, with +0 above -0 (R289). -/
def argMax (els : List (Nat × Val)) : Option Nat :=
  match els.find? fun e => e.2.isNan with
  | some e => some e.1
  | none =>
    match els with
    | [] => none
    | e :: r => some (r.foldl (fun acc x => if Val.below acc.2 x.2 then x else acc) e).1

/-- `VREDARG` (R289): an INT32 index, -1 without an active element. -/
def execVredarg (d a : BitVec 6) (k : BitVec 3) (s : State) : Host.Outcome State Fault Refusal :=
  s.slot (do
    s.checkTag a [1, 2, 3, 4, 5, 6, 7, 8, 9, 13]
    return s.onlyFirst d 4 ((argMax (s.activeEls a k)).getD (2 ^ 32 - 1)))

/-- The prefix sums of a scan (R290), each rounded on its own; `seen` holds the active values so far, or their exact sum
while it is finite. Inactive lanes raise no flag (R163). -/
def scanEls (rm : Nat) (on : Nat → Bool) (v : Nat → Val) : List Nat → List Val → BitVec 32 → VOut
  | [], _, sd => ⟨[], 0, sd⟩
  | i :: r, seen, sd =>
    let now := if on i then [(sumVals rm (seen ++ [v i])).1] else seen
    let all := if on i then seen ++ [v i] else seen
    let x := roundArith 5 rm sd (sumVals rm all)
    let y := scanEls rm on v r (if (sumVals rm all).1.isFin then now else all) x.seed
    ⟨x.code :: y.codes, (if on i then x.flags else 0) ||| y.flags, y.seed⟩

/-- `VSCAN` (R290). -/
def execVscan (d a : BitVec 6) (k : BitVec 3) (s : State) : Host.Outcome State Fault Refusal :=
  s.slot (do
    s.checkTag a [4, 5]
    let t := s.tagOf a
    let v (i : Nat) : Val := valOf t (elCode (s.vreg a).bits 32 i)
    let m := s.kreg k
    if t = 4 then
      let sums (i : Nat) : Int := sumInts (((List.range (i + 1)).filter fun j => laneOn m 32 j).map v)
      return s.writeEls d 32 4 (runEls (fun i sd =>
        let r := satInt 4 s.sat (sums i)
        ⟨intCode 32 r.1, r.2, sd⟩) (List.range 64) s.seed)
    else return s.writeEls d 32 5 (scanEls s.rm (laneOn m 32) v (List.range 64) [] s.seed))

/-! ## Integer, shift and bitwise operations (R278 to R280) -/

/-- An integer instruction of two sources of one tag, with the old destination as a third operand where `acc` says so;
`sat_int` of the exact result (R278). -/
def intOp (acc : Bool) (f : Int → Int → Int → Int) (d a b : BitVec 6) (k : BitVec 3) (s : State) :
    Host.Outcome State Fault Refusal :=
  s.slot (do
    s.sameTags a b [1, 2, 3, 4, 13]
    let t := s.tagOf a
    if acc then s.checkTag d [t] else .ok ()
    let w := elWidth t
    let v (r : BitVec 6) (i : Nat) : Int := intOf t (elCode (s.vreg r).bits w i)
    return s.maskedEls d k w t fun i sd =>
      let r := satInt t s.sat (f (v a i) (v b i) (v d i))
      ⟨intCode w r.1, r.2, sd⟩)

def execViadd (d a b : BitVec 6) (k : BitVec 3) (s : State) : Host.Outcome State Fault Refusal :=
  intOp false (fun x y _ => x + y) d a b k s
def execVisub (d a b : BitVec 6) (k : BitVec 3) (s : State) : Host.Outcome State Fault Refusal :=
  intOp false (fun x y _ => x - y) d a b k s
def execVimul (d a b : BitVec 6) (k : BitVec 3) (s : State) : Host.Outcome State Fault Refusal :=
  intOp false (fun x y _ => x * y) d a b k s
def execVimad (d a b : BitVec 6) (k : BitVec 3) (s : State) : Host.Outcome State Fault Refusal :=
  intOp true (fun x y z => z + x * y) d a b k s
def execVimin (d a b : BitVec 6) (k : BitVec 3) (s : State) : Host.Outcome State Fault Refusal :=
  intOp false (fun x y _ => if y < x then y else x) d a b k s
def execVimax (d a b : BitVec 6) (k : BitVec 3) (s : State) : Host.Outcome State Fault Refusal :=
  intOp false (fun x y _ => if x < y then y else x) d a b k s

/-- A shift of each element by the low log2(w) bits of the other's (R279): `f` takes the width, the code and the count. -/
def shiftOp (f : Nat → Nat → Nat → Nat) (d a b : BitVec 6) (k : BitVec 3) (s : State) : Host.Outcome State Fault Refusal :=
  s.slot (do
    s.sameTags a b [1, 2, 3, 4, 13]
    let t := s.tagOf a
    let w := elWidth t
    return s.maskedCodes d k w t fun i => f w (elCode (s.vreg a).bits w i) (elCode (s.vreg b).bits w i % w))

def execVshl (d a b : BitVec 6) (k : BitVec 3) (s : State) : Host.Outcome State Fault Refusal :=
  shiftOp (fun w x n => x * 2 ^ n % 2 ^ w) d a b k s
def execVshr (d a b : BitVec 6) (k : BitVec 3) (s : State) : Host.Outcome State Fault Refusal :=
  shiftOp (fun _ x n => x / 2 ^ n) d a b k s
def execVsra (d a b : BitVec 6) (k : BitVec 3) (s : State) : Host.Outcome State Fault Refusal :=
  shiftOp (fun w x n => ((BitVec.ofNat w x).sshiftRight n).toNat) d a b k s

/-- A bitwise instruction on lanes of any tags (R280): the result takes the tag of the first source. -/
def laneOp (f : Nat → Nat → Nat) (d a b : BitVec 6) (k : BitVec 3) (s : State) : Host.Outcome State Fault Refusal :=
  .next (s.maskedCodes d k 32 (s.tagOf a) fun l => f (laneBits (s.vreg a) l) (laneBits (s.vreg b) l))

def execVand (d a b : BitVec 6) (k : BitVec 3) (s : State) : Host.Outcome State Fault Refusal :=
  laneOp Nat.land d a b k s
def execVor (d a b : BitVec 6) (k : BitVec 3) (s : State) : Host.Outcome State Fault Refusal :=
  laneOp Nat.lor d a b k s
def execVxor (d a b : BitVec 6) (k : BitVec 3) (s : State) : Host.Outcome State Fault Refusal :=
  laneOp Nat.xor d a b k s

/-! ## Compare and select (R281, R282) -/

/-- The condition codes of R281. -/
inductive Cond where
  | eq | ne | lt | le | gt | ge | un
  deriving DecidableEq, Repr

/-- `holds` (R281): ordered conditions are false on NaN. -/
def Cond.holds (c : Cond) (a b : Val) : Bool :=
  let nan := a.isNan || b.isNan
  match c with
  | .eq => Val.eq a b
  | .ne => nan || !Val.eq a b
  | .lt => Val.lt a b
  | .le => !nan && !Val.lt b a
  | .gt => Val.lt b a
  | .ge => !nan && !Val.lt a b
  | .un => nan

/-- `VCMP` (R281): bit L holds when lane L is active and the condition holds for each of its elements. -/
def cmpOp (c : Cond) (kd : BitVec 3) (a b : BitVec 6) (k : BitVec 3) (s : State) : Host.Outcome State Fault Refusal :=
  s.slot (do
    s.sameTags a b [1, 2, 3, 4, 5, 6, 7, 8, 9, 13]
    let t := s.tagOf a
    let w := elWidth t
    let m := s.kreg k
    let ok (l : Nat) : Bool := m.getLsbD l && (span (32 * l / w) (32 / w)).all fun i =>
      c.holds (valOf t (elCode (s.vreg a).bits w i)) (valOf t (elCode (s.vreg b).bits w i))
    return s.setK kd (word ((List.range 64).foldl (fun n l => if ok l then n + 2 ^ l else n) 0)))

def execVcmpEq (kd : BitVec 3) (a b : BitVec 6) (k : BitVec 3) (s : State) : Host.Outcome State Fault Refusal :=
  cmpOp .eq kd a b k s
def execVcmpNe (kd : BitVec 3) (a b : BitVec 6) (k : BitVec 3) (s : State) : Host.Outcome State Fault Refusal :=
  cmpOp .ne kd a b k s
def execVcmpLt (kd : BitVec 3) (a b : BitVec 6) (k : BitVec 3) (s : State) : Host.Outcome State Fault Refusal :=
  cmpOp .lt kd a b k s
def execVcmpLe (kd : BitVec 3) (a b : BitVec 6) (k : BitVec 3) (s : State) : Host.Outcome State Fault Refusal :=
  cmpOp .le kd a b k s
def execVcmpGt (kd : BitVec 3) (a b : BitVec 6) (k : BitVec 3) (s : State) : Host.Outcome State Fault Refusal :=
  cmpOp .gt kd a b k s
def execVcmpGe (kd : BitVec 3) (a b : BitVec 6) (k : BitVec 3) (s : State) : Host.Outcome State Fault Refusal :=
  cmpOp .ge kd a b k s
def execVcmpUn (kd : BitVec 3) (a b : BitVec 6) (k : BitVec 3) (s : State) : Host.Outcome State Fault Refusal :=
  cmpOp .un kd a b k s

/-- `VSEL` (R282). -/
def execVsel (d a b : BitVec 6) (k : BitVec 3) (s : State) : Host.Outcome State Fault Refusal :=
  s.slot (do
    s.checkTag b [s.tagOf a]
    let m := s.kreg k
    return s.wholeLanes d (s.vreg a).tag fun l => if m.getLsbD l then laneBits (s.vreg a) l else laneBits (s.vreg b) l)

/-! ## Conversion and quantisation (R283 to R286) -/

/-- The conversion of one element between two formats (R164 to R168, R283). R166 and R168 give `sat` to narrowing
conversions, which the manual does not define: the model gives it to every conversion whose destination lacks the value,
those between formats of one width (BF16 to FP16, E5M2 to E4M3) and between integer formats of which neither is narrower
(INT8 to UINT8, UINT8 to INT8) or that widen (INT4 to UINT8) among them (DESIGN CHOICE, log entry 107). -/
def convert (t u rm : Nat) (sat : Bool) (sd : BitVec 32) (c : Nat) : Rounded :=
  if t = u then ⟨canonCode t c, 0, sd⟩
  else if isIntTag u then
    if isIntTag t then
      let r := satInt u sat (intOf t c)
      ⟨intCode (elWidth u) r.1, r.2, sd⟩
    else
      let r := toIntFmt u rm sd (valOf t c)
      ⟨intCode (elWidth u) r.1, r.2.1, r.2.2⟩
  else roundTo (fmtOf u) rm sat sd (valOf t c)

/-- `VCVT` (R283): a retag when either tag is raw, else a conversion of the elements that both formats hold. -/
def execVcvt (d a : BitVec 6) (u : BitVec 4) (k : BitVec 3) (s : State) : Host.Outcome State Fault Refusal :=
  s.slot (do
    s.checkTag a [0, 1, 2, 3, 4, 5, 6, 7, 8, 9, 13]
    let t := s.tagOf a
    let x := u.toNat
    if t = 0 ∨ x = 0 then return s.maskedCodes d k 32 x fun l => laneBits (s.vreg a) l
    else
      let n := Nat.min (nelOf (elWidth t)) (nelOf (elWidth x))
      let wide := Nat.max (elWidth t) (elWidth x)
      let m := s.kreg k
      let old := (s.vreg d).bits
      return s.writeEls d (elWidth x) x (runEls (fun i sd =>
        if n ≤ i then ⟨0, 0, sd⟩
        else if laneOn m wide i then convert t x s.rm s.sat sd (elCode (s.vreg a).bits (elWidth t) i)
        else ⟨elCode old (elWidth x) i, 0, sd⟩) (List.range (nelOf (elWidth x))) s.seed))

/-- The registers of a group from one upward (R284, R285). -/
def regGroup (a : BitVec 6) (g : Nat) : List (BitVec 6) := (List.range g).map fun i => a + BitVec.ofNat 6 i

/-- Registers in a source group for a block format: eight for MXFP4, four otherwise (R284). -/
def blockGroup (u : Nat) : Nat := if u = 11 then 8 else 4

/-- The largest exponent of a block format's elements (R169). -/
def blockEmax (u : Nat) : Int := if u = 10 then 8 else if u = 11 then 2 else 0

/-- Blocks quantised in order (R169): the element codes, and the scale codes apart. -/
def quantBlocks (u rm : Nat) (v : Nat → Val) : List Nat → BitVec 32 → VOut × List Nat
  | [], sd => (⟨[], 0, sd⟩, [])
  | b :: r, sd =>
    let idx := span (32 * b) 32
    let zero := idx.all fun i => (v i).isZero
    let here : VOut × Nat :=
      match blockScale (blockEmax u) (idx.map v) with
      | some c => (runEls (fun i s => blockElem u rm c zero s (v i)) idx sd, c)
      | none => (⟨List.replicate 32 0, fNv, sd⟩, 255)
    let rest := quantBlocks u rm v r here.1.seed
    (⟨here.1.codes ++ rest.1.codes, here.1.flags ||| rest.1.flags, rest.1.seed⟩, here.2 :: rest.2)

/-- Tag checks of the registers of a group in order. -/
def State.checkGroup (s : State) (ok : List Nat) : List (BitVec 6) → Except Stop Unit
  | [] => .ok ()
  | r :: rest => do
    s.checkTag r ok
    s.checkGroup ok rest

/-- `VQNT` (R284): the codes in `v[d]`, and the scale plane in `v[d + 1]` with tag 2. -/
def execVqnt (d a : BitVec 6) (u : BitVec 4) (s : State) : Host.Outcome State Fault Refusal :=
  s.slot (do
    let x := u.toNat
    let g := blockGroup x
    s.checkGroup [5] (regGroup a g)
    let v (j : Nat) : Val := fp32.decode (elCode (s.vreg (a + BitVec.ofNat 6 (j / 64))).bits 32 (j % 64))
    let q := quantBlocks x s.rm v (List.range (2 * g)) s.seed
    let s1 := s.writeEls d (elWidth x) x q.1
    return s1.setV (d + 1) ⟨packEls 8 q.2, 2⟩)

/-- One element of `VDQNT` (R159, R285): its value under its block's scale, rounded to FP32. -/
def dequant (t rm : Nat) (sd : BitVec 32) (code scale : Nat) : Rounded :=
  let v : Val := if t = 12 then ofInt false (ts8Units code) (-6) else valOf t code
  roundTo fp32 rm false sd (v.underScale scale)

/-- The registers of a group written with FP32 elements, 64 to a register. -/
def State.writeGroup (s : State) (d : BitVec 6) : List Nat → List Nat → State
  | _, [] => s
  | codes, g :: r => (s.setV (d + BitVec.ofNat 6 g) ⟨packEls 32 (codes.take 64), 5⟩).writeGroup d (codes.drop 64) r

/-- `VDQNT` (R285). -/
def execVdqnt (d a b : BitVec 6) (s : State) : Host.Outcome State Fault Refusal :=
  s.slot (do
    s.checkTag a [10, 11, 12]
    s.checkTag b [0, 2]
    let t := s.tagOf a
    let g := blockGroup t
    let w := elWidth t
    let o := runEls (fun j sd => dequant t s.rm sd (elCode (s.vreg a).bits w j) (elCode (s.vreg b).bits 8 (j / 32)))
      (List.range (64 * g)) s.seed
    return ((s.writeGroup d o.codes (List.range g)).raise o.flags).setSeed o.seed)

/-- A TS8 term code of a number clamped to -7 to 7 (R286): sign and magnitude, and the clamp's flag. -/
def termCode (i : Int) : Nat × Flags :=
  let c := clamp (-7, 7) i
  ((if c < 0 then 8 else 0) + c.natAbs, if c = i then 0 else fSf)

/-- `VPACKTS` (R286): a clamp raises `sf` alone (DESIGN CHOICE, log entry 107). -/
def execVpackts (d a b : BitVec 6) (k : BitVec 3) (s : State) : Host.Outcome State Fault Refusal :=
  s.slot (do
    s.checkTag a [1]
    s.checkTag b [1]
    return s.maskedEls d k 8 12 fun i sd =>
      let h := termCode (intOf 1 (elCode (s.vreg a).bits 8 i))
      let l := termCode (intOf 1 (elCode (s.vreg b).bits 8 i))
      ⟨h.1 * 16 + l.1, h.2 ||| l.2, sd⟩)

/-! ## Dot products (R291) -/

/-- Exact products of pairs added in order to a value, with the invalid flag (R170, R291). -/
def dotVal (rm : Nat) (acc : Val) (ps : List (Val × Val)) : Val × Flags :=
  ps.foldl (fun x p =>
    let r := Val.fma rm p.1 p.2 x.1
    (r.1, x.2 ||| r.2)) (acc, 0)

/-- `VDOT` (R291). A lane that an integer clamp narrows raises `sf` alone, as the other integer rules say, and not `nx`
(DESIGN CHOICE, log entry 107). -/
def execVdot (d a b : BitVec 6) (k : BitVec 3) (s : State) : Host.Outcome State Fault Refusal :=
  s.slot (do
    s.sameTags a b [1, 2, 3, 6, 7, 8, 9]
    let t := s.tagOf a
    let u := if isIntTag t then 4 else 5
    s.checkTag d [u]
    let w := elWidth t
    let pairs (l : Nat) : List (Val × Val) := (span (32 * l / w) (32 / w)).map fun i =>
      (valOf t (elCode (s.vreg a).bits w i), valOf t (elCode (s.vreg b).bits w i))
    return s.maskedEls d k 32 u fun l sd =>
      if u = 4 then
        let r := satInt 4 s.sat ((pairs l).foldl (fun n p => n + p.1.toInt * p.2.toInt) (intOf 4 (laneBits (s.vreg d) l)))
        ⟨intCode 32 r.1, r.2, sd⟩
      else roundArith 5 s.rm sd (dotVal s.rm (fp32.decode (laneBits (s.vreg d) l)) (pairs l)))

end Sys2Proof.Machine
end

