-- ==== Sys2Proof/Machine/Dispatch.lean ====
section
/-! DEFINITION. The meaning of every instruction, one arm per constructor (R10). -/

namespace Sys2Proof.Machine

def exec (i : Instr) (s : State) : Host.Outcome State Fault Refusal :=
  match i with
  | .nop => Sys2Proof.Machine.execNop s
  | .add d a b => Sys2Proof.Machine.execAdd d a b s
  | .sub d a b => Sys2Proof.Machine.execSub d a b s
  | .and d a b => Sys2Proof.Machine.execAnd d a b s
  | .or d a b => Sys2Proof.Machine.execOr d a b s
  | .xor d a b => Sys2Proof.Machine.execXor d a b s
  | .andn d a b => Sys2Proof.Machine.execAndn d a b s
  | .mul d a b => Sys2Proof.Machine.execMul d a b s
  | .mulh d a b => Sys2Proof.Machine.execMulh d a b s
  | .mulhu d a b => Sys2Proof.Machine.execMulhu d a b s
  | .div d a b => Sys2Proof.Machine.execDiv d a b s
  | .divu d a b => Sys2Proof.Machine.execDivu d a b s
  | .rem d a b => Sys2Proof.Machine.execRem d a b s
  | .remu d a b => Sys2Proof.Machine.execRemu d a b s
  | .shl d a b => Sys2Proof.Machine.execShl d a b s
  | .shr d a b => Sys2Proof.Machine.execShr d a b s
  | .sra d a b => Sys2Proof.Machine.execSra d a b s
  | .min d a b => Sys2Proof.Machine.execMin d a b s
  | .max d a b => Sys2Proof.Machine.execMax d a b s
  | .minu d a b => Sys2Proof.Machine.execMinu d a b s
  | .maxu d a b => Sys2Proof.Machine.execMaxu d a b s
  | .clz d a => Sys2Proof.Machine.execClz d a s
  | .ctz d a => Sys2Proof.Machine.execCtz d a s
  | .popc d a => Sys2Proof.Machine.execPopc d a s
  | .mov d a => Sys2Proof.Machine.execMov d a s
  | .bfx d a b => Sys2Proof.Machine.execBfx d a b s
  | .bfi d a b => Sys2Proof.Machine.execBfi d a b s
  | .sel d a b c => Sys2Proof.Machine.execSel d a b c s
  | .cmpEq d a b => Sys2Proof.Machine.execCmpEq d a b s
  | .cmpNe d a b => Sys2Proof.Machine.execCmpNe d a b s
  | .cmpLt d a b => Sys2Proof.Machine.execCmpLt d a b s
  | .cmpGe d a b => Sys2Proof.Machine.execCmpGe d a b s
  | .cmpLtu d a b => Sys2Proof.Machine.execCmpLtu d a b s
  | .cmpGeu d a b => Sys2Proof.Machine.execCmpGeu d a b s
  | .pand d a b => Sys2Proof.Machine.execPand d a b s
  | .por d a b => Sys2Proof.Machine.execPor d a b s
  | .pnot d a => Sys2Proof.Machine.execPnot d a s
  | .addi d a imm => Sys2Proof.Machine.execAddi d a imm s
  | .andi d a imm => Sys2Proof.Machine.execAndi d a imm s
  | .ori d a imm => Sys2Proof.Machine.execOri d a imm s
  | .xori d a imm => Sys2Proof.Machine.execXori d a imm s
  | .shli d a sh => Sys2Proof.Machine.execShli d a sh s
  | .shri d a sh => Sys2Proof.Machine.execShri d a sh s
  | .srai d a sh => Sys2Proof.Machine.execSrai d a sh s
  | .li d imm => Sys2Proof.Machine.execLi d imm s
  | .lih d imm => Sys2Proof.Machine.execLih d imm s
  | .cmpiEq d a imm => Sys2Proof.Machine.execCmpiEq d a imm s
  | .cmpiNe d a imm => Sys2Proof.Machine.execCmpiNe d a imm s
  | .cmpiLt d a imm => Sys2Proof.Machine.execCmpiLt d a imm s
  | .cmpiGe d a imm => Sys2Proof.Machine.execCmpiGe d a imm s
  | .cmpiLtu d a imm => Sys2Proof.Machine.execCmpiLtu d a imm s
  | .cmpiGeu d a imm => Sys2Proof.Machine.execCmpiGeu d a imm s
  | .tree t1 t2 t3 t4 n => Sys2Proof.Machine.execTree t1 t2 t3 t4 n s
  | .tgt leaf off => Sys2Proof.Machine.execTgt leaf off s
  | .jmp off => Sys2Proof.Machine.execJmp off s
  | .call off => Sys2Proof.Machine.execCall off s
  | .loop d imm => Sys2Proof.Machine.execLoop d imm s
  | .sloop d q imm => Sys2Proof.Machine.execSloop d q imm s
  | .ret => Sys2Proof.Machine.execRet s
  | .endTask => Sys2Proof.Machine.execEndTask s
  | .yield => Sys2Proof.Machine.execYield s
  | .rdv n => Sys2Proof.Machine.execRdv n s
  | .segb => Sys2Proof.Machine.execSegb s
  | .sege => Sys2Proof.Machine.execSege s
  | .brk n => Sys2Proof.Machine.execBrk n s
  | .ldb t base off => Sys2Proof.Machine.execLdb t base off s
  | .ldbz t base off => Sys2Proof.Machine.execLdbz t base off s
  | .ldh t base off => Sys2Proof.Machine.execLdh t base off s
  | .ldhz t base off => Sys2Proof.Machine.execLdhz t base off s
  | .ldw t base off => Sys2Proof.Machine.execLdw t base off s
  | .ldwz t base off => Sys2Proof.Machine.execLdwz t base off s
  | .ldd t base off => Sys2Proof.Machine.execLdd t base off s
  | .stb t base off => Sys2Proof.Machine.execStb t base off s
  | .sth t base off => Sys2Proof.Machine.execSth t base off s
  | .stw t base off => Sys2Proof.Machine.execStw t base off s
  | .std t base off => Sys2Proof.Machine.execStd t base off s
  | .spl t base off ma => Sys2Proof.Machine.execSpl t base off ma s
  | .sps t base off ma => Sys2Proof.Machine.execSps t base off ma s
  | .vldp t base tag off ma => Sys2Proof.Machine.execVldp t base tag off ma s
  | .vstp t base off ma => Sys2Proof.Machine.execVstp t base off ma s
  | .vld t base tag off => Sys2Proof.Machine.execVld t base tag off s
  | .vst t base off => Sys2Proof.Machine.execVst t base off s
  | .vlds t base st tag => Sys2Proof.Machine.execVlds t base st tag s
  | .vsts t base st => Sys2Proof.Machine.execVsts t base st s
  | .sld t base tag off => Sys2Proof.Machine.execSld t base tag off s
  | .trans d a b => Sys2Proof.Machine.execTrans d a b s
  | .pref a b => Sys2Proof.Machine.execPref a b s
  | .fence => Sys2Proof.Machine.execFence s
  | .amoadd d a b => Sys2Proof.Machine.execAmoadd d a b s
  | .amomin d a b => Sys2Proof.Machine.execAmomin d a b s
  | .amomax d a b => Sys2Proof.Machine.execAmomax d a b s
  | .amominu d a b => Sys2Proof.Machine.execAmominu d a b s
  | .amoand d a b => Sys2Proof.Machine.execAmoand d a b s
  | .amoor d a b => Sys2Proof.Machine.execAmoor d a b s
  | .amoxor d a b => Sys2Proof.Machine.execAmoxor d a b s
  | .amoswp d a b => Sys2Proof.Machine.execAmoswp d a b s
  | .amoaddW d a b => Sys2Proof.Machine.execAmoaddW d a b s
  | .amominW d a b => Sys2Proof.Machine.execAmominW d a b s
  | .amomaxW d a b => Sys2Proof.Machine.execAmomaxW d a b s
  | .amominuW d a b => Sys2Proof.Machine.execAmominuW d a b s
  | .amoandW d a b => Sys2Proof.Machine.execAmoandW d a b s
  | .amoorW d a b => Sys2Proof.Machine.execAmoorW d a b s
  | .amoxorW d a b => Sys2Proof.Machine.execAmoxorW d a b s
  | .amoswpW d a b => Sys2Proof.Machine.execAmoswpW d a b s
  | .amocas d a b => Sys2Proof.Machine.execAmocas d a b s
  | .amocasW d a b => Sys2Proof.Machine.execAmocasW d a b s
  | .redAdd a b => Sys2Proof.Machine.execRedAdd a b s
  | .redMin a b => Sys2Proof.Machine.execRedMin a b s
  | .redMax a b => Sys2Proof.Machine.execRedMax a b s
  | .redFadd a b => Sys2Proof.Machine.execRedFadd a b s
  | .tspawn a => Sys2Proof.Machine.execTspawn a s
  | .tdec a => Sys2Proof.Machine.execTdec a s
  | .tadd a b => Sys2Proof.Machine.execTadd a b s
  | .ntr => Sys2Proof.Machine.execNtr s
  | .barr h => Sys2Proof.Machine.execBarr h s
  | .bwait h => Sys2Proof.Machine.execBwait h s
  | .barw h => Sys2Proof.Machine.execBarw h s
  | .qput q b => Sys2Proof.Machine.execQput q b s
  | .qget d q => Sys2Proof.Machine.execQget d q s
  | .qeos q => Sys2Proof.Machine.execQeos q s
  | .vfput d b => Sys2Proof.Machine.execVfput d b s
  | .vfget d => Sys2Proof.Machine.execVfget d s
  | .tlw e a => Sys2Proof.Machine.execTlw e a s
  | .tlr d e => Sys2Proof.Machine.execTlr d e s
  | .txb => Sys2Proof.Machine.execTxb s
  | .txc d => Sys2Proof.Machine.execTxc d s
  | .txa => Sys2Proof.Machine.execTxa s
  | .snap d drain => Sys2Proof.Machine.execSnap d drain s
  | .snaprel a => Sys2Proof.Machine.execSnaprel a s
  | .snapsel a => Sys2Proof.Machine.execSnapsel a s
  | .vadd d a b k => Sys2Proof.Machine.execVadd d a b k s
  | .vsub d a b k => Sys2Proof.Machine.execVsub d a b k s
  | .vmul d a b k => Sys2Proof.Machine.execVmul d a b k s
  | .vfma d a b k => Sys2Proof.Machine.execVfma d a b k s
  | .vfms d a b k => Sys2Proof.Machine.execVfms d a b k s
  | .vmin d a b k => Sys2Proof.Machine.execVmin d a b k s
  | .vmax d a b k => Sys2Proof.Machine.execVmax d a b k s
  | .vneg d a k => Sys2Proof.Machine.execVneg d a k s
  | .vabs d a k => Sys2Proof.Machine.execVabs d a k s
  | .vrcp d a k => Sys2Proof.Machine.execVrcp d a k s
  | .vrsq d a k => Sys2Proof.Machine.execVrsq d a k s
  | .vsqrt d a k => Sys2Proof.Machine.execVsqrt d a k s
  | .vexp d a k => Sys2Proof.Machine.execVexp d a k s
  | .vlog d a k => Sys2Proof.Machine.execVlog d a k s
  | .vtanh d a k => Sys2Proof.Machine.execVtanh d a k s
  | .vclass d a k => Sys2Proof.Machine.execVclass d a k s
  | .vnot d a k => Sys2Proof.Machine.execVnot d a k s
  | .vredsum d a k => Sys2Proof.Machine.execVredsum d a k s
  | .vredmax d a k => Sys2Proof.Machine.execVredmax d a k s
  | .vredmin d a k => Sys2Proof.Machine.execVredmin d a k s
  | .vredarg d a k => Sys2Proof.Machine.execVredarg d a k s
  | .vscan d a k => Sys2Proof.Machine.execVscan d a k s
  | .vmovs d a k => Sys2Proof.Machine.execVmovs d a k s
  | .vhash d a k => Sys2Proof.Machine.execVhash d a k s
  | .viadd d a b k => Sys2Proof.Machine.execViadd d a b k s
  | .visub d a b k => Sys2Proof.Machine.execVisub d a b k s
  | .vimul d a b k => Sys2Proof.Machine.execVimul d a b k s
  | .vimad d a b k => Sys2Proof.Machine.execVimad d a b k s
  | .vimin d a b k => Sys2Proof.Machine.execVimin d a b k s
  | .vimax d a b k => Sys2Proof.Machine.execVimax d a b k s
  | .vshl d a b k => Sys2Proof.Machine.execVshl d a b k s
  | .vshr d a b k => Sys2Proof.Machine.execVshr d a b k s
  | .vsra d a b k => Sys2Proof.Machine.execVsra d a b k s
  | .vand d a b k => Sys2Proof.Machine.execVand d a b k s
  | .vor d a b k => Sys2Proof.Machine.execVor d a b k s
  | .vxor d a b k => Sys2Proof.Machine.execVxor d a b k s
  | .vcmpEq kd a b k => Sys2Proof.Machine.execVcmpEq kd a b k s
  | .vcmpNe kd a b k => Sys2Proof.Machine.execVcmpNe kd a b k s
  | .vcmpLt kd a b k => Sys2Proof.Machine.execVcmpLt kd a b k s
  | .vcmpLe kd a b k => Sys2Proof.Machine.execVcmpLe kd a b k s
  | .vcmpGt kd a b k => Sys2Proof.Machine.execVcmpGt kd a b k s
  | .vcmpGe kd a b k => Sys2Proof.Machine.execVcmpGe kd a b k s
  | .vcmpUn kd a b k => Sys2Proof.Machine.execVcmpUn kd a b k s
  | .vsel d a b k => Sys2Proof.Machine.execVsel d a b k s
  | .vcvt d a u k => Sys2Proof.Machine.execVcvt d a u k s
  | .vqnt d a u => Sys2Proof.Machine.execVqnt d a u s
  | .vdqnt d a b => Sys2Proof.Machine.execVdqnt d a b s
  | .vpackts d a b k => Sys2Proof.Machine.execVpackts d a b k s
  | .vshuf d a b k => Sys2Proof.Machine.execVshuf d a b k s
  | .vrot d a n => Sys2Proof.Machine.execVrot d a n s
  | .vslide d a b => Sys2Proof.Machine.execVslide d a b s
  | .vbcast d a => Sys2Proof.Machine.execVbcast d a s
  | .vins d a n => Sys2Proof.Machine.execVins d a n s
  | .vext d a n => Sys2Proof.Machine.execVext d a n s
  | .vgather d a b k => Sys2Proof.Machine.execVgather d a b k s
  | .vscat d a b k => Sys2Proof.Machine.execVscat d a b k s
  | .vdot d a b k => Sys2Proof.Machine.execVdot d a b k s
  | .kand d a b => Sys2Proof.Machine.execKand d a b s
  | .kor d a b => Sys2Proof.Machine.execKor d a b s
  | .knot d a => Sys2Proof.Machine.execKnot d a s
  | .kpop d a => Sys2Proof.Machine.execKpop d a s
  | .mcallMm acc sa sb => Sys2Proof.Machine.execMcallMm acc sa sb s
  | .mcallAccout acc sa => Sys2Proof.Machine.execMcallAccout acc sa s
  | .mcallAccld acc sa => Sys2Proof.Machine.execMcallAccld acc sa s
  | .mcallAccadd acc sa => Sys2Proof.Machine.execMcallAccadd acc sa s
  | .mcallTransp sa sb => Sys2Proof.Machine.execMcallTransp sa sb s
  | .mpar d a => Sys2Proof.Machine.execMpar d a s
  | .oclm o => Sys2Proof.Machine.execOclm o s
  | .orel o => Sys2Proof.Machine.execOrel o s
  | .old o a tag => Sys2Proof.Machine.execOld o a tag s
  | .ost o a => Sys2Proof.Machine.execOst o a s
  | .macz acc => Sys2Proof.Machine.execMacz acc s
  | .mlim a => Sys2Proof.Machine.execMlim a s
  | .mupld a => Sys2Proof.Machine.execMupld a s
  | .eset eng r a => Sys2Proof.Machine.execEset eng r a s
  | .egoCopyMove d e => Sys2Proof.Machine.execEgoCopyMove d e s
  | .egoCopyFill d e => Sys2Proof.Machine.execEgoCopyFill d e s
  | .egoCopyMove2d d e => Sys2Proof.Machine.execEgoCopyMove2d d e s
  | .egoGatherGath d e => Sys2Proof.Machine.execEgoGatherGath d e s
  | .egoGatherScat d e => Sys2Proof.Machine.execEgoGatherScat d e s
  | .egoHashSha384 d e => Sys2Proof.Machine.execEgoHashSha384 d e s
  | .egoCryptoSeal d e => Sys2Proof.Machine.execEgoCryptoSeal d e s
  | .egoCryptoOpen d e => Sys2Proof.Machine.execEgoCryptoOpen d e s
  | .egoCollBcast d e => Sys2Proof.Machine.execEgoCollBcast d e s
  | .egoCollSumf d e => Sys2Proof.Machine.execEgoCollSumf d e s
  | .egoCollSumi d e => Sys2Proof.Machine.execEgoCollSumi d e s
  | .egoNetPart d e => Sys2Proof.Machine.execEgoNetPart d e s
  | .egoNetReply d e => Sys2Proof.Machine.execEgoNetReply d e s
  | .edep e a => Sys2Proof.Machine.execEdep e a s
  | .ebar e a => Sys2Proof.Machine.execEbar e a s
  | .ecan e a => Sys2Proof.Machine.execEcan e a s
  | .csrr d csr => Sys2Proof.Machine.execCsrr d csr s
  | .csrw d csr => Sys2Proof.Machine.execCsrw d csr s
  | .csrs d csr => Sys2Proof.Machine.execCsrs d csr s
  | .csrc d csr => Sys2Proof.Machine.execCsrc d csr s
  | .trap n => Sys2Proof.Machine.execTrap n s
  | .tret => Sys2Proof.Machine.execTret s
  | .wfe => Sys2Proof.Machine.execWfe s
  | .halt => Sys2Proof.Machine.execHalt s
  | .wide imm => Sys2Proof.Machine.execWide imm s
  | .taskTake agent => Sys2Proof.Machine.execTaskTake agent s
  | .contextUnblock agent => Sys2Proof.Machine.execContextUnblock agent s
  | .taskPublicationComplete blk => Sys2Proof.Machine.execTaskPublicationComplete blk s
  | .deferredEnqueue cluster => Sys2Proof.Machine.execDeferredEnqueue cluster s
  | .rqfullTimeout blk => Sys2Proof.Machine.execRqfullTimeout blk s
  | .ntRotation agent => Sys2Proof.Machine.execNtRotation agent s
  | .queueEnlarge blk => Sys2Proof.Machine.execQueueEnlarge blk s
  | .serviceDatagramReceive g => Sys2Proof.Machine.execServiceDatagramReceive g s
  | .segmentVerify => Sys2Proof.Machine.execSegmentVerify s
  | .recordAbandon blk slot => Sys2Proof.Machine.execRecordAbandon blk slot s
  | .harbourmasterPick => Sys2Proof.Machine.execHarbourmasterPick s
  | .candidateHeld blk => Sys2Proof.Machine.execCandidateHeld blk s
  | .recallGraceExpiry blk => Sys2Proof.Machine.execRecallGraceExpiry blk s
  | .entryTaskEnqueue blk => Sys2Proof.Machine.execEntryTaskEnqueue blk s
  | .bindingRecordTimeout blk => Sys2Proof.Machine.execBindingRecordTimeout blk s
  | .bindingEnd blk => Sys2Proof.Machine.execBindingEnd blk s
  | .preemptionComplete blk => Sys2Proof.Machine.execPreemptionComplete blk s
  | .preemptionTimeout blk => Sys2Proof.Machine.execPreemptionTimeout blk s
  | .pilotFetchComplete blk va res => Sys2Proof.Machine.execPilotFetchComplete blk va res s
  | .firmwareLeafAnswer blk va leaf => Sys2Proof.Machine.execFirmwareLeafAnswer blk va leaf s
  | .shootdownAck blk => Sys2Proof.Machine.execShootdownAck blk s
  | .shootdownTimeout blk => Sys2Proof.Machine.execShootdownTimeout blk s
  | .qqfsWrite v => Sys2Proof.Machine.execQqfsWrite v s
  | .quarantineRelease => Sys2Proof.Machine.execQuarantineRelease s
  | .quarantineHeadTimeout => Sys2Proof.Machine.execQuarantineHeadTimeout s
  | .pendingClearDone page => Sys2Proof.Machine.execPendingClearDone page s
  | .poolPageZeroed core page => Sys2Proof.Machine.execPoolPageZeroed core page s
  | .calswWrite hbm v => Sys2Proof.Machine.execCalswWrite hbm v s
  | .calendarExchange hbm => Sys2Proof.Machine.execCalendarExchange hbm s
  | .channelSlotStart hbm pch slot => Sys2Proof.Machine.execChannelSlotStart hbm pch slot s
  | .forcedRefreshEnd hbm pch => Sys2Proof.Machine.execForcedRefreshEnd hbm pch s
  | .hotRowWindowEnd hbm => Sys2Proof.Machine.execHotRowWindowEnd hbm s
  | .highRangeEntry hbm => Sys2Proof.Machine.execHighRangeEntry hbm s
  | .sldReturn agent => Sys2Proof.Machine.execSldReturn agent s
  | .stampRaise => Sys2Proof.Machine.execStampRaise s
  | .dredgeReclaim line => Sys2Proof.Machine.execDredgeReclaim line s
  | .snapReturn agent => Sys2Proof.Machine.execSnapReturn agent s
  | .drainCommit blk m => Sys2Proof.Machine.execDrainCommit blk m s
  | .drainFail blk why => Sys2Proof.Machine.execDrainFail blk why s
  | .engineOpComplete agent e => Sys2Proof.Machine.execEngineOpComplete agent e s
  | .engineFault agent e cause => Sys2Proof.Machine.execEngineFault agent e cause s
  | .kDeliveryTaskStart blk => Sys2Proof.Machine.execKDeliveryTaskStart blk s
  | .kDeliveryTimeout blk => Sys2Proof.Machine.execKDeliveryTimeout blk s
  | .replyCounterExhausted rkid => Sys2Proof.Machine.execReplyCounterExhausted rkid s
  | .matrixEntryStart core path => Sys2Proof.Machine.execMatrixEntryStart core path s
  | .matrixEntryComplete core path => Sys2Proof.Machine.execMatrixEntryComplete core path s
  | .lockstepCompare agent same synd => Sys2Proof.Machine.execLockstepCompare agent same synd s
  | .rewindReissue agent => Sys2Proof.Machine.execRewindReissue agent s
  | .eccErrorDetect e => Sys2Proof.Machine.execEccErrorDetect e s
  | .patrolRead line bad => Sys2Proof.Machine.execPatrolRead line bad s
  | .errorRecordTake => Sys2Proof.Machine.execErrorRecordTake s
  | .stackResetComplete stack => Sys2Proof.Machine.execStackResetComplete stack s
  | .railFault => Sys2Proof.Machine.execRailFault s
  | .thermalTrip => Sys2Proof.Machine.execThermalTrip s
  | .watchdogReset => Sys2Proof.Machine.execWatchdogReset s
  | .powerOn => Sys2Proof.Machine.execPowerOn s
  | .rstNReset => Sys2Proof.Machine.execRstNReset s
  | .pcieReset => Sys2Proof.Machine.execPcieReset s
  | .standby => Sys2Proof.Machine.execStandby s
  | .currentCeilingWrite core v => Sys2Proof.Machine.execCurrentCeilingWrite core v s
  | .ugreqWrite w v => Sys2Proof.Machine.execUgreqWrite w v s
  | .upperGateApply cell => Sys2Proof.Machine.execUpperGateApply cell s
  | .upperUngateComplete cell => Sys2Proof.Machine.execUpperUngateComplete cell s
  | .coffWrite w v => Sys2Proof.Machine.execCoffWrite w v s
  | .faqpopRead => Sys2Proof.Machine.execFaqpopRead s
  | .bpaddWrite v => Sys2Proof.Machine.execBpaddWrite v s
  | .pageRetirement gran fresh => Sys2Proof.Machine.execPageRetirement gran fresh s
  | .vheapParkRelease blk => Sys2Proof.Machine.execVheapParkRelease blk s
  | .doorbellWrite fn q wptr => Sys2Proof.Machine.execDoorbellWrite fn q wptr s
  | .registerWrite off v => Sys2Proof.Machine.execRegisterWrite off v s
  | .cmdNop c => Sys2Proof.Machine.execCmdNop c s
  | .indirect c => Sys2Proof.Machine.execIndirect c s
  | .signal c => Sys2Proof.Machine.execSignal c s
  | .wait c => Sys2Proof.Machine.execWait c s
  | .waitSatisfied q => Sys2Proof.Machine.execWaitSatisfied q s
  | .waitTimeout q => Sys2Proof.Machine.execWaitTimeout q s
  | .cbCreate c => Sys2Proof.Machine.execCbCreate c s
  | .cbWrite c => Sys2Proof.Machine.execCbWrite c s
  | .cbRead c => Sys2Proof.Machine.execCbRead c s
  | .cbSuspend c => Sys2Proof.Machine.execCbSuspend c s
  | .cbResume c => Sys2Proof.Machine.execCbResume c s
  | .cbKill c => Sys2Proof.Machine.execCbKill c s
  | .cbRelease c => Sys2Proof.Machine.execCbRelease c s
  | .cbReleaseComplete blk => Sys2Proof.Machine.execCbReleaseComplete blk s
  | .cbMigrate c => Sys2Proof.Machine.execCbMigrate c s
  | .event c => Sys2Proof.Machine.execEvent c s
  | .imgInstall c => Sys2Proof.Machine.execImgInstall c s
  | .imgRetire c => Sys2Proof.Machine.execImgRetire c s
  | .hashSet c => Sys2Proof.Machine.execHashSet c s
  | .resvWrite c => Sys2Proof.Machine.execResvWrite c s
  | .policyRgrace c => Sys2Proof.Machine.execPolicyRgrace c s
  | .policyWclk c => Sys2Proof.Machine.execPolicyWclk c s
  | .shootdown c => Sys2Proof.Machine.execShootdown c s
  | .devsnapTake c => Sys2Proof.Machine.execDevsnapTake c s
  | .devsnapRelease c => Sys2Proof.Machine.execDevsnapRelease c s
  | .checkpoint c => Sys2Proof.Machine.execCheckpoint c s
  | .meterRead c => Sys2Proof.Machine.execMeterRead c s
  | .meterReport c => Sys2Proof.Machine.execMeterReport c s
  | .diagRead c => Sys2Proof.Machine.execDiagRead c s
  | .ownerClaim c => Sys2Proof.Machine.execOwnerClaim c s
  | .ownerHandover c => Sys2Proof.Machine.execOwnerHandover c s
  | .ownerAccept c => Sys2Proof.Machine.execOwnerAccept c s
  | .handoverLapse => Sys2Proof.Machine.execHandoverLapse s
  | .ownerChannelLost => Sys2Proof.Machine.execOwnerChannelLost s
  | .fwStage c => Sys2Proof.Machine.execFwStage c s
  | .fwActivate c => Sys2Proof.Machine.execFwActivate c s
  | .firstBeacon fn => Sys2Proof.Machine.execFirstBeacon fn s
  | .fwActivateTimeout fn => Sys2Proof.Machine.execFwActivateTimeout fn s
  | .firmwareSilent fn => Sys2Proof.Machine.execFirmwareSilent fn s
  | .mailboxFullTimeout src dst => Sys2Proof.Machine.execMailboxFullTimeout src dst s
  | .regRead c => Sys2Proof.Machine.execRegRead c s
  | .regWrite c => Sys2Proof.Machine.execRegWrite c s
  | .aclWrite c => Sys2Proof.Machine.execAclWrite c s
  | .sysLaunch c => Sys2Proof.Machine.execSysLaunch c s
  | .launch c => Sys2Proof.Machine.execLaunch c s
  | .gangLaunch c => Sys2Proof.Machine.execGangLaunch c s
  | .ringOverrunTimeout q => Sys2Proof.Machine.execRingOverrunTimeout q s
  | .hostAccessFail q kind => Sys2Proof.Machine.execHostAccessFail q kind s
  | .atsInvalidation pasid => Sys2Proof.Machine.execAtsInvalidation pasid s
  | .functionLevelReset fn => Sys2Proof.Machine.execFunctionLevelReset fn s
  | .getVersion r => Sys2Proof.Machine.execGetVersion r s
  | .getCapabilities r => Sys2Proof.Machine.execGetCapabilities r s
  | .negotiateAlgorithms r => Sys2Proof.Machine.execNegotiateAlgorithms r s
  | .getDigests r => Sys2Proof.Machine.execGetDigests r s
  | .getCertificate r => Sys2Proof.Machine.execGetCertificate r s
  | .challenge r => Sys2Proof.Machine.execChallenge r s
  | .getMeasurements r => Sys2Proof.Machine.execGetMeasurements r s
  | .deviceNumbering devno routes => Sys2Proof.Machine.execDeviceNumbering devno routes s
  | .linkTraining port => Sys2Proof.Machine.execLinkTraining port s
  | .flitError port => Sys2Proof.Machine.execFlitError port s
  | .linkDown port => Sys2Proof.Machine.execLinkDown port s
  | .remoteAccessReceive r => Sys2Proof.Machine.execRemoteAccessReceive r s
  | .remoteAccessTimeout agent => Sys2Proof.Machine.execRemoteAccessTimeout agent s
  | .launchPacketReceive l => Sys2Proof.Machine.execLaunchPacketReceive l s
  | .launchReplyReceive id payload final refused => Sys2Proof.Machine.execLaunchReplyReceive id payload final refused s
  | .gangAckReceive id dev => Sys2Proof.Machine.execGangAckReceive id dev s
  | .gangConfirmReceive blk => Sys2Proof.Machine.execGangConfirmReceive blk s
  | .gangAckTimeout id => Sys2Proof.Machine.execGangAckTimeout id s
  | .gangAbortReceive blk origin => Sys2Proof.Machine.execGangAbortReceive blk origin s
  | .gangMemberTimeout blk => Sys2Proof.Machine.execGangMemberTimeout blk s
  | .migrationCutover blk dst => Sys2Proof.Machine.execMigrationCutover blk dst s
  | .migrationAckTimeout blk => Sys2Proof.Machine.execMigrationAckTimeout blk s
  | .buoyExpiry blk => Sys2Proof.Machine.execBuoyExpiry blk s
  | .freezeCycle core => Sys2Proof.Machine.execFreezeCycle core s
  | .illegalEncoding agent => Sys2Proof.Machine.execIllegalEncoding agent s
  | .instructionFetchFault agent => Sys2Proof.Machine.execInstructionFetchFault agent s
  | .beaconRaise fn => Sys2Proof.Machine.execBeaconRaise fn s
  | .keyLoad kid key ctr => Sys2Proof.Machine.execKeyLoad kid key ctr s
  | .fuseChange cfg => Sys2Proof.Machine.execFuseChange cfg s
  | .highRangeExit hbm => Sys2Proof.Machine.execHighRangeExit hbm s
  | .ethernetLinkChange port up => Sys2Proof.Machine.execEthernetLinkChange port up s
  | .migrationAbort blk => Sys2Proof.Machine.execMigrationAbort blk s
  | .migrationCopyReceive m => Sys2Proof.Machine.execMigrationCopyReceive m s
  | .cutoverConfirmReceive blk => Sys2Proof.Machine.execCutoverConfirmReceive blk s
  | .unconfirmedCopyDrop blk => Sys2Proof.Machine.execUnconfirmedCopyDrop blk s
  | .firmwareMemoryWrite agent pa bytes => Sys2Proof.Machine.execFirmwareMemoryWrite agent pa bytes s
  | .weightSramPlacement page size mask => Sys2Proof.Machine.execWeightSramPlacement page size mask s

end Sys2Proof.Machine
end

