-- ==== Sys2Proof/Machine/Acts.lean ====
section
/-! DEFINITION. The acts of the firmware, of the host and of other devices that are no rows of the opcode table (R322, R343,
R347, R348, R362, R373, R418, R452, R465, R469, R471, R474, R476), as the agenda orders them. -/

namespace Sys2Proof.Machine

/-- The peers' access-control entries for a block that a buoy stands for rewritten (R347): once the buoy, which forwards in
arrival order, has forwarded everything it received from the peer. -/
def Device.moveAcl (d : Device) (key peer : Nat) : Option Device := do
  let u ← d.buoy key
  let v : Buoy := { u with rewritten := u.rewritten ++ [peer] }
  guardOpt (decide (peer < 512) && !u.rewritten.contains peer && d.carries 5)
    ((d.updOut fun o => { o with buoys := mset o.buoys key v }).send (.aclMoved peer (key / 256) u.dev u.blk))

/-- Whether the PCIe endpoint answers configuration requests (R378, R474): with Request Retry Status until firmware core 0
has raised its first beacon. -/
def Device.configures (d : Device) : Bool := d.out.pcie.link && d.out.bootOk && (d.fw 0).up

/-- An MSI-X vector written (R348): one that is no longer masked sends what was pending. -/
def Device.setVector (d : Device) (fn vec : Nat) (v : Vector) : Device :=
  let k := 2048 * fn + vec
  let was := (mget {} d.out.pcie.vectors k).pending
  let d1 := d.updPcie fun p => { p with vectors := mset p.vectors k { v with pending := was && v.masked } }
  if was && !v.masked then d1.send (.msix fn vec v.addr v.data) else d1

/-- A line moved from HBM into its home slice, or written back out of it, on a tenant's behalf (R79, R343), by a request
that arrived at a cycle and takes a slot of its channel (R108). The cycles that hot-row spacing held it are the tenant's
charge unless it is a write-back (R451, R452). -/
def Device.traffic (d : Device) (tenant line arrived : Nat) (fill : Bool) : Option Device :=
  let sl := homeSlice line
  let lines := mget [] d.l2 sl
  let fits := if fill then !d.inL2 line && decide (lines.length < sliceLines) else d.inL2 line
  let next := if fill then line :: lines else lines.filter (· != line)
  if decide (tenant < 4096 ∧ arrived ≤ d.cycle) && fits then
    (({ d with l2 := mput [] d.l2 sl next } : Device).access line).map fun x => x.updMeter tenant fun m =>
      { m with mbyt := m.mbyt + 64, thr := if fill then m.thr + word (d.heldCycles line arrived) else m.thr }
  else none

/-- What an act does to the device, or that the state does not admit it. -/
def Device.act (d : Device) : Act → Option Device
  | .send src dst m => d.sendMail src dst m
  | .read dst src => d.readMail dst src
  | .write f w => d.tableWrite f w
  | .ethPort port p => guardOpt (d.carries 5) (d.updOut fun o => { o with eth := mset o.eth port.toNat p })
  | .aclMoved key peer => d.moveAcl key peer
  | .sense x => some (d.updOut fun o => { o with sensors := x })
  | .enableVfs n => guardOpt (decide (n ≤ 255) && d.configures && d.owner.isSome) (d.updPcie fun p => { p with vfs := n })
  | .vector fn vec a v m =>
    guardOpt (decide (vec < 2048) && d.configures && d.out.pcie.has fn)
      (d.setVector fn vec { addr := a, data := v, masked := m })
  | .translated fn pasid page a =>
    guardOpt (decide (pasid < 2 ^ 20) && d.out.pcie.has fn) (d.updPcie fun p => { p with atc := (fn, pasid, page, a) :: p.atc })
  | .pcieLink up => some (d.updPcie fun p => if up then { p with link := true } else { p with link := false })
  | .traffic ten line arrived fill => d.traffic ten line arrived fill
  | .askConfirm b => d.askConfirm b
  | .ackAsked dev src b => d.ackAsked dev src b
  | .confirmAsked dev src b => d.confirmAsked dev src b
  | .shootAsked dev src b va n => guardOpt (decide (b < 32768 ∧ va < 2 ^ 57)) (d.farShootdown dev src b va n)
  | .shootAcked _ _ => none
  | .ownerReset => some (d.updPcie fun p => { p with reset0 := true })
  | .mgmtResponse a => guardOpt (a == 1 || a == 3) (d.updOut fun o => { o with mgmtLast := mset o.mgmtLast a d.cycle })
  | .flitPassed port => some (d.updOut fun o => { o with flitTries := mdel o.flitTries port })
  | .dropCopy dev src b => d.dropCopy dev src b
  | .handoverLost => guardOpt (d.out.owner.getLsbD 7 && d.channelLost (bits d.out.owner 5 4)) (d.setOwner (setBits d.out.owner 7 7 0))
  | .stackFailure stack => guardOpt (decide (stack < 4)) (d.stackFailure stack)
  | .storesFailed b => guardOpt (decide (b < 32768) && d.mstate b != sFree) (d.undelivered (some b))
  | .udsLost => some { d with flash := { d.flash with udsBad := true } }

/-- What an act does, or that the state does not admit it. -/
def State.act (s : State) (a : Act) : Option State :=
  match a with
  | .shootAcked src st => s.shootAcked src st
  | a => (s.dev.act a).map fun d => { s with dev := d }

end Sys2Proof.Machine
end

