-- ==== Sys2Proof/Machine/Turn.lean ====
section
/-! DEFINITION. What a step does (log entry 2): the turn the agenda names, or the issue of the core at focus; and the
placing of an instruction where the next step fetches it. -/

namespace Sys2Proof.Machine

/-- The events that act while the device is without power or held in reset (R375 to R378, R419). -/
def actsUnpowered : Instr → Bool
  | .powerOn => true
  | .standby => true
  | .rstNReset => true
  | _ => false

/-- The events that a device whose boot has failed does not have (R474): those of the firmware functions that it does not
start, and direct accesses to registers, for which only commands of the recovery console are left. -/
def needsBoot : Instr → Bool
  | .errorRecordTake => true
  | .firmwareLeafAnswer _ _ _ => true
  | .pageRetirement _ _ => true
  | .weightSramPlacement _ _ _ => true
  | .currentCeilingWrite _ _ => true
  | .qqfsWrite _ => true
  | .calswWrite _ _ => true
  | .ugreqWrite _ _ => true
  | .coffWrite _ _ => true
  | .faqpopRead => true
  | .bpaddWrite _ => true
  | .registerWrite _ _ => true
  | .doorbellWrite _ _ _ => true
  | .deviceNumbering _ _ => true
  | .drainCommit _ _ => true
  | .migrationCopyReceive _ => true
  | .firmwareMemoryWrite a _ _ => a != 0x0914
  | _ => false

/-- The command of an event that is one. -/
def commandOf : Instr → Option Cmd
  | .cmdNop c | .indirect c | .signal c | .wait c | .cbCreate c | .cbWrite c | .cbRead c | .cbSuspend c | .cbResume c
  | .cbKill c | .cbRelease c | .cbMigrate c => some c
  | .event c | .imgInstall c | .imgRetire c | .hashSet c | .resvWrite c | .policyRgrace c | .policyWclk c | .shootdown c
  | .devsnapTake c | .devsnapRelease c | .checkpoint c => some c
  | .meterRead c | .meterReport c | .diagRead c | .ownerClaim c | .ownerHandover c | .ownerAccept c | .fwStage c
  | .fwActivate c | .regRead c | .regWrite c | .aclWrite c | .sysLaunch c | .launch c | .gangLaunch c => some c
  | _ => none

/-- Whether an event of the opcode table can happen now: with power (R375 to R378), of what has been started (R474), and a
command in its turn among the queues (R355). -/
def Device.lets (d : Device) (e : Instr) : Bool :=
  (encode e).isNone && (d.power == .on || actsUnpowered e) && (d.out.bootOk || !needsBoot e) &&
    (match commandOf e with | some c => d.inTurn c.q | none => true)

/-- An event of the opcode table happens. -/
def State.happen (ex : Meaning) (s : State) (e : Instr) : Host.Outcome State Fault Refusal :=
  if s.dev.lets e then ex e s else .next { s with last := .ignored }

/-- The issue of core `c` when nothing is scheduled: an idle cycle passes. -/
def State.issueNext (ex : Meaning) (s : State) (c : Nat) : Host.Outcome State Fault Refusal :=
  if s.dev.power ≠ .on then .fault .heldInReset
  else
    match s.issue ex c with
    | .next t => .next (if t.last = .idle then { t with dev := t.dev.tick } else t)
    | o => o

/-- The next turn. -/
def State.turn (ex : Meaning) (s : State) : Host.Outcome State Fault Refusal :=
  match s.agenda with
  | [] => s.issueNext ex s.focus
  | t :: r =>
    let s1 : State := { s with agenda := r, bundle := none }
    match t with
    | .issue c => if s.dev.power ≠ .on then .fault .heldInReset else s1.issue ex c
    | .event e => s1.happen ex e
    | .command q => if s.dev.power ≠ .on then .next { s1 with last := .ignored } else s1.nextCommand q
    | .packet a h ws => if s.dev.power ≠ .on then .next { s1 with last := .ignored } else s1.channelPacket a h ws
    | .act a => if s.dev.power ≠ .on then .next { s1 with last := .ignored } else s1.event (s1.act a)
    | .engine a e n => .next (s1.engineTurn a e n)
    | .saveCell b l => .next ((s1.saveCell b l).getD { s1 with last := .ignored })
    | .pass n => .next { s1 with dev := s1.dev.pass n, last := .done }

/-! ## Placing an instruction -/

/-- A `TREE` word whose taken leaf is `l` (R218): tests of `p0`, inverted below the leaf. -/
def treeWord (l : Nat) : Word32 :=
  let t (j : Nat) : Nat := if j < l then 8 else 0
  BitVec.ofNat 32 (0x28 * 2 ^ 21 + t 1 * 2 ^ 17 + t 2 * 2 ^ 13 + t 3 * 2 ^ 9 + t 4 * 2 ^ 5 + 4 * 2 ^ 2)

/-- The bundle that holds word `w` with what it needs beside it (R175, R178, R179): a `TREE` for a tagged word or a
`TGT`, a slot that a `WIDE` extends, and a stop. -/
def bundleWith (w : Word32) : List Word32 :=
  let op := bits w 27 21
  let path := bits w 30 28
  let tree := if path ≠ 0 then [treeWord path] else if op = 0x29 then [treeWord (bits w 20 18)] else []
  let base := if op = 0x7F then [BitVec.ofNat 32 (path * 2 ^ 28 + 0x18 * 2 ^ 21)] else []
  tree ++ base ++ [w] ++ (if w.getLsbD 31 then [] else [0x80000000])

/-- The context that issues next on the core at focus, when it holds a task whose bundle can be fetched from local
memory with room for three slots: where its bundle lies, and the key identifier of its page. -/
def State.fetchPlace (s : State) : Option (Nat × Nat) :=
  let c := s.dev.ctx (s.dev.issuer s.focus)
  match c.task with
  | some t =>
    match findEnt (s.dev.window t.blk) c.regs.pc with
    | some e =>
      if s.agenda.isEmpty && s.dev.power == .on && c.run == .issuing && c.pend.isNone && !c.segOpen && !e.ab && e.x &&
          isLocal (e.pa c.regs.pc) && decide (3 ≤ roomAt c.regs.pc) then some (e.pa c.regs.pc, e.kid.toNat)
      else none
    | none => none
  | none => none

/-- A machine that has a task of block 0 on context 0 of core 1, the upper core of cell 0, about to issue at virtual
address 0x10000, one executable page at physical address 0x10000, with the pool boundaries that a binding has written
(R69). -/
def State.withTask (s : State) : State :=
  let code : WinEnt := { vpn := 1, sz := 0, pfn := 1, ab := false, x := true }
  let bind : Binding := { gbase := 0, win := [code], running := true, bseq := 1 }
  let regs : Regs := { pc := 0x10000, p := 1, k := (List.range 7).map fun j => (j + 1, BitVec.allOnes 64) }
  let task : Task := { blk := 0, restart := { regs := regs } }
  let d := ((s.dev.updCell 0 fun x => { x with held := some 0 }).setBinding 0 bind).updBlock 0 fun b =>
    ((b.set fState sRunning).set fBound 1).set fGbase 0
  let d1 := d.updCore 1 fun k => { k with pb1 := 16, pb2 := 768, pb3 := 768 }
  { s with
    dev := { (d1.setCtx 4 { run := .issuing, regs := regs, task := some task }) with power := .on }
    bundle := none, agenda := [], focus := 1 }

/-- Words placed at a physical address as code under a key. -/
def Device.placeCode (d : Device) (pa kid : Nat) (ws : List Word32) : Device :=
  ((d.rekey (pa / 64) kid).updLine (pa / 64) fun l => { l with poison := false }).poke pa
    (ws.flatMap fun w => toBytes w.toNat 4)

/-- A state with the word `w` where the next step fetches. -/
def State.placeWord (s : State) (w : Word32) : State :=
  match s.fetchPlace with
  | some (pa, kid) => { s with dev := s.dev.placeCode pa kid (bundleWith w), bundle := none }
  | none =>
    let t := s.withTask
    { t with dev := t.dev.placeCode 0x10000 0 (bundleWith w) }

end Sys2Proof.Machine
end

