-- ==== Sys2Proof/Safety.lean ====
section
/-! DEFINITION. What counts as a safe run, in the terms that claims use: that an instruction completes, what it leaves
alone (its frame), and the invariants that every step keeps. -/

namespace Sys2Proof.Safety

open Sys2Proof.Machine

/-- The outcome is a next state that satisfies `P`: neither a fault nor a refusal. -/
def Completes (o : Host.Outcome State Fault Refusal) (P : State → Prop) : Prop := ∃ t, o = .next t ∧ P t

/-- Every byte of memory reads as before. -/
def MemSame (s t : State) : Prop := ∀ a, rdByte t.dev.mem a = rdByte s.dev.mem a

/-- Nothing but the context at hand has changed: every other context, every other part of the device, every byte of
memory, the bundle at hand with the flags it is to raise, and the machine's own fields are as before. -/
def OnlyMe (s t : State) : Prop :=
  (∀ a, a ≠ s.me → t.dev.ctx a = s.dev.ctx a) ∧ { t.dev with ctxs := s.dev.ctxs } = s.dev ∧ MemSame s t ∧
    { t with dev := s.dev } = s

/-- Nothing has changed but scalar `d`, which holds `v`; a write to `s0` is discarded (R189). -/
def WritesScalar (s t : State) (d : BitVec 6) (v : Word) : Prop :=
  OnlyMe s t ∧
  (∀ r : BitVec 6, (t.dev.ctx s.me).regs.sreg r = if r = d ∧ d ≠ 0 then v else (s.dev.ctx s.me).regs.sreg r) ∧
  { t.dev.ctx s.me with regs := { (t.dev.ctx s.me).regs with s := (s.dev.ctx s.me).regs.s } } = s.dev.ctx s.me

/-- Nothing has changed but predicate `d`, which holds `v`; a write to `p0` is discarded (R189). -/
def WritesPred (s t : State) (d : BitVec 3) (v : Bool) : Prop :=
  OnlyMe s t ∧
  (∀ r : BitVec 3, (t.dev.ctx s.me).regs.preg r = if r = d ∧ d ≠ 0 then v else (s.dev.ctx s.me).regs.preg r) ∧
  { t.dev.ctx s.me with regs := { (t.dev.ctx s.me).regs with p := (s.dev.ctx s.me).regs.p } } = s.dev.ctx s.me

/-- Nothing has changed but mask `d`, which holds `v`. -/
def WritesMask (s t : State) (d : BitVec 3) (v : Word) : Prop :=
  OnlyMe s t ∧
  (∀ r : BitVec 3, r ≠ 0 → (t.dev.ctx s.me).regs.kreg r = if r = d then v else (s.dev.ctx s.me).regs.kreg r) ∧
  { t.dev.ctx s.me with regs := { (t.dev.ctx s.me).regs with k := (s.dev.ctx s.me).regs.k } } = s.dev.ctx s.me

/-- Scalar `d` of the context at hand holds `v`, and its other registers (but for vectors) are as before. -/
def ScalarIs (s t : State) (d : BitVec 6) (v : Word) : Prop :=
  (∀ r : BitVec 6, (t.dev.ctx s.me).regs.sreg r = if r = d ∧ d ≠ 0 then v else (s.dev.ctx s.me).regs.sreg r) ∧
  { (t.dev.ctx s.me).regs with s := (s.dev.ctx s.me).regs.s } = (s.dev.ctx s.me).regs

/-- The registers of the context at hand, the program counter and `fcsr` among them, are as before. -/
def RegsSame (s t : State) : Prop := (t.dev.ctx s.me).regs = (s.dev.ctx s.me).regs

/-- The vector registers of the context at hand are as before. -/
def VectorsSame (s t : State) : Prop := (t.dev.ctx s.me).v = (s.dev.ctx s.me).v

/-- Vector register `d` of the context at hand holds `v`, and its other vector registers are as before. -/
def VectorIs (s t : State) (d : BitVec 6) (v : VReg) : Prop :=
  ∀ r : BitVec 6, mget {} (t.dev.ctx s.me).v r.toNat = if r = d then v else mget {} (s.dev.ctx s.me).v r.toNat

/-- A task but for its snapshot stamp, which an access of it sets (R135). -/
def sansStamp (k : Option Task) : Option Task := k.map fun x => { x with snapS := none }

/-- A new stamp `n` follows a stamp `m`: it is above it, or the largest stamp of 64 bits, above which none is left (R5,
R117; that it stays there is the model's choice, log entry 105). -/
def Above (n m : Nat) : Prop := m < n ∨ n = maxStamp

/-- What every instruction that takes a stamp leaves alone (R117): every other context, and of the context at hand all but
its registers, its vectors, its stamp with the snapshot stamp of its task, and the fields `f` gives back. -/
def StampedMe (s t : State) (f : Ctx → Ctx) : Prop :=
  (∀ a, a ≠ s.me → t.dev.ctx a = s.dev.ctx a) ∧
  Above (t.dev.ctx s.me).stamp (s.dev.ctx s.me).stamp ∧
  f { t.dev.ctx s.me with regs := (s.dev.ctx s.me).regs, v := (s.dev.ctx s.me).v, stamp := (s.dev.ctx s.me).stamp,
                            task := sansStamp (t.dev.ctx s.me).task } =
    f { s.dev.ctx s.me with task := sansStamp (s.dev.ctx s.me).task }

/-- What a load leaves alone (R117, R245): every byte of memory, every other context, the bundle, and everything else but
leases, L1 copies, the largest stamp, and of the context at hand its destination and its stamp. -/
def LoadFrame (s t : State) : Prop :=
  MemSame s t ∧ StampedMe s t id ∧ t.bundle = s.bundle ∧
  { t.dev with ctxs := s.dev.ctxs, lines := s.dev.lines, cores := s.dev.cores, top := s.dev.top } = s.dev ∧
  (∀ n, { t.dev.core n with l1 := (s.dev.core n).l1 } = s.dev.core n)

/-- Memory after a store of bytes at `pa` under key identifier `kid` (R84): read under that key, the stored bytes there and
every other byte as before; no byte of another line has changed. -/
def MemStores (s t : State) (kid pa : Nat) (bs : List Byte) : Prop :=
  (∀ a, t.dev.byteUnder kid a = if pa ≤ a ∧ a < pa + bs.length then bs.getD (a - pa) 0 else s.dev.byteUnder kid a) ∧
  ∀ a, a / 64 < pa / 64 ∨ (pa + bs.length - 1) / 64 < a / 64 → rdByte t.dev.mem a = rdByte s.dev.mem a

/-- Memory after a list of buffered stores to local memory (R53, R55, R84): each byte is the one that the newest store of it
holds; the other bytes of a line that a store covers read under the line's new key as before, and no byte of another line
has changed. -/
def MemHolds (s t : State) (ops : List BufOp) : Prop :=
  (∀ o ∈ ops, o.kind.isStore = true ∧ isLocal o.pa = true ∧ isLocal (o.pa + o.kind.len - 1) = true) →
  ∀ a, rdByte t.dev.mem a = (bufByte ops a).getD
    (if (bufLines ops).contains (a / 64) then s.dev.byteUnder (lineKid ops (a / 64)) a else rdByte s.dev.mem a)

/-- Pieces of a translated load that lie in local memory, hold no poison, are not versioned and have no copy in the core's
L1 or its stack's weight SRAM: each byte is the task's own or memory's, under the page's key (R55, R79, R80, R84, R120,
R401). -/
def Plain (s : State) (ps : List Piece) : Prop :=
  ∀ p ∈ ps, p.kind ≠ 1 ∧ isRemote p.pa = false ∧ ∀ i, i < p.n →
    (s.dev.line ((p.pa + i) / 64)).poison = false ∧
    (p.kind = 2 → s.dev.sramByte (stackOfCore (coreOf s.me)) (p.pa + i) = none) ∧
    mfind (s.dev.core (coreOf s.me)).l1 ((p.pa + i) / 64) = none

/-- The bytes that pieces name: the task's own buffered ones, and memory's elsewhere (R55, R84). -/
def plainBytes (s : State) (ps : List Piece) : List Byte :=
  ps.flatMap fun p => (List.range p.n).map fun i =>
    ((s.dev.ctx s.me).ownByte (p.pa + i)).getD (s.dev.byteUnder p.kid (p.pa + i))

/-- The buffered stores that bytes laid over pieces make, in order (R240, R245). -/
def storeOps : List Piece → List Byte → List BufOp
  | [], _ => []
  | p :: r, bs =>
    { va := p.va.toNat, pa := p.pa, kind := .store (bs.take p.n), versioned := p.kind == 1, kid := p.kid } ::
      storeOps r (bs.drop p.n)

/-- Where a task's stores are held: its open span, or its store buffer (R52, R138). -/
def bufferOf (k : Task) : List BufOp := match k.span with | some q => q.buf | none => k.buf

/-- The task with that place replaced. -/
def withBuffer (k : Task) (ops : List BufOp) : Task :=
  match k.span with
  | some q => { k with span := some { q with buf := ops } }
  | none => { k with buf := ops }

/-- The task of the context at hand may be pinned: it has buffered no versioned line outside a transaction (R139). -/
def Pinnable (s : State) : Prop := ∀ k, (s.dev.ctx s.me).task = some k →
  (k.buf.any fun o => o.versioned) = false ∧ heldVersioned (s.dev.ctx s.me).seg.held = false

/-- Nothing but the context and the bundle at hand has changed. -/
def OnlyMine (s t : State) : Prop := OnlyMe s { t with bundle := s.bundle }

/-- The task `k` of the context at hand may end with its bundle (R53, R136, R228, R437): no transaction or segment is open,
no engine fault of the context is unobserved, its micro-context has a trap routine, and its commit passes its checks
whatever stamp it takes. -/
def Commits (s : State) (k : Task) : Prop :=
  (s.dev.ctx s.me).task = some k ∧ s.ctx0.task = some k ∧ k.span = none ∧ s.ctx0.segOpen = false ∧
  (∀ e ∈ (s.dev.ctx s.me).tls, e.2.fault = []) ∧ (s.dev.block k.blk).get fTrapva ≠ 0 ∧
  ∀ e n, ∃ r, (s.updBun fun b => { b with ends := e, compared := true }).standing.commitTask s.me n k = .ok r

/-- Nothing has changed but vector register `d`, and of the bundle at hand the flags it is to raise and its seed (R163,
R165, R177). -/
def OnlyVector (s t : State) (d : BitVec 6) : Prop :=
  (∀ a, a ≠ s.me → t.dev.ctx a = s.dev.ctx a) ∧ { t.dev with ctxs := s.dev.ctxs } = s.dev ∧ MemSame s t ∧
  { t.dev.ctx s.me with v := (s.dev.ctx s.me).v } = s.dev.ctx s.me ∧
  (∀ r : BitVec 6, r ≠ d → mget {} (t.dev.ctx s.me).v r.toNat = mget {} (s.dev.ctx s.me).v r.toNat) ∧
  ∀ b, s.bundle = some b → ∃ b', t.bundle = some b' ∧ { b' with flags := b.flags, seed := b.seed } = b ∧
    b'.flags &&& b.flags = b.flags

/-- Vector register `d` of the context at hand after an instruction. -/
def vnew (s t : State) (d : BitVec 6) : VReg := mget {} (t.dev.ctx s.me).v d.toNat

/-- A masked vector instruction (R273): nothing but vector register `d` has changed, it carries the tag `tag`, and of its
elements of `w` bits those in active lanes of mask `k` satisfy `res` and the others are as the bundle found them. -/
def MaskedLanes (s t : State) (d : BitVec 6) (k : BitVec 3) (w tag : Nat) (res : Nat → Nat → Prop) : Prop :=
  OnlyVector s t d ∧ (vnew s t d).tag.toNat = tag ∧
  ∀ i, i < 2048 / w →
    if (s.kreg k).getLsbD (i * w / 32) then res i (elCode (vnew s t d).bits w i)
    else elCode (vnew s t d).bits w i = elCode (s.vreg d).bits w i

/-- The flags that the bundle at hand is to raise are those it was to raise and each flag `j` for which `fl j` holds, and
the bundle's commit sets just those in bits 12:7 of `fcsr`, beside the ones that are set there (R162, R163, R177). -/
def Raises (s t : State) (fl : Nat → Prop) : Prop :=
  ∀ j, j < 6 → (t.bun.flags.getLsbD j = true ↔ s.bun.flags.getLsbD j = true ∨ fl j) ∧
    (t.commit.dev.ctx s.me).regs.fcsr.getLsbD (7 + j) =
      ((t.dev.ctx s.me).regs.fcsr.getLsbD (7 + j) || t.bun.flags.getLsbD j)

/-- An element in an active lane of mask `k` has flag `j` among `fl`. -/
def SomeLane (s : State) (k : BitVec 3) (w : Nat) (fl : Nat → Flags) (j : Nat) : Prop :=
  ∃ i, i < 2048 / w ∧ (s.kreg k).getLsbD (i * w / 32) = true ∧ (fl i).getLsbD j = true

/-- The exact sum of values (R289, R290): a NaN, or infinities of both signs, make it NaN. -/
def exactSum (rm : Nat) : List Val → Val
  | [] => .fin false 0 0
  | v :: r => r.foldl (fun x y => (Val.add rm x y).1) v

/-- The device, the registers of every context and every byte of memory are as before: only the bundle at hand has
changed. -/
def OnlyBundle (s t : State) : Prop := { t with bundle := s.bundle } = s

/-- A signed immediate as a number: extended above its own bits by the `WIDE` that follows it, if there is one (R179). -/
def signedImm {w : Nat} (wide : Option (BitVec 21)) (x : BitVec w) : Int :=
  match wide with
  | none => x.toInt
  | some i => i.toInt * 2 ^ w + x.toNat

/-- An unsigned immediate as a number, with the bits of the `WIDE` that follows it, if there is one, above its own
(R179). -/
def unsignedImm {w : Nat} (wide : Option (BitVec 21)) (x : BitVec w) : Nat :=
  match wide with
  | none => x.toNat
  | some i => i.toNat * 2 ^ w + x.toNat

/-- No bundle is half done (R177, R422): what a step shows is the state between bundles. -/
def Whole (s : State) : Prop := s.bundle = none

/-- Memory is in its canonical form, so that equal memories are equal data. -/
def MemCanonical (s : State) : Prop := Memory.wf s.dev.mem = true

/-- Memory is in its canonical form, and so is that of the device that an open bundle's slots read, to which a trap
returns. -/
def MemWhole (s : State) : Prop := MemCanonical s ∧ ∀ b, s.bundle = some b → Memory.wf b.pre.mem = true

/-- The event happens, and the state it leaves satisfies `P`. -/
def Happens (i : Instr) (s : State) (P : State → Prop) : Prop := Completes (exec i s) fun t => t.last = .done ∧ P t

/-- The event happens, and nothing changes but the device, which becomes `d`. -/
def Becomes (i : Instr) (s : State) (d : Device) : Prop := exec i s = .next { s with dev := d, last := .done }

/-- The bundle `ws` of context `a` before it issues: what its slots would read, from its program counter, falling through to
the address after its last word (R175). -/
def shutBundle (u : State) (a : Nat) (ws : List Word32) : Bundle :=
  let pc := (u.dev.ctx a).regs.pc
  { pre := u.dev, agent := a, start := pc, next := pc + word (4 * ws.length) }

/-- The bundle `ws` of context `a` of block `b` open on the state where its core issues: the weight of its slots is spent
and its block's binding runs (R37, R312), the old device is what its slots read, its taken leaf is chosen, and it falls
through to the address after its last word (R175, R205). -/
def openBundle (u : State) (a b : Nat) (ws : List Word32) : State :=
  let ds := ws.map decWord
  let shut := shutBundle u a ws
  let leaf := State.leafOf { u with bundle := some shut } ds
  let d := (u.dev.updCore (coreOf a) fun k => k.spend (slotsWeight ds)).firstIssue b
  { u with dev := d
           bundle := some { shut with pre := d, leaf := leaf
                                      opens := ds.any fun x => x.taken leaf && x.instr == some .segb } }

/-- What follows a bundle: a pre-emption that is due stops the context (R64), and a core that issued nothing lets a cycle
pass. -/
def afterIssue (a : Nat) (o : Host.Outcome State Fault Refusal) : Host.Outcome State Fault Refusal :=
  match o with
  | .next t =>
    let d := t.dev.stopIfDue a
    .next { t with dev := if t.last = .idle then d.tick else d }
  | x => x

/-- No context, with any register of it, and no byte of memory has changed. -/
def Apart (s t : State) : Prop := t.dev.ctxs = s.dev.ctxs ∧ MemSame s t

/-- No context but `a` and no byte of memory has changed. -/
def ApartFrom (s t : State) (a : Nat) : Prop := (∀ x, x ≠ a → t.dev.ctx x = s.dev.ctx x) ∧ MemSame s t

/-- An entry stands at the tail of the core's matrix queue (R299, R304): it captures `mp0`, `mp1` and `fcsr`, and has the
next number of the timeline of `mp0.tle`, which `mp7` gives. No other register, no other context and no byte of memory
has changed. -/
def Queued (s t : State) (op : MOp) : Prop :=
  let e := mpTle s.mp0
  let n := ((mget ({} : Timeline) (s.dev.ctx s.me).tls e).issued + 1) % 2 ^ 64
  RegsSame s t ∧ VectorsSame s t ∧ ApartFrom s t s.me ∧
  (∃ m : MEntry, (t.dev.core (coreOf s.me)).mq = (s.dev.core (coreOf s.me)).mq ++ [m] ∧ m.op = op ∧ m.ctx = s.me ∧ m.e = e ∧
    m.num = n ∧ m.mp0 = s.mp0 ∧ m.mp1 = mget 0 s.ctx0.mp 1 ∧ m.fcsr = s.ctx0.regs.fcsr ∧ m.started = false) ∧
  mget 0 (t.dev.ctx s.me).mp 7 = word n ∧ (mget ({} : Timeline) (t.dev.ctx s.me).tls e).issued = n

/-- An engine operation is in its command queue (R317, R319): it captures the shadow registers of its kind, has a new stamp
and the next number of its engine context, which `d` takes, and carries the successors and the barrier that `EDEP` and
`EBAR` had attached. No other scalar or vector register, no other context and no byte of memory has changed. -/
def Issued (s t : State) (eng op : Nat) (d : BitVec 6) (e : BitVec 3) : Prop :=
  let x : Timeline := mget {} (s.dev.ctx s.me).tls e.toNat
  let y : Timeline := mget {} (t.dev.ctx s.me).tls e.toNat
  ScalarIs s t d (word (x.issued + 1)) ∧ VectorsSame s t ∧ ApartFrom s t s.me ∧
  (∃ o : EngOp, t.dev.ops = s.dev.ops ++ [o] ∧ o.agent = s.me ∧ o.e = e.toNat ∧ o.num = (x.issued + 1) % 2 ^ 64 ∧
    o.eng = eng ∧ o.op = op ∧ o.regs = (s.ctx0.engRegs eng).words ∧ o.succ = x.succ ∧ o.bar = x.bar ∧
    Above o.stamp (s.dev.ctx s.me).stamp) ∧
  y.issued = (x.issued + 1) % 2 ^ 64 ∧ y.succ = [] ∧ y.bar = none

/-- A command has been taken in its queue's order and numbered, and has completed with a status and result (R355, R356): its
record, where it asks for one, is the last message to the agent on whose channel it came, or stands in the completion
ring of its host queue; a record that cannot be written stops the queue (R467). -/
def Recorded (c : Cmd) (type : Nat) (s t : State) (status : Nat) (result : Word) : Prop :=
  let h := s.dev.hq c.q
  let record := completionRecord h.seq type h.ph status result
  (c.cpl = true → isChannel c.q = true → t.dev.out.outbox.getLast? = some (.completion (c.q - 16384) record)) ∧
  (c.cpl = true → isChannel c.q = false → h.en = true → h.lose = true → (t.dev.hq c.q).en = false) ∧
  (c.cpl = true → isChannel c.q = false → h.dev = false → h.lose = false →
    t.dev.hostRead h.fn h.pasid (h.cbase + 16 * h.cidx) 16 = toBytes record.toNat 16)

/-- A command completed that has changed no context, and no byte of device memory unless its completion ring lies there. -/
def Served (c : Cmd) (type : Nat) (s t : State) (status : Nat) (result : Word) : Prop :=
  Recorded c type s t status result ∧ t.dev.ctxs = s.dev.ctxs ∧ ((s.dev.hq c.q).dev = false → MemSame s t)

/-- A command has been taken and numbered and is under way, to complete later (R355). -/
def UnderWay (c : Cmd) (type : Nat) (s t : State) (kind : PendKind) : Prop :=
  t.dev.out.pend.getLast? = some ⟨c.q, (s.dev.hq c.q).seq, BitVec.ofNat 6 type, c.cpl, kind⟩

/-- A command that the processor takes now from an issuer of its columns (R355, R357). -/
def Taken (s : State) (c : Cmd) (type : Nat) (w : Who) : Prop :=
  s.dev.takes c type = true ∧ s.dev.allows w c.who = true

/-- A command that names the micro-context of its first word, whose tenant its issuer's rights reach (R357). -/
def Names (s : State) (c : Cmd) (b : Nat) : Prop :=
  pw c 0 = b ∧ b < 32768 ∧ s.dev.reaches c.who ((s.dev.block b).get fTenant) = true

end Sys2Proof.Safety
end

