-- ==== Sys2Proof/Certificates/Slice0/Obligations.lean ====
section
/-! DEFINITION. The statements for the provers, in the order of the opcode table's families: what each instruction and
each event of the device does, and what it leaves alone. -/

open Sys2Proof Sys2Proof.Machine Sys2Proof.Safety

/-! ## Scalar registers (R207 to R216) -/

/-- R207, R208: the two-operand arithmetic and logic instructions write `d` with the table's value and change nothing else;
so do the divisions, with the results the manual gives for a zero divisor and for signed overflow, where neither traps. -/
def Obligations.ScalarArithmeticWritesTheTable : Prop :=
  ∀ (s : State) (d a b : BitVec 6),
    let A := s.sreg a
    let B := s.sreg b
    let n := B.toNat % 64
    let writes (i : Instr) (v : Word) : Prop := Completes (exec i s) fun t => WritesScalar s t d v
    writes (.add d a b) (word (A.toNat + B.toNat)) ∧
    writes (.sub d a b) (wordI ((A.toNat : Int) - B.toNat)) ∧
    writes (.and d a b) (A &&& B) ∧
    writes (.or d a b) (A ||| B) ∧
    writes (.xor d a b) (A ^^^ B) ∧
    writes (.andn d a b) (A &&& ~~~B) ∧
    writes (.mul d a b) (word (A.toNat * B.toNat)) ∧
    writes (.mulh d a b) (wordI ((A.toInt * B.toInt).fdiv (2 ^ 64))) ∧
    writes (.mulhu d a b) (word (A.toNat * B.toNat / 2 ^ 64)) ∧
    writes (.shl d a b) (word (A.toNat * 2 ^ n)) ∧
    writes (.shr d a b) (word (A.toNat / 2 ^ n)) ∧
    writes (.sra d a b) (wordI (A.toInt.fdiv (2 ^ n))) ∧
    writes (.min d a b) (wordI (min A.toInt B.toInt)) ∧
    writes (.max d a b) (wordI (max A.toInt B.toInt)) ∧
    writes (.minu d a b) (word (min A.toNat B.toNat)) ∧
    writes (.maxu d a b) (word (max A.toNat B.toNat)) ∧
    (B = 0 → writes (.div d a b) (word (2 ^ 64 - 1)) ∧ writes (.divu d a b) (word (2 ^ 64 - 1)) ∧
      writes (.rem d a b) A ∧ writes (.remu d a b) A) ∧
    (A.toInt = -2 ^ 63 → B.toInt = -1 → writes (.div d a b) (word (2 ^ 63)) ∧ writes (.rem d a b) 0) ∧
    (B ≠ 0 → ¬(A.toInt = -2 ^ 63 ∧ B.toInt = -1) →
      writes (.div d a b) (wordI (A.toInt.tdiv B.toInt)) ∧ writes (.rem d a b) (wordI (A.toInt.tmod B.toInt))) ∧
    (B ≠ 0 → writes (.divu d a b) (word (A.toNat / B.toNat)) ∧ writes (.remu d a b) (word (A.toNat % B.toNat)))

/-- R209 to R211: `CLZ`, `CTZ`, `POPC` and `MOV`, the counts said by the bits they count; `BFX`, `BFI` and `SEL`, bit by
bit. -/
def Obligations.BitsAndFields : Prop :=
  ∀ (s : State) (d a b : BitVec 6) (f : BitVec 3),
    let A := s.sreg a
    let B := s.sreg b
    let pos := (B.extractLsb' 0 6).toNat
    let n := min (min (B.extractLsb' 8 7).toNat 64) (64 - pos)
    let writes (i : Instr) (v : Word) : Prop := Completes (exec i s) fun t => WritesScalar s t d v
    (A = 0 → writes (.clz d a) 64 ∧ writes (.ctz d a) 64) ∧
    (∀ h, h < 64 → A.getLsbD h = true → (∀ j, h < j → A.getLsbD j = false) → writes (.clz d a) (word (63 - h))) ∧
    (∀ l, l < 64 → A.getLsbD l = true → (∀ j, j < l → A.getLsbD j = false) → writes (.ctz d a) (word l)) ∧
    writes (.popc d a) (word ((List.range 64).countP fun i => A.getLsbD i)) ∧
    writes (.mov d a) A ∧
    (Completes (exec (.bfx d a b) s) fun t => ∃ v, WritesScalar s t d v ∧
      ∀ i, i < 64 → v.getLsbD i = (decide (i < n) && A.getLsbD (pos + i))) ∧
    (Completes (exec (.bfi d a b) s) fun t => ∃ v, WritesScalar s t d v ∧
      ∀ i, i < 64 → v.getLsbD i =
        if pos ≤ i ∧ i < pos + n then A.getLsbD (i - pos) else (s.sreg d).getLsbD i) ∧
    writes (.sel d a b f) (if s.preg f then A else B)

/-- R212 and R213: the comparisons of registers and with an immediate, which a `WIDE` extends, and the logic of predicates
write predicate `d` and nothing else. The unsigned forms compare against the sign-extended immediate read as an unsigned
value. -/
def Obligations.ComparisonsWriteAPredicate : Prop :=
  ∀ (s : State) (d : BitVec 3) (a b : BitVec 6) (imm : BitVec 9) (p q : BitVec 3),
    let A := s.sreg a
    let B := s.sreg b
    let C : Word := wordI (signedImm s.bun.wide imm)
    let writes (i : Instr) (v : Bool) : Prop := Completes (exec i s) fun t => WritesPred s t d v
    writes (.cmpEq d a b) (decide (A = B)) ∧
    writes (.cmpNe d a b) (decide (A ≠ B)) ∧
    writes (.cmpLt d a b) (decide (A.toInt < B.toInt)) ∧
    writes (.cmpGe d a b) (decide (B.toInt ≤ A.toInt)) ∧
    writes (.cmpLtu d a b) (decide (A.toNat < B.toNat)) ∧
    writes (.cmpGeu d a b) (decide (B.toNat ≤ A.toNat)) ∧
    writes (.cmpiEq d a imm) (decide (A = C)) ∧
    writes (.cmpiNe d a imm) (decide (A ≠ C)) ∧
    writes (.cmpiLt d a imm) (decide (A.toInt < signedImm s.bun.wide imm)) ∧
    writes (.cmpiGe d a imm) (decide (signedImm s.bun.wide imm ≤ A.toInt)) ∧
    writes (.cmpiLtu d a imm) (decide (A.toNat < C.toNat)) ∧
    writes (.cmpiGeu d a imm) (decide (C.toNat ≤ A.toNat)) ∧
    writes (.pand d p q) (s.preg p && s.preg q) ∧
    writes (.por d p q) (s.preg p || s.preg q) ∧
    writes (.pnot d p) (!s.preg p)

/-- R214 to R216: the immediate forms, with and without a `WIDE`. -/
def Obligations.ImmediateForms : Prop :=
  ∀ (s : State) (d a : BitVec 6) (imm : BitVec 9) (sh : BitVec 6) (x : BitVec 15),
    let A := s.sreg a
    let B : Word := wordI (signedImm s.bun.wide imm)
    let writes (i : Instr) (v : Word) : Prop := Completes (exec i s) fun t => WritesScalar s t d v
    writes (.addi d a imm) (word (A.toNat + B.toNat)) ∧
    writes (.andi d a imm) (A &&& B) ∧
    writes (.ori d a imm) (A ||| B) ∧
    writes (.xori d a imm) (A ^^^ B) ∧
    writes (.shli d a sh) (word (A.toNat * 2 ^ sh.toNat)) ∧
    writes (.shri d a sh) (word (A.toNat / 2 ^ sh.toNat)) ∧
    writes (.srai d a sh) (wordI (A.toInt.fdiv (2 ^ sh.toNat))) ∧
    writes (.li d x) (wordI (signedImm s.bun.wide x)) ∧
    writes (.lih d x) (word (unsignedImm s.bun.wide x * 2 ^ 28 + (s.sreg d).toNat % 2 ^ 28))

/-! ## Control (R218 to R239) -/

/-- R218 and R219: `TREE` takes the leaf of its lowest true test, or the leaf after its last test; `TGT` transfers when
its leaf is the taken one and has no effect otherwise. -/
def Obligations.DecisionTreesTakeOneLeaf : Prop :=
  ∀ (s : State),
    (∀ (t1 t2 t3 t4 : BitVec 4) (n : BitVec 3), 1 ≤ n.toNat → n.toNat ≤ 4 →
      let test (j : Nat) : Bool :=
        let t := if j = 1 then t1 else if j = 2 then t2 else if j = 3 then t3 else t4
        s.preg (t.extractLsb' 0 3) != t.getLsbD 3
      Completes (exec (.tree t1 t2 t3 t4 n) s) fun t => OnlyBundle s t ∧
        (∀ j, 1 ≤ j → j ≤ n.toNat → test j = true → (∀ i, 1 ≤ i → i < j → test i = false) → t.bun.leaf = j) ∧
        ((∀ j, 1 ≤ j → j ≤ n.toNat → test j = false) → t.bun.leaf = n.toNat + 1)) ∧
    ∀ (leaf : BitVec 3) (off : BitVec 18),
      Completes (exec (.tgt leaf off) s) fun t => OnlyBundle s t ∧
        if s.bun.leaf = leaf.toNat then t.bun.jump = some (s.bun.start + wordI (4 * signedImm s.bun.wide off))
        else t = s

/-- R221 and R225: where a bundle that jumps continues. `JMP` and `CALL` go to the bundle's start plus four times the
offset, `RET` to `lk` without its low two bits, and `CALL` leaves in `lk` the address at which the bundle would have
continued without it. -/
def Obligations.JumpsContinueAtTheirTarget : Prop :=
  ∀ (s : State) (off : BitVec 18), s.bun.after = none → s.bun.waits = [] → s.bun.jump = none →
    let target : Word := s.bun.start + wordI (4 * signedImm s.bun.wide off)
    (Completes (exec (.jmp off) s) fun t => OnlyBundle s t ∧ (t.commit.dev.ctx s.me).regs.pc = target) ∧
    (Completes (exec (.call off) s) fun t => OnlyBundle s t ∧ (t.commit.dev.ctx s.me).regs.pc = target ∧
      (t.commit.dev.ctx s.me).regs.lk = (s.commit.dev.ctx s.me).regs.pc) ∧
    (Completes (exec .ret s) fun t => OnlyBundle s t ∧
      (t.commit.dev.ctx s.me).regs.pc = ((s.ctx0.regs.lk.extractLsb' 2 62) ++ (0 : BitVec 2)))

/-- R223 and R224: `LOOP` with a count of 1 to 2^62 - 1 opens a counted level and with a count of 0 opens none and jumps past
the closing bundle; `SLOOP` opens a stream-terminated level and sets its predicate. Only the level's registers change, and
for `SLOOP` the predicate. The closing bundle of a count of 0 ends at its first stop bit or at the end of its 32-byte
block, where a present entry of the window holds it; a body that is too short, or a count above, traps OPERAND, and a third
level LOOP_DEPTH. -/
def Obligations.LoopsOpenALevel : Prop :=
  ∀ (s : State) (d : BitVec 6) (imm : BitVec 15) (p : BitVec 3) (q : BitVec 6) (off : BitVec 9),
    let body := (s.bun.next - s.bun.start).toNat
    let r := s.ctx0.regs
    let n := (s.sreg d).toNat
    let deep : Prop := r.lpc1.getLsbD 62 = true
    let close : Word := s.bun.start + word (4 * unsignedImm s.bun.wide imm)
    let opens (t : State) (x y : Regs) (e c : Word) : Prop := OnlyMe s t ∧ { t.dev.ctx s.me with regs := x } = s.dev.ctx s.me ∧
      if r.lpc0.getLsbD 62 then
        y.lps1 = s.bun.next ∧ y.lpe1 = e ∧ y.lpc1 = c ∧ { y with lps1 := x.lps1, lpe1 := x.lpe1, lpc1 := x.lpc1, p := x.p } = x
      else y.lps0 = s.bun.next ∧ y.lpe0 = e ∧ y.lpc0 = c ∧ { y with lps0 := x.lps0, lpe0 := x.lpe0, lpc0 := x.lpc0, p := x.p } = x
    (¬deep → body ≤ 4 * unsignedImm s.bun.wide imm → 0 < n → n < 2 ^ 62 →
      Completes (exec (.loop d imm) s) fun t =>
        let x := (s.dev.ctx s.me).regs
        let y := (t.dev.ctx s.me).regs
        opens t x y close (word (2 ^ 62 + n)) ∧ y.p = x.p) ∧
    (¬deep → body ≤ 4 * unsignedImm s.bun.wide imm → n = 0 →
      Completes (exec (.loop d imm) s) fun t => t.dev = s.dev ∧ { t.bun with jump := s.bun.jump } = s.bun ∧
        ∃ len, 1 ≤ len ∧ len ≤ 8 - bits close 4 2 ∧ t.bun.jump = some (close + word (4 * len)) ∧
          ∀ e, findEnt (s.before.window s.blk) close = some e → e.ab = false → isRemote (e.pa close) = false →
            let stop (i : Nat) : Bool := (s.codeWord e.kid.toNat (e.pa close + 4 * i)).getLsbD 31
            (∀ i, i + 1 < len → stop i = false) ∧ (stop (len - 1) = true ∨ len = 8 - bits close 4 2)) ∧
    (2 ^ 62 ≤ n ∨ 4 * unsignedImm s.bun.wide imm < body → exec (.loop d imm) s = .next (s.stopped (.trap 0x03 0))) ∧
    (deep → body ≤ 4 * unsignedImm s.bun.wide imm → n < 2 ^ 62 →
      exec (.loop d imm) s = .next (s.stopped (.trap 0x0C 0))) ∧
    (¬deep → (body : Int) ≤ 4 * signedImm s.bun.wide off →
      Completes (exec (.sloop p q off) s) fun t =>
        let x := (s.dev.ctx s.me).regs
        let y := (t.dev.ctx s.me).regs
        opens t x y (s.bun.start + wordI (4 * signedImm s.bun.wide off)) (word (2 ^ 63 + 2 ^ 62 + q.toNat * 2 ^ 8 + p.toNat)) ∧
          y.preg p = true ∧ ∀ m : BitVec 3, m ≠ p → y.preg m = x.preg m) ∧
    (4 * signedImm s.bun.wide off < body → exec (.sloop p q off) s = .next (s.stopped (.trap 0x03 0))) ∧
    (deep → (body : Int) ≤ 4 * signedImm s.bun.wide off → exec (.sloop p q off) s = .next (s.stopped (.trap 0x0C 0)))

/-- R176, R179, R229 to R231 and R237 to R238: `NOP` and `WIDE` have no effect of their own; `YIELD` commits its bundle
and leaves its context READY at the continuation, or ISSUING when it was the core's issuing context and no other is READY;
`RDV` has no effect in unprotected mode; `WFE` clears a set event flag; `TRET` continues at `tepc`, in task mode after a
trap and in system mode after one in system mode. -/
def Obligations.MarkersAndReturns : Prop :=
  ∀ (s : State) (n : BitVec 6) (imm : BitVec 21),
    exec .nop s = .next s ∧ exec (.wide imm) s = .next s ∧
    (s.bun.after = none → s.bun.waits = [] →
      Completes (exec .yield s) fun t =>
        (t.dev.ctx s.me).regs = (s.commit.dev.ctx s.me).regs ∧ MemSame s t ∧
        ((∀ c, c < 4 → 4 * coreOf s.me + c ≠ s.me → (s.dev.ctx (4 * coreOf s.me + c)).run ≠ .ready ∧
            (s.dev.ctx (4 * coreOf s.me + c)).run ≠ .issuing) →
          (s.dev.ctx s.me).run = .issuing → (t.dev.ctx s.me).run = .issuing) ∧
        ((∃ c, c < 4 ∧ 4 * coreOf s.me + c ≠ s.me ∧ (s.dev.ctx (4 * coreOf s.me + c)).run = .ready) →
          (s.dev.ctx s.me).run = .issuing → (t.dev.ctx s.me).run = .ready)) ∧
    (s.mode ≠ 1 → s.ctx0.segOpen = false → s.binding.prot = false → exec (.rdv n) s = .next s) ∧
    (s.mode ≠ 0 → s.ctx0.event = true →
      Completes (exec .wfe s) fun t => OnlyMe s t ∧ t.dev.ctx s.me = { s.dev.ctx s.me with event := false }) ∧
    (s.mode = 1 → s.ctx0.trap.tepc &&& ~~~3 ≠ 0 → s.bun.after = none → s.bun.waits = [] → s.bun.called = false →
      Completes (exec .tret s) fun t =>
        (t.dev.ctx s.me).trap = { (s.dev.ctx s.me).trap with mode := 0 } ∧ RegsSame s t ∧ MemSame s t ∧
        (t.commit.dev.ctx s.me).regs.pc = s.ctx0.trap.tepc &&& ~~~3) ∧
    (s.mode = 2 → s.bun.after = none → s.bun.waits = [] → s.bun.called = false →
      Completes (exec .tret s) fun t => OnlyBundle s t ∧
        (t.commit.dev.ctx s.me).regs.pc = s.ctx0.trap.tepc &&& ~~~3)

/-- R230 and R62: `SEGB` opens a segment, and in protected mode records its entry; `SEGE` closes it. In protected mode the
scratchpad stores it held, and the end of a rewind's episode, wait two cycles for the follower's `SEGE`, and its global
stores and reductions pass into the open span or the store buffer, where they fit. When those two cycles have passed, the
scratchpad stores take effect in both cores of the pair. Each traps SEGERR in the other state, and PRIV in trap mode. -/
def Obligations.SegmentsOpenAndClose : Prop :=
  (∀ (s : State), s.mode ≠ 1 →
    let c := s.dev.ctx s.me
    (s.ctx0.segOpen = false →
      Completes (exec .segb s) fun t => OnlyMe s t ∧
        (s.binding.prot = false → t.dev.ctx s.me = { c with segOpen := true }) ∧
        (s.binding.prot = true → t.dev.ctx s.me = { c with segOpen := true, seg := { c.seg with
          entry := s.ctx0.regs, entryV := s.ctx0.v, entryMp := s.ctx0.mp
          entrySpan := s.ctx0.task.bind fun k => k.span
          entrySel := s.ctx0.task.bind fun k => k.sel
          entrySpawns := (s.ctx0.task.map fun k => k.spawns).getD [] } })) ∧
    (s.ctx0.segOpen = true → s.ctx0.reissuing = false → exec .segb s = .next (s.stopped (.trap 0x0D 0))) ∧
    (s.ctx0.segOpen = false → exec .sege s = .next (s.stopped (.trap 0x0D 0))) ∧
    (s.ctx0.segOpen = true →
      let sp := c.seg.held.filter fun h => match h with | .sp _ _ _ => true | .mem _ _ => false
      let ops := c.seg.held.filterMap fun h => match h with | .sp _ _ _ => none | .mem o _ => some o
      (∀ k, c.task = some k → ∀ j, j ≤ ops.length →
        (withBuffer k ((ops.take j).foldl bufferOp (bufferOf k))).lines.length ≤ 1024) →
      Completes (exec .sege s) fun t => MemSame s t ∧ (∀ a, a ≠ s.me → t.dev.ctx a = s.dev.ctx a) ∧
        t.dev.ctx s.me = { c with
          segOpen := false, seg := {}, drains := c.drains ++
            (if sp = [] ∧ s.binding.rewinding.contains s.me = false then [] else [(s.dev.cycle + 2, sp)])
          task := c.task.map fun k => withBuffer k (ops.foldl bufferOp (bufferOf k)) } ∧
        ∀ n, (t.dev.core n).scratch = (s.dev.core n).scratch)) ∧
  (∀ s : State, s.mode = 1 → exec .segb s = .next (s.stopped (.trap 0x02 (s.bun.word.zeroExtend 64))) ∧
    exec .sege s = .next (s.stopped (.trap 0x02 (s.bun.word.zeroExtend 64)))) ∧
  ∀ (d : Device) (a now due core off : Nat) (bs : List Byte), (d.ctx a).drains = [(due, [.sp core off bs])] →
    (now < due → d.drainDue now a = d) ∧
    (due ≤ now → ((d.drainDue now a).ctx a).drains = [] ∧ (d.drainDue now a).mem = d.mem ∧
      ∀ n o, ((d.drainDue now a).core n).spByte o =
        if (n = core ∨ n = core + 2) ∧ off ≤ o ∧ o < off + bs.length then bs.getD (o - off) 0 else (d.core n).spByte o)

/-- R232, R234, R236 and R424: a trap in task mode enters the routine at `trapva` in trap mode with its cause, slot, value
and address, and leaves every register, every other context and all of memory as they stood before the bundle. `BRK` takes
it without committing its bundle; `TRAP n` commits its bundle as if no trap were raised, and then enters the routine with
`tepc` at the continuation. While a pre-emption stops the context, the trap is held pending instead. -/
def Obligations.TrapsEnterTheRoutine : Prop :=
  ∀ (s : State),
    let taken (d : Device) (c x : Ctx) (blk slot : Nat) (cause : BitVec 8) (val epc : Word) : Prop :=
      let p : PendTrap := ⟨slot, cause, val, epc⟩
      (d.stopping blk s.me = true → x = { c with pend := some p, regs := { c.regs with pc := epc } }) ∧
      (d.stopping blk s.me = false → x = { c with
        regs := { c.regs with pc := va57 (32 * (d.block blk).get fTrapva) }
        trap := { mode := 1, tcause := word (2 ^ 13 * (slot % 8) + cause.toNat), tepc := epc, tval := val,
                  tscr := c.trap.tscr }
        trapAt := some { cycle := d.cycle, pend := p, trap := c.trap, pc := epc } })
    (∀ (b : Bundle) (blk : Nat) (n : BitVec 6), s.bundle = some b → b.pre.blockOf b.agent = some blk →
      (b.pre.ctx b.agent).trap.mode = 0 → (b.pre.block blk).get fTrapva ≠ 0 →
      let trapped (t : State) (cause : BitVec 8) (val : Word) : Prop :=
        t.bundle = none ∧ (∀ a, a ≠ b.agent → t.dev.ctx a = b.pre.ctx a) ∧ { t.dev with ctxs := b.pre.ctxs } = b.pre ∧
        taken b.pre (b.pre.ctx b.agent) (t.dev.ctx b.agent) blk b.slot cause val b.start
      (∀ cause val, trapped (s.stopped (.trap cause val)) cause val) ∧
      (Completes (exec (.brk n) s) fun t => trapped t 0x0F (n.zeroExtend 64))) ∧
    (∀ (blk : Nat) (n : BitVec 15), s.bun.after = none → s.bun.waits = [] →
      s.commit.dev.blockOf s.me = some blk → (s.dev.ctx s.me).trap.mode = 0 → (s.commit.dev.block blk).get fTrapva ≠ 0 →
      Completes (exec (.trap n) s) fun t =>
        let c := s.commit.dev.ctx s.me
        t.bundle = none ∧ MemSame s t ∧ (∀ a, a ≠ s.me → t.dev.ctx a = s.dev.ctx a) ∧
        taken s.commit.dev c (t.dev.ctx s.me) blk s.bun.slot 0x10 (n.zeroExtend 64) c.regs.pc)

/-- R190, R191 and R233: a read of a CSR that the mode and the core's tier admit writes its value to `d` and nothing else;
a read of `nt0` gives the value after the rotations that are due (R56). -/
def Obligations.CsrReads : Prop :=
  ∀ (s : State) (d : BitVec 6) (csr : BitVec 12), csrAssigned csr = true →
    (isUpper (coreOf s.me) = true ∨ csr.toNat < 0x020 ∨ 0x027 < csr.toNat) → (csr.toNat ≤ 0x100 ∨ s.mode ≠ 0) →
    let x := s.ctx0
    let k := s.before.core (coreOf s.me)
    (csr = 0x018 → Completes (exec (.csrr d csr) s) fun t =>
      (t.dev.ctx s.me).regs.sreg d = (if d = 0 then 0 else x.rotateAll.regs.nt0) ∧ MemSame s t ∧
      (∀ a, a ≠ s.me → t.dev.ctx a = s.dev.ctx a)) ∧
    (csr ≠ 0x018 → Completes (exec (.csrr d csr) s) fun t => ∃ v, WritesScalar s t d v ∧
      (csr = 0x001 → v = x.regs.fcsr) ∧ (csr = 0x002 → v = x.regs.lk) ∧ (csr = 0x003 → v = word x.stamp) ∧
      (csr = 0x004 → v = x.slat) ∧ (csr = 0x005 → v = x.refbal) ∧
      (csr = 0x006 → v = calposAt s.before.cycle) ∧
      (csr = 0x007 → v = word (k.effective * 2 ^ 48 + k.frzcnt.toNat)) ∧
      (csr = 0x008 → v = k.pb1.zeroExtend 64) ∧ (csr = 0x009 → v = k.pb2.zeroExtend 64) ∧
      (csr = 0x00A → v = k.pb3.zeroExtend 64) ∧
      (csr = 0x00B → v = word (s.before.out.devno.toNat * 2 ^ 16 + s.me % 2 ^ 11)) ∧
      (∀ e, e < 8 → csr.toNat = 0x010 + e → v = word (mget {} x.tls e).counter) ∧
      (csr = 0x019 → v = x.regs.nt1) ∧ (csr = 0x01A → v = x.regs.nt2) ∧ (csr = 0x01B → v = x.regs.nt3) ∧
      (∀ i, i < 8 → csr.toNat = 0x020 + i → v = mget 0 x.mp i) ∧
      (csr = 0x030 → v = x.regs.lps0) ∧ (csr = 0x031 → v = x.regs.lpe0) ∧ (csr = 0x032 → v = x.regs.lpc0) ∧
      (csr = 0x033 → v = x.regs.lps1) ∧ (csr = 0x034 → v = x.regs.lpe1) ∧ (csr = 0x035 → v = x.regs.lpc1) ∧
      (csr = 0x100 → v = x.trap.mode.zeroExtend 64) ∧ (csr = 0x101 → v = x.trap.tcause) ∧
      (csr = 0x102 → v = x.trap.tepc) ∧ (csr = 0x103 → v = x.trap.tval) ∧ (csr = 0x104 → v = x.trap.tscr))

/-- R190 to R194, R162 and R233: `CSRW` writes its source, `CSRS` the CSR with the source's bits set and `CSRC` with them
clear; address registers keep no low bits, a read-only CSR keeps its value, reserved bits read zero and `rm` takes no
value above 4. Nothing else changes. -/
def Obligations.CsrWrites : Prop :=
  ∀ (s : State) (d : BitVec 6) (csr : BitVec 12), csrAssigned csr = true →
    (isUpper (coreOf s.me) = true ∨ csr.toNat < 0x020 ∨ 0x027 < csr.toNat) → (csr.toNat ≤ 0x100 ∨ s.mode ≠ 0) →
    let x := s.dev.ctx s.me
    let r := x.regs
    let fcsr (v : Word) : Word :=
      if (v.extractLsb' 0 3).toNat ≤ 4 then v &&& 0xFFFFFFFF00001F97
      else (v &&& 0xFFFFFFFF00001F90) ||| (r.fcsr &&& 7)
    let mask (i : Nat) : Word := if i = 0 then 0x0000FFFF00FFFF07 else if i = 1 then 0x000000000001FF0F else ~~~0
    let writes (t : State) (v : Word) : Prop :=
      (∀ a, a ≠ s.me → t.dev.ctx a = s.dev.ctx a) ∧ { t.dev with ctxs := s.dev.ctxs } = s.dev ∧
      (csr = 0x001 → t.dev.ctx s.me = { x with regs := { r with fcsr := fcsr v } }) ∧
      (csr = 0x002 → t.dev.ctx s.me = { x with regs := { r with lk := v &&& ~~~3 } }) ∧
      (csr = 0x004 → t.dev.ctx s.me = { x with slat := v }) ∧
      (∀ i, i < 8 → csr.toNat = 0x020 + i → t.dev.ctx s.me = { x with mp := mset x.mp i (v &&& mask i) }) ∧
      (csr = 0x030 → t.dev.ctx s.me = { x with regs := { r with lps0 := v &&& ~~~3 } }) ∧
      (csr = 0x031 → t.dev.ctx s.me = { x with regs := { r with lpe0 := v &&& ~~~3 } }) ∧
      (csr = 0x032 → t.dev.ctx s.me = { x with regs := { r with lpc0 := v } }) ∧
      (csr = 0x033 → t.dev.ctx s.me = { x with regs := { r with lps1 := v &&& ~~~3 } }) ∧
      (csr = 0x034 → t.dev.ctx s.me = { x with regs := { r with lpe1 := v &&& ~~~3 } }) ∧
      (csr = 0x035 → t.dev.ctx s.me = { x with regs := { r with lpc1 := v } }) ∧
      (csr = 0x102 → t.dev.ctx s.me = { x with trap := { x.trap with tepc := v &&& ~~~3 } }) ∧
      (csr = 0x104 → t.dev.ctx s.me = { x with trap := { x.trap with tscr := v } }) ∧
      (csr = 0x003 ∨ (0x005 ≤ csr.toNat ∧ csr.toNat ≤ 0x01B) ∨ csr = 0x100 ∨ csr = 0x101 ∨ csr = 0x103 →
        t.dev.ctx s.me = x)
    Completes (exec (.csrw d csr) s) (fun t => writes t (s.sreg d)) ∧
    Completes (exec (.csrs d csr) s) (fun t => writes t (s.csr csr ||| s.sreg d)) ∧
    Completes (exec (.csrc d csr) s) (fun t => writes t (s.csr csr &&& ~~~(s.sreg d)))

/-! ## Memory (R241 to R256) -/

/-- R91, R92, R96 and R443: what the translation of an access finds in the window, where an entry made in this cycle is
still absent: no entry is NOMAP, an absent one ABSENT, a missing right RIGHTS, and otherwise the entry gives the physical
address, kind and key of the bytes within its page. -/
def Obligations.TranslationChecks : Prop :=
  ∀ (s : State) (va : Word) (n : Nat) (acc : Acc), 0 < n →
    let win := s.binding.seen s.dev.cycle
    (findEnt win va = none → s.translate va n acc = .error (.trap 0x06 va)) ∧
    ∀ e, findEnt win va = some e →
      (e.ab = true → s.translate va n acc = .error (.abort 0x40 va)) ∧
      (e.ab = false → e.allows acc = false → s.translate va n acc = .error (.trap 0x07 va)) ∧
      (e.ab = false → e.allows acc = true → va.toNat % 2 ^ winShift e.sz + n ≤ 2 ^ winShift e.sz →
        s.translate va n acc =
          .ok [⟨va, e.pfn.toNat * 65536 + va.toNat % 2 ^ winShift e.sz, n, e.kind, e.kid.toNat⟩])

/-- R244 and R245: a scalar load of aligned bytes that the task can read writes `d` with their little-endian value, sign-
or zero-extended, takes a stamp, and leaves every byte of memory and every other register alone. -/
def Obligations.ScalarLoads : Prop :=
  ∀ (s : State) (d base : BitVec 6) (off : BitVec 8) (ps : List Piece),
    let va (n : Nat) : Word := s.sreg base + wordI (signedImm s.bun.wide off * n)
    let readable (n : Nat) : Prop :=
      (va n).toNat % n = 0 ∧ s.translate (va n) n .load = .ok ps ∧ Plain s ps
    let value : Nat := ofBytes (plainBytes s ps)
    let loads (i : Instr) (n : Nat) (v : Word) : Prop :=
      readable n → Completes (exec i s) fun t => ScalarIs s t d v ∧ VectorsSame s t ∧ LoadFrame s t
    loads (.ldb d base off) 1 ((BitVec.ofNat 8 value).signExtend 64) ∧ loads (.ldbz d base off) 1 (word value) ∧
    loads (.ldh d base off) 2 ((BitVec.ofNat 16 value).signExtend 64) ∧ loads (.ldhz d base off) 2 (word value) ∧
    loads (.ldw d base off) 4 ((BitVec.ofNat 32 value).signExtend 64) ∧ loads (.ldwz d base off) 4 (word value) ∧
    loads (.ldd d base off) 8 (word value)

/-- R247 to R249: the vector loads of bytes that the task can read write `d` with those bytes and the slot's tag: `VLD` 256
bytes, `VLDS` eight rows of 32 bytes, `SLD` one line into its quarter of `d`, with one more slotted read in flight; of
another context, at most the slot in which a read of its in flight is served can change (R108). -/
def Obligations.VectorLoads : Prop :=
  ∀ (s : State) (d base : BitVec 6) (tag off st : BitVec 4) (ps : List Piece),
    let va (n : Nat) : Word := s.sreg base + wordI (signedImm s.bun.wide off * n)
    let bytes := plainBytes s ps
    let row (j : Nat) : Word := s.sreg base + word j * s.sreg (st.setWidth 6)
    (Plain s ps → (va 256).toNat % 64 = 0 → s.translate (va 256) 256 .load = .ok ps →
      Completes (exec (.vld d base tag off) s) fun t =>
        VectorIs s t d ⟨BitVec.ofNat 2048 (ofBytes bytes), tag⟩ ∧ RegsSame s t ∧ LoadFrame s t) ∧
    (Plain s ps → s.translateAll 32 .load ((List.range 8).map row) = .ok ps →
      Completes (exec (.vlds d base st tag) s) fun t =>
        VectorIs s t d ⟨BitVec.ofNat 2048 (ofBytes bytes), tag⟩ ∧ RegsSame s t ∧ LoadFrame s t) ∧
    (∀ p, Plain s [p] → (va 64).toNat % 64 = 0 → s.translate (va 64) 64 .sld = .ok [p] →
      Completes (exec (.sld d base tag off) s) fun t =>
        let q := ((va 64).toNat / 64) % 4
        (∃ v : Vec, VectorIs s t d ⟨v, tag⟩ ∧ (v.extractLsb' (512 * q) 512).toNat = ofBytes (plainBytes s [p]) ∧
          ∀ i, i < 2048 → i / 512 ≠ q → v.getLsbD i = (s.vreg d).bits.getLsbD i) ∧
        RegsSame s t ∧ MemSame s t ∧ (∀ a, a ≠ s.me → { t.dev.ctx a with slds := (s.dev.ctx a).slds } = s.dev.ctx a) ∧
        ∀ a, (t.dev.ctx a).slds.length = (s.dev.ctx a).slds.length + (if a = s.me then 1 else 0))

/-- R52, R138 and R245: outside a protected segment, a store of bytes that translate for it is held in the open span or
else in the task's store buffer, where the task's own loads find it; memory does not change before the task commits. The
bytes are held at the physical addresses of the pieces that the address translates to. -/
def Obligations.StoresAreBuffered : Prop :=
  ∀ (s : State) (r base : BitVec 6) (off : BitVec 8) (voff st : BitVec 4) (ps : List Piece) (k : Task),
    s.holding = false → (s.dev.ctx s.me).task = some k → (s.dev.ctx s.me).seg.held = [] →
    (∀ p ∈ ps, p.kind = 1 → k.span = none → k.pin = .none ∧ k.sel = none) →
    let sva (n : Nat) : Word := s.sreg base + wordI (signedImm s.bun.wide off * n)
    let vva : Word := s.sreg base + wordI (signedImm s.bun.wide voff * 256)
    let row (j : Nat) : Word := s.sreg base + word j * s.sreg (st.setWidth 6)
    let fits (bs : List Byte) : Prop := ∀ j, j ≤ ps.length →
      (withBuffer k (((storeOps ps bs).take j).foldl bufferOp (bufferOf k))).lines.length ≤ 1024
    let held (t : State) (bs : List Byte) : Prop :=
      OnlyMe s t ∧
      t.dev.ctx s.me = { s.dev.ctx s.me with task := some (withBuffer k ((storeOps ps bs).foldl bufferOp (bufferOf k))) } ∧
      ∀ a, (t.dev.ctx s.me).ownByte a = ((bufByte (storeOps ps bs) a).or ((s.dev.ctx s.me).ownByte a))
    let stores (i : Instr) (n : Nat) : Prop :=
      (sva n).toNat % n = 0 → s.translate (sva n) n .store = .ok ps → fits (toBytes (s.sreg r).toNat n) →
        Completes (exec i s) fun t => held t (toBytes (s.sreg r).toNat n)
    let vbytes := toBytes (s.vreg r).bits.toNat 256
    stores (.stb r base off) 1 ∧ stores (.sth r base off) 2 ∧ stores (.stw r base off) 4 ∧ stores (.std r base off) 8 ∧
    (vva.toNat % 64 = 0 → s.translate vva 256 .store = .ok ps → fits vbytes →
      Completes (exec (.vst r base voff) s) fun t => held t vbytes) ∧
    (s.translateAll 32 .store ((List.range 8).map row) = .ok ps → fits vbytes →
      Completes (exec (.vsts r base st) s) fun t => held t vbytes)

/-- R62, R230 and R255: in a protected segment every store and reduction is held in the segment buffer, a global one by the
pieces its address translates to and a scratchpad one by the core and offset it names, and neither memory, a scratchpad nor
the task's store buffer changes. -/
def Obligations.ProtectedStoresAreHeld : Prop :=
  ∀ (s : State) (r base a b : BitVec 6) (off : BitVec 8) (voff st : BitVec 4) (ma : Bool) (ps : List Piece) (k : Task) (core : Nat),
    s.holding = true → (s.dev.ctx s.me).task = some k →
    (∀ p ∈ ps, p.kind = 1 → k.span = none → k.pin = .none ∧ k.sel = none) →
    let c := s.dev.ctx s.me
    let ea (w : Nat) (x : BitVec w) (n : Nat) : Word := s.sreg base + wordI (signedImm s.bun.wide x * n)
    let row (j : Nat) : Word := s.sreg base + word j * s.sreg (st.setWidth 6)
    let held (l : List HeldOp) : Prop := (heldLines (c.seg.held ++ l)).length ≤ 256
    let holds (i : Instr) (l : List HeldOp) : Prop :=
      Completes (exec i s) fun t => OnlyMe s t ∧ t.dev.ctx s.me = { c with seg := { c.seg with held := c.seg.held ++ l } }
    let put (i : Instr) (bs : List Byte) : Prop :=
      (∀ j, j ≤ ps.length → held (((storeOps ps bs).take j).map fun o => .mem o k.span.isSome)) →
        holds i ((storeOps ps bs).map fun o => .mem o k.span.isSome)
    let stores (i : Instr) (n : Nat) : Prop :=
      (ea 8 off n).toNat % n = 0 → s.translate (ea 8 off n) n .store = .ok ps → put i (toBytes (s.sreg r).toNat n)
    let vbytes := toBytes (s.vreg r).bits.toNat 256
    let reduces (i : Instr) (n : Nat) (kind : BufKind) : Prop :=
      ∀ p, ps = [p] → (s.sreg a).toNat % n = 0 → s.translate (s.sreg a) n .store = .ok ps →
        let l : List HeldOp := [.mem { va := (s.sreg a).toNat, pa := p.pa, kind := kind, versioned := p.kind == 1, kid := p.kid }
          k.span.isSome]
        held l → holds i l
    let names (x : Word) (n align : Nat) : Prop :=
      (if x.getLsbD 26 then s.binding.spCore (coreOf s.me) (bits x 25 22) = some core else core = coreOf s.me) ∧
      bits x 63 27 = 0 ∧ bits x 21 0 % align = 0 ∧ bits x 21 0 + n ≤ (s.before.core core).spSize
    let scratch (i : Instr) (x : Word) (align : Nat) (bs : List Byte) : Prop :=
      names x bs.length align → held [.sp core (bits x 21 0) bs] → holds i [.sp core (bits x 21 0) bs]
    stores (.stb r base off) 1 ∧ stores (.sth r base off) 2 ∧ stores (.stw r base off) 4 ∧ stores (.std r base off) 8 ∧
    ((ea 4 voff 256).toNat % 64 = 0 → s.translate (ea 4 voff 256) 256 .store = .ok ps → put (.vst r base voff) vbytes) ∧
    (s.translateAll 32 .store ((List.range 8).map row) = .ok ps → put (.vsts r base st) vbytes) ∧
    reduces (.redAdd a b) 8 (.redAdd 8 (s.sreg b)) ∧ reduces (.redMin a b) 8 (.redMin 8 (s.sreg b)) ∧
    reduces (.redMax a b) 8 (.redMax 8 (s.sreg b)) ∧ reduces (.redFadd a b) 4 (.redFadd [(s.sreg b).setWidth 32]) ∧
    scratch (.sps r base off ma) (ea 8 off 8) 8 (toBytes (s.sreg r).toNat 8) ∧
    scratch (.vstp r base off ma) (ea 8 off 256) 64 vbytes

/-- R74 to R76, R132 and R246: scratchpad accesses of the core's own scratchpad, and of another core of the shape in the
far form. A load gives the bytes there, those a protected segment holds for them first, and a store outside a protected
segment writes them there, in protected mode into the pair's other core as well, over what a closed segment of the context
has still to drain there; no byte of global memory changes, and no other scratchpad byte. -/
def Obligations.ScratchpadAccesses : Prop :=
  ∀ (s : State) (r base : BitVec 6) (off : BitVec 8) (tag voff : BitVec 4) (ma : Bool) (core : Nat),
    let own := coreOf s.me
    let sa : Word := s.sreg base + wordI (signedImm s.bun.wide off * 8)
    let va (w : Nat) (x : BitVec w) : Word := s.sreg base + wordI (signedImm s.bun.wide x * 256)
    let names (a : Word) (n align : Nat) : Prop :=
      (if a.getLsbD 26 then s.binding.spCore own (bits a 25 22) = some core else core = own) ∧
      bits a 63 27 = 0 ∧ bits a 21 0 % align = 0 ∧ bits a 21 0 + n ≤ (s.before.core core).spSize
    let bytes (a : Word) (n : Nat) : List Byte :=
      (List.range n).map fun i => (heldSpByte (s.ctx0.drains.flatMap (·.2) ++ s.ctx0.seg.held) core (bits a 21 0 + i)).getD
        ((s.before.core core).spByte (bits a 21 0 + i))
    let loads (a : Word) (n align : Nat) : Prop :=
      names a n align ∧ (a.getLsbD 26 = true → (s.dev.ctx s.me).far = [] ∧ s.dev.core core = s.before.core core)
    let stored (t : State) (a : Word) (bs : List Byte) : Prop :=
      MemSame s t ∧ RegsSame s t ∧ (∀ x, x ≠ s.me → t.dev.ctx x = s.dev.ctx x) ∧
      (∀ o, bits a 21 0 ≤ o → o < bits a 21 0 + bs.length →
        heldSpByte ((t.dev.ctx s.me).drains.flatMap (·.2)) core o = none) ∧
      ∀ c o, (t.dev.core c).spByte o =
        if (c = core ∨ (s.binding.prot = true ∧ c = core + 2)) ∧ bits a 21 0 ≤ o ∧ o < bits a 21 0 + bs.length then
          bs.getD (o - bits a 21 0) 0 else (s.dev.core c).spByte o
    (loads sa 8 8 → Completes (exec (.spl r base off ma) s) fun t => WritesScalar s t r (word (ofBytes (bytes sa 8)))) ∧
    (loads (va 4 voff) 256 64 → Completes (exec (.vldp r base tag voff ma) s) fun t =>
      VectorIs s t r ⟨BitVec.ofNat 2048 (ofBytes (bytes (va 4 voff) 256)), tag⟩ ∧ OnlyMe s t ∧ RegsSame s t) ∧
    (names sa 8 8 → s.holding = false → Completes (exec (.sps r base off ma) s) fun t =>
      stored t sa (toBytes (s.sreg r).toNat 8)) ∧
    (names (va 8 off) 256 64 → s.holding = false → Completes (exec (.vstp r base off ma) s) fun t =>
      stored t (va 8 off) (toBytes (s.vreg r).bits.toNat 256))

/-- R94 and R250 to R252: `TRANS` writes what the window says of an address: its page size, whether it is remote or served
by the stack's weight SRAM, its line, and else its pseudo-channel with the lowest slot that the plan gives the core there;
`PREF` never traps and `FENCE` changes nothing but what it waits for; none changes a byte of memory. -/
def Obligations.TransPrefFence : Prop :=
  ∀ (s : State) (d a b : BitVec 6),
    let va := s.sreg a + s.sreg b
    (∀ e, findEnt (s.binding.seen s.dev.cycle) va = some e → e.ab = false →
      Completes (exec (.trans d a b) s) fun t => ∃ v : Word, WritesScalar s t d v ∧
        let pa := e.pa va
        let far := isRemote pa
        let near := !far && s.dev.fromWeightSram (coreOf s.me) pa e.kind
        let owns (j : Nat) : Bool := entryOwns (planEntry (s.dev.hbm (hbmOf pa)).plan (pchOf pa) j) (coreOf s.me)
        v.extractLsb' 62 2 = e.sz ∧ v.getLsbD 46 = far ∧ v.getLsbD 47 = near ∧
        (v.extractLsb' 0 46).toNat = pa / 64 % 2 ^ 46 ∧
        ((far || near) = true → v.extractLsb' 48 14 = 0) ∧
        ((far || near) = false → (v.extractLsb' 49 9).toNat = pchOf pa ∧
          ((∀ j, j < 16 → owns j = false) → v.getLsbD 48 = false ∧ v.extractLsb' 58 4 = 0) ∧
          ∀ j, j < 16 → owns j = true → (∀ i, i < j → owns i = false) →
            v.getLsbD 48 = true ∧ (v.extractLsb' 58 4).toNat = j)) ∧
    (Completes (exec (.pref a b) s) fun t => MemSame s t ∧ t.dev.ctxs = s.dev.ctxs ∧ t.bundle = s.bundle) ∧
    (Completes (exec .fence s) fun t => OnlyMe s t ∧ t.dev.ctx s.me = { s.dev.ctx s.me with far := [] })

/-! ## Atomics, tasks and synchronisation (R253 to R271) -/

/-- R253 and R254: a returning atomic of an aligned doubleword or word of a live page in local memory writes `d` with the
old value, zero-extended, and memory with the new one, at one stamp; no other byte changes, and its task is pinned. -/
def Obligations.AtomicsReturnTheOldValue : Prop :=
  ∀ (s : State) (d a b : BitVec 6) (p : Piece), s.holding = false → Pinnable s → p.kind = 0 → isRemote p.pa = false →
    (s.dev.line (p.pa / 64)).poison = false →
    let va := s.sreg a
    let swaps (i : Instr) (n : Nat) (new : Nat → Nat → Nat → Nat) : Prop :=
      va.toNat % n = 0 → s.translate va n .atomic = .ok [p] →
      let old := ofBytes (s.dev.bytesUnder p.kid p.pa n)
      let v := new old ((s.sreg b).toNat % 2 ^ (8 * n)) ((s.sreg d).toNat % 2 ^ (8 * n))
      Completes (exec i s) fun t => ScalarIs s t d (word old) ∧ VectorsSame s t ∧
        MemStores s t p.kid p.pa (toBytes v n) ∧ (∀ x, x ≠ s.me → t.dev.ctx x = s.dev.ctx x) ∧ Above (t.dev.ctx s.me).stamp (s.dev.ctx s.me).stamp ∧
        (∀ k, (t.dev.ctx s.me).task = some k → k.pin = .firm)
    let sMin (n x y : Nat) : Nat := if (BitVec.ofNat (8 * n) y).toInt < (BitVec.ofNat (8 * n) x).toInt then y else x
    let sMax (n x y : Nat) : Nat := if (BitVec.ofNat (8 * n) x).toInt < (BitVec.ofNat (8 * n) y).toInt then y else x
    swaps (.amoadd d a b) 8 (fun o x _ => (o + x) % 2 ^ 64) ∧ swaps (.amoaddW d a b) 4 (fun o x _ => (o + x) % 2 ^ 32) ∧
    swaps (.amomin d a b) 8 (fun o x _ => sMin 8 o x) ∧ swaps (.amominW d a b) 4 (fun o x _ => sMin 4 o x) ∧
    swaps (.amomax d a b) 8 (fun o x _ => sMax 8 o x) ∧ swaps (.amomaxW d a b) 4 (fun o x _ => sMax 4 o x) ∧
    swaps (.amominu d a b) 8 (fun o x _ => min o x) ∧ swaps (.amominuW d a b) 4 (fun o x _ => min o x) ∧
    swaps (.amoand d a b) 8 (fun o x _ => Nat.land o x) ∧ swaps (.amoandW d a b) 4 (fun o x _ => Nat.land o x) ∧
    swaps (.amoor d a b) 8 (fun o x _ => Nat.lor o x) ∧ swaps (.amoorW d a b) 4 (fun o x _ => Nat.lor o x) ∧
    swaps (.amoxor d a b) 8 (fun o x _ => Nat.xor o x) ∧ swaps (.amoxorW d a b) 4 (fun o x _ => Nat.xor o x) ∧
    swaps (.amoswp d a b) 8 (fun _ x _ => x) ∧ swaps (.amoswpW d a b) 4 (fun _ x _ => x) ∧
    swaps (.amocas d a b) 8 (fun o x c => if o = c then x else o) ∧
    swaps (.amocasW d a b) 4 (fun o x c => if o = c then x else o)

/-- R255 and R256: a reduction of an address that translates for a store is held with the task's stores, outside a
protected segment, and memory does not change before the task commits; when it is applied it leaves the sum, or the
smaller or larger of the signed values, modulo the width; `RED.FADD` leaves the exact sum of the FP32 values rounded once
to the nearest, ties to even, and the canonical NaN where one is a NaN. -/
def Obligations.ReductionsAreBuffered : Prop :=
  (∀ (s : State) (a b : BitVec 6) (p : Piece) (k : Task), s.holding = false → (s.dev.ctx s.me).task = some k →
    (p.kind = 1 → k.span = none → k.pin = .none ∧ k.sel = none) →
    let va := s.sreg a
    let B := s.sreg b
    let reduces (i : Instr) (n : Nat) (kind : BufKind) : Prop :=
      let op : BufOp := { va := va.toNat, pa := p.pa, kind := kind, versioned := p.kind == 1, kid := p.kid }
      let k' := withBuffer k (bufferOp (bufferOf k) op)
      va.toNat % n = 0 → s.translate va n .store = .ok [p] → k'.lines.length ≤ 1024 →
        Completes (exec i s) fun t => OnlyMe s t ∧ t.dev.ctx s.me = { s.dev.ctx s.me with task := some k' }
    reduces (.redAdd a b) 8 (.redAdd 8 B) ∧ reduces (.redMin a b) 8 (.redMin 8 B) ∧ reduces (.redMax a b) 8 (.redMax 8 B) ∧
    reduces (.redFadd a b) 4 (.redFadd [B.setWidth 32])) ∧
  (∀ (old : List Byte) (v : Word), old.length = 8 →
    (BufKind.redAdd 8 v).apply old = toBytes ((ofBytes old + v.toNat) % 2 ^ 64) 8 ∧
    ofBytes ((BufKind.redMin 8 v).apply old) =
      (if (BitVec.ofNat 64 (ofBytes old)).toInt ≤ v.toInt then ofBytes old else v.toNat) ∧
    ofBytes ((BufKind.redMax 8 v).apply old) =
      (if (BitVec.ofNat 64 (ofBytes old)).toInt < v.toInt then v.toNat else ofBytes old)) ∧
  ∀ (old : List Byte) (v : Word32), old.length = 4 →
    let sum (vs : List Word32) : Val := vs.foldl (fun x y => (Val.add 0 x (fp32.decode y.toNat)).1) (fp32.decode (ofBytes old))
    (∀ vs, (BufKind.redFadd vs).apply old = toBytes (roundTo fp32 0 false 0 (sum vs)).code 4) ∧
    ((fp32.decode (ofBytes old)).isNan = true ∨ (fp32.decode v.toNat).isNan = true →
      (BufKind.redFadd [v]).apply old = toBytes 0x7FC00000 4)

/-- R259 and R260: `TSPAWN` names a record of a live page, which the task's commit decrements; a 33rd name traps SPAWNOVF.
`TDEC` and `TADD` change the count of a task record in local memory, outside a protected segment, when the new count lies
in 0 to 65,535, re-arming the record where an earlier binding wrote it; a count out of range traps COUNT with the old one, in
protected mode after the bundle's commit. -/
def Obligations.RecordsAreNamedAndCounted : Prop :=
  ∀ (s : State) (a b : BitVec 6) (p : Piece), (s.sreg a).toNat % 64 = 0 → p.kind = 0 →
    (∀ k : Task, (s.dev.ctx s.me).task = some k → s.translate (s.sreg a) 8 .store = .ok [p] →
      (k.spawns.length < 32 → Completes (exec (.tspawn a) s) fun t => OnlyMe s t ∧
        t.dev.ctx s.me = { s.dev.ctx s.me with task := some { k with spawns := k.spawns ++ [(s.sreg a).toNat] } }) ∧
      (32 ≤ k.spawns.length → exec (.tspawn a) s = .next (s.stopped (.trap 0x15 (s.sreg a))))) ∧
    (s.holding = false → Pinnable s → isRemote p.pa = false → (s.dev.line (p.pa / 64)).poison = false → p.pa % 64 = 0 →
      (s.dev.block s.blk).get fTrapva ≠ 0 → s.translate (s.sreg a) 8 .atomic = .ok [p] →
      let w := rearm s.binding.bseq (recOf (s.dev.bytesUnder p.kid p.pa 64))
      let old := bits w.1 15 0
      let recorded (t : State) (w0 : Word) : Prop := (∀ x, x ≠ s.me → t.dev.ctx x = s.dev.ctx x) ∧
        (∀ x, t.dev.byteUnder p.kid x =
          if p.pa ≤ x ∧ x < p.pa + 8 then (toBytes w0.toNat 8).getD (x - p.pa) 0
          else if p.pa + 24 ≤ x ∧ x < p.pa + 32 then (toBytes w.2.toNat 8).getD (x - (p.pa + 24)) 0
          else s.dev.byteUnder p.kid x) ∧
        ∀ x, x / 64 ≠ p.pa / 64 → rdByte t.dev.mem x = rdByte s.dev.mem x
      let counts (i : Instr) (delta : Int) : Prop :=
        (0 ≤ (old : Int) + delta → (old : Int) + delta ≤ 65535 →
          Completes (exec i s) fun t => RegsSame s t ∧ VectorsSame s t ∧
            recorded t (setBits w.1 15 0 (old + delta).toNat)) ∧
        ((old : Int) + delta < 0 ∨ 65535 < (old : Int) + delta →
          (s.binding.prot = false → exec i s = .next (s.stopped (.trap 0x0B (word old)))) ∧
          (s.binding.prot = true → Completes (exec i s) fun t => RegsSame s t ∧ VectorsSame s t ∧ recorded t w.1 ∧
            t.bun.after = some (s.bun.after.getD ⟨s.bun.slot, 0x0B, word old, 0⟩)))
      counts (.tdec a) (-1) ∧ counts (.tadd a b) (s.sreg b).toInt)

/-- R262: outside a protected segment, `BARR` and `BARW` arrive at a declared barrier: the last arrival of a phase
completes it and starts the next, any other is counted. `BARW` returns at once when it completes the phase and waits
after its bundle otherwise; `BWAIT` returns when nothing is owed or the phase it arrived in is over. -/
def Obligations.BarriersCountArrivals : Prop :=
  ∀ (s : State) (h : BitVec 8) (k : Binding) (x : Barrier), s.holding = false → Pinnable s →
    s.dev.binding s.blk = some k → mfind k.bars h.toNat = some x → x.faulted = false →
    (mget {} s.ctx0.bars h.toNat).bfault = false →
    let mine (t : State) : Mine := mget {} (t.dev.ctx s.me).bars h.toNat
    let arrived (t : State) : Prop := RegsSame s t ∧ VectorsSame s t ∧ MemSame s t ∧
      ∃ k' x', t.dev.binding s.blk = some k' ∧ mfind k'.bars h.toNat = some x' ∧ x'.need = x.need ∧
        (x.got + 1 < x.need → x'.got = x.got + 1 ∧ x'.done = x.done) ∧
        (x.need ≤ x.got + 1 → x'.got = 0 ∧ x'.done = x.done + 1 ∧ Above x'.stamp (s.dev.ctx s.me).stamp)
    (Completes (exec (.barr h) s) fun t => arrived t ∧ (mine t).owed = true ∧ (mine t).mine = x.done) ∧
    (Completes (exec (.barw h) s) fun t => arrived t ∧
      (x.need ≤ x.got + 1 → (mine t).owed = false ∧ t.bun.waits = s.bun.waits) ∧
      (x.got + 1 < x.need → (mine t).owed = true ∧ t.bun.waits = s.bun.waits ++ [.barrierThen h.toNat s.bun.slot])) ∧
    ((mine s).owed = false → Completes (exec (.bwait h) s) fun t => { t with bundle := s.bundle } = s) ∧
    ((mine s).owed = true → (mine s).mine ≠ x.done → Completes (exec (.bwait h) s) fun t => OnlyMine s t ∧
      RegsSame s t ∧ (mine t).owed = false ∧ x.stamp ≤ (t.dev.ctx s.me).floor)

/-- R264: outside a protected segment, `QPUT` and `QEOS` append to a declared queue with room, of which the core is the
producer; `QGET` removes the oldest entry, which an earlier cycle put, and delivers its vector with its tag, or for the
end-of-stream token clears the predicate of the stream level that names the queue. -/
def Obligations.StreamQueues : Prop :=
  ∀ (s : State) (q d b : BitVec 6) (k : Binding) (x : StreamQ), s.holding = false → Pinnable s →
    s.dev.binding s.blk = some k → mfind k.queues q.toNat = some x →
    let own := k.lcell (cellOf (coreOf s.me)) * 2 + coreOf s.me % 2
    let room := x.ents.length + (x.took.filter (· == s.dev.cycle)).length < x.cap
    let ents (t : State) : Option (List QEnt) :=
      (t.dev.binding s.blk).bind fun k => (mfind k.queues q.toNat).map fun x => x.ents
    (x.prod = own → room → Completes (exec (.qput q b) s) fun t => RegsSame s t ∧ VectorsSame s t ∧ MemSame s t ∧
      ∃ st, Above st (s.dev.ctx s.me).stamp ∧
        ents t = some (x.ents ++ [{ token := false, v := s.vreg b, stamp := st, cyc := s.dev.cycle }])) ∧
    (x.prod = own → room → Completes (exec (.qeos q) s) fun t => RegsSame s t ∧ VectorsSame s t ∧ MemSame s t ∧
      ∃ st, Above st (s.dev.ctx s.me).stamp ∧
        ents t = some (x.ents ++ [{ token := true, v := {}, stamp := st, cyc := s.dev.cycle }])) ∧
    (∀ e r, x.cons = own → x.ents = e :: r → e.cyc < s.dev.cycle →
      (e.token = false → Completes (exec (.qget d q) s) fun t => ents t = some r ∧ VectorIs s t d e.v ∧ RegsSame s t ∧
        MemSame s t) ∧
      (∀ p, e.token = true → s.ctx0.regs.streamPred q.toNat = some p →
        Completes (exec (.qget d q) s) fun t => ents t = some r ∧ VectorsSame s t ∧ MemSame s t ∧
          (p ≠ 0 → (t.dev.ctx s.me).regs.preg p = false)))

/-- R265: outside a protected segment, `VFPUT` puts a vector in the vertical FIFO of its cell that leads away from its core
and gives the free count after it, and `VFGET` takes the oldest vector of the one that leads to its core. R387: the count
that an earlier put of the same cycle gave follows a later put or removal of the cycle. -/
def Obligations.VerticalFifos : Prop :=
  ∀ (s : State) (d b : BitVec 6), s.holding = false → Pinnable s →
    let cell := s.dev.cell (cellOf (coreOf s.me))
    let lower := coreOf s.me % 2 = 0
    let put := if lower then cell.up else cell.down
    let get := if lower then cell.down else cell.up
    let after (t : State) : Cell := t.dev.cell (cellOf (coreOf s.me))
    lowerOnly s.binding.shape.toNat = false → cell.gated = false → cell.ungating = false →
    let counted (f : Fifo) : List PutNote := f.notes.filter fun n => n.cyc == s.dev.cycle
    let moved (t : State) (by_ : Word) (n : PutNote) : Prop := n.agent ≠ s.me → (t.dev.ctx n.agent).regs.sreg n.reg =
      if n.reg = 0 then 0 else (s.dev.ctx n.agent).regs.sreg n.reg + by_
    (put.ents.length + (put.took.filter (· == s.dev.cycle)).length < 16 →
      Completes (exec (.vfput d b) s) fun t => (counted put = [] → ScalarIs s t d (word (15 - put.ents.length))) ∧
        (∀ n, counted put = [n] → moved t (BitVec.allOnes 64) n) ∧ VectorsSame s t ∧ MemSame s t ∧
        ∃ st, (if lower then (after t).up else (after t).down).ents =
          put.ents ++ [{ v := s.vreg b, stamp := st, cyc := s.dev.cycle }]) ∧
    (∀ e r, get.ents = e :: r → e.cyc < s.dev.cycle →
      Completes (exec (.vfget d) s) fun t => VectorIs s t d e.v ∧ MemSame s t ∧ (counted get = [] → RegsSame s t) ∧
        (∀ n, counted get = [n] → moved t 1 n) ∧ (if lower then (after t).down else (after t).up).ents = r)

/-- R266: `TLW` of a number that its engine context has issued, that no operation of the task itself still holds and that the
timeline has reached completes, and `TLR` writes the timeline's counter; both only when no fault is due (R437). -/
def Obligations.TimelineWaits : Prop :=
  ∀ (s : State) (e : BitVec 3) (a d : BitVec 6),
    let tl : Timeline := mget {} (s.dev.ctx s.me).tls e.toNat
    let n := (s.sreg a).toNat
    tl.fault = [] →
    (n ≤ tl.issued → n ≤ tl.counter → (s.dev.ops.all fun o => !(o.held && o.agent == s.me && o.e == e.toNat)) = true →
      Completes (exec (.tlw e a) s) fun t => RegsSame s t ∧ VectorsSame s t ∧ MemSame s t ∧
        (∀ x, x ≠ s.me → t.dev.ctx x = s.dev.ctx x) ∧
        (∀ st, (n, st) ∈ tl.stamps → st ≤ (t.dev.ctx s.me).floor)) ∧
    (Completes (exec (.tlr d e) s) fun t => ScalarIs s t d (word tl.counter) ∧ VectorsSame s t ∧ MemSame s t ∧
      (∀ x, x ≠ s.me → t.dev.ctx x = s.dev.ctx x))

/-- R138 and R268: `TXB` opens a transaction with a snapshot stamp and nothing buffered; `TXA` closes it and drops its
stores; `TXC` closes it, writing `d` with 1 and publishing nothing when validation fails. -/
def Obligations.TransactionsOpenAndClose : Prop :=
  ∀ (s : State) (d : BitVec 6) (k : Task), (s.dev.ctx s.me).task = some k → s.holding = false →
    (s.dev.ctx s.me).seg.held = [] →
    (k.span = none → k.sel = none → Completes (exec .txb s) fun t => RegsSame s t ∧ MemSame s t ∧
      ∃ sx, Above sx (s.dev.ctx s.me).stamp ∧
        (t.dev.ctx s.me).task = some { k with span := some { sx := sx }, snapS := some (k.snapS.getD sx) }) ∧
    (∀ q, k.span = some q →
      (Completes (exec .txa s) fun t => OnlyMe s t ∧ RegsSame s t ∧
        (t.dev.ctx s.me).task = some { k with span := none }) ∧
      (s.spanFails q.buf = true → Completes (exec (.txc d) s) fun t => ScalarIs s t d 1 ∧ MemSame s t ∧
        ∃ k', (t.dev.ctx s.me).task = some k' ∧ k'.span = none ∧ k'.buf = k.buf) ∧
      (s.spanFails q.buf = false → Pinnable s → Completes (exec (.txc d) s) fun t => ScalarIs s t d 0 ∧
        ∃ k', (t.dev.ctx s.me).task = some k' ∧ k'.span = none ∧ k'.buf = k.buf ∧ k'.pin = .firm))

/-- R138, R55 and R268: a successful `TXC` publishes the transaction's stores: each byte they hold is memory's, and every
other byte is as before; reductions are applied to what memory holds. -/
def Obligations.CommittedTransactionsAreVisible : Prop :=
  ∀ (s : State) (d : BitVec 6) (k : Task) (q : Span), (s.dev.ctx s.me).task = some k → s.holding = false →
    (s.dev.ctx s.me).seg.held = [] → k.span = some q → Pinnable s → s.spanFails q.buf = false →
    Completes (exec (.txc d) s) fun t => MemHolds s t q.buf ∧ t.dev.mem = (s.dev.applied q.buf).mem

/-- R142, R145, R269 and R270: `SNAP` takes the lowest FREE handle with the table's next generation and gives both; with
drain it starts a drain; `SNAPREL` frees a HELD handle and marks a DRAINING one; `SNAPSEL` selects a handle, or none. -/
def Obligations.SnapshotsTakeAndRelease : Prop :=
  ∀ (s : State) (d a : BitVec 6) (h : Nat), s.holding = false → Pinnable s →
    let b := if s.mode = 2 then devTable else s.blk
    let n := (s.sreg a).toNat % 16
    (s.dev.freeHandle b = some h →
      (Completes (exec (.snap d false) s) fun t => MemSame s t ∧
        (t.dev.snap b h).state = 1 ∧ (t.dev.snap b h).gen = mget 0 s.dev.tab.snapGen b + 1 ∧
        Above (t.dev.snap b h).st (s.dev.ctx s.me).stamp ∧
        ScalarIs s t d (word ((mget 0 s.dev.tab.snapGen b + 1).toNat * 2 ^ 32 + h))) ∧
      (s.mode ≠ 2 → Completes (exec (.snap d true) s) fun t => MemSame s t ∧
        (t.dev.snap b h).state = 2 ∧ (t.dev.snap b h).gen = mget 0 s.dev.tab.snapGen b + 1 ∧
        ScalarIs s t d (word ((mget 0 s.dev.tab.snapGen b + 1).toNat * 2 ^ 32 + h)))) ∧
    (n ≠ 0 → (s.dev.snap b n).state = 1 →
      Completes (exec (.snaprel a) s) fun t => MemSame s t ∧ RegsSame s t ∧ (t.dev.snap b n).state = 0) ∧
    (n ≠ 0 → (s.dev.snap b n).state = 2 →
      Completes (exec (.snaprel a) s) fun t => MemSame s t ∧ RegsSame s t ∧ (t.dev.snap b n).state = 3) ∧
    (s.spanOpen = false → (n = 0 ∨ (s.dev.snap b n).state = 1 ∨ (s.dev.snap b n).state = 2) →
      Completes (exec (.snapsel a) s) fun t => OnlyMe s t ∧ RegsSame s t ∧
        ∀ k, (t.dev.ctx s.me).task = some k →
          k.sel = if n = 0 then none else some { dev := s.mode == 2, handle := n })

/-- R53, R228, R239 and R261: a task whose commit passes its validation ends: after `END` its context is VACANT, after
`HALT` in system mode HALTED, and after `NTR` it begins a task on the next tile, or on the null tile when none is left,
with both loop levels inactive. -/
def Obligations.TasksCommitAndEnd : Prop :=
  ∀ (s : State) (k : Task) (b : Binding), Commits s k → s.dev.binding k.blk = some b →
    (Completes (exec .endTask s) fun t => (t.dev.ctx s.me).task = none ∧ (t.dev.ctx s.me).run = .vacant) ∧
    (s.mode = 2 → Completes (exec .halt s) fun t => (t.dev.ctx s.me).task = none ∧ (t.dev.ctx s.me).run = .halted) ∧
    (s.mode ≠ 1 → Completes (exec .ntr s) fun t =>
      let c := t.dev.ctx s.me
      c.regs.lpc0 = 0 ∧ c.regs.lpc1 = 0 ∧ ∃ k', c.task = some k' ∧ k'.blk = k.blk ∧ k'.tiled = true ∧ k'.buf = [] ∧
        k'.spawns = [] ∧ k'.pin = .none ∧
        k'.tile = (if b.tile < b.tx * b.ty * b.tz then
            word (b.tile % b.tx + 2 ^ 16 * (b.tile / b.tx % b.ty) + 2 ^ 32 * (b.tile / (b.tx * b.ty)))
          else word (2 ^ 63)))

/-- R53, R55, R228, R239 and R261: the stores of a task reach memory when it ends, by `END`, by `HALT` in system mode or by
`NTR`, each byte as the newest buffered store left it; reductions are applied to what memory holds, and no other byte
changes but in the lines of the records whose counts the commit decrements: those of the task's successor list and those
that its `TSPAWN`s name. That a task of a dispensed tile has no successor list is the model's choice (log entry 23): where it
has named no record either, no other byte changes at all. -/
def Obligations.CommittedStoresReachMemory : Prop :=
  ∀ (s : State) (k : Task) (b : Binding), Commits s k → s.dev.binding k.blk = some b →
    let published := (s.dev.applied k.buf).mem
    let ends (i : Instr) : Prop := Completes (exec i s) fun t =>
      (∀ a, (∀ n es, (s.dev.applied k.buf).successors b n k = .ok es →
          a / 64 ∉ recordLines b (es ++ k.spawns.map fun v => word (v % 2 ^ 57))) →
        rdByte t.dev.mem a = rdByte published a) ∧
      (k.tiled = true → k.spawns = [] → t.dev.mem = published ∧ MemHolds s t k.buf)
    ends .endTask ∧ (s.mode = 2 → ends .halt) ∧ (s.mode ≠ 1 → ends .ntr)

/-! ## Vectors (R272 to R293) -/

/-- R272 to R275, R163 and R164: floating-point arithmetic on two sources of one tag. Each element in an active lane is the
exact result rounded once, by the mode of `fcsr` before the bundle; the others are kept. It raises in `fcsr` the flags of
that rounding and `nv` for an invalid operation, for active lanes alone, and nothing but `d` and the sticky flags changes.
`VFMA` and `VFMS` round a product and a sum once. -/
def Obligations.VectorArithmeticRoundsOnce : Prop :=
  ∀ (s : State) (d a b : BitVec 6) (k : BitVec 3) (t : Nat), t = 5 ∨ t = 6 ∨ t = 7 → s.tagOf a = t → s.tagOf b = t →
    let w := if t = 5 then 32 else 16
    let f := fmtOf t
    let rm := (s.ctx0.regs.fcsr.extractLsb' 0 3).toNat
    let el (r : BitVec 6) (i : Nat) : Val := f.decode (elCode (s.vreg r).bits w i)
    let gives (ins : Instr) (exact : Nat → Val × Flags) : Prop :=
      Completes (exec ins s) fun u => ∃ sd : Nat → BitVec 32,
        MaskedLanes s u d k w t (fun i c => c = (roundTo f rm false (sd i) (exact i).1).code % 2 ^ w) ∧
        Raises s u (SomeLane s k w fun i => (roundTo f rm false (sd i) (exact i).1).flags ||| (exact i).2)
    gives (.vadd d a b k) (fun i => Val.add rm (el a i) (el b i)) ∧
    gives (.vsub d a b k) (fun i => Val.add rm (el a i) (el b i).neg) ∧
    gives (.vmul d a b k) (fun i => Val.mul (el a i) (el b i)) ∧
    gives (.vmin d a b k) (fun i => (pickVal false (el a i) (el b i), 0)) ∧
    gives (.vmax d a b k) (fun i => (pickVal true (el a i) (el b i), 0)) ∧
    (s.tagOf d = t →
      gives (.vfma d a b k) (fun i => Val.fma rm (el a i) (el b i) (el d i)) ∧
      gives (.vfms d a b k) (fun i => Val.fma rm (el a i) (el b i) (el d i).neg) ∧
      ∀ i, (Val.fma rm (el a i) (el b i) (el d i)).1 = (Val.add rm (Val.mul (el a i) (el b i)).1 (el d i)).1)

/-- R276, R277 and the table of R170: the unary instructions on floating-point elements, with the flags of R163. `VNEG` and
`VABS` change the sign bit alone and give the canonical NaN for a NaN; `VSQRT` rounds once; `VRCP`, `VRSQ`, `VEXP`, `VLOG`
and `VTANH` give the special results of the table and otherwise one of the two values `faithfulFin` gives, by a choice of
the device that depends on the operand alone. These two are one, or neighbours of one sign; for `VRCP` and `VRSQ` they are
the neighbours of the exact value, which is delivered where the format holds it. A value beyond the largest finite one is
the infinity, which is the model's choice (log entry 107). `VCLASS` gives the class code as an integer and raises no flag. -/
def Obligations.VectorUnary : Prop :=
  ∀ (s : State) (d a : BitVec 6) (k : BitVec 3) (t : Nat), s.tagOf a = t →
    let w := elWidth t
    let f := fmtOf t
    let code (i : Nat) : Nat := elCode (s.vreg a).bits w i
    let gives (ins : Instr) (tag : Nat) (res : Nat → Nat → Prop) (fl : Nat → Flags) : Prop :=
      Completes (exec ins s) fun u => MaskedLanes s u d k w tag (fun i c => res (code i) c) ∧ Raises s u (SomeLane s k w fl)
    let faithful (ins : Instr) (fn : Faithful) : Prop :=
      gives ins t (fun x c => c = (faithfulOp f fn x).1 % 2 ^ w) fun i => (faithfulOp f fn (code i)).2
    let sign (neg : Bool) (x : Nat) : Nat := if neg then x + 2 ^ (w - 1) else x
    (t ∈ [5, 6, 7] →
      gives (.vneg d a k) t (fun x c => c = if (f.decode x).isNan then f.nan
        else if x < 2 ^ (w - 1) then x + 2 ^ (w - 1) else x - 2 ^ (w - 1)) (fun _ => 0) ∧
      gives (.vabs d a k) t (fun x c => c = if (f.decode x).isNan then f.nan else x % 2 ^ (w - 1)) (fun _ => 0) ∧
      (∃ sd : Nat → BitVec 32, Completes (exec (.vsqrt d a k) s) fun u =>
        MaskedLanes s u d k w t (fun i c => c = (sqrtOp f s.rm (sd i) (code i)).code % 2 ^ w) ∧
        Raises s u (SomeLane s k w fun i => (sqrtOp f s.rm (sd i) (code i)).flags)) ∧
      faithful (.vrcp d a k) .rcp ∧ faithful (.vrsq d a k) .rsq ∧ faithful (.vexp d a k) .exp ∧
      faithful (.vlog d a k) .log ∧ faithful (.vtanh d a k) .tanh ∧
      (∀ fn x, (∀ neg m e, f.decode x = .fin neg m e → m ≠ 0 → ∃ up, faithfulOp f fn x = faithfulFin f fn up neg m e) ∧
        (f.decode x = .nan → faithfulOp f fn x = (f.nan, 0))) ∧
      (∀ fn x neg m e, f.decode x = .fin neg m e → m ≠ 0 →
        let low := (faithfulFin f fn false neg m e).1
        let high := (faithfulFin f fn true neg m e).1
        high = low ∨ high = low + 1) ∧
      (∀ x neg m e, f.decode x = .fin neg m e → m ≠ 0 →
        let one : Val := .fin false 1 0
        let encloses (low high : Nat) (times : Nat → Val) : Prop :=
          low = high ∧ (Val.eq (times low) one = true ∨
            low = f.infCode neg ∧ Val.lt (times (sign neg f.top)) one = true) ∨
          high = low + 1 ∧ Val.lt (times low) one = true ∧ Val.lt one (times high) = true
        encloses (faithfulFin f .rcp false neg m e).1 (faithfulFin f .rcp true neg m e).1
          (fun c => (Val.mul (f.decode c) (f.decode x)).1) ∧
        (neg = false → encloses (faithfulFin f .rsq false neg m e).1 (faithfulFin f .rsq true neg m e).1
          (fun c => (Val.mul (Val.mul (f.decode c) (f.decode c)).1 (f.decode x)).1))) ∧
      (∀ x neg e, f.decode x = .fin neg 0 e →
        faithfulOp f .rcp x = (sign neg (f.infCode false), fDz) ∧ faithfulOp f .rsq x = (sign neg (f.infCode false), fDz) ∧
        faithfulOp f .exp x = (f.bias * 2 ^ f.mb, 0) ∧ faithfulOp f .log x = (sign true (f.infCode false), fDz) ∧
        faithfulOp f .tanh x = (sign neg 0, 0)) ∧
      (∀ x neg, f.decode x = .inf neg →
        faithfulOp f .rcp x = (sign neg 0, 0) ∧ faithfulOp f .rsq x = (if neg then (f.nan, fNv) else (0, 0)) ∧
        faithfulOp f .exp x = (if neg then 0 else f.infCode false, 0) ∧
        faithfulOp f .log x = (if neg then (f.nan, fNv) else (f.infCode false, 0)) ∧
        faithfulOp f .tanh x = (sign neg (f.bias * 2 ^ f.mb), 0)) ∧
      (∀ x m e, f.decode x = .fin true m e → m ≠ 0 →
        faithfulOp f .rsq x = (f.nan, fNv) ∧ faithfulOp f .log x = (f.nan, fNv))) ∧
    (t ∈ [5, 6, 7, 8, 9] →
      gives (.vclass d a k) (if w = 32 then 4 else if w = 16 then 3 else 1) (fun x c =>
        (f.decode x = .nan → c = 8) ∧ (f.decode x = .inf true → c = 0) ∧ (f.decode x = .inf false → c = 7) ∧
        (∀ neg m e, f.decode x = .fin neg m e →
          c = if m = 0 then (if neg then 3 else 4)
            else if x / 2 ^ f.mb % 2 ^ f.eb = 0 then (if neg then 2 else 5) else (if neg then 1 else 6))) (fun _ => 0))

/-- R276, R280, R282, R287, R292 and R293: the instructions on lanes of 32 bits: the bitwise ones, the copies and the hash,
`VSEL`, the movements and the mask logic. None raises a flag. -/
def Obligations.LanesAndMasks : Prop :=
  ∀ (s : State) (d a b : BitVec 6) (k : BitVec 3) (ka kb kd : BitVec 3),
    let lane (r : BitVec 6) (l : Nat) : Nat := elCode (s.vreg r).bits 32 l
    let quiet (u : State) : Prop := Raises s u fun _ => False
    let masked (ins : Instr) (tag : Nat) (f : Nat → Nat) : Prop :=
      Completes (exec ins s) fun u => MaskedLanes s u d k 32 tag (fun l c => c = f l) ∧ quiet u
    let whole (ins : Instr) (tag : Nat) (f : Nat → Nat) : Prop :=
      Completes (exec ins s) fun u => OnlyVector s u d ∧ quiet u ∧ (vnew s u d).tag.toNat = tag ∧
        ∀ l, l < 64 → elCode (vnew s u d).bits 32 l = f l
    (s.tagOf a ≤ 13 →
      masked (.vnot d a k) (s.tagOf a) (fun l => 2 ^ 32 - 1 - lane a l) ∧
      masked (.vmovs d a k) (s.tagOf a) (fun l => lane a l) ∧
      masked (.vhash d a k) 4 (fun l =>
        let h0 : BitVec 32 := BitVec.ofNat 32 (lane a l)
        let h1 := (h0 ^^^ (h0 >>> 16)) * 0x6A3D9B27
        let h2 := (h1 ^^^ (h1 >>> 15)) * 0x9E15C4B3
        (h2 ^^^ (h2 >>> 16)).toNat)) ∧
    masked (.vand d a b k) (s.tagOf a) (fun l => Nat.land (lane a l) (lane b l)) ∧
    masked (.vor d a b k) (s.tagOf a) (fun l => Nat.lor (lane a l) (lane b l)) ∧
    masked (.vxor d a b k) (s.tagOf a) (fun l => Nat.xor (lane a l) (lane b l)) ∧
    (s.tagOf b = 0 ∨ s.tagOf b = 4 → masked (.vshuf d a b k) (s.tagOf a) (fun l => lane a (lane b l % 64))) ∧
    (s.tagOf b = s.tagOf a →
      whole (.vsel d a b k) (s.tagOf a) (fun l => if (s.kreg k).getLsbD l then lane a l else lane b l)) ∧
    whole (.vrot d a b) (s.tagOf a) (fun l => lane a ((l + b.toNat) % 64)) ∧
    whole (.vslide d a b) (s.tagOf a) (fun l =>
      let j := (l : Int) + (s.sreg b).toInt
      if 0 ≤ j ∧ j < 64 then lane a j.toNat else 0) ∧
    whole (.vbcast d a) 0 (fun _ => (s.sreg a).toNat % 2 ^ 32) ∧
    whole (.vins d a b) (s.tagOf d) (fun l => if l = b.toNat then (s.sreg a).toNat % 2 ^ 32 else lane d l) ∧
    (Completes (exec (.vext d a b) s) fun u => WritesScalar s u d (word (lane a b.toNat))) ∧
    (Completes (exec (.kand kd ka kb) s) fun u => WritesMask s u kd (s.kreg ka &&& s.kreg kb)) ∧
    (Completes (exec (.kor kd ka kb) s) fun u => WritesMask s u kd (s.kreg ka ||| s.kreg kb)) ∧
    (Completes (exec (.knot kd ka) s) fun u => WritesMask s u kd (~~~(s.kreg ka))) ∧
    (Completes (exec (.kpop d ka) s) fun u =>
      WritesScalar s u d (word ((List.range 64).countP fun i => (s.kreg ka).getLsbD i)))

/-- R168, R278 and R279: integer arithmetic and shifts on two sources of one integer tag. A result in range is written; one
out of range is clamped and raises `sf` when `fcsr.sat` is set, and wraps when it is clear. A shift count is taken modulo
the width. No other flag is raised. -/
def Obligations.VectorIntegers : Prop :=
  ∀ (s : State) (d a b : BitVec 6) (k : BitVec 3) (t w : Nat) (lo hi : Int),
    (t, w, lo, hi) ∈ [(1, 8, -128, 127), (2, 8, 0, 255), (3, 16, -32768, 32767), (4, 32, -2147483648, 2147483647),
      ((13 : Nat), (4 : Nat), (-8 : Int), (7 : Int))] →
    s.tagOf a = t → s.tagOf b = t →
    let num (r : BitVec 6) (i : Nat) : Int :=
      if t = 2 then (elCode (s.vreg r).bits w i : Int) else (BitVec.ofNat w (elCode (s.vreg r).bits w i)).toInt
    let sat := s.ctx0.regs.fcsr.getLsbD 4
    let gives (ins : Instr) (exact : Nat → Int) : Prop :=
      Completes (exec ins s) fun u => MaskedLanes s u d k w t (fun i c =>
        (c : Int) = (if sat then max lo (min hi (exact i)) else exact i) % 2 ^ w) ∧
        Raises s u (SomeLane s k w fun i => if sat = true ∧ (exact i < lo ∨ hi < exact i) then fSf else 0)
    let shifts (ins : Instr) (f : Nat → Nat → Nat) : Prop :=
      Completes (exec ins s) fun u => MaskedLanes s u d k w t (fun i c =>
        c = f (elCode (s.vreg a).bits w i) (elCode (s.vreg b).bits w i % w)) ∧ Raises s u fun _ => False
    gives (.viadd d a b k) (fun i => num a i + num b i) ∧
    gives (.visub d a b k) (fun i => num a i - num b i) ∧
    gives (.vimul d a b k) (fun i => num a i * num b i) ∧
    gives (.vimin d a b k) (fun i => min (num a i) (num b i)) ∧
    gives (.vimax d a b k) (fun i => max (num a i) (num b i)) ∧
    (s.tagOf d = t → gives (.vimad d a b k) (fun i => num d i + num a i * num b i)) ∧
    shifts (.vshl d a b k) (fun x n => x * 2 ^ n % 2 ^ w) ∧
    shifts (.vshr d a b k) (fun x n => x / 2 ^ n) ∧
    shifts (.vsra d a b k) (fun x n => ((BitVec.ofNat w x).sshiftRight n).toNat)

/-- R281: `VCMP` sets bit L of the destination mask when lane L is active and its condition holds for every element of the
lane; ordered conditions fail on NaN, `NE` holds and `UN` tells it. -/
def Obligations.VectorComparisons : Prop :=
  ∀ (s : State) (kd : BitVec 3) (a b : BitVec 6) (k : BitVec 3) (t : Nat), t ∈ [1, 2, 3, 4, 5, 6, 7, 8, 9, 13] →
    s.tagOf a = t → s.tagOf b = t →
    let w := elWidth t
    let el (r : BitVec 6) (i : Nat) : Val := valOf t (elCode (s.vreg r).bits w i)
    let sets (ins : Instr) (holds : Val → Val → Bool) : Prop :=
      Completes (exec ins s) fun u => ∃ m, WritesMask s u kd m ∧
        ∀ l, l < 64 → (m.getLsbD l = true ↔
          (s.kreg k).getLsbD l = true ∧ ∀ i, 32 * l ≤ i * w → i * w < 32 * l + 32 → holds (el a i) (el b i) = true)
    let nan (x y : Val) : Bool := x.isNan || y.isNan
    sets (.vcmpEq kd a b k) Val.eq ∧ sets (.vcmpNe kd a b k) (fun x y => nan x y || !Val.eq x y) ∧
    sets (.vcmpLt kd a b k) Val.lt ∧ sets (.vcmpLe kd a b k) (fun x y => !nan x y && !Val.lt y x) ∧
    sets (.vcmpGt kd a b k) (fun x y => Val.lt y x) ∧ sets (.vcmpGe kd a b k) (fun x y => !nan x y && !Val.lt x y) ∧
    sets (.vcmpUn kd a b k) nan

/-- R289 to R291: the reductions write element 0 and clear the rest. `VREDSUM` gives the exact sum of the active elements,
rounded once to FP32 or passed through `sat_int`; `VREDMAX` and `VREDMIN` give their largest and smallest under the order
of R170, or the ends of the range where none is active, and `VREDARG` the index of the first NaN or else of the first
largest, or -1. `VSCAN` writes every lane with the sum of the active ones up to it, and `VDOT` adds each active lane's
exact products to the accumulator and rounds or clamps once. Each raises in `fcsr` the flags of its roundings, `nv` for
infinities of both signs or an invalid product, and for a clamp `sf` alone; that a clamp of `VDOT` raises no `nx` is the
model's choice (log entry 107). -/
def Obligations.VectorReductions : Prop :=
  ∀ (s : State) (d a b : BitVec 6) (k : BitVec 3),
    let t := s.tagOf a
    let w := elWidth t
    let rm := s.rm
    let sat := s.ctx0.regs.fcsr.getLsbD 4
    let val (i : Nat) : Val := valOf t (elCode (s.vreg a).bits w i)
    let num (i : Nat) : Int := intOf t (elCode (s.vreg a).bits w i)
    let active : List Nat := (List.range (2048 / w)).filter fun i => (s.kreg k).getLsbD (i * w / 32)
    let first (ins : Instr) (tag : Nat) (res : State → Nat → Prop) : Prop :=
      Completes (exec ins s) fun u => OnlyVector s u d ∧ (vnew s u d).tag.toNat = tag ∧
        res u (elCode (vnew s u d).bits (elWidth tag) 0) ∧ (vnew s u d).bits.toNat < 2 ^ elWidth tag
    let fits (c : Nat) (x : Int) : Prop := (c : Int) = (if sat then max (-2 ^ 31) (min (2 ^ 31 - 1) x) else x) % 2 ^ 32
    let beyond (x : Int) : Prop := sat = true ∧ (x < -2 ^ 31 ∨ 2 ^ 31 ≤ x)
    let near (sd : BitVec 32) (v : Val) : Rounded := roundTo fp32 rm false sd v
    let opposed (l : List Nat) : Prop := (∃ i ∈ l, val i = .inf false) ∧ ∃ i ∈ l, val i = .inf true
    let quiet (u : State) : Prop := Raises s u fun _ => False
    (t ∈ [1, 2, 3, 4] → first (.vredsum d a k) 4 fun u c => fits c (active.map num).sum ∧
      Raises s u fun j => j = 5 ∧ beyond (active.map num).sum) ∧
    (t ∈ [5, 6, 7] → first (.vredsum d a k) 5 fun u c => ∃ sd, c = (near sd (exactSum rm (active.map val))).code % 2 ^ 32 ∧
      Raises s u fun j => (near sd (exactSum rm (active.map val))).flags.getLsbD j = true ∨ j = 4 ∧ opposed active) ∧
    (t ∈ [1, 2, 3, 4, 5, 6, 7, 8, 9, 13] →
      (∀ i r, active = i :: r →
        first (.vredmax d a k) t (fun u c => quiet u ∧ c = exactCode t (r.foldl (fun x j => pickVal true x (val j)) (val i)) % 2 ^ w) ∧
        first (.vredmin d a k) t (fun u c => quiet u ∧ c = exactCode t (r.foldl (fun x j => pickVal false x (val j)) (val i)) % 2 ^ w)) ∧
      (active = [] →
        first (.vredmax d a k) t (fun u c => quiet u ∧
          if isIntTag t then intOf t c = (intRange t).1 else c = (fmtOf t).nan) ∧
        first (.vredmin d a k) t (fun u c => quiet u ∧
          if isIntTag t then intOf t c = (intRange t).2 else c = (fmtOf t).nan)) ∧
      first (.vredarg d a k) 4 (fun u c => quiet u ∧ (active = [] → c = 2 ^ 32 - 1) ∧ (active ≠ [] → c ∈ active ∧
        ((val c).isNan = true → ∀ j ∈ active, j < c → (val j).isNan = false) ∧
        ((val c).isNan = false → ∀ j ∈ active, (val j).isNan = false ∧ Val.below (val c) (val j) = false ∧
          (j < c → Val.below (val j) (val c) = true))))) ∧
    (t ∈ [1, 2, 3, 4, 13] →
      first (.vredmax d a k) t (fun _ c => (∀ i ∈ active, num i ≤ intOf t c) ∧ (active ≠ [] → ∃ i ∈ active, num i = intOf t c)) ∧
      first (.vredmin d a k) t (fun _ c => (∀ i ∈ active, intOf t c ≤ num i) ∧ (active ≠ [] → ∃ i ∈ active, num i = intOf t c))) ∧
    (t = 4 ∨ t = 5 → Completes (exec (.vscan d a k) s) fun u => OnlyVector s u d ∧ (vnew s u d).tag.toNat = t ∧
      let upTo (l : Nat) : List Nat := active.filter fun j => decide (j ≤ l)
      (t = 4 → (∀ l, l < 64 → fits (elCode (vnew s u d).bits 32 l) ((upTo l).map num).sum) ∧
        Raises s u fun j => j = 5 ∧ ∃ l ∈ active, beyond ((upTo l).map num).sum) ∧
      (t = 5 → ∃ sd : Nat → BitVec 32,
        (∀ l, l < 64 → elCode (vnew s u d).bits 32 l = (near (sd l) (exactSum rm ((upTo l).map val))).code % 2 ^ 32) ∧
        Raises s u fun j => ∃ l ∈ active, (near (sd l) (exactSum rm ((upTo l).map val))).flags.getLsbD j = true ∨
          j = 4 ∧ opposed (upTo l))) ∧
    (s.tagOf b = t →
      let wide (l : Nat) : List Nat := (List.range (32 / w)).map fun j => 32 * l / w + j
      (t ∈ [1, 2, 3] → s.tagOf d = 4 →
        let sum (l : Nat) : Int := intOf 4 (elCode (s.vreg d).bits 32 l) +
          ((wide l).map fun i => num i * intOf t (elCode (s.vreg b).bits w i)).sum
        Completes (exec (.vdot d a b k) s) fun u => MaskedLanes s u d k 32 4 (fun l c => fits c (sum l)) ∧
          Raises s u fun j => j = 5 ∧ ∃ l, l < 64 ∧ (s.kreg k).getLsbD l = true ∧ beyond (sum l)) ∧
      (t ∈ [6, 7, 8, 9] → s.tagOf d = 5 →
        let dot (l : Nat) : Val × Flags := (wide l).foldl (fun x i =>
          let y := Val.fma rm (val i) (valOf t (elCode (s.vreg b).bits w i)) x.1
          (y.1, x.2 ||| y.2)) (fp32.decode (elCode (s.vreg d).bits 32 l), 0)
        Completes (exec (.vdot d a b k) s) fun u => ∃ sd : Nat → BitVec 32,
          MaskedLanes s u d k 32 5 (fun l c => c = (near (sd l) (dot l).1).code % 2 ^ 32) ∧
          Raises s u (SomeLane s k 32 fun l => (near (sd l) (dot l).1).flags ||| (dot l).2)))

/-- R283 to R286 and R169: the conversions. `VCVT` of or to a raw register is a retag of its active lanes; between formats it
converts the active elements that both registers hold, rounding once, keeps the inactive ones and clears the rest. `VQNT`
writes each block's scale in the plane `d + 1` and its elements under that scale in `d`, `VDQNT` writes a group of FP32
registers with each element under its block's scale, the register numbers being aligned as R284 and R285 ask, and `VPACKTS`
packs two clamped terms, raising `sf` alone for a clamp. Each raises in `fcsr` the flags of its roundings (R163, R168). That
`sat` governs conversions that do not narrow (BF16 to FP16, E5M2 to E4M3, INT8 to UINT8, INT4 to UINT8), that a term's clamp
raises no `nx`, and where `uf` of a TS8 element begins are the model's choices (log entry 107). -/
def Obligations.VectorConversions : Prop :=
  ∀ (s : State) (d a b : BitVec 6) (u : BitVec 4) (k : BitVec 3),
    let t := s.tagOf a
    let x := u.toNat
    let rm := s.rm
    let sat := s.ctx0.regs.fcsr.getLsbD 4
    (t ∈ [0, 1, 2, 3, 4, 5, 6, 7, 8, 9, 13] → t = 0 ∨ x = 0 →
      Completes (exec (.vcvt d a u k) s) fun v => (Raises s v fun _ => False) ∧
        MaskedLanes s v d k 32 x fun l c => c = elCode (s.vreg a).bits 32 l) ∧
    (t ∈ [1, 2, 3, 4, 5, 6, 7, 8, 9, 13] → x ∈ [1, 2, 3, 4, 5, 6, 7, 8, 9, 13] →
      let src (i : Nat) : Nat := elCode (s.vreg a).bits (elWidth t) i
      let wd := elWidth x
      let done (i : Nat) : Bool := decide (i < 2048 / elWidth t) && (s.kreg k).getLsbD (i * max (elWidth t) wd / 32)
      let wraps (i : Nat) : Prop := intOf t (src i) < (intRange x).1 ∨ (intRange x).2 < intOf t (src i)
      Completes (exec (.vcvt d a u k) s) fun v => OnlyVector s v d ∧ (vnew s v d).tag = u ∧ ∃ sd : Nat → BitVec 32,
        let flag (i j : Nat) : Prop :=
          if t = x then False
          else if isIntTag x = false then (roundTo (fmtOf x) rm sat (sd i) (valOf t (src i))).flags.getLsbD j = true
          else if isIntTag t then j = 5 ∧ sat = true ∧ wraps i
          else (toIntFmt x rm (sd i) (valOf t (src i))).2.1.getLsbD j = true
        (Raises s v fun j => ∃ i, i < 2048 / wd ∧ done i = true ∧ flag i j) ∧ ∀ i, i < 2048 / wd →
        let c := elCode (vnew s v d).bits wd i
        if 2048 / elWidth t ≤ i then c = 0
        else if done i = false then c = elCode (s.vreg d).bits wd i
        else if t = x then c = if isIntTag t = false ∧ ((fmtOf t).decode (src i)).isNan then (fmtOf t).nan else src i
        else if isIntTag x = false then c = (roundTo (fmtOf x) rm sat (sd i) (valOf t (src i))).code % 2 ^ wd
        else if isIntTag t then (c : Int) =
          (if sat then max (intRange x).1 (min (intRange x).2 (intOf t (src i))) else intOf t (src i)) % 2 ^ wd
        else (c : Int) = (toIntFmt x rm (sd i) (valOf t (src i))).1 % 2 ^ wd) ∧
    (x ∈ [10, 11, 12] → d.toNat % 2 = 0 → a.toNat % (if x = 11 then 8 else 4) = 0 → (∀ i, i < (if x = 11 then 8 else 4) → s.tagOf (a + BitVec.ofNat 6 i) = 5) →
      let g := if x = 11 then 8 else 4
      let val (j : Nat) : Val := fp32.decode (elCode (s.vreg (a + BitVec.ofNat 6 (j / 64))).bits 32 (j % 64))
      let block (n : Nat) : List Val := (List.range 32).map fun i => val (32 * n + i)
      let emax : Int := if x = 10 then 8 else if x = 11 then 2 else 0
      Completes (exec (.vqnt d a u) s) fun v => MemSame s v ∧ RegsSame s v ∧ (∀ c, c ≠ s.me → v.dev.ctx c = s.dev.ctx c) ∧
        (vnew s v (d + 1)).tag = 2 ∧ (vnew s v d).tag = u ∧
        (∀ n, n < 64 * 4 → elCode (vnew s v (d + 1)).bits 8 n =
          if 2 * g ≤ n then 0 else ((blockScale emax (block n)).getD 255) % 256) ∧
        (∃ sd : Nat → BitVec 32,
          let quantum (j c : Nat) : Rounded := blockElem x rm c ((block (j / 32)).all Val.isZero) (sd j) (val j)
          (∀ j, j < 64 * g → elCode (vnew s v d).bits (if x = 11 then 4 else 8) j =
            match blockScale emax (block (j / 32)) with
            | some c => (quantum j c).code % 2 ^ (if x = 11 then 4 else 8)
            | none => 0) ∧
          Raises s v fun i => ∃ j, j < 64 * g ∧
            match blockScale emax (block (j / 32)) with
            | some c => (quantum j c).flags.getLsbD i = true
            | none => i = 4) ∧
        ∀ r : BitVec 6, r ≠ d → r ≠ d + 1 → vnew s v r = mget {} (s.dev.ctx s.me).v r.toNat) ∧
    (t ∈ [10, 11, 12] → s.tagOf b = 0 ∨ s.tagOf b = 2 → d.toNat % 8 = 0 →
      let g := if t = 11 then 8 else 4
      let w := if t = 11 then 4 else 8
      Completes (exec (.vdqnt d a b) s) fun v => MemSame s v ∧ RegsSame s v ∧ (∀ c, c ≠ s.me → v.dev.ctx c = s.dev.ctx c) ∧
        (∃ sd : Nat → BitVec 32,
          let scaled (j : Nat) : Rounded :=
            let code := elCode (s.vreg a).bits w j
            let y : Val := if t = 12 then ofInt false (ts8Units code) (-6) else valOf t code
            roundTo fp32 rm false (sd j) (y.underScale (elCode (s.vreg b).bits 8 (j / 32)))
          (∀ i, i < g → (vnew s v (d + BitVec.ofNat 6 i)).tag = 5 ∧ ∀ l, l < 64 →
            elCode (vnew s v (d + BitVec.ofNat 6 i)).bits 32 l = (scaled (64 * i + l)).code % 2 ^ 32) ∧
          Raises s v fun i => ∃ j, j < 64 * g ∧ (scaled j).flags.getLsbD i = true) ∧
        ∀ r : BitVec 6, (∀ i, i < g → r ≠ d + BitVec.ofNat 6 i) → vnew s v r = mget {} (s.dev.ctx s.me).v r.toNat) ∧
    (t = 1 → s.tagOf b = 1 →
      let num (r : BitVec 6) (i : Nat) : Int := (BitVec.ofNat 8 (elCode (s.vreg r).bits 8 i)).toInt
      let term (n : Int) : Nat :=
        let c := max (-7) (min 7 n)
        (if c < 0 then 8 else 0) + c.natAbs
      Completes (exec (.vpackts d a b k) s) fun v =>
        MaskedLanes s v d k 8 12 (fun i c => c = 16 * term (num a i) + term (num b i)) ∧
        Raises s v (SomeLane s k 8 fun i => if 7 < (num a i).natAbs ∨ 7 < (num b i).natAbs then fSf else 0))

/-- R288: `VGATHER` reads a word for every active lane at one stamp into its lane, and `VSCAT` buffers one word a lane in
increasing lane order; both take signed word indexes from `b`. With no active lane `VGATHER` writes the tag alone. -/
def Obligations.GatherAndScatter : Prop :=
  ∀ (s : State) (d a b : BitVec 6) (k : BitVec 3) (ps : List Piece),
    s.tagOf b = 0 ∨ s.tagOf b = 4 →
    let lanes := (List.range 64).filter fun l => (s.kreg k).getLsbD l
    let addr (l : Nat) : Word := s.sreg a + 4 * (BitVec.ofNat 32 (elCode (s.vreg b).bits 32 l)).signExtend 64
    (s.translateAll 4 .load (lanes.map addr) = .ok ps → ps = [] →
      Completes (exec (.vgather d a b k) s) fun t => OnlyVector s t d ∧ t.bundle = s.bundle ∧
        vnew s t d = ⟨(s.vreg d).bits, 0⟩) ∧
    (s.translateAll 4 .load (lanes.map addr) = .ok ps → Plain s ps → ps ≠ [] →
      Completes (exec (.vgather d a b k) s) fun t => LoadFrame s t ∧ RegsSame s t ∧ ∃ v : Vec,
        VectorIs s t d ⟨v, 0⟩ ∧
        (∀ l, l < 64 → (s.kreg k).getLsbD l = false → elCode v 32 l = elCode (s.vreg d).bits 32 l) ∧
        lanes.map (fun l => elCode v 32 l) = ps.map (fun p => ofBytes (plainBytes s [p]))) ∧
    (∀ x : Task, s.translateAll 4 .store (lanes.map addr) = .ok ps → s.holding = false →
      (s.dev.ctx s.me).task = some x → (∀ p ∈ ps, p.kind = 1 → x.span = none → x.pin = .none ∧ x.sel = none) →
      let ops := storeOps ps (lanes.flatMap fun l => toBytes (elCode (s.vreg d).bits 32 l) 4)
      (∀ j, j ≤ ps.length → (withBuffer x ((ops.take j).foldl bufferOp (bufferOf x))).lines.length ≤ 1024) →
      Completes (exec (.vscat d a b k) s) fun t => OnlyMe s t ∧
        t.dev.ctx s.me = { s.dev.ctx s.me with task := some (withBuffer x (ops.foldl bufferOp (bufferOf x))) })

/-! ## The matrix unit and the engines (R297 to R319) -/

/-- R299 and R303 to R307: with the claims, tags and ranges that each asks for, the matrix instructions and transfers put
their entry at the tail of the core's matrix queue, and give the slots and banks they will write their tags. -/
def Obligations.MatrixEntriesAreQueued : Prop :=
  ∀ (s : State) (acc : BitVec 1) (sa sb a : BitVec 6) (tag : BitVec 4), (s.dev.core (coreOf s.me)).mq.length < 8 →
    let core (t : State) : Core := t.dev.core (coreOf s.me)
    let claimed (o n : Nat) : Prop := o + n ≤ 64 ∧ ∀ i, i < n → (s.core0.slot (o + i)).claim = some s.me
    let carry (o n tag : Nat) : Prop := ∀ i, i < n → s.slotTag (o + i) = tag
    let ta := s.slotTag sa.toNat
    let tb := s.slotTag sb.toNat
    let bt := s.bankTag acc.toNat
    let ns := ceilDiv (mpKn s.mp0) (kslot ta)
    let u := bits (mget 0 s.ctx0.mp 1) 3 0
    let n := tagWidth u / 8
    (∀ p, mmPair ta tb = some p → 0 < mpKn s.mp0 → mpBounds s.mp0 = true → claimed sa.toNat ns → carry sa.toNat ns ta →
      claimed sb.toNat ns → carry sb.toNat ns tb → bt = 0 ∨ bt = p.acc.toNat →
      Completes (exec (.mcallMm acc sa sb) s) fun t =>
        Queued s t (.mm acc.toNat sa.toNat sb.toNat ns (BitVec.ofNat 4 ta) (BitVec.ofNat 4 tb)) ∧
        ((core t).bank acc.toNat).tag = p.acc) ∧
    (u ∈ [1, 2, 4, 5, 6, 7, 8, 9] → mpBounds s.mp0 = true → claimed sa.toNat n →
      Completes (exec (.mcallAccout acc sa) s) fun t => Queued s t (.accout acc.toNat sa.toNat (BitVec.ofNat 4 bt)) ∧
        ∀ i, i < n → ((core t).slot (sa.toNat + i)).tag = BitVec.ofNat 4 u) ∧
    (claimed sa.toNat 4 → carry sa.toNat 4 ta → ta = 4 ∨ ta = 5 →
      (Completes (exec (.mcallAccld acc sa) s) fun t => Queued s t (.accld acc.toNat sa.toNat) ∧
        ((core t).bank acc.toNat).tag = BitVec.ofNat 4 ta) ∧
      (bt = 0 ∨ bt = ta → Completes (exec (.mcallAccadd acc sa) s) fun t =>
        Queued s t (.accadd acc.toNat sa.toNat (BitVec.ofNat 4 ta)) ∧
        ((core t).bank acc.toNat).tag = BitVec.ofNat 4 ta)) ∧
    (claimed sa.toNat 1 → claimed sb.toNat 1 → ta ∈ [1, 2, 8, 9] → sa ≠ sb →
      Completes (exec (.mcallTransp sa sb) s) fun t => Queued s t (.transp sa.toNat sb.toNat (BitVec.ofNat 4 ta)) ∧
        ((core t).slot sb.toNat).tag = BitVec.ofNat 4 ta) ∧
    (∀ r, claimed sa.toNat 1 → (s.sreg a).toNat % 256 = 0 →
      let own := coreOf s.me
      let near : Prop := (s.sreg a).getLsbD 26 = false ∨ r.1 = own ∨ r.1 + 1 = own
      (spTarget s.before s.binding own (s.sreg a) (16384 + planeBytes tag.toNat) 1 = .ok r → near →
        Completes (exec (.old sa a tag) s) fun t => Queued s t (.old sa.toNat (s.sreg a).toNat tag) ∧
          ((core t).slot sa.toNat).tag = tag) ∧
      (spTarget s.before s.binding own (s.sreg a) (16384 + planeBytes ta) 1 = .ok r → near →
        Completes (exec (.ost sa a) s) fun t => Queued s t (.ost sa.toNat (s.sreg a).toNat (BitVec.ofNat 4 ta)))) ∧
    (Completes (exec (.macz acc) s) fun t => Queued s t (.macz acc.toNat) ∧ ((core t).bank acc.toNat).tag = 0)

/-- R303, R310 and R313: `MPAR` writes a matrix parameter as `CSRW` does; `OCLM` claims a slot that no context or its own
holds, and `OREL` gives it up; `MLIM` sets the core's current limit from bits 15:0; in system mode `MUPLD` of an image
that passes its checks is waited for while each upper core of the group takes the library at a point where its matrix queue
is empty, and the last of them extends the measurement log by its digest. -/
def Obligations.MatrixControls : Prop :=
  ∀ (s : State) (d : BitVec 3) (o a : BitVec 6),
    let mask : Word := if d = 0 then 0x0000FFFF00FFFF07 else if d = 1 then 0x000000000001FF0F else ~~~0
    let core (t : State) : Core := t.dev.core (coreOf s.me)
    let claim (t : State) : Option Nat := ((core t).slot o.toNat).claim
    (Completes (exec (.mpar d a) s) fun t => OnlyMe s t ∧
      t.dev.ctx s.me = { s.dev.ctx s.me with mp := mset (s.dev.ctx s.me).mp d.toNat (s.sreg a &&& mask) }) ∧
    ((s.core0.slot o.toNat).claim = none ∨ (s.core0.slot o.toNat).claim = some s.me →
      Completes (exec (.oclm o) s) fun t => Apart s t ∧ claim t = some s.me) ∧
    ((s.core0.slot o.toNat).claim = some s.me → Completes (exec (.orel o) s) fun t => Apart s t ∧ claim t = none) ∧
    (Completes (exec (.mlim a) s) fun t => Apart s t ∧ (core t).limit = (s.sreg a).extractLsb' 0 16) ∧
    (∀ r ver body, s.mode = 2 → s.readLibrary (s.sreg a) = .ok (r, ver, body) →
      Completes (exec (.mupld a) s) fun t => RegsSame s t ∧ ApartFrom s t s.me ∧
        t.dev.dice = { s.dev.dice with installs := s.dev.dice.installs ++
          [⟨s.me, s.binding.cores.filter isUpper, BitVec.ofNat 32 ver, sha384 body⟩] } ∧
        t.bun.waits = s.bun.waits ++ [.library]) ∧
    (∀ x, s.dev.dice.installs = [x] → (∀ c ∈ x.cores, (s.dev.core c).mq = []) →
      let y := (s.dev.installLibraries).dice
      y.installs = [] ∧ y.libVer = x.ver ∧ y.libDig = some x.dig ∧ y.log = s.dev.dice.log ++ [x.dig])

/-- R315 to R319: `ESET` writes a shadow register; each operation of `EGO` whose registers are in order, whose ranges
translate and whose queue has room is issued, and one whose registers are not traps OPERAND with the lowest of them;
`EDEP`, `EBAR` and `ECAN` attach a successor and a barrier and cancel operations. Here, outside a protected segment. -/
def Obligations.EngineOperationsIssue : Prop :=
  ∀ (s : State) (d a : BitVec 6) (e : BitVec 3) (eng : BitVec 4) (r : BitVec 3), s.holding = false →
    let issues (i : Instr) (eng op : Nat) (form : State → EngRegs → Form) : Prop :=
      let f := form s (s.ctx0.engRegs eng)
      (∀ rs, f.refused = none → s.fixAll f.wants = .ok rs → s.dev.engQueue s.me eng < (if eng = 5 then 256 else 32) →
        Completes (exec i s) fun t => Issued s t eng op d e) ∧
      (∀ n, f.refused = some n → exec i s = .next (s.stopped (.trap 0x03 (word n))))
    let line (t : State) : Timeline := mget {} (t.dev.ctx s.me).tls e.toNat
    issues (.egoCopyMove d e) 0 0 formMove ∧ issues (.egoCopyFill d e) 0 1 formFill ∧
    issues (.egoCopyMove2d d e) 0 2 formMove2d ∧ issues (.egoGatherGath d e) 1 0 formGath ∧
    issues (.egoGatherScat d e) 1 1 formScat ∧ issues (.egoHashSha384 d e) 2 0 formSha384 ∧
    issues (.egoCryptoSeal d e) 3 0 formSeal ∧ issues (.egoCryptoOpen d e) 3 1 formOpen ∧
    issues (.egoCollBcast d e) 4 0 formBcast ∧ issues (.egoCollSumf d e) 4 1 (formSum sumF32) ∧
    issues (.egoCollSumi d e) 4 2 (formSum fun vs => (sumI32 vs, 0)) ∧ issues (.egoNetPart d e) 5 1 (formNet false) ∧
    issues (.egoNetReply d e) 5 0 (formNet true) ∧
    (Completes (exec (.eset eng r a) s) fun t => OnlyMe s t ∧ t.dev.ctx s.me =
      { s.dev.ctx s.me with shadow := mset (s.dev.ctx s.me).shadow (8 * eng.toNat + r.toNat) (s.sreg a) }) ∧
    (∀ p, (s.sreg a).toNat % 64 = 0 → s.translate (s.sreg a) 8 .store = .ok [p] → p.kind = 0 → (line s).succ.length < 8 →
      Completes (exec (.edep e a) s) fun t => OnlyMe s t ∧ RegsSame s t ∧ VectorsSame s t ∧
        line t = { line s with succ := (line s).succ ++ [bits (s.sreg a) 56 0] }) ∧
    (∀ x, s.barrier (bits (s.sreg a) 7 0) = .ok x →
      Completes (exec (.ebar e a) s) fun t => OnlyMe s t ∧ RegsSame s t ∧ VectorsSame s t ∧
        line t = { line s with bar := some (bits (s.sreg a) 7 0) }) ∧
    (Completes (exec (.ecan e a) s) fun t => RegsSame s t ∧ VectorsSame s t ∧ ApartFrom s t s.me ∧
      t.dev.ops = s.dev.ops.filter fun o =>
        !(o.agent == s.me && (o.e == e.toNat && decide ((s.sreg a).toNat ≤ o.num))))

/-! ## Events of the device: tasks and bindings (R37 to R67, R331 to R342) -/

/-- R46, R47, R51, R53, R56, R60, R73, R118, R142, R427, R440 and R441: when its conditions hold, each event of tasks and
contexts happens: a context takes the oldest entry it fits and is loaded from its record or its restart point, a wait that
is over ends, a commit is published, a deferred enqueue is made, a tile rotation is due, a full queue is enlarged or its
pool is found full, a pool page is zeroed, a delivery starts or kills, stamps rise, and `SNAP` returns. -/
def Obligations.TaskEventsHappen : Prop :=
  ∀ (s : State) (agent blk cl : Nat) (b : Binding), s.dev.binding blk = some b →
    let go (c : Ctx) : RunState := match c.thenWaits with | [] => .ready | w :: _ => .blocked w
    (∀ e rest, s.dev.holder (coreOf agent) = some blk →
      let q := b.cluster (b.lcell (cellOf (coreOf agent)) / 8)
      s.dev.mayTake b agent = true → takeFirst (fun e => e.fits blk b agent) (s.dev.readyQ q) = some (e, rest) →
      s.dev.firstFor b q e agent = true →
      let loads (t : State) (r : Restart) : Prop :=
        t.dev = (s.dev.setReady q rest).updCtx agent fun c => c.load e r
      (∀ r, e.resume = some r → Happens (.taskTake agent) s fun t => loads t r) ∧
      (∀ w, e.resume = none → findEnt (b.seen s.dev.cycle) (va57 e.recVa) = some w → w.ab = false → w.kind = 0 →
        isRemote (w.pa (va57 e.recVa)) = false → (s.dev.line (w.pa (va57 e.recVa) / 64)).poison = false →
        let bs := s.dev.lineUnder (w.pa (va57 e.recVa) / 64) w.kid.toNat
        let dw (i : Nat) : Word := word (ofBytes ((bs.drop (8 * i)).take 8))
        Happens (.taskTake agent) s fun t => ∃ r, loads t r ∧ r.trap = { mode := if b.sys then 2 else 0 } ∧
          r.regs.pc = va57 (32 * bits (dw 1) 56 5) ∧ r.regs.lk = 0 ∧ r.regs.fcsr = s.dev.imageFcsr e.blk ∧
          (∀ i : BitVec 6, r.regs.sreg i =
            if 1 ≤ i.toNat ∧ i.toNat ≤ 8 then
              (if i.toNat ≤ bits (dw 0) 35 32 then word (ofBytes ((bs.drop (28 + 4 * i.toNat)).take 4)) else 0)
            else if i.toNat = 9 then va57 e.recVa else 0) ∧
          (∀ i : BitVec 3, i ≠ 0 → r.regs.preg i = false) ∧ (∀ i : BitVec 3, r.regs.kreg i = BitVec.allOnes 64) ∧
          r.regs.lpc0 = 0 ∧ r.regs.lpc1 = 0)) ∧
    (∀ w, s.dev.blockOf agent = some blk → (s.dev.ctx agent).run = .blocked w → s.dev.waitOver blk b agent w = true →
      Happens (.contextUnblock agent) s fun t => ApartFrom s t agent ∧ (t.dev.ctx agent).regs = (s.dev.ctx agent).regs ∧
        (t.dev.ctx agent).run = (match w with | .absent _ => .ready | _ => go (s.dev.ctx agent)) ∧
        ∀ h i, w = .barrierThen h i → (mget {} (t.dev.ctx agent).bars h).owed = false) ∧
    (∀ x rest, takeFirst (fun x => b.deferred.all fun f => f.ent.floor != x.st) b.committing = some (x, rest) →
      Happens (.taskPublicationComplete blk) s fun t => t.dev.binding blk = some { b with committing := rest } ∧
        t.dev.pub = Nat.max s.dev.pub x.st ∧ Apart s t) ∧
    (∀ f rest, s.dev.deferredFor cl = some blk → takeFirst (fun f => f.cluster == cl) b.deferred = some (f, rest) →
      (s.dev.readyQ cl).length < 4096 →
      Happens (.deferredEnqueue cl) s fun t => t.dev.readyQ cl = s.dev.readyQ cl ++ [f.ent] ∧
        t.dev.binding blk = some { b with deferred := rest } ∧ Apart s t) ∧
    (∀ f ∈ b.deferred, f.since + 1800000 ≤ s.dev.cycle → (s.dev.block blk).get fTrapva ≠ 0 →
      Happens (.rqfullTimeout blk) s fun t => Apart s t ∧ t.dev.binding blk =
        some { b with deferred := [], kdel := b.kdel ++ [{ cause := 0x65, val := 0, since := s.dev.cycle }] }) ∧
    (∀ x rest, (s.dev.ctx agent).ntDue = x :: rest → x.1 ≤ s.dev.cycle →
      Happens (.ntRotation agent) s fun t => ApartFrom s t agent ∧ (t.dev.ctx agent).ntDue = rest ∧
        let r := (s.dev.ctx agent).regs
        (t.dev.ctx agent).regs = { r with nt3 := r.nt2, nt2 := r.nt1, nt1 := r.nt0, nt0 := x.2 }) ∧
    (64 ≤ b.stuck → s.dev.stuck b = true → (s.dev.ready.all fun e => e.2.all fun x => x.blk != blk) = true →
      (∀ x ∈ b.kdel, x.ctx.isSome = true) →
      (∀ q, leastQueue (b.fullQueues.filter fun e => s.dev.canDouble b e.2) = some q →
        Happens (.queueEnlarge blk) s fun t => Apart s t ∧
          t.dev.binding blk = some { b with stuck := 0, queues := mset b.queues q.1 { q.2 with cap := 2 * q.2.cap } }) ∧
      (∀ q, leastQueue b.fullQueues = some q → (∀ e ∈ b.fullQueues, s.dev.canDouble b e.2 = false) →
        (s.dev.block blk).get fTrapva ≠ 0 →
        Happens (.queueEnlarge blk) s fun t => Apart s t ∧ t.dev.binding blk =
          some { b with kdel := b.kdel ++ [{ cause := 0x62, val := word q.1, since := s.dev.cycle }] })) ∧
    (∀ core page, page ∈ (s.dev.core core).unzeroed → Happens (.poolPageZeroed core page) s fun t => Apart s t ∧
      page ∉ (t.dev.core core).unzeroed ∧ (t.dev.core core).scratch = (s.dev.core core).scratch) ∧
    (∀ x rest a, b.kdel = x :: rest → (∀ y ∈ b.kdel, y.ctx = none ∧ y.ent = none ∧ y.pinned = none) → b.preempt = none → b.running = true →
      s.dev.kContext b = some a → s.dev.cycle ≤ x.since + 64 →
      Happens (.kDeliveryTaskStart blk) s fun t => ApartFrom s t a ∧ t.dev.binding blk = some { b with kdel := rest } ∧
        (t.dev.ctx a).run = .ready ∧ (t.dev.ctx a).regs.pc = va57 (32 * (s.dev.block blk).get fTrapva) ∧
        (t.dev.ctx a).trap.mode = 1 ∧ (t.dev.ctx a).trap.tcause = word x.cause.toNat ∧ (t.dev.ctx a).trap.tval = x.val) ∧
    (∀ x ∈ b.kdel, x.ctx = none → x.ent = none → x.pinned = none → x.since + 64 ≤ s.dev.cycle → s.dev.kContext b = none →
      Happens (.kDeliveryTimeout blk) s fun t => t.dev.mstate blk = sDead) ∧
    (Happens .stampRaise s fun t => MemSame s t ∧ ∀ a, a < 2048 →
      t.dev.ctx a = { s.dev.ctx a with floor := max (s.dev.ctx a).floor (s.dev.pub - 1) }) ∧
    ((s.dev.ctx agent).run = .blocked .snapshot →
      (∀ e ∈ s.dev.tab.bindings, ∀ x ∈ e.2.committing, (s.dev.ctx agent).stamp ≤ x.st) →
      Happens (.snapReturn agent) s fun t => (t.dev.ctx agent).run = go (s.dev.ctx agent) ∧ ApartFrom s t agent)

/-- R37, R48, R333, R335, R336, R338, R328, R38, R64, R65, R462 and R464: the events of the Harbourmaster. A pick binds
the only candidate where it has a group, and otherwise recalls or pre-empts for it; a candidate is held; a recall's grace
ends in pre-emptions; the binding steps suspend a block whose key is missing, restore a saved one, wait for an absent
entry page, and otherwise re-arm the entry record, write the record's unit into it and enqueue it; a binding ends by its
time limit, by having nothing left, by a pre-emption that has stopped every context, or by the bound of one. What the
binding steps do at an absent or poisoned page of the entry record is the model's choice (log entry 50). -/
def Obligations.HarbourmasterEventsHappen : Prop :=
  ∀ (s : State) (blk : Nat),
    let d := s.dev
    let m := d.block blk
    let waits (l : List Rec) : Nat := if (l.dropWhile (·.abandoned)).isEmpty then sIdle else sQueued
    (d.candidates = [blk] →
      (∀ g, (d.claimReady blk <|> d.findGroup blk) = some g →
        Happens .harbourmasterPick s fun t => t.dev.mstate blk = sBinding ∧ Apart s t ∧
          ∃ k, t.dev.binding blk = some k ∧ k.gbase = g ∧ k.running = false ∧
            ∀ c ∈ k.cells, (t.dev.cell c).held = some blk) ∧
      (d.claimReady blk = none → d.findGroup blk = none → m.claim = none →
        (∀ x, d.startRecall blk = some x → Happens .harbourmasterPick s fun t => Apart s t ∧
          ∃ g ∈ m.groups, (t.dev.block blk).claim = some (g.headD 0) ∧ (t.dev.block blk).recallAt = some d.cycle ∧
            d.holders g ≠ [] ∧ ∀ c ∈ g, d.cellOwner c = some (m.get fResv)) ∧
        (∀ x, d.startRecall blk = none → d.startPreempt blk = some x → Happens .harbourmasterPick s fun t => MemSame s t ∧
          ∃ g ∈ m.groups, (t.dev.block blk).claim = some (g.headD 0) ∧
            ∀ h ∈ d.holders g, d.effPrio h < d.effPrio blk ∧ d.atHome h = false) ∧
        (d.startRecall blk = none → d.startPreempt blk = none → Happens .harbourmasterPick s fun t => Apart s t ∧
          t.dev.tab.bindings = d.tab.bindings))) ∧
    (d.candidates = [] → Happens .harbourmasterPick s fun t => t.dev.tab.bindings = d.tab.bindings ∧ Apart s t) ∧
    (d.candidate blk = true → 4096 ≤ m.firsts →
      Happens (.candidateHeld blk) s fun t => (t.dev.block blk).isHeld = true ∧ Apart s t) ∧
    (∀ g t0, m.claim = some g → m.recallAt = some t0 → t0 + 1800000 ≤ d.cycle →
      Happens (.recallGraceExpiry blk) s fun t => (t.dev.block blk).recallAt = none ∧ MemSame s t ∧
        ∀ h ∈ d.holders (m.groupAt g), d.mstate h = sRunning → (d.binding h).isSome = true → (d.block h).get fPol = 1 →
          ∃ k, t.dev.binding h = some k ∧ k.preempt.isSome = true) ∧
    (∀ k, d.binding blk = some k → d.mstate blk = sBinding → k.running = false →
      let va := va57 (m.get fEntry * 64)
      (d.keysLoaded blk = false → Happens (.entryTaskEnqueue blk) s fun t =>
        t.dev.mstate blk = sSuspended ∧ t.dev.binding blk = none ∧ MemSame s t) ∧
      (∀ v, d.keysLoaded blk = true → m.saved = some v →
        (d.saveBad blk = true → Happens (.entryTaskEnqueue blk) s fun t => t.dev.mstate blk = sDead ∧ MemSame s t) ∧
        (d.saveBad blk = false → Happens (.entryTaskEnqueue blk) s fun t => MemSame s t ∧
          ∃ k', t.dev.binding blk = some k' ∧ k'.running = true)) ∧
      (∀ r w, d.keysLoaded blk = true → m.saved = none → m.head = some r → r.done = true →
        findEnt (k.seen d.cycle) va = some w → w.ab = false → w.kind = 0 → isLocal (w.pa va) = true →
        (d.line (w.pa va / 64)).poison = false → m.get fTrapva ≠ 0 →
        let pa := w.pa va
        let rec_ := recOf (d.lineUnder (pa / 64) w.kid.toNat)
        let w0 := setBits (rearm k.bseq rec_).1 35 32 8
        let w3 := (rearm k.bseq rec_).2
        Happens (.entryTaskEnqueue blk) s fun t => (∃ k', t.dev.binding blk = some k' ∧ k'.running = true) ∧
          (∀ i, i < 64 → t.dev.byteUnder w.kid.toNat (pa + i) =
            if i < 8 then (toBytes w0.toNat 8).getD i 0
            else if 24 ≤ i ∧ i < 32 then (toBytes w3.toNat 8).getD (i - 24) 0
            else if 60 ≤ i then (toBytes r.unit 4).getD (i - 60) 0
            else d.byteUnder w.kid.toNat (pa + i)) ∧
          (∀ a, a / 64 ≠ pa / 64 → rdByte t.dev.mem a = rdByte d.mem a) ∧
          (recordOk k { rec_ with w0 := w0, w3 := w3 } = true → (d.readyQ (k.cluster (bits w0 28 24))).length < 4096 →
            ∃ e : ReadyEnt, t.dev.readyQ (k.cluster (bits w0 28 24)) = d.readyQ (k.cluster (bits w0 28 24)) ++ [e] ∧
              e.blk = blk ∧ e.recVa = va)) ∧
      (∀ r, d.keysLoaded blk = true → m.saved = none → m.head = some r → r.done = true → m.get fTrapva ≠ 0 →
        let refused (cause : BitVec 8) : Prop := Happens (.entryTaskEnqueue blk) s fun t => MemSame s t ∧
          ∃ k', t.dev.binding blk = some k' ∧ k'.running = true ∧ ∃ x, k'.kdel.getLast? = some x ∧ x.cause = cause
        (findEnt (k.seen d.cycle) va = none → refused 0x64) ∧
        (∀ w, findEnt (k.seen d.cycle) va = some w → w.ab = false →
          (w.kind ≠ 0 → refused 0x64) ∧
          (w.kind = 0 → isLocal (w.pa va) = true → (d.line (w.pa va / 64)).poison = true → refused 0x43))) ∧
      (∀ r w, d.keysLoaded blk = true → m.saved = none → m.head = some r → r.done = true →
        findEnt (k.seen d.cycle) va = some w → w.ab = true → (findEnt k.win va).any (·.ab) = true →
        Happens (.entryTaskEnqueue blk) s fun t => t.dev = d.askPage blk va ∧ Apart s t) ∧
      (∀ r, m.saved = none → m.head = some r → r.done = false → r.abandoned = true ∨ k.since + 36000 ≤ d.cycle →
        Happens (.bindingRecordTimeout blk) s fun t => t.dev.binding blk = none ∧ MemSame s t ∧
          t.dev.mstate blk = if m.retire then sSuspended else waits m.recs)) ∧
    (∀ k, d.binding blk = some k → d.mstate blk = sRunning → k.running = true → d.bindingOver blk k = true →
      let susp := (k.preempt.any fun p => p.suspend) || m.retire
      Happens (.bindingEnd blk) s fun t => t.dev.binding blk = none ∧
        t.dev.mstate blk = (if susp then sSuspended else waits (m.recs.drop 1)) ∧ (susp = false → MemSame s t)) ∧
    (∀ k p, d.binding blk = some k → k.preempt = some p →
      let susp := p.suspend || m.retire
      (d.allStopped k = true → d.bindingOver blk k = false →
        Happens (.preemptionComplete blk) s fun t => t.dev.binding blk = none ∧
          t.dev.mstate blk = (if susp then sSuspended else sPreempted) ∧ (t.dev.block blk).saved = some (d.saveOf blk k) ∧
          (susp = false → t.dev.mem = (s.masterStamp.1.writeSave blk (d.saveOf blk k)).dev.mem)) ∧
      (p.since + d.preemptBound blk ≤ d.cycle → d.drainedGroup k = true →
        (∀ r, d.err.queue.length < 1024 → (∀ a ∈ k.agents, (d.ctx a).task = none) → d.err.queue = r →
          Happens (.preemptionTimeout blk) s fun t => t.dev.binding blk = none ∧
            t.dev.mstate blk = (if susp then sSuspended else sPreempted) ∧ ∃ x : ErrRec, t.dev.err.queue = r ++ [x] ∧
              x.cls = 7 ∧ x.aux = word (d.cycle - (p.since + d.preemptBound blk))) ∧
        ((∀ a ∈ k.agents, ∀ x, (d.ctx a).task = some x → x.blk = blk ∧ x.pin = .none ∧ x.errAborts < 3) →
          d.mstate blk ≠ sDead → Happens (.preemptionTimeout blk) s fun t => t.dev.binding blk = none ∧
            t.dev.mstate blk = (if susp then sSuspended else sPreempted)) ∧
        (∀ a x, d.allStopped k = false → a ∈ k.agents → (d.ctx a).task = some x → x.blk = blk → x.pin ≠ .none →
          Happens (.preemptionTimeout blk) s fun t => t.dev.mstate blk = sDead)))

/-- R322, R324, R326, R327, R329, R347, R459 to R461 and R84: requests as they arrive. A frame whose check sequence is bad is
dropped and counted, one that is no service datagram goes to the firmware, and a service datagram joins the record of its
request, or allocates one, or is answered or forwarded; the oldest segment is verified, and counted where its tag is right; a
record is abandoned; an exhausted counter is recorded; a port's link changes; a key is loaded. That a segment is matched with
its record before any lookup, and that an abandoned record still matches and drops its segments, are the model's choices (log
entries 54 and 64). -/
def Obligations.RequestEventsHappen : Prop :=
  ∀ (s : State) (g : Datagram) (blk : Nat),
    let d := s.dev
    let dropped (x : Device) : Device := x.updOut fun o => { o with dropped := o.dropped + 1 }
    let becomes (x : Device) : Prop := Becomes (.serviceDatagramReceive g) s x
    (d.out.ethUp.getLsbD g.port.toNat = true → frameBytes g ≤ 9216 →
      (g.fcsOk = false → becomes (dropped d)) ∧
      (g.fcsOk = true → d.isService g = false → becomes (d.send (.frame g.port))) ∧
      (g.fcsOk = true → d.isService g = true → g.udpOk = false ∨ dgOk g = false → becomes (dropped d)) ∧
      (g.fcsOk = true → d.isService g = true → g.udpOk = true → dgOk g = true →
        (d.key (dgRkid g) = none → becomes d) ∧
        ((d.key (dgRkid g)).isSome = true →
          (∀ b r i, d.matching g = some (b, r, i) →
            (r.tlen = dgTlen g ∧ r.nseg = dgNseg g → becomes (d.updOut fun o => { o with segWait := o.segWait ++ [g] })) ∧
            (r.tlen ≠ dgTlen g ∨ r.nseg ≠ dgNseg g → becomes (dropped d))) ∧
          (d.matching g = none → d.lookup g = .block blk →
            (d.appendStatus blk (unitsOf (dgTlen g)) = 0 →
              Happens (.serviceDatagramReceive g) s fun t => t.dev.out.segWait = d.out.segWait ++ [g] ∧
                t.dev.ctxs = d.ctxs ∧ ∃ r : Rec, (t.dev.block blk).recs = (d.block blk).recs ++ [r] ∧
                  r.reqid = dgReqid g ∧ r.unit = (d.block blk).get fQtail ∧ r.tlen = dgTlen g ∧ r.done = false) ∧
            (∀ n, n ≠ 0 → d.appendStatus blk (unitsOf (dgTlen g)) = n →
              becomes (d.sendMessage (dgReply g (some blk)) 3 0 n []))) ∧
          (∀ dev, d.matching g = none → d.lookup g = .buoy dev → d.reachable dev = true →
            becomes (d.send (.forward dev g))) ∧
          (d.matching g = none → d.lookup g = .nothing → becomes (d.sendMessage (dgReply g none) 3 0 1 []))))) ∧
    (∀ rest, d.out.segWait = g :: rest →
      let e := d.updOut fun o => { o with segWait := rest }
      let opened (key : BitVec 256) : Option (List Byte) :=
        gcmOpen (toBytes key.toNat 32) (toBytes (dgNonce g) 12) (toBytes g.hdr.toNat 64) g.body (toBytes g.tag.toNat 16)
      (d.key (dgRkid g) = none → Becomes .segmentVerify s e) ∧
      (∀ key ctr, d.key (dgRkid g) = some (key, ctr) →
        (opened key = none → Becomes .segmentVerify s (e.tagFailed g)) ∧
        (∀ plain, opened key = some plain →
          (d.matching g = none → Becomes .segmentVerify s (dropped e)) ∧
          (∀ b r i, d.matching g = some (b, r, i) →
            (r.abandoned = true ∨ r.got.contains (dgSeg g) = true ∨ r.tlen ≠ dgTlen g ∨ r.nseg ≠ dgNseg g →
              Becomes .segmentVerify s (dropped e)) ∧
            (r.abandoned = false → r.got.contains (dgSeg g) = false → r.tlen = dgTlen g → r.nseg = dgNseg g →
              d.mstate b ≠ sDead → Happens .segmentVerify s fun t => t.dev.out.segWait = rest ∧ t.dev.ctxs = d.ctxs ∧
                (t.dev.block b).recs = lset (d.block b).recs i
                  { r with got := r.got ++ [dgSeg g], done := decide (r.got.length + 1 = r.nseg)
                           deferred := r.deferred && r.got.length + 1 != r.nseg }))))) ∧
    (∀ r slot, (d.block blk).recs.find? (fun r => r.unit == slot && !r.done && !r.abandoned) = some r →
      r.arrived + 180000000 ≤ d.cycle →
      Happens (.recordAbandon blk slot) s fun t => Apart s t ∧
        let l := (d.block blk).recs.map fun x => if x.unit = slot then { x with abandoned := true, deferred := false } else x
        (t.dev.block blk).recs = if (d.binding blk).isSome then l else l.dropWhile (·.abandoned)) ∧
    (∀ rkid k, d.key rkid = some k → 2 ^ 63 ≤ k.2 → rkid ∉ d.tab.exhausted →
      Happens (.replyCounterExhausted rkid) s fun t => t.dev.tab.exhausted = rkid :: d.tab.exhausted ∧ Apart s t) ∧
    (∀ port up, port < 2 → d.out.ethUp.getLsbD port ≠ up →
      Happens (.ethernetLinkChange port up) s fun t => Apart s t ∧
        ∀ i, i < 2 → t.dev.out.ethUp.getLsbD i = if i = port then up else d.out.ethUp.getLsbD i) ∧
    (∀ kid key ctr, 1 ≤ kid → kid ≤ 4095 → ctr ≤ 2 ^ 63 →
      Happens (.keyLoad kid key ctr) s fun t => t.dev.key kid = some (key, ctr) ∧ Apart s t)

/-- R22, R80, R85, R95, R97 to R101, R147, R149, R345, R411, R444 to R449, R455, R457, R463 and R482: the events of pages.
Each happens when its conditions hold, and leaves in memory, in the quarantine, in the version heap, in the flash tier and in
a snapshot's entry what its rule says. The bytes of a quarantine ring's entry, how shared copies are counted, the steps of a
retirement, and the copy engine's part in weight SRAM are the model's choices (log entries 69, 112, 72 and 119). -/
def Obligations.PageEventsHappen : Prop :=
  ∀ (s : State) (blk va pa : Nat) (v : Word),
    let d := s.dev
    let near (t : State) (lo n : Nat) : Prop :=
      ∀ a, a / 64 < lo / 64 ∨ (lo + n - 1) / 64 < a / 64 → rdByte t.dev.mem a = rdByte d.mem a
    let runs (i : Instr) (u : State) : Prop := exec i s = .next { u with last := .done }
    (∀ f sz pte res,
      let d0 := d.startFetches 64
      d0.tab.fetches.find? (fun f => f.blk == blk && f.va == va && f.started && f.failed.isNone) = some f →
      d.walk blk va = .leaf sz pte → d.mm.retires blk (pageBase sz va) = false →
      (bits pte 7 6 = 2 → d.copyFits (ptePa pte / 65536) sz ((d.block blk).get fSdom)
        (d.expected blk (pageBase sz va) (2 ^ winShift sz)) = true) →
      let ends (u : State) : Prop := runs (.pilotFetchComplete blk va res) { u with dev := u.dev.startFetches 64 }
      let place (parts : List (Nat × List Byte)) : Prop :=
        ends (State.placePage { s with dev := d0 } blk (pageBase sz va) sz pte parts)
      let missed (cls : Nat) : Prop := ends { s with dev := d0.fetchMissed f cls }
      let size := 2 ^ winShift sz
      let parts := (d.imageOf blk).contents (pageBase sz va) size
      let right (ps : List (Nat × List Byte)) : Prop :=
        pageDigests size (partBytes size ps) = d.expected blk (pageBase sz va) size
      (pte.getLsbD 9 = false → ends { s with dev := d0.dropFetch blk va 1 }) ∧
      (pte.getLsbD 9 = true →
        (bits pte 7 6 = 2 → f.again = false →
          (∀ bytes, res = .peer bytes → (right [(0, bytes)] → place [(0, bytes.take size)]) ∧
            (¬ right [(0, bytes)] → missed 3)) ∧
          (res = .peerFailed → missed 6)) ∧
        (res = .flash → (bits pte 7 6 ≠ 2 ∨ right parts → place parts) ∧
          (bits pte 7 6 = 2 → ¬ right parts → missed 3)) ∧
        (res = .flashFailed → missed 6) ∧ (bits pte 7 6 = 2 → res = .flashBad → missed 3))) ∧
    (isLocal pa = true → pa % 8 = 0 →
      let u := s.agentPut agMemory pa (toBytes v.toNat 8)
      (u.dev.walk blk va = .invalid → Happens (.firmwareLeafAnswer blk va (some (pa, v))) s fun t => near t pa 8 ∧
        t.dev.ctxs = d.ctxs ∧ (d.mustWait none (pa / 64) = false → rdBytes t.dev.mem pa 8 = toBytes v.toNat 8)) ∧
      (∀ sz p, u.dev.walk blk va = .leaf sz p → u.dev.installable blk va sz p = true →
        runs (.firmwareLeafAnswer blk va (some (pa, v))) (u.installLeaf blk va sz p))) ∧
    (d.walk blk va = .invalid → (d.binding blk).isSome = true →
      Happens (.firmwareLeafAnswer blk va none) s fun t => MemSame s t ∧
        ∀ x, (d.unmappable blk va).unpark blk va 0x06 (va57 va) = (x, true) → t.dev = x) ∧
    (∀ p, d.out.pend.find? (fun p => p.kind.shootsAt blk) = some p →
      d.binding blk = none ∧ d.mstate blk ≠ sMigrating ∨
        (∃ k h, d.binding blk = some k ∧ k.shoots.find? (fun h => h.q == p.q) = some h ∧ d.shootDone h = true) →
      Happens (.shootdownAck blk) s fun t => p ∉ t.dev.out.pend) ∧
    (∀ k, ∀ h ∈ k.shoots, d.binding blk = some k → k.preempt = none → h.since + 18000000 ≤ d.cycle → d.shootDone h = false →
      Happens (.shootdownTimeout blk) s fun t => MemSame s t ∧ (d.mstate blk = sBinding → t.dev.binding blk = none) ∧
        (d.mstate blk ≠ sBinding → ∃ k' p, t.dev.binding blk = some k' ∧ k'.preempt = some p ∧ p.save = true)) ∧
    (Happens (.qqfsWrite v) s fun t =>
      let at_ := d.mm.qqbase.toNat + 16 * ((d.mm.head.toNat + d.mm.ring.length) % 16384)
      let st := word (max v.toNat d.mm.lastAck)
      t.dev.ctxs = d.ctxs ∧ near t at_ 16 ∧
      (d.mm.ring.length < 16384 → (∃ w, t.dev.mm.ring = d.mm.ring ++ [(d.mm.qqpg, st, w)]) ∧
        (isLocal at_ = true → rdBytes t.dev.mem at_ 16 = toBytes d.mm.qqpg.toNat 8 ++ toBytes st.toNat 8)) ∧
      (16384 ≤ d.mm.ring.length → MemSame s t ∧
        t.dev.mm = { d.mm with unpushed := d.mm.unpushed ++ [(d.mm.qqpg, v)] })) ∧
    (∀ page st w rest, d.mm.ring = (page, st, w) :: rest →
      (st.toNat < d.qsc → d.mm.waiting = [] → ∀ x us, d.mm.unpushed = x :: us → rest.length < 16384 →
        Happens .quarantineRelease s fun t => t.dev.mm.unpushed = us ∧
          t.dev.mm.ring.map (fun y => (y.1, y.2.1)) =
            rest.map (fun y => (y.1, y.2.1)) ++ [(x.1, word (max x.2.toNat d.mm.lastAck))]) ∧
      (st.toNat < d.qsc → d.mm.waiting = [] → d.mm.unpushed = [] → Happens .quarantineRelease s fun t =>
        let lo := bits page 51 16 * 65536
        let n := 2 ^ winShift (BitVec.ofNat 2 (bits page 1 0))
        t.dev.mm.ring.map (fun x => (x.1, x.2.1)) = rest.map (fun x => (x.1, x.2.1)) ∧
          mfind t.dev.mm.clearing (bits page 51 16) = some (bits page 1 0) ∧
          t.dev.out.outbox = d.out.outbox ++ [.pageFreed page] ∧
          (∀ a, a < lo ∨ lo + n ≤ a → rdByte t.dev.mem a = rdByte d.mem a) ∧
          ∀ a, lo ≤ a → a < lo + n → d.badGranule (a / 65536) = false → rdByte t.dev.mem a = 0) ∧
      (∀ t0, w = some t0 → t0 + 18000000 < d.cycle →
        Happens .quarantineHeadTimeout s fun t => t.dev.mm.ring = (page, st, none) :: rest ∧ Apart s t)) ∧
    (∀ page sz, mfind d.mm.clearing page = some sz →
      Happens (.pendingClearDone page) s fun t => mfind t.dev.mm.clearing page = none ∧ Apart s t) ∧
    (∀ agent bytes, 0x0910 ≤ agent → agent ≤ 0x0917 → bytes ≠ [] → isRemote pa = false →
      (isLocal pa = true → isLocal (pa + bytes.length - 1) = true →
        Happens (.firmwareMemoryWrite agent pa bytes) s fun t => t.dev.ctxs = d.ctxs ∧ near t pa bytes.length ∧
          (pa % 64 + bytes.length ≤ 64 →
            (d.mustWait none (pa / 64) = false → ∀ i, i < bytes.length → rdByte t.dev.mem (pa + i) = bytes.getD i 0) ∧
            (d.mustWait none (pa / 64) = true → MemSame s t ∧ ∃ w : HeldWrite, t.dev.mm.waiting = d.mm.waiting ++ [w] ∧
              w.agent = agent ∧ w.pa = pa ∧ w.bytes = bytes))) ∧
      (isLocal pa = false ∨ isLocal (pa + bytes.length - 1) = false →
        exec (.firmwareMemoryWrite agent pa bytes) s = .fault .reservedPhysical)) ∧
    (∀ page size mask,
      let bytes := 2 ^ winShift (BitVec.ofNat 2 size)
      let old : SramPage := mget {} d.tab.placed (page * 4 + size)
      size < 4 → page * 65536 % bytes = 0 → isLocal (page * 65536) = true → d.weightPage page size = true →
      (∀ i, i < 4 → mask.getLsbD i = true → old.mask.getLsbD i = false → d.sramUsed i + bytes ≤ 805306368) →
      (∀ l ∈ d.lines, page * 1024 ≤ l.1 → l.1 < page * 1024 + bytes / 64 → l.2.poison = false) →
      Happens (.weightSramPlacement page size mask) s fun t => Apart s t ∧
        let new : SramPage := mget {} t.dev.tab.placed (page * 4 + size)
        new.mask = old.mask ||| mask ∧ ∀ i, i < bytes → rdByte new.data (page * 65536 + i) = rdByte d.mem (page * 65536 + i)) ∧
    (∀ line, (d.dredged (d.line line)).held < (d.line line).held → d.mm.waiting = [] →
      Happens (.dredgeReclaim line) s fun t => t.dev.line line = d.dredged (d.line line) ∧ Apart s t) ∧
    (∀ k p rest, d.binding blk = some k → takeFirst (fun p : Parked => p.va.isNone) k.parked = some (p, rest) →
      p.freed = true ∨ p.since + 1800000 ≤ d.cycle → p.ent.blk = blk →
      (d.readyQ (k.cluster p.ent.lclus)).length < 4096 →
      Happens (.vheapParkRelease blk) s fun t => Apart s t ∧ t.dev.binding blk = some { k with parked := rest } ∧
        t.dev.readyQ (k.cluster p.ent.lclus) = d.readyQ (k.cluster p.ent.lclus) ++ [p.ent]) ∧
    (∀ h, d.draining blk = some h →
      (∀ m, (d.snap blk h).broken = false →
        (blk = devTable → d.devicePoisoned h = false → Happens (.drainCommit blk m) s fun t => (t.dev.snap blk h).dres = 1 ∧ Apart s t) ∧
        (blk ≠ devTable → d.drainPoisoned blk h = false → m.extents.length = extentsFor (d.drainWrites blk h) →
          let sel := (d.block blk).get fMsel
          let seq : Word32 := match d.flash.dseq blk sel with | some n => n + 1 | none => 1
          Happens (.drainCommit blk m) s fun t => (t.dev.snap blk h).dres = 1 ∧ t.dev.ctxs = d.ctxs ∧
            (t.dev.block blk).get fMsel = 1 - sel ∧ t.dev.flash.ckpt blk (1 - sel) = d.newCkpt blk h m ∧
            mfind t.dev.flash.roots (2 * blk + (1 - sel)) = some (rootRecord (d.newCkpt blk h m) m.mlba (d.snap blk h) seq) ∧
            near t ((d.block blk).get (if sel = 1 then fRoota else fRootb) * 64) 64)) ∧
      (∀ why, why ≠ .broken ∨ (d.snap blk h).broken = true → why ≠ .poisoned ∨ d.poisonedDrain blk h = true →
        Happens (.drainFail blk why) s fun t => (t.dev.snap blk h).dres = 2 ∧ Apart s t ∧
          t.dev.block blk = { d.block blk with drains := (d.block blk).drains.drop 1 })) ∧
    (∀ r, d.mm.retire = some r →
      (∀ m ms u, r.maps = m :: ms → s.endMapped r m = some u → runs (.pageRetirement r.gran r.fresh) u) ∧
      (∀ u, r.maps = [] → s.endAreas r = some u → runs (.pageRetirement r.gran r.fresh) u)) ∧
    (∀ e rest fresh, d.mm.retire = none → d.flash.bpBusy = e :: rest →
      let g := bits e 51 16
      let s1 : State := { s with dev := { d with flash := { d.flash with bad := d.flash.bad ++ [e], bpBusy := rest } } }
      (∀ u, s1.beginRetire g fresh = some u → runs (.pageRetirement g fresh) u) ∧
      (∀ m ms, s1.dev.mappings g = m :: ms →
        s1.dev.freshPage fresh (ptePa m.pte) (2 ^ winShift m.sz) (2 ^ winShift m.sz) = true →
        (∀ x ∈ m :: ms, d.mstate x.blk ≠ sMigrating) →
        Happens (.pageRetirement g fresh) s fun t => t.dev.flash.bad = d.flash.bad ++ [e] ∧ t.dev.flash.bpBusy = rest ∧
          ∃ r : Retire, t.dev.mm.retire = some r ∧ r.gran = g ∧ r.fresh = fresh ∧ r.maps = m :: ms) ∧
      (d.mappings g = [] → (∀ b ∈ d.liveBlocks, d.tablesIn b g = false ∧ (d.block b).ownsIn (g * 65536) 65536 = false) →
        Happens (.pageRetirement g fresh) s fun t => t.dev.flash.bad = d.flash.bad ++ [e] ∧
          t.dev.flash.bpBusy = rest ∧ Apart s t))

/-- R104, R107, R109, R113, R114, R374, R451 and R453: the events of the memory calendar. A write of `calsw` makes an
exchange pending; an exchange is made or refused; a slot begins, and counts, refreshes or begins a forced refresh as R113
says; a forced refresh ends with a balance of 0; a window of 32 ms clears the counts; the high range is entered and left; a
slotted read returns, and leaves `refbal` where none served after it has returned before. Which reads other traffic displaces
is the model's choice (log entry 106). -/
def Obligations.CalendarEventsHappen : Prop :=
  ∀ (s : State) (h pch : Nat), h < 8 →
    let d := s.dev
    let quiet (t : State) : Prop := MemSame s t ∧ ∀ a, (t.dev.ctx a).regs = (d.ctx a).regs ∧ (t.dev.ctx a).v = (d.ctx a).v
    (∀ v : Word, Happens (.calswWrite h v) s fun t => Apart s t ∧
      (t.dev.hbm h).calsw = (if v.getLsbD 0 then 1 else (d.hbm h).calsw) ∧ ∀ i, i ≠ h → t.dev.hbm i = d.hbm i) ∧
    (d.cycle % 288 = 0 → (d.hbm h).calsw = 1 →
      ((d.hbm h).refuses = true → Happens (.calendarExchange h) s fun t => Apart s t ∧ (t.dev.hbm h).calsw = 3 ∧
        (t.dev.hbm h).plan = (d.hbm h).plan) ∧
      ((d.hbm h).refuses = false → Happens (.calendarExchange h) s fun t => quiet t ∧ (t.dev.hbm h).calsw = 0 ∧
        (t.dev.hbm h).plan = (d.hbm h).idle ∧ (t.dev.hbm h).idle = (d.hbm h).plan)) ∧
    (∀ i, pch < 512 → d.cycle = 18 * i + 54 → ((d.hbm h).chan pch).begun ≤ i →
      let c := (((d.hbm h).chan pch).settle i).pass i
      let refresh := entryRefresh (planEntry ((d.hbm h).planAt i) pch (i % 16)) || (d.hbm h).extraRefresh pch == some (i % 16)
      Happens (.channelSlotStart h pch (i % 16)) s fun t => quiet t ∧
        let x := (t.dev.hbm h).chan pch
        let is (bal : Int) (ptr : BitVec 4) (forced : Option Nat) : Prop := x.bal = bal ∧ x.ptr = ptr ∧ x.forced = forced
        x.begun = i + 1 ∧
        (c.forced.isSome = true → is c.bal c.ptr c.forced) ∧
        (c.forced = none → refresh = true →
          (c.bal + 1 = 8 → is 8 c.ptr (some (18 * i + 630))) ∧
          (c.bal + 1 ≠ 8 → c.targeted ≠ [] ∨ c.bal < 0 ∨ c.conflict i = true → is (c.bal + 1) c.ptr none) ∧
          (c.bal + 1 ≠ 8 → c.targeted = [] → 0 ≤ c.bal → c.conflict i = false → is c.bal (c.ptr + 1) none)) ∧
        (c.forced = none → refresh = false → is c.bal c.ptr none ∨
          (c.claims.any fun e => e.slot == i) = false ∧ -8 < c.bal ∧ c.conflict i = false ∧ is (c.bal - 1) (c.ptr + 1) none)) ∧
    (∀ e, ((d.hbm h).chan pch).forced = some e → e + 54 ≤ d.cycle → Happens (.forcedRefreshEnd h pch) s fun t => Apart s t ∧
      let c := (t.dev.hbm h).chan pch
      c.bal = 0 ∧ c.forced = none ∧ c.lastForced = some e ∧ c.ptr = ((d.hbm h).chan pch).ptr) ∧
    (d.cycle % 57600000 = 0 → Happens (.hotRowWindowEnd h) s fun t => quiet t ∧
      ∀ c, ((t.dev.hbm h).chan c).counts = [] ∧ ((t.dev.hbm h).chan c).hot = []) ∧
    ((d.hbm h).high = false → Happens (.highRangeEntry h) s fun t => quiet t ∧ (t.dev.hbm h).high = true) ∧
    ((d.hbm h).high = true → Happens (.highRangeExit h) s fun t => Apart s t ∧ (t.dev.hbm h).high = false) ∧
    (∀ agent p, (d.ctx agent).slds.find? d.sldDue = some p →
      Happens (.sldReturn agent) s fun t => ApartFrom s t agent ∧ (t.dev.ctx agent).regs = (d.ctx agent).regs ∧
        (t.dev.ctx agent).slds = (d.ctx agent).slds.erase p ∧
        (t.dev.ctx agent).slat = (d.ctx agent).slat + word p.late ∧
        (t.dev.ctx agent).refbal = (if p.chan.isSome && p.notBefore (d.ctx agent).refAt then
          d.sldRefbal p (d.ctx agent).refbal else (d.ctx agent).refbal))

/-- R128, R185, R300, R303, R312, R320, R402, R404, R406, R431 and R437: the events of cores and engines. An operation
completes or faults; an entry of a matrix queue starts and completes; a frozen cycle is counted; a bundle that cannot be
decoded or fetched traps or aborts; a pair compares its bundle, rewinds or takes a higher rung, and issues its segment
again. -/
def Obligations.CoreAndEngineEventsHappen : Prop :=
  ∀ (s : State) (agent core : Nat),
    let d := s.dev
    (∀ e o k u, d.runnable agent e = some o → d.binding o.blk = some k →
      (s.engOutcome o k = (u, none) → exec (.engineOpComplete agent e) s = .next { u with last := .done }) ∧
      (o.work = [] → o.succ = [] → o.bar = none → o.eng ≠ 5 → Happens (.engineOpComplete agent e) s fun t => MemSame s t ∧
        (∀ x ∈ t.dev.ops, x.is agent e o.num = false) ∧ (t.dev.ctx agent).event = true ∧
        o.num ∉ (mget ({} : Timeline) (t.dev.ctx agent).tls e).live) ∧
      (∀ m, s.engOutcome o k = (u, some m) → u.dev.faults o m = true →
        let o' := { o with wst := (u.dev.runnable agent e).elim o.wst (·.wst) }
        exec (.engineFault agent e m.1) s = .next { u.engFault o' m with last := .done } ∧
        (∀ x, o.bar = none → o.tasked = true → (u.dev.ctx agent).task = some x → x.pin = .firm →
          Happens (.engineFault agent e m.1) s fun t =>
            (o.num, engineCode m.1) ∈ (mget ({} : Timeline) (t.dev.ctx agent).tls e).fault ∧
              ∀ x ∈ t.dev.ops, x.is agent e o.num = false))) ∧
    (∀ path before m, nextEntry path [] (d.core core).mq = some (before, m) → m.free before = true →
      m.issued + 2 ≤ d.cycle → (d.core core).issued = false → Happens (.matrixEntryStart core path) s fun t =>
        MemSame s t ∧ (∀ a, (t.dev.ctx a).regs = (d.ctx a).regs) ∧
        ∃ x ∈ (t.dev.core core).mq, x.ctx = m.ctx ∧ x.e = m.e ∧ x.num = m.num ∧ x.started = true) ∧
    (∀ path m, (d.core core).doneEntry path = some m → Happens (.matrixEntryComplete core path) s fun t => MemSame s t ∧
      (∀ a, (t.dev.ctx a).regs = (d.ctx a).regs) ∧
      (∀ x ∈ (t.dev.core core).mq, x.ctx ≠ m.ctx ∨ x.e ≠ m.e ∨ x.num ≠ m.num) ∧
      m.num ∉ (mget ({} : Timeline) (t.dev.ctx m.ctx).tls m.e).live ∧
      t.dev = (s.runEntry core m).1.dev.endEntry core m (s.runEntry core m).2 ∧
      ∀ acc, m.op = .macz acc → ((t.dev.core core).bank acc).data = 0) ∧
    (let u := s.issuePoint core
     (u.dev.core core).freezes (u.nextWeight core) = true → (u.dev.core core).issued = false →
      Happens (.freezeCycle core) s fun t => MemSame u t ∧ (t.dev.core core).frzcnt = (u.dev.core core).frzcnt + 1 ∧
        (t.dev.core core).frozen = true ∧ ∀ a, (t.dev.ctx a).regs = (u.dev.ctx a).regs ∧ (t.dev.ctx a).v = (u.dev.ctx a).v) ∧
    (let u := s.issuePoint (coreOf agent)
     (∀ b ws, u.nextBundle (coreOf agent) = some (agent, b, .ok ws) →
        (encodingFault (!isUpper (coreOf agent)) (ws.map decWord)).isSome = true →
        let c := u.dev.ctx agent
        let shut : State := { u with bundle := some (shutBundle u agent ws) }
        let leaf := shut.leafOf (ws.map decWord)
        c.interlocked u.dev.cycle leaf (ws.map decWord) = false → shut.farHeld leaf (ws.map decWord) = false →
        (u.dev.core (coreOf agent)).freezes (u.nextWeight (coreOf agent)) = false →
        Completes (exec (.illegalEncoding agent) s) fun t => t.last = .trapped 0x01) ∧
      (∀ b cause x, u.nextBundle (coreOf agent) = some (agent, b, .error (.trap cause x)) →
        Completes (exec (.instructionFetchFault agent) s) fun t => t.last = .trapped cause) ∧
      (∀ b cause x, u.nextBundle (coreOf agent) = some (agent, b, .error (.abort cause x)) →
        Completes (exec (.instructionFetchFault agent) s) fun t => t.last = .aborted cause)) ∧
    (∀ b k synd, d.taskBinding agent = some (b, k) → k.prot = true → k.follower (cellOf (coreOf agent)) = false →
      let c := d.ctx agent
      Becomes (.lockstepCompare agent true synd) s (d.updCtx agent fun c => { c with lastPc := none }) ∧
      (c.segOpen = true → c.seg.matrix = false → c.seg.rewinds < 2 → c.seg.stopped = none →
        Happens (.lockstepCompare agent false synd) s fun t => MemSame s t ∧
          let x := t.dev.ctx agent
          x.regs = c.seg.entry ∧ x.v = c.seg.entryV ∧ x.mp = c.seg.entryMp ∧ x.seg.held = [] ∧ x.seg.replay = some 0 ∧
            x.seg.rewinds = c.seg.rewinds + 1 ∧ x.seg.stopped = some d.cycle) ∧
      (c.segOpen = true → c.seg.stopped.isSome = true →
        Becomes (.lockstepCompare agent false synd) s (d.mismatchRecord agent c.comparing synd)) ∧
      (c.segOpen = false ∨ c.seg.stopped = none ∧ (c.seg.matrix = true ∨ 2 ≤ c.seg.rewinds) →
        Becomes (.lockstepCompare agent false synd) s
          ((d.mismatchRecord agent c.comparing synd).failTask agent d.nextSeq))) ∧
    (∀ t0, (d.ctx agent).seg.stopped = some t0 → (d.ctx agent).segOpen = true → t0 + 40 ≤ d.cycle →
      Happens (.rewindReissue agent) s fun t => ApartFrom s t agent ∧
        t.dev.ctx agent = { d.ctx agent with seg := { (d.ctx agent).seg with stopped := none } })

/-- R31, R349, R350, R352, R372 to R380, R398 to R401, R407, R408, R410, R411, R417 to R419 and R475: storage errors, the
patrol, the taking of a record, resets and power, and the registers that the host writes. What of the endpoint's state a PCIe
reset clears, and how the BAR0 clauses tell the control owner, are the model's choices (log entries 59 and 63); so is that a
`bpadd` write with a bit of 15:0 set is dropped whole (log entry 121). -/
def Obligations.ErrorAndPowerEventsHappen : Prop :=
  ∀ (s : State) (e : EccEvent) (cell w : Nat) (v : Word),
    let d := s.dev
    (d.eccFits e = true → ¬ (e.struct = 8 ∧ e.unit ≠ 0) →
      (e.corrected = true → Happens (.eccErrorDetect e) s fun t => Apart s t ∧
        mget 0 t.dev.err.corrected (e.struct * 4 + eccStack e) = mget 0 d.err.corrected (e.struct * 4 + eccStack e) + 1) ∧
      (e.corrected = false → e.struct ≤ 10 → Becomes (.eccErrorDetect e) s (d.coreError e)) ∧
      (e.corrected = false → 10 < e.struct → Becomes (.eccErrorDetect e) s (d.farError e)) ∧
      (e.corrected = false → e.struct = 14 → Happens (.eccErrorDetect e) s fun t => Apart s t ∧
        (t.dev.line (e.pa / 64)).poison = true)) ∧
    (d.eccFits e = true → e.struct = 8 → e.unit ≠ 0 → Happens (.eccErrorDetect e) s fun t => Apart s t ∧
      mget 0 t.dev.err.corrected (32 + eccStack e) = mget 0 d.err.corrected (32 + eccStack e) + 1) ∧
    (∀ (x : PatrolLine) y, d.patrols x.site x.num = true → (if x.site = .hbm then d.access x.num else some d) = some y →
      Becomes (.patrolRead x false) s y ∧ MemSame s { s with dev := y } ∧
      Happens (.patrolRead x true) s fun t => MemSame s t ∧
        (x.site = .hbm ∨ x.site = .l2 true → (t.dev.line x.num).poison = true) ∧
        ∀ k, x.site = .sram k → t.dev.sramPage k (x.num * 64) = none) ∧
    (∀ r rest, d.err.queue = r :: rest →
      let u := s.takeRecord r rest
      exec .errorRecordTake s = .next { u.1.actOn u.2 with last := .done } ∧
      (r.prev = false → r.rung ≠ 5 → r.rung ≠ 6 → r.cls ≠ 2 → r.cls ≠ 3 → Happens .errorRecordTake s fun t =>
        Apart s t ∧ t.dev.err.queue = rest ∧ t.dev.err.seq = d.err.seq + 1 ∧ t.dev.err.lost = false ∧
          t.dev.err.newest = d.err.seq ∧
          mget 0 t.dev.err.window (d.err.seq.toNat % 32) =
            { r with seq := d.err.seq, ov := d.err.lost || r.ov, time := word d.wallClock }.bits512) ∧
      (r.prev = true → Happens .errorRecordTake s fun t => Apart s t ∧ t.dev.err.queue = rest ∧
        t.dev.err.seq = d.err.seq ∧ mget 0 t.dev.err.window (r.seq.toNat % 32) = { r with ov := d.err.lost || r.ov }.bits512)) ∧
    (∀ stack t0, mfind d.err.stackReset stack = some t0 →
      Happens (.stackResetComplete stack) s fun t => mfind t.dev.err.stackReset stack = none ∧ Apart s t) ∧
    (let down (i : Instr) (o : Out) : Prop := Happens i s fun t => t.dev.power = .held ∧ t.dev.ctxs = [] ∧
        t.dev.mem = [] ∧ t.dev.out.outbox = d.out.outbox ++ [o] ∧ Whole t ∧
          ∃ r : ErrRec, t.dev.flash.kept.getLast? = some r ∧ r.cls = 8 ∧ r.rung = 6
     down .railFault .faultN ∧ down .thermalTrip .thermtripN) ∧
    ((d.fw 4).last + 90000000 ≤ d.cycle →
      Happens .watchdogReset s fun t => t.dev.power = .on ∧ t.dev.ctxs = [] ∧ t.dev.mem = [] ∧
        ∃ r ∈ t.dev.err.queue, r.cls = 9 ∧ r.prev = true) ∧
    (d.power = .off → Happens .powerOn s fun t => t.dev = d.reset) ∧
    (d.power = .on → Happens .rstNReset s fun t => t.dev = d.reset) ∧
    Becomes .pcieReset s (d.updPcie fun _ => { link := false }) ∧
    (d.power ≠ .off → Happens .standby s fun t => t.dev.power = .off ∧ t.dev.ctxs = [] ∧ t.dev.mem = []) ∧
    (∀ core x, core < 512 →
      let old := (d.core core).ceiling
      let y := d.out.sensors
      x = old ∨ (x.toNat < old.toNat ∧ (2800 < y.pwr.toNat ∨ 3000 < y.module.toNat ∨ 105 ≤ y.tdie.toNat ∨ 95 ≤ y.thbm.toNat)) ∨
        (old.toNat < x.toNat ∧ y.pwr.toNat ≤ 2660 ∧ y.module.toNat ≤ 2850 ∧ y.tdie.toNat ≤ 100 ∧ y.thbm.toNat ≤ 90) →
      Happens (.currentCeilingWrite core x) s fun t => Apart s t ∧ (t.dev.core core).ceiling = x) ∧
    (d.owner.isSome = true →
      (w < 4 → (Happens (.ugreqWrite w v) s fun t => Apart s t ∧
          ∀ i, i < 64 → (t.dev.cell (64 * w + i)).ugreq = v.getLsbD i) ∧
        (Happens (.coffWrite w v) s fun t => Apart s t ∧ ∀ i, i < 64 →
          (t.dev.cell (64 * w + i)).offline = ((d.cell (64 * w + i)).offline && !v.getLsbD i))) ∧
      (Happens .faqpopRead s fun t => Apart s t ∧ t.dev.mm.faq = d.mm.faq.drop 1) ∧
      (bits v 59 52 ≠ 0 ∨ bits v 15 0 ≠ 0 → Becomes (.bpaddWrite v) s d) ∧
      (bits v 59 52 = 0 → bits v 15 0 = 0 →
        (d.flash.bad.length + d.flash.bpBusy.length < 8192 → Happens (.bpaddWrite v) s fun t => Apart s t ∧
          t.dev.flash.bpBusy = d.flash.bpBusy ++ [v]) ∧
        (8192 ≤ d.flash.bad.length + d.flash.bpBusy.length → Happens (.bpaddWrite v) s fun t => Apart s t ∧
          t.dev.flash = d.flash))) ∧
    (cell < 256 → (d.cell cell).ugreq = true → (d.cell cell).gated = false → d.usesUpper cell = false →
      Happens (.upperGateApply cell) s fun t => Apart s t ∧ (t.dev.cell cell).gated = true ∧
        (t.dev.cell cell).up = {} ∧ (t.dev.cell cell).down = {} ∧
        t.dev.core (2 * cell + 1) = { ceiling := (d.core (2 * cell + 1)).ceiling }) ∧
    ((d.cell cell).gated = true → (d.cell cell).ungating = true →
      Happens (.upperUngateComplete cell) s fun t => Apart s t ∧ (t.dev.cell cell).gated = false) ∧
    (∀ fn q x, q < 16384 → (d.hq q).en = true → (d.hq q).dev = false → (d.hq q).fn = fn → d.out.pcie.has fn = true →
      Happens (.doorbellWrite fn q x) s fun t => Apart s t ∧ t.dev.hq q = { d.hq q with wptr := x }) ∧
    (∀ off, off % 8 = 0 → d.owner = some 0 → d.out.pcie.has 0 = true →
      (Happens (.registerWrite off v) s fun t => t.dev.ctxs = d.ctxs) ∧
      (d.mm.waiting = [] → Becomes (.registerWrite off v) s (d.writeReg off v))) ∧
    (d.writeReg 0x208 v).err.elbase = v &&& 0xFFFFFFFFFFFFF001 ∧ (d.writeReg 0x210 v).err.elcfg = v &&& 0x800007FF0000001F ∧
    (d.writeReg 0x100028 v).mm.vtsel = v.extractLsb' 0 12 ∧ (d.writeReg 0x100018 v).mm.qqpg = v

/-! ## Commands (R353 to R371) -/

/-- R35, R37, R131, R238, R326, R339, R346, R354 to R357, R416, R458 and R466: the commands of streams and control blocks.
Each that the processor takes, whose fields are in range and whose issuer may give it, completes with status 0 or is under
way, with the effect that its rule gives; pending commands complete. A `SIGNAL` to a line for which the version heap is
short waits (R482). That `msel` of a created block is the side of the flash roots, what else a created block holds and the
statuses of `CB_CREATE` and `CB_WRITE`, and a migration's copy in one message are the model's choices (log entries 111, 82
and 84). -/
def Obligations.ControlBlockCommands : Prop :=
  ∀ (s : State) (c : Cmd) (b : Nat),
    let d := s.dev
    let h := d.hq c.q
    let serves (i : Instr) (type : Nat) (P : State → Prop) : Prop := Happens i s fun t => Served c type s t 0 0 ∧ P t
    let host (t : State) (a n : Nat) : List Byte := t.dev.hostRead h.fn h.pasid a n
    (Taken s c 0x00 { all := true } → c.arg = 0 → serves (.cmdNop c) 0x00 fun _ => True) ∧
    (Taken s c 0x01 whoOMT → plain c 3 0 = true → c.level < 4 → 0 < pw c 2 → pw c 2 ≤ 2 ^ 20 →
      serves (.indirect c) 0x01 fun t => (t.dev.hq c.q).levels = (pd c 0, pw c 2) :: h.levels) ∧
    (Taken s c 0x02 whoOMT → plain c 4 1 = true → pd c 0 % 8 = 0 →
      let v := toBytes (word (pd c 2)).toNat 8
      (c.arg = 0 → Happens (.signal c) s fun t => (∃ st, Recorded c 0x02 s t 0 st) ∧ t.dev.ctxs = d.ctxs ∧
        (c.cpl = false → host t (pd c 0) 8 = v ∧ MemSame s t)) ∧
      (c.arg = 1 → isLocal (pd c 0) = true → Happens (.signal c) s fun t => (∃ st, Recorded c 0x02 s t 0 st) ∧
        t.dev.ctxs = d.ctxs ∧
        (c.cpl = false → d.mustWait none (pd c 0 / 64) = false → rdBytes t.dev.mem (pd c 0) 8 = v ∧
          ∀ a, a / 64 ≠ pd c 0 / 64 → rdByte t.dev.mem a = rdByte d.mem a) ∧
        (c.cpl = false → d.mustWait none (pd c 0 / 64) = true → MemSame s t ∧
          ∃ w : HeldWrite, t.dev.mm.waiting = d.mm.waiting ++ [w] ∧ w.pa = pd c 0 ∧ w.bytes = v)) ∧
      (c.arg = 1 → isRemote (pd c 0) = true → d.reachable (peerOf (pd c 0)) = true →
        Happens (.signal c) s fun t => ∃ st, Served c 0x02 s t 0 st)) ∧
    (Taken s c 0x03 whoOMT → plain c 5 2 = true →
      let dev := c.arg.getLsbD 0
      let eq := c.arg.getLsbD 1
      let met := s.waitMet c.q dev (pd c 0) (word (pd c 2)) eq
      dev = false ∨ isLocal (pd c 0) = true ∨ isRemote (pd c 0) = true ∧ d.reachable (peerOf (pd c 0)) = true →
        (met = true → serves (.wait c) 0x03 fun _ => True) ∧
        (met = false → Happens (.wait c) s fun t => Apart s t ∧ UnderWay c 0x03 s t
          (.wait dev (pd c 0) (word (pd c 2)) eq (if pw c 4 = 0 then none else some (d.cycle + 1800 * pw c 4))))) ∧
    (∀ p dev a v eq limit, p ∈ d.out.pend → (∀ x ∈ d.out.pend, x.q = p.q → x = p) → p.kind = .wait dev a v eq limit →
      (s.waitMet p.q dev a v eq = true → Happens (.waitSatisfied p.q) s fun t => p ∉ t.dev.out.pend) ∧
      (∀ n, limit = some n → n ≤ d.cycle → Happens (.waitTimeout p.q) s fun t => p ∉ t.dev.out.pend)) ∧
    (Names s c b →
      let m := d.block b
      (Taken s c 0x08 whoO → plain c 65 0 = true →
        let side := (d.flash.current b).getD 0
        let m1 := createdBlock m side c
        d.mstate b = sFree → m1.shapeOk = true → d.saveOk m1 = true →
        d.pairHeld b (hashKey (m1.get fRkid) (m1.get fFnid)) = false →
        serves (.cbCreate c) 0x08 fun t => t.dev.mstate b = sIdle ∧
          (t.dev.block b).get fGen = (m.get fGen + 1) % 256 ∧ (t.dev.block b).get fMsel = side % 2 ∧ (t.dev.block b).recs = [] ∧
          mfind t.dev.tab.hash (hashKey (m1.get fRkid) (m1.get fFnid)) = some b ∧
          ∀ i, i < 15 → (t.dev.block b).dw i &&& rwMask i = word (pd c (1 + 2 * i)) &&& rwMask i) ∧
      (Taken s c 0x09 whoO → plain c 6 0 = true →
        let i := pw c 1
        let mask := word (pd c 4) &&& rwMask i
        let m1 := m.write i (word (pd c 2)) mask
        i < 15 → d.mstate b = sFree ∨ d.mstate b = sIdle ∨ d.mstate b = sSuspended → m1.shapeOk = true →
        (i = 0 ∧ mask.getLsbD 14 = true ∧ m1.get fPol = 1 ∨ (i = 8 ∨ i = 9) ∧ mask ≠ 0 → d.saveOk m1 = true) →
        Happens (.cbWrite c) s fun t => Recorded c 0x09 s t 0 0 ∧ t.dev.ctxs = d.ctxs ∧
          (m1.get fImage = m.get fImage → Served c 0x09 s t 0 0) ∧
          (t.dev.block b).dw i = (m.dw i &&& ~~~mask) ||| (word (pd c 2) &&& mask) ∧
          ∀ j, j ≠ i → (t.dev.block b).dw j = m.dw j) ∧
      (Taken s c 0x0A whoMT → plain c 3 0 = true →
        serves (.cbRead c) 0x0A fun t => c.cpl = false → host t (pd c 1) 512 = d.cbBytes b) ∧
      (Taken s c 0x0B whoO →
        (stateArg c 1 = true →
          (d.mstate b = sIdle ∨ d.mstate b = sQueued ∨ d.mstate b = sPreempted →
            serves (.cbSuspend c) 0x0B fun t => t.dev.mstate b = sSuspended) ∧
          (d.mstate b = sRunning → Happens (.cbSuspend c) s fun t => UnderWay c 0x0B s t (.suspend b))) ∧
        (stateArg c 2 = true → d.mstate b = sSuspended → d.retiredImage b = false →
          serves (.cbResume c) 0x0B fun t => t.dev.mstate b =
            if m.saved.isSome = true ∨ m.recs ≠ [] then sQueued else sIdle) ∧
        (stateArg c 3 = true → d.mstate b ≠ sFree → Happens (.cbKill c) s fun t => t.dev.mstate b = sDead ∧
          t.dev.binding b = none ∧ ((∀ p ∈ d.out.pend, p.kind ≠ .suspend b ∧ p.kind ≠ .migrate b) →
            Recorded c 0x0B s t 0 0)) ∧
        (stateArg c 4 = true → d.mstate b = sDead →
          (d.quiet b = true → Happens (.cbRelease c) s fun t => Recorded c 0x0B s t 0 0 ∧ t.dev.ctxs = d.ctxs ∧
            t.dev.mstate b = sFree) ∧
          (d.quiet b = false → Happens (.cbRelease c) s fun t => Apart s t ∧ UnderWay c 0x0B s t (.release b)))) ∧
      (Taken s c 0x0C whoO → plain c 2 0 = true → pw c 1 < 512 → d.mstate b = sIdle ∨ d.mstate b = sSuspended →
        d.out.buoys.length < 4096 → d.reachable (pw c 1) = true → Happens (.cbMigrate c) s fun t => Apart s t ∧
          UnderWay c 0x0C s t (.migrate b) ∧ t.dev.mstate b = sMigrating ∧
          t.dev.out.outbox = d.out.outbox ++ [d.copyOf b (pw c 1) (d.mstate b == sSuspended)]) ∧
      (Taken s c 0x0D { o := true, t := true } → plain c 1 0 = true →
        (d.binding b = none → serves (.event c) 0x0D fun _ => True) ∧
        (∀ k, d.binding b = some k → Happens (.event c) s fun t => Recorded c 0x0D s t 0 0 ∧
          ∀ a, t.dev.ctx a = if a ∈ k.agents then { d.ctx a with event := true } else d.ctx a))) ∧
    (∀ p ∈ d.out.pend, p.kind = .release b → d.quiet b = true → Happens (.cbReleaseComplete b) s fun t =>
      p ∉ t.dev.out.pend ∧ t.dev.mstate b = sFree)

/-- R97, R145 to R147, R186, R204, R330, R335, R340, R341, R343, R344, R349, R350, R357, R360, R361, R364, R369 to R371, R407
and R469: the other commands. Each that the processor takes, whose fields are in range and whose issuer may give it,
completes with the status and result of its rule, or is under way, with its effect. What `SYS_LAUNCH` appends, what
`DIAG_READ` gives of an unbound block or beyond its window, and how the lost owner's channel is told are the model's choices
(log entries 88, 90 and 91). -/
def Obligations.OtherCommands : Prop :=
  ∀ (s : State) (c : Cmd) (b : Nat),
    let d := s.dev
    let h := d.hq c.q
    let serves (i : Instr) (type : Nat) (v : Word) (P : State → Prop) : Prop :=
      Happens i s fun t => Served c type s t 0 v ∧ P t
    let host (t : State) (a n : Nat) : List Byte := t.dev.hostRead h.fn h.pasid a n
    let reg (t : State) : Word := t.dev.out.owner.zeroExtend 64
    (Taken s c 0x10 whoO → plain c 5 1 = true → pw c 4 < 4096 →
      c.arg = 0 ∨ isLocal (pd c 0) = true ∧ isLocal (pd c 0 + pw c 2 - 1) = true → ∀ id i,
      loadImage (d.cmdGet c.q (c.arg.getLsbD 0) (pd c 0) (pw c 2)) (BitVec.ofNat 32 (pw c 3)) (BitVec.ofNat 32 (pw c 4)) =
        some (id, i) →
      serves (.imgInstall c) 0x10 (word id) fun t => mfind t.dev.tab.images id = some i) ∧
    (Taken s c 0x11 whoO → plain c 1 0 = true → serves (.imgRetire c) 0x11 0 fun t =>
      BitVec.ofNat 32 (pw c 0) ∈ t.dev.tab.retired ∧
      ∀ b i, mfind d.tab.images ((d.block b).get fImage) = some i → i.gen.toNat = pw c 0 →
        d.mstate b = sIdle ∨ d.mstate b = sQueued ∨ d.mstate b = sPreempted → t.dev.mstate b = sSuspended) ∧
    (Taken s c 0x12 whoO → plain c 3 0 = true → pw c 0 < 4096 →
      (pw c 2 < 0x8000 → serves (.hashSet c) 0x12 0 fun t =>
        mfind t.dev.tab.hash (hashKey (pw c 0) (pw c 1)) = some (pw c 2)) ∧
      (pw c 2 = 0x8000 → serves (.hashSet c) 0x12 0 fun t => mfind t.dev.tab.hash (hashKey (pw c 0) (pw c 1)) = none)) ∧
    (Taken s c 0x14 whoO → plain c 10 1 = true → pw c 0 < 1024 →
      let cells := if c.arg = 0 then (d.resvOf (pw c 0)).cells else cellWords c
      (∀ x ∈ d.tab.resv, x.1 = pw c 0 ∨ x.2.cells &&& cells = 0) → Happens (.resvWrite c) s fun t =>
        let r := t.dev.resvOf (pw c 0)
        Recorded c 0x14 s t 0 0 ∧ r.cells = cells ∧ r.wt = BitVec.ofNat 16 (pw c 1) ∧ r.lend = (pw c 1).testBit 16 ∧
          ((d.resvOf (pw c 0)).cells &&& ~~~cells = 0 → Served c 0x14 s t 0 0)) ∧
    (Taken s c 0x15 whoO → plain c 3 0 = true →
      (pw c 0 = 0 → pd c 1 ≤ 1789200 → serves (.policyRgrace c) 0x15 0 fun t => t.dev.tab.rgrace = word (pd c 1)) ∧
      (pw c 0 = 1 → serves (.policyWclk c) 0x15 0 fun t => t.dev.tab.wclk = some (word (pd c 1), d.cycle))) ∧
    (Names s c b →
      (Taken s c 0x18 whoO → plain c 4 0 = true →
        (d.binding b = none → d.mstate b ≠ sMigrating → Happens (.shootdown c) s fun t => ∃ st, Served c 0x18 s t 0 st) ∧
        ((d.binding b).isSome = true → Happens (.shootdown c) s fun t => UnderWay c 0x18 s t (.shoot b)) ∧
        (d.binding b = none → d.mstate b = sMigrating → Happens (.shootdown c) s fun t => Apart s t ∧
          UnderWay c 0x18 s t (.heldShoot b (bits (word (pd c 1)) 56 0) (pw c 3)))) ∧
      (Taken s c 0x1F { m := true } → plain c 4 0 = true → pw c 1 ≤ 511 → serves (.diagRead c) 0x1F 0 fun t =>
        c.cpl = false → host t (pd c 2) 16 =
          toBytes (match (d.window b)[pw c 1]? with | some e => e.bits128.toNat | none => 0) 16) ∧
      (Taken s c 0x29 whoO → plain c 1 0 = true → (d.imageOf b).sys = true → d.mstate b ≠ sFree → d.mstate b ≠ sDead →
        d.retiredImage b = false → (d.block b).hasUnits 1 = true → Happens (.sysLaunch c) s fun t =>
          Recorded c 0x29 s t 0 0 ∧ t.dev.ctxs = d.ctxs ∧ ∃ r : Rec, (t.dev.block b).recs = (d.block b).recs ++ [r] ∧
            r.done = true ∧ r.units = 1)) ∧
    (Taken s c 0x1A whoO →
      (∀ x, d.settled = true → plain c 0 0 = true → d.freeHandle devTable = some x →
        let g := mget 0 d.tab.snapGen devTable + 1
        serves (.devsnapTake c) 0x1A (word (g.toNat * 2 ^ 32 + x)) fun t =>
          (t.dev.snap devTable x).state = 1 ∧ (t.dev.snap devTable x).gen = g) ∧
      (∀ x, x ≠ 0 → c.words = [] → c.arg.toNat < 256 → c.arg.toNat = 16 * x + 1 → (d.snap devTable x).state ≠ 0 →
        Happens (.devsnapRelease c) s fun t => Recorded c 0x1A s t 0 0 ∧
          ((d.snap devTable x).state = 1 → (t.dev.snap devTable x).state = 0) ∧
          ((d.snap devTable x).state = 2 → (t.dev.snap devTable x).state = 3))) ∧
    (Taken s c 0x1B whoO → plain c 2 0 = true → pw c 0 = 0xFFFFFFFF ∨ pw c 0 < 32768 → 1 ≤ pw c 1 → pw c 1 ≤ 15 →
      let b := if pw c 0 = 0xFFFFFFFF then devTable else pw c 0
      (d.snap b (pw c 1)).state = 1 → serves (.checkpoint c) 0x1B 0 fun t => (t.dev.snap b (pw c 1)).state = 2 ∧
        (t.dev.block b).drains = (d.block b).drains ++ [pw c 1]) ∧
    (Taken s c 0x1D whoMT → plain c 3 0 = true → pw c 0 < 4096 → d.reaches c.who (pw c 0) = true →
      serves (.meterRead c) 0x1D 0 fun t => c.cpl = false → host t (pd c 1) 64 = d.meterBytes (pw c 0)) ∧
    (Taken s c 0x1E whoMT → plain c 4 0 = true → 0 < pw c 1 → pw c 1 ≤ 4096 → pw c 0 + pw c 1 ≤ 4096 →
      (∀ i, i < pw c 1 → d.reaches c.who (pw c 0 + i) = true) →
      serves (.meterReport c) 0x1E (word (160 + 64 * pw c 1)) fun t => t.dev.dice.reportSeq = d.dice.reportSeq + 1 ∧
        ∃ st, Above st d.top ∧ (c.cpl = false → let rep := d.meterReport (pw c 0) (pw c 1) st
          host t (pd c 2) rep.length = rep)) ∧
    (c.words.length = 1 →
      (Taken s c 0x20 { m := true } → pw c 0 = 0 →
        (c.arg = 0 → d.claimTurn c.who = true → d.owner = none ∨ c.who = 3 → Happens (.ownerClaim c) s fun t =>
          Served c 0x20 s t 0 (reg t) ∧ t.dev.owner = some c.who ∧ t.dev.handing = false) ∧
        (c.arg = 2 → d.handing = true → bits d.out.owner 5 4 = c.who → Happens (.ownerAccept c) s fun t =>
          Served c 0x20 s t 0 (reg t) ∧ t.dev.owner = some c.who ∧ t.dev.handing = false)) ∧
      (Taken s c 0x20 whoO → c.arg = 1 → pw c 0 ≤ 3 → Happens (.ownerHandover c) s fun t =>
        Served c 0x20 s t 0 (reg t) ∧ t.dev.owner = d.owner ∧ t.dev.handing = true ∧ bits t.dev.out.owner 5 4 = pw c 0)) ∧
    (d.out.owner.getLsbD 7 = true → d.out.handover + 1800000000 ≤ d.cycle →
      Happens .handoverLapse s fun t => Apart s t ∧ t.dev.handing = false ∧ t.dev.owner = d.owner) ∧
    (∀ a, d.owner = some a → d.channelLost a = true → Happens .ownerChannelLost s fun t => Apart s t ∧ t.dev.owner = none ∧ t.dev.handing = false) ∧
    (Taken s c 0x24 { m := true } → plain c 1 0 = true → regOffset (pw c 0) = true →
      serves (.regRead c) 0x24 (d.readReg (pw c 0)) fun t =>
        pw c 0 = 0x100058 → d.owner = some c.who → t.dev.mm.faq = d.mm.faq.drop 1) ∧
    (Taken s c 0x25 whoO → plain c 3 0 = true → regOffset (pw c 0) = true →
      (Happens (.regWrite c) s fun t => Recorded c 0x25 s t 0 0 ∧ t.dev.ctxs = d.ctxs ∧
        (pw c 0 = 0x100028 → t.dev.mm.vtsel = (word (pd c 1)).extractLsb' 0 12)) ∧
      (d.mm.waiting = [] → c.cpl = false → Becomes (.regWrite c) s
        (((d.served c.q).updHq c.q fun k => { k with seq := k.seq + 1 }).writeReg (pw c 0) (word (pd c 1))))) ∧
    (Taken s c 0x28 whoO → plain c 9 0 = true → pw c 0 < 8192 → serves (.aclWrite c) 0x28 0 fun t =>
      let e := mget ({} : Acl) t.dev.out.acl (pw c 0)
      e.w0 = word (pd c 1) &&& 0xC0FFFFFFF00001FF ∧ e.w1 = word (pd c 3) ∧ e.w2 = word (pd c 5)) ∧
    (Taken s c 0x22 { o := true } → c.words.length = 4 → c.arg = 0 → pw c 0 ≤ 7 → (d.fw (pw c 0)).probation = none →
      let g := d.fw (pw c 0)
      let bytes := d.cmdGet c.q false (pd c 1) (pw c 3)
      let staged (t : State) (st : Nat) (ok : Bool) : Prop := Served c 0x22 s t st 0 ∧
        (t.dev.fw (pw c 0)).valid (!g.running) = ok ∧ (t.dev.fw (pw c 0)).running = g.running ∧
        (t.dev.fw (pw c 0)).valid g.running = g.valid g.running
      (imagePasses (pw c 0) bytes = true → Happens (.fwStage c) s fun t => staged t 0 true) ∧
      (imagePasses (pw c 0) bytes = false → Happens (.fwStage c) s fun t => staged t 14 false)) ∧
    (Taken s c 0x23 { o := true } → c.words.length = 1 → c.arg = 0 → pw c 0 ≤ 7 → (d.fw (pw c 0)).probation = none →
      (d.fw (pw c 0)).valid (!(d.fw (pw c 0)).running) = true → Happens (.fwActivate c) s fun t => Apart s t ∧
        UnderWay c 0x23 s t (.activate (pw c 0)) ∧ (t.dev.fw (pw c 0)).running = !(d.fw (pw c 0)).running ∧
        (t.dev.fw (pw c 0)).probation.isSome = true) ∧
    (d.launchHeld c.who = false → c.arg.toNat < 8 →
      (Taken s c 0x30 { o := true, d := true } → c.words.length = 6 + pw c 5 → pw c 5 ≤ 1024 → pw c 0 < 512 →
        pw c 1 < 32768 → pw c 2 < 256 → pw c 0 ≠ d.out.devno.toNat → d.reachable (pw c 0) = true →
        Happens (.launch c) s fun t => Apart s t ∧ UnderWay c 0x30 s t (.launch d.out.nextLaunch) ∧
          ∃ l : LaunchPacket, t.dev.out.outbox = d.out.outbox ++ [.launch (pw c 0) l] ∧ l.id = d.out.nextLaunch ∧
            l.blk = pw c 1 ∧ l.gen.toNat = pw c 2 ∧ l.payload = wordBytes (c.words.drop 6) ∧ l.gang = false) ∧
      (Taken s c 0x31 { o := true, d := true } → 4 ≤ c.words.length → c.words.length = 4 + 3 * pw c 0 + pw c 3 →
        2 ≤ pw c 0 → pw c 0 ≤ 16 → (∀ m ∈ gangMembers c, m.1 < 512 ∧ m.2.1 < 32768 ∧ m.2.2 < 256) →
        Happens (.gangLaunch c) s fun t => UnderWay c 0x31 s t (.launch d.out.nextLaunch) ∧
          t.dev.out.nextLaunch = d.out.nextLaunch + pw c 0))

/-! ## The fabric, migration, firmware and SPDM (R346, R347, R362 to R371, R450, R465 to R476) -/

/-- R44, R45, R346, R347, R368 to R371, R465 and R470 to R473: the events of the fabric, of launches and gangs, and of
migration. A remote access is answered under the key that access control gives it, denied, or forwarded by a buoy. The
form of a change of a record's count at a peer, an atomic numbered 9, what a link's loss ends, and a link's key are the
model's choices (log entries 13, 95, 94 and 114). -/
def Obligations.FabricAndMigrationEventsHappen : Prop :=
  ∀ (s : State) (blk id port : Nat),
    let d := s.dev
    (∀ devno routes, (∀ r ∈ routes, r.1 < 512 ∧ ∀ p ∈ r.2, p < 24) →
      Happens (.deviceNumbering devno routes) s fun t => d.out.launches = [] → d.out.migs = [] → Apart s t ∧
        t.dev.out.devno = devno ∧ t.dev.out.routes = routes.foldl (fun m r => mset m r.1 r.2) []) ∧
    (port < 24 → Happens (.linkTraining port) s fun t => Apart s t ∧ t.dev.out.linkUp.getLsbD port = true ∧
      (mfind t.dev.out.linkKeys port).isSome = true ∧
      ∃ own, t.dev.out.outbox = d.out.outbox ++ [.linkOffer port own (signWith d.cdi2 labelAttest own)]) ∧
    (port < 24 → d.out.linkUp.getLsbD port = true →
      let down (i : Instr) : Prop := Happens i s fun t => d.out.launches = [] → d.out.migs = [] → Apart s t ∧
        t.dev.out.linkUp.getLsbD port = false ∧ ∀ p, port ∉ mget [] t.dev.out.routes p
      let tries := mget 0 d.out.flitTries port
      (tries < 16 → Happens (.flitError port) s fun t => Apart s t ∧ mget 0 t.dev.out.flitTries port = tries + 1 ∧
        t.dev.out.linkUp = d.out.linkUp ∧ t.dev.out.routes = d.out.routes) ∧
      (16 ≤ tries → down (.flitError port)) ∧ down (.linkDown port)) ∧
    (∀ r : RemoteAccess, r.port < 24 → d.out.linkUp.getLsbD r.port = true → Happens (.remoteAccessReceive r) s fun t =>
      t.dev.ctxs = d.ctxs ∧
      (∀ n, r.kind = .load n → MemSame s t) ∧
      (let answered (bs : List Byte) (bad : Bool) : Prop :=
         t.dev.out.outbox = d.out.outbox ++ [.remoteData r.sdev.toNat bs bad]
       let refused : Prop := t.dev.out.outbox = d.out.outbox ++ [.remoteDenied r.sdev.toNat] ∧ MemSame s t
       (∀ n, r.kind = .load n → (d.remoteKid r 0 r.pa n = none → refused) ∧
         ∀ kid, d.remoteKid r 0 r.pa n = some kid →
           answered (d.bytesUnder kid r.pa n) ((linesOf r.pa n).any fun l => (d.line l).poison)) ∧
       (∀ n op v w, r.kind = .atomic n op v w → (d.remoteKid r 2 r.pa n = none → refused) ∧
         ∀ kid, d.remoteKid r 2 r.pa n = some kid →
           ((d.line (r.pa / 64)).poison = true → answered [] true ∧ MemSame s t) ∧
           ((d.line (r.pa / 64)).poison = false →
             let old := d.bytesUnder kid r.pa n
             let x := rearm (w.extractLsb' 0 31) (recOf (d.lineUnder (r.pa / 64) kid))
             let new : Int := bits x.1 15 0 + v.toInt
             (op.toNat ≠ 9 → answered old false ∧
               (∀ z, amoNew op.toNat n (ofBytes old) v.toNat w.toNat = some z → rdBytes t.dev.mem r.pa n = toBytes z n) ∧
               (amoNew op.toNat n (ofBytes old) v.toNat w.toNat = none → MemSame s t)) ∧
             (op.toNat = 9 → 0 ≤ new → new ≤ 65535 →
               rdBytes t.dev.mem r.pa 8 = toBytes (setBits x.1 15 0 new.toNat).toNat 8))) ∧
       (∀ ops, r.kind = .publish ops → (d.remoteOps r ops = none → refused) ∧
         ∀ l, d.remoteOps r ops = some l →
           ((∀ o ∈ ops, d.buoyAt o.1 = none) → ∃ st, t.dev.mem = (d.publish ⟨0x0A00 + r.port, st, none, 0⟩ l).mem) ∧
           (∀ dev, ops ≠ [] → (∀ o ∈ ops, d.buoyAt o.1 = some dev) → d.reachable dev = true →
             t.dev.out.outbox = d.out.outbox ++ [.forwardAccess dev { r with kind := .publish ops }] ∧ MemSame s t)))) ∧
    (∀ agent k, (d.ctx agent).task = some k → Becomes (.remoteAccessTimeout agent) s
      ((d.postBlock 6 0 k.blk agent cPOISON 0).abortOr agent cPOISON 0)) ∧
    (∀ l : LaunchPacket, Happens (.launchPacketReceive l) s fun t => t.dev.ctxs = d.ctxs ∧
      (d.mayLaunch l.sdev.toNat l.ten.toNat l.blk = false →
        Apart s t ∧ t.dev.out.outbox = d.out.outbox ++ [.launchFail l.sdev.toNat l.id 0xFFFF]) ∧
      (d.mayLaunch l.sdev.toNat l.ten.toNat l.blk = true → l.blk < 32768 → d.mstate l.blk ≠ sFree →
        (d.block l.blk).get fGen = l.gen.toNat → d.appendStatus l.blk (unitsOf l.payload.length) = 0 →
        ∃ r : Rec, (t.dev.block l.blk).recs = (d.block l.blk).recs ++ [r] ∧ r.done = true ∧
          r.origin = some (l.sdev.toNat, l.id) ∧ r.gang = l.gang)) ∧
    (∀ x payload, d.launchOf id = some x →
      (x.gang = false → (∀ r, Happens (.launchReplyReceive id payload true (some r)) s fun t => t.dev.launchOf id = none) ∧
        (Happens (.launchReplyReceive id payload true none) s fun t => t.dev.launchOf id = none)) ∧
      (Happens (.launchReplyReceive id payload false none) s fun t => Apart s t ∧
        ∃ y, t.dev.launchOf id = some y ∧ y.bytes = x.bytes + payload.length) ∧
      (∀ e, x.gang = true → x.members.zipIdx.find? (fun e => !x.acks.contains e.2) = some e → x.since + 36000 < d.cycle →
        Happens (.gangAckTimeout id) s fun t => t.dev.launchOf id = none)) ∧
    (∀ base x i m, d.gangOf id = some (base, x, i) → x.members[i]? = some m → d.cycle ≤ x.since + 36000 →
      Happens (.gangAckReceive id m.1) s fun t => x.acks.contains i = false → x.acks.length + 1 < x.members.length →
        Apart s t ∧ t.dev.launchOf base = some { x with acks := i :: x.acks }) ∧
    (∀ k g, d.binding blk = some k → k.gang = some g →
      (Happens (.gangConfirmReceive blk) s fun t => Apart s t ∧ t.dev.binding blk = some { k with gang := none } ∧
        t.dev.out.outbox = (g.sends.foldl (fun x y => x.emit (some blk) y) d).out.outbox) ∧
      (g.since + 1800000 ≤ d.cycle → Happens (.gangMemberTimeout blk) s fun t =>
        (∀ a ∈ k.agents, (d.ctx a).task = none) → t.dev.binding blk = none ∧ MemSame s t)) ∧
    (∀ v g, d.binding blk = none → (d.block blk).saved = some v → v.group.gang = some g →
      Happens (.gangConfirmReceive blk) s fun t => Apart s t ∧
        (t.dev.block blk).saved = some { v with group := { v.group with gang := none } }) ∧
    (∀ r origin, d.binding blk = none → d.mstate blk ≠ sPreempted →
      (d.block blk).recs.find? (fun r => r.gang && (match r.origin with | some o => o.1 == origin | none => false)) = some r →
      Happens (.gangAbortReceive blk origin) s fun t => Apart s t ∧
        ∀ x ∈ (t.dev.block blk).recs, x.unit = r.unit → x.abandoned = true) ∧
    (∀ g, d.migration blk = some g →
      (∀ dst, Happens (.migrationCutover blk dst) s fun t => t.dev.mstate blk = sFree ∧
        ∃ u, mfind t.dev.out.buoys (blk * 256 + (d.block blk).get fGen) = some u ∧ u.dev = g.dev ∧ u.blk = dst ∧
          u.since = d.cycle ∧ u.pages = d.ownPages blk) ∧
      (Happens (.migrationAbort blk) s fun t => t.dev.migration blk = none) ∧
      (g.since + 18000000000 ≤ d.cycle → Happens (.migrationAckTimeout blk) s fun t => t.dev.migration blk = none) ∧
      (d.cycle < g.since + 18000000000 → g.asked.getD g.since + 180000000 ≤ d.cycle →
        Becomes (.migrationAckTimeout blk) s (d.queryCopy blk g))) ∧
    (∀ e ∈ d.out.buoys, e.1 / 256 = blk → e.2.since + 180000000 ≤ d.cycle →
      Happens (.buoyExpiry blk) s fun t => e ∉ t.dev.out.buoys ∧ Apart s t) ∧
    (∀ m : MigrationCopy, m.blk < 32768 → d.takesCopy m.blk = true → (∀ e ∈ m.bytes, isLocal e.1 = true) →
      (∀ r ∈ m.cover, isLocal r.1 = true ∧ isLocal (r.1 + r.2) = true) →
      Happens (.migrationCopyReceive m) s fun t => t.dev.ctxs = d.ctxs ∧ (m.last = true →
        (t.dev.block m.blk).unconfirmed = some d.cycle ∧
          t.dev.out.outbox = d.out.outbox ++ [.migrateAck m.sdev.toNat m.srcBlk])) ∧
    (∀ t0, (d.block blk).unconfirmed = some t0 →
      (Happens (.cutoverConfirmReceive blk) s fun t => (t.dev.block blk).unconfirmed = none ∧ Apart s t) ∧
      (t0 + 18000000000 ≤ d.cycle → Happens (.unconfirmedCopyDrop blk) s fun t => t.dev.mstate blk = sFree ∧
        t.dev.ctxs = d.ctxs ∧ (d.tab.copies = [] → MemSame s t)))

/-- R362 to R366, R450, R467, R468, R474 to R476: the events of firmware and of queues, and the answers to SPDM requests. The
forms of the SPDM messages are the model's choice (log entry 70): the manual names SPDM 1.3 and does not restate them. -/
def Obligations.FirmwareQueueAndSpdmEvents : Prop :=
  ∀ (s : State) (fn q : Nat) (r : SpdmRequest),
    let d := s.dev
    let g := d.fw fn
    (∀ p, g.probation = some p →
      (d.cycle ≤ p.since + 90000000 → Happens (.firstBeacon fn) s fun t => (t.dev.fw fn).probation = none ∧
        (t.dev.fw fn).running = g.running ∧ (t.dev.fw fn).cnt = 1 ∧ ∀ x ∈ t.dev.out.pend, x.kind ≠ .activate fn) ∧
      (p.since + 90000000 ≤ d.cycle → Happens (.fwActivateTimeout fn) s fun t => (t.dev.fw fn).probation = none ∧
        (t.dev.fw fn).running = p.slot ∧ (t.dev.fw fn).cnt = p.cnt ∧ ∀ x ∈ t.dev.out.pend, x.kind ≠ .activate fn)) ∧
    (g.probation = none → d.booting fn = true →
      let at_ := g.startedAt fn
      (at_ ≤ d.cycle → d.cycle ≤ at_ + 90000000 → Happens (.firstBeacon fn) s fun t => Apart s t ∧
        t.dev.carries fn = true ∧ t.dev.fw fn = { g with up := true, started := none, cnt := 1, last := d.cycle }) ∧
      (at_ + 90000000 ≤ d.cycle → Happens (.fwActivateTimeout fn) s fun t => Apart s t ∧ (t.dev.fw fn).started = some d.cycle ∧
        (t.dev.fw fn).running = if g.valid (!g.running) then !g.running else g.running)) ∧
    (fn < 8 → d.carries fn = true →
      (Happens (.beaconRaise fn) s fun t => Apart s t ∧ t.dev.fw fn = { g with cnt := g.cnt + 1, last := d.cycle }) ∧
      (g.last + 90000000 ≤ d.cycle → Happens (.firmwareSilent fn) s fun t =>
        (fn ≠ 4 → Apart s t ∧ (t.dev.fw fn).cnt = 0 ∧ (t.dev.fw fn).last = d.cycle ∧
          (t.dev.fw fn).silent.head? = some d.cycle) ∧
        (fn = 4 → t.dev.ctxs = [] ∧ t.dev.mem = []))) ∧
    (∀ src dst m rest t0, src < 8 → dst < 8 → src ≠ dst → 16 ≤ (d.mailbox src dst).length →
      (d.fw src).sends = (dst, m) :: rest → (d.fw src).held = some t0 → t0 + 180000000 ≤ d.cycle →
      Happens (.mailboxFullTimeout src dst) s fun t => dst ≠ 4 → Apart s t ∧ (t.dev.fw dst).cnt = 0 ∧
        (t.dev.fw src).held = some d.cycle) ∧
    (∀ cfg, Happens (.fuseChange cfg) s fun t => Apart s t ∧ t.dev.flash.fuses = some cfg ∧
      t.dev.measureLog = d.measureLog ++ [sha384 cfg]) ∧
    (∀ t0 p, (d.hq q).since = some t0 → d.packet q = some p → (d.hq q).en = true → p.fits = false → p.level = 0 →
      t0 + 18000000 ≤ d.cycle → Happens (.ringOverrunTimeout q) s fun t => (t.dev.hq q).en = false ∧
        (t.dev.hq q).rptr = (d.hq q).rptr) ∧
    ((d.hq q).en = true → (d.hq q).dev = false →
      (d.busyQueue q = false → Happens (.hostAccessFail q .ringFetch) s fun t => Apart s t ∧ (t.dev.hq q).en = false) ∧
      (Happens (.hostAccessFail q .completionWrite) s fun t => Apart s t ∧ t.dev.hq q = { d.hq q with lose := true })) ∧
    (isChannel q = true ∨ (d.hq q).en = true →
      (∀ p ∈ d.out.pend, p.q = q → (∀ x ∈ d.out.pend, x.q = q → x = p) →
        ∀ a v eq limit, p.kind = .wait false a v eq limit →
        Happens (.hostAccessFail q .dataAccess) s fun t => p ∉ t.dev.out.pend) ∧
      (∀ p, (∀ x ∈ d.out.pend, x.q ≠ q) → d.packet q = some p → p.fits = true →
        hasHostData (packetType p.head) (p.head.extractLsb' 0 13) = true →
        Happens (.hostAccessFail q .dataAccess) s fun t => t.dev.ctxs = d.ctxs)) ∧
    (∀ pasid, Happens (.atsInvalidation pasid) s fun t => Apart s t ∧
      (∀ x, (d.hq x).en = true → (d.hq x).dev = false → (d.hq x).pasid = pasid → (t.dev.hq x).en = false) ∧
      t.dev.out.outbox = d.out.outbox ++ [.invalidationDone pasid]) ∧
    (1 ≤ fn → fn ≤ 255 → Happens (.functionLevelReset fn) s fun t => Apart s t ∧ (t.dev.func fn).getLsbD 63 = false ∧
      ∀ x, (d.hq x).en = true → (d.hq x).dev = false → (d.hq x).fn = fn → (t.dev.hq x).en = false) ∧
    (let answers (i : Instr) (code : Byte) : Prop := Happens i s fun t => Apart s t ∧
       ∃ body, t.dev.out.outbox = d.out.outbox ++ [.spdm code body]
     answers (.getVersion r) 0x04 ∧
     (1 ≤ d.dice.negotiated.toNat → answers (.getCapabilities r) 0x61) ∧
     (2 ≤ d.dice.negotiated.toNat → answers (.negotiateAlgorithms r) 0x63) ∧
     (d.dice.negotiated.toNat = 0 → answers (.getCapabilities r) 0x7F ∧ answers (.negotiateAlgorithms r) 0x7F) ∧
     (d.dice.negotiated.toNat < 3 → answers (.getDigests r) 0x7F ∧ answers (.getCertificate r) 0x7F ∧
       answers (.challenge r) 0x7F ∧ answers (.getMeasurements r) 0x7F) ∧
     (d.dice.negotiated.toNat = 3 → answers (.getDigests r) 0x01 ∧
       (bits r.param1 3 0 = 0 → r.offset.toNat < d.certificates.length → answers (.getCertificate r) 0x02) ∧
       (d.out.bootOk = true → (bits r.param1 3 0 = 0 → r.param2 = 0 ∨ r.param2 = 1 ∨ r.param2 = 0xFF → answers (.challenge r) 0x03) ∧
         (r.param2.toNat ≤ 12 ∨ r.param2.toNat = 0xFF → answers (.getMeasurements r) 0x60))))

/-! ## The machine as a whole -/

/-- A step runs the decoded bundle (R51, R174 to R178, R312, R422): with nothing scheduled, the core at focus issues the
bundle fetched at the program counter of its issuing context, which opens it on the device with its weight spent. Its slots
run in order, each taken one with the meaning of the instruction that its word decodes to, and its end commits it. A
bundle of one word is that instruction's meaning and then the end; a slot that stops lets a gather or scatter of a lower slot
stop first; the end notes which results a later bundle has to wait for (R217). An event at the head of the agenda is its own
meaning. That the core forms its weight before the cycle, and that a far access waits for a frozen core, are the model's
choices (log entry 117), as is the agenda (log entry 2). -/
def Obligations.StepRunsTheDecodedInstruction : Prop :=
  ∀ (s : State),
    (∀ (a b : Nat) (ws : List Word32),
      let u := s.issuePoint s.focus
      let ds := ws.map decWord
      let v := openBundle u a b ws
      let leaf := v.bun.leaf
      s.agenda = [] → s.dev.power = .on → u.nextBundle s.focus = some (a, b, .ok ws) →
      (u.dev.ctx a).interlocked u.dev.cycle leaf ds = false → State.farHeld { u with bundle := some (shutBundle u a ws) } leaf ds = false →
      (u.dev.core (coreOf a)).freezes (bundleWeight leaf ds) = false →
      encodingFault (!isUpper (coreOf a)) ds = none →
      operandFault (v.before.core (coreOf a)).vlimit (fun r => (mget {} v.ctx0.v r.toNat).tag) ds = none →
      modeFault v.ctx0.trap.mode leaf ds = none →
      step s = afterIssue a (andThen (runSlots exec ds leaf [] ds.zipIdx v) (finish exec ds leaf)) ∧
      ∀ w i, ws = [w] → (decWord w).instr = some i → (decWord w).taken leaf = true → lastOf i = none →
        step s = afterIssue a (andThen (exec i (v.atSlot ds 0 (decWord w))) (finish exec ds leaf))) ∧
    (∀ ds leaf lower d n r,
      (d.taken leaf = false → runSlots exec ds leaf lower ((d, n) :: r) s = runSlots exec ds leaf lower r s) ∧
      ∀ i, d.taken leaf = true → d.instr = some i → lastOf i = none →
        (∀ t, exec i (s.atSlot ds n d) = .next t → t.bundle.isSome = true →
          runSlots exec ds leaf lower ((d, n) :: r) s = runSlots exec ds leaf (lower ++ [(d, n)]) r t) ∧
        (∀ t, exec i (s.atSlot ds n d) = .next t → t.bundle = none → s.bundle.isSome = true →
          (∀ x ∈ lower, x.1.taken leaf = true → ∀ j, x.1.instr = some j → lastOf j ≠ some .gather) →
          runSlots exec ds leaf lower ((d, n) :: r) s = .next t)) ∧
    (∀ ds leaf, s.bundle.isSome = true → s.bun.blockedBy = none →
      ¬(s.ctx0.segOpen = true ∧ s.binding.prot = true ∧ 1024 ≤ s.ctx0.seg.bundles) →
      (∀ d ∈ ds, d.taken leaf = true → ∀ i, d.instr = some i → lastOf i = none) →
      finish exec ds leaf s = .next (s.noteDue ds leaf).commit ∧
        (resultsDue s.dev.cycle leaf ds = [] → s.ctx.due = [] → s.noteDue ds leaf = s)) ∧
    ∀ e r, s.agenda = .event e :: r → s.dev.lets e = true →
      step s = exec e { s with agenda := r, bundle := none }

/-- R174 to R184: words that the manual writes out in its worked programs decode to the instructions it gives beside
them, and words that R181 and R185 forbid do not decode. -/
def Obligations.WordsDecodeAsTheManualWritesThem : Prop :=
  decodeSlot 0x04608664 = .ok ⟨false, 0, .cmpiLt 1 3 100⟩ ∧
  decodeSlot 0x0FE00001 = .ok ⟨false, 0, .wide 1⟩ ∧
  decodeSlot 0x05024008 = .ok ⟨false, 0, .tree 1 2 0 0 2⟩ ∧
  decodeSlot 0x05240008 = .ok ⟨false, 0, .tgt 1 8⟩ ∧
  decodeSlot 0xB3038FFF = .ok ⟨true, 3, .addi 7 7 0x1FF⟩ ∧
  decodeSlot 0x06E38A02 = .ok ⟨false, 0, .std 7 5 1⟩ ∧
  decodeSlot 0x80A6A860 = .ok ⟨true, 0, .bfx 13 20 12⟩ ∧
  decodeSlot 0x89058001 = .ok ⟨true, 0, .txc 11⟩ ∧
  decodeSlot 0x8C908210 = .ok ⟨true, 0, .vcmpGt 1 1 2 0⟩ ∧
  decodeSlot 0x8E409A0A = .ok ⟨true, 0, .old 1 13 1⟩ ∧
  decodeSlot 0x0EAAC040 = .ok ⟨false, 0, .egoNetReply 24 2⟩ ∧
  decodeSlot 0x8F0A8027 = .ok ⟨true, 0, .csrr 21 0x027⟩ ∧
  decodeSlot 0x00000001 = .error .zeroField ∧
  decodeSlot 0x00200006 = .error .selector ∧
  decodeSlot 0x64608664 = .error .path

/-- R174, R180, R181, R184: decoding the word of a well-formed slot gives the slot back, with its stop bit, its path tag
and every operand at every value that its field admits. -/
def Obligations.DecodingInvertsEncoding : Prop :=
  ∀ x : Slot, x.instr.wf = true → (encode x.instr).isSome = true → pathOk x.path x.instr = true →
    ∃ w, encodeSlot x = some w ∧ decodeSlot w = .ok x

/-- R180, R181, R185: a word that decodes is the word of what it decodes to, which is well formed: no bit of a legal word
is ignored, and no two legal words stand for one slot. -/
def Obligations.EveryLegalWordIsItsOwnEncoding : Prop :=
  ∀ (w : Word32) (x : Slot), decodeSlot w = .ok x →
    encodeSlot x = some w ∧ x.instr.wf = true ∧ pathOk x.path x.instr = true

/-- R177, R205, R422: bundles are all or nothing. Whatever a step does, from whatever state, no bundle is half done in the
state it leaves. -/
def Obligations.EveryStepLeavesNoBundleOpen : Prop := ∀ s t : State, step s = .next t → Whole t

/-- R335, R360, R373, R378: the device after reset: every context VACANT without a task, every control block FREE and
unbound, no owner, no engine operation or matrix entry, every scratchpad and operand slot zero, every ceiling 0xFFFF,
`rgrace` 57,600 and every host queue disabled; no bundle is open and memory is in its canonical form. That memory's bytes
read as zero before they are written is the model's choice (log entry 5). -/
def Obligations.ResetLeavesTheDeviceIdle : Prop :=
  let d := State.reset.dev
  Whole State.reset ∧ MemCanonical State.reset ∧ State.reset.agenda = [] ∧ d.power = .on ∧ d.ops = [] ∧
  (∀ a, (d.ctx a).run = .vacant ∧ (d.ctx a).task = none ∧ (d.ctx a).stamp = 0) ∧
  (∀ b, d.mstate b = sFree ∧ d.binding b = none) ∧
  (∀ c, (d.core c).mq = [] ∧ (d.core c).ceiling = 0xFFFF ∧ (d.core c).scratch = [] ∧ ∀ o, (d.core c).slot o = {}) ∧
  (∀ q, (d.hq q).en = false) ∧ d.out.owner = 0 ∧ d.tab.rgrace = 57600 ∧ ∀ a, rdByte d.mem a = 0

/-- What changes memory (R135, R245, R345, R416): each of the operations through which every change of memory goes keeps
the canonical form, and what each leaves at every address. A line about to be written under a key first holds what it
reads under that key (R84). So every instruction and every event that completes, and every step, from whatever state whose
memory is in that form, leaves memory in it; the reset state's is. The form is the model's own (log entry 5). -/
def Obligations.MemoryOperationsKeepTheCanonicalForm : Prop :=
  (∀ (i : Instr) (s t : State), MemWhole s → exec i s = .next t → MemWhole t) ∧
  (∀ s t : State, MemWhole s → step s = .next t → MemWhole t) ∧ MemWhole State.reset ∧
  ∀ (d : Device), Memory.wf d.mem = true →
    (∀ pa bs, Memory.wf (d.poke pa bs).mem = true ∧
      (∀ i, i < bs.length → rdByte (d.poke pa bs).mem (pa + i) = bs.getD i 0) ∧
      ∀ a, a < pa ∨ pa + bs.length ≤ a → rdByte (d.poke pa bs).mem a = rdByte d.mem a) ∧
    (∀ line kid, Memory.wf (d.rekey line kid).mem = true ∧
      (∀ i, i < 64 → rdByte (d.rekey line kid).mem (64 * line + i) = d.byteUnder kid (64 * line + i)) ∧
      ∀ a, a / 64 ≠ line → rdByte (d.rekey line kid).mem a = rdByte d.mem a) ∧
    (∀ agent n least blk kid pa bs, let e := d.agentWrite agent n least blk kid pa bs
      Memory.wf e.mem = true ∧ (∀ i, i < bs.length → rdByte e.mem (pa + i) = bs.getD i 0) ∧
      ∀ a, a / 64 < pa / 64 ∨ (pa + bs.length - 1) / 64 < a / 64 → rdByte e.mem a = rdByte d.mem a) ∧
    (∀ w ops, Memory.wf (d.publish w ops).mem = true ∧
      ∀ a, (bufLines ops).contains (a / 64) = false →
        rdByte (d.publish w ops).mem a = rdByte d.mem a) ∧
    (∀ pa size keep, Memory.wf (d.wipe pa size keep).mem = true ∧
      ∀ a, rdByte (d.wipe pa size keep).mem a = if pa ≤ a ∧ a < pa + size ∧ keep a = false then 0 else rdByte d.mem a) ∧
    ∀ old fresh size, old + size ≤ fresh ∨ fresh + size ≤ old → Memory.wf (d.copyPage old fresh size).mem = true ∧
      (∀ i, i < size → rdByte (d.copyPage old fresh size).mem (fresh + i) = rdByte d.mem (old + i)) ∧
      ∀ a, a < fresh ∨ fresh + size ≤ a → rdByte (d.copyPage old fresh size).mem a = rdByte d.mem a
end

