-- ==== Sys2Proof/Laws/Decode.lean ====
section
/-! SUPPORT. Reading a field of an operand layout gives back what the encoder put there, one lemma per field of each
class of R180, and a narrow value widened into a field fits it and comes back. -/

namespace Sys2Proof.Laws

theorem fits_setWidth {w n : Nat} (x : BitVec w) : fits w (x.setWidth n) = true := by
  have h := x.isLt
  simp only [fits, BitVec.toNat_setWidth, decide_eq_true_eq]
  exact lt_of_le_of_lt (Nat.mod_le _ _) h

theorem flag_ofBool (b : Bool) {n : Nat} (h : 0 < n) : flag ((BitVec.ofBool b).setWidth n) = b := by
  cases b <;> simp [flag, h]

@[simp] theorem flag_ofBool_one (b : Bool) : flag (BitVec.ofBool b) = b := by cases b <;> rfl

theorem field_or (x y : BitVec 21) (lo w : Nat) : field (x ||| y) lo w = field x lo w ||| field y lo w := by
  unfold field; ext i hi; simp

theorem field_place {w : Nat} (x : BitVec w) (lo : Nat) (h : lo + w ≤ 21) : field (place lo x) lo w = x := by
  unfold field place; ext i hi
  simp [show lo + i < 21 by omega, BitVec.getLsbD_eq_getElem hi]

theorem field_above {w' : Nat} (x : BitVec w') (lo' lo w : Nat) (h : lo + w ≤ lo') :
    field (place lo' x) lo w = 0 := by
  unfold field place; ext i hi; simp [show lo + i < lo' by omega]

theorem field_below {w' : Nat} (x : BitVec w') (lo' lo w : Nat) (h : lo' + w' ≤ lo) :
    field (place lo' x) lo w = 0 := by
  unfold field place; ext i hi; simp [BitVec.getLsbD_of_ge x (lo + i - lo') (by omega)]

@[simp] theorem classR_d (d : BitVec 6) (a : BitVec 6) (b : BitVec 6) (f : BitVec 3) : field (classR d a b f) 15 6 = d := by
  simp [classR, field_or, field_place, field_above, field_below]

@[simp] theorem classR_a (d : BitVec 6) (a : BitVec 6) (b : BitVec 6) (f : BitVec 3) : field (classR d a b f) 9 6 = a := by
  simp [classR, field_or, field_place, field_above, field_below]

@[simp] theorem classR_b (d : BitVec 6) (a : BitVec 6) (b : BitVec 6) (f : BitVec 3) : field (classR d a b f) 3 6 = b := by
  simp [classR, field_or, field_place, field_above, field_below]

@[simp] theorem classR_f (d : BitVec 6) (a : BitVec 6) (b : BitVec 6) (f : BitVec 3) : field (classR d a b f) 0 3 = f := by
  simp [classR, field_or, field_place, field_above, field_below]

@[simp] theorem classI_d (d : BitVec 6) (a : BitVec 6) (imm : BitVec 9) : field (classI d a imm) 15 6 = d := by
  simp [classI, field_or, field_place, field_above, field_below]

@[simp] theorem classI_a (d : BitVec 6) (a : BitVec 6) (imm : BitVec 9) : field (classI d a imm) 9 6 = a := by
  simp [classI, field_or, field_place, field_above, field_below]

@[simp] theorem classI_imm (d : BitVec 6) (a : BitVec 6) (imm : BitVec 9) : field (classI d a imm) 0 9 = imm := by
  simp [classI, field_or, field_place, field_above, field_below]

@[simp] theorem classL_d (d : BitVec 6) (imm : BitVec 15) : field (classL d imm) 15 6 = d := by
  simp [classL, field_or, field_place, field_above, field_below]

@[simp] theorem classL_imm (d : BitVec 6) (imm : BitVec 15) : field (classL d imm) 0 15 = imm := by
  simp [classL, field_or, field_place, field_above, field_below]

@[simp] theorem classM_t (t : BitVec 6) (base : BitVec 6) (off : BitVec 8) (x : BitVec 1) : field (classM t base off x) 15 6 = t := by
  simp [classM, field_or, field_place, field_above, field_below]

@[simp] theorem classM_base (t : BitVec 6) (base : BitVec 6) (off : BitVec 8) (x : BitVec 1) : field (classM t base off x) 9 6 = base := by
  simp [classM, field_or, field_place, field_above, field_below]

@[simp] theorem classM_off (t : BitVec 6) (base : BitVec 6) (off : BitVec 8) (x : BitVec 1) : field (classM t base off x) 1 8 = off := by
  simp [classM, field_or, field_place, field_above, field_below]

@[simp] theorem classM_x (t : BitVec 6) (base : BitVec 6) (off : BitVec 8) (x : BitVec 1) : field (classM t base off x) 0 1 = x := by
  simp [classM, field_or, field_place, field_above, field_below]

@[simp] theorem classMv_t (t : BitVec 6) (base : BitVec 6) (tag : BitVec 4) (off : BitVec 4) (x : BitVec 1) : field (classMv t base tag off x) 15 6 = t := by
  simp [classMv, field_or, field_place, field_above, field_below]

@[simp] theorem classMv_base (t : BitVec 6) (base : BitVec 6) (tag : BitVec 4) (off : BitVec 4) (x : BitVec 1) : field (classMv t base tag off x) 9 6 = base := by
  simp [classMv, field_or, field_place, field_above, field_below]

@[simp] theorem classMv_tag (t : BitVec 6) (base : BitVec 6) (tag : BitVec 4) (off : BitVec 4) (x : BitVec 1) : field (classMv t base tag off x) 5 4 = tag := by
  simp [classMv, field_or, field_place, field_above, field_below]

@[simp] theorem classMv_off (t : BitVec 6) (base : BitVec 6) (tag : BitVec 4) (off : BitVec 4) (x : BitVec 1) : field (classMv t base tag off x) 1 4 = off := by
  simp [classMv, field_or, field_place, field_above, field_below]

@[simp] theorem classMv_x (t : BitVec 6) (base : BitVec 6) (tag : BitVec 4) (off : BitVec 4) (x : BitVec 1) : field (classMv t base tag off x) 0 1 = x := by
  simp [classMv, field_or, field_place, field_above, field_below]

@[simp] theorem classMs_t (t : BitVec 6) (base : BitVec 6) (dir : BitVec 1) (st : BitVec 4) (tag : BitVec 4) : field (classMs t base dir st tag) 15 6 = t := by
  simp [classMs, field_or, field_place, field_above, field_below]

@[simp] theorem classMs_base (t : BitVec 6) (base : BitVec 6) (dir : BitVec 1) (st : BitVec 4) (tag : BitVec 4) : field (classMs t base dir st tag) 9 6 = base := by
  simp [classMs, field_or, field_place, field_above, field_below]

@[simp] theorem classMs_dir (t : BitVec 6) (base : BitVec 6) (dir : BitVec 1) (st : BitVec 4) (tag : BitVec 4) : field (classMs t base dir st tag) 8 1 = dir := by
  simp [classMs, field_or, field_place, field_above, field_below]

@[simp] theorem classMs_st (t : BitVec 6) (base : BitVec 6) (dir : BitVec 1) (st : BitVec 4) (tag : BitVec 4) : field (classMs t base dir st tag) 4 4 = st := by
  simp [classMs, field_or, field_place, field_above, field_below]

@[simp] theorem classMs_tag (t : BitVec 6) (base : BitVec 6) (dir : BitVec 1) (st : BitVec 4) (tag : BitVec 4) : field (classMs t base dir st tag) 0 4 = tag := by
  simp [classMs, field_or, field_place, field_above, field_below]

@[simp] theorem classK_d (d : BitVec 6) (fn : BitVec 3) (ka : BitVec 3) (y : BitVec 3) (kb : BitVec 3) (z : BitVec 3) : field (classK d fn ka y kb z) 15 6 = d := by
  simp [classK, field_or, field_place, field_above, field_below]

@[simp] theorem classK_fn (d : BitVec 6) (fn : BitVec 3) (ka : BitVec 3) (y : BitVec 3) (kb : BitVec 3) (z : BitVec 3) : field (classK d fn ka y kb z) 12 3 = fn := by
  simp [classK, field_or, field_place, field_above, field_below]

@[simp] theorem classK_ka (d : BitVec 6) (fn : BitVec 3) (ka : BitVec 3) (y : BitVec 3) (kb : BitVec 3) (z : BitVec 3) : field (classK d fn ka y kb z) 9 3 = ka := by
  simp [classK, field_or, field_place, field_above, field_below]

@[simp] theorem classK_y (d : BitVec 6) (fn : BitVec 3) (ka : BitVec 3) (y : BitVec 3) (kb : BitVec 3) (z : BitVec 3) : field (classK d fn ka y kb z) 6 3 = y := by
  simp [classK, field_or, field_place, field_above, field_below]

@[simp] theorem classK_kb (d : BitVec 6) (fn : BitVec 3) (ka : BitVec 3) (y : BitVec 3) (kb : BitVec 3) (z : BitVec 3) : field (classK d fn ka y kb z) 3 3 = kb := by
  simp [classK, field_or, field_place, field_above, field_below]

@[simp] theorem classK_z (d : BitVec 6) (fn : BitVec 3) (ka : BitVec 3) (y : BitVec 3) (kb : BitVec 3) (z : BitVec 3) : field (classK d fn ka y kb z) 0 3 = z := by
  simp [classK, field_or, field_place, field_above, field_below]

@[simp] theorem classW_imm (imm : BitVec 21) : field (classW imm) 0 21 = imm := by
  simp [classW, field_or, field_place, field_above, field_below]

@[simp] theorem classT_t1 (t1 : BitVec 4) (t2 : BitVec 4) (t3 : BitVec 4) (t4 : BitVec 4) (n : BitVec 3) (z : BitVec 2) : field (classT t1 t2 t3 t4 n z) 17 4 = t1 := by
  simp [classT, field_or, field_place, field_above, field_below]

@[simp] theorem classT_t2 (t1 : BitVec 4) (t2 : BitVec 4) (t3 : BitVec 4) (t4 : BitVec 4) (n : BitVec 3) (z : BitVec 2) : field (classT t1 t2 t3 t4 n z) 13 4 = t2 := by
  simp [classT, field_or, field_place, field_above, field_below]

@[simp] theorem classT_t3 (t1 : BitVec 4) (t2 : BitVec 4) (t3 : BitVec 4) (t4 : BitVec 4) (n : BitVec 3) (z : BitVec 2) : field (classT t1 t2 t3 t4 n z) 9 4 = t3 := by
  simp [classT, field_or, field_place, field_above, field_below]

@[simp] theorem classT_t4 (t1 : BitVec 4) (t2 : BitVec 4) (t3 : BitVec 4) (t4 : BitVec 4) (n : BitVec 3) (z : BitVec 2) : field (classT t1 t2 t3 t4 n z) 5 4 = t4 := by
  simp [classT, field_or, field_place, field_above, field_below]

@[simp] theorem classT_n (t1 : BitVec 4) (t2 : BitVec 4) (t3 : BitVec 4) (t4 : BitVec 4) (n : BitVec 3) (z : BitVec 2) : field (classT t1 t2 t3 t4 n z) 2 3 = n := by
  simp [classT, field_or, field_place, field_above, field_below]

@[simp] theorem classT_z (t1 : BitVec 4) (t2 : BitVec 4) (t3 : BitVec 4) (t4 : BitVec 4) (n : BitVec 3) (z : BitVec 2) : field (classT t1 t2 t3 t4 n z) 0 2 = z := by
  simp [classT, field_or, field_place, field_above, field_below]

@[simp] theorem classG_leaf (leaf : BitVec 3) (off : BitVec 18) : field (classG leaf off) 18 3 = leaf := by
  simp [classG, field_or, field_place, field_above, field_below]

@[simp] theorem classG_off (leaf : BitVec 3) (off : BitVec 18) : field (classG leaf off) 0 18 = off := by
  simp [classG, field_or, field_place, field_above, field_below]

@[simp] theorem classE_eng (eng : BitVec 4) (reg : BitVec 6) (a : BitVec 6) (fn : BitVec 5) : field (classE eng reg a fn) 17 4 = eng := by
  simp [classE, field_or, field_place, field_above, field_below]

@[simp] theorem classE_reg (eng : BitVec 4) (reg : BitVec 6) (a : BitVec 6) (fn : BitVec 5) : field (classE eng reg a fn) 11 6 = reg := by
  simp [classE, field_or, field_place, field_above, field_below]

@[simp] theorem classE_a (eng : BitVec 4) (reg : BitVec 6) (a : BitVec 6) (fn : BitVec 5) : field (classE eng reg a fn) 5 6 = a := by
  simp [classE, field_or, field_place, field_above, field_below]

@[simp] theorem classE_fn (eng : BitVec 4) (reg : BitVec 6) (a : BitVec 6) (fn : BitVec 5) : field (classE eng reg a fn) 0 5 = fn := by
  simp [classE, field_or, field_place, field_above, field_below]

@[simp] theorem classX_routine (routine : BitVec 8) (acc : BitVec 1) (sa : BitVec 6) (sb : BitVec 6) : field (classX routine acc sa sb) 13 8 = routine := by
  simp [classX, field_or, field_place, field_above, field_below]

@[simp] theorem classX_acc (routine : BitVec 8) (acc : BitVec 1) (sa : BitVec 6) (sb : BitVec 6) : field (classX routine acc sa sb) 12 1 = acc := by
  simp [classX, field_or, field_place, field_above, field_below]

@[simp] theorem classX_sa (routine : BitVec 8) (acc : BitVec 1) (sa : BitVec 6) (sb : BitVec 6) : field (classX routine acc sa sb) 6 6 = sa := by
  simp [classX, field_or, field_place, field_above, field_below]

@[simp] theorem classX_sb (routine : BitVec 8) (acc : BitVec 1) (sa : BitVec 6) (sb : BitVec 6) : field (classX routine acc sa sb) 0 6 = sb := by
  simp [classX, field_or, field_place, field_above, field_below]

@[simp] theorem classVm_cc (cc : BitVec 3) (kd : BitVec 3) (a : BitVec 6) (b : BitVec 6) (k : BitVec 3) : field (classVm cc kd a b k) 18 3 = cc := by
  simp [classVm, field_or, field_place, field_above, field_below]

@[simp] theorem classVm_kd (cc : BitVec 3) (kd : BitVec 3) (a : BitVec 6) (b : BitVec 6) (k : BitVec 3) : field (classVm cc kd a b k) 15 3 = kd := by
  simp [classVm, field_or, field_place, field_above, field_below]

@[simp] theorem classVm_a (cc : BitVec 3) (kd : BitVec 3) (a : BitVec 6) (b : BitVec 6) (k : BitVec 3) : field (classVm cc kd a b k) 9 6 = a := by
  simp [classVm, field_or, field_place, field_above, field_below]

@[simp] theorem classVm_b (cc : BitVec 3) (kd : BitVec 3) (a : BitVec 6) (b : BitVec 6) (k : BitVec 3) : field (classVm cc kd a b k) 3 6 = b := by
  simp [classVm, field_or, field_place, field_above, field_below]

@[simp] theorem classVm_k (cc : BitVec 3) (kd : BitVec 3) (a : BitVec 6) (b : BitVec 6) (k : BitVec 3) : field (classVm cc kd a b k) 0 3 = k := by
  simp [classVm, field_or, field_place, field_above, field_below]

@[simp] theorem classVu_d (d : BitVec 6) (a : BitVec 6) (g : BitVec 2) (u : BitVec 4) (k : BitVec 3) : field (classVu d a g u k) 15 6 = d := by
  simp [classVu, field_or, field_place, field_above, field_below]

@[simp] theorem classVu_a (d : BitVec 6) (a : BitVec 6) (g : BitVec 2) (u : BitVec 4) (k : BitVec 3) : field (classVu d a g u k) 9 6 = a := by
  simp [classVu, field_or, field_place, field_above, field_below]

@[simp] theorem classVu_g (d : BitVec 6) (a : BitVec 6) (g : BitVec 2) (u : BitVec 4) (k : BitVec 3) : field (classVu d a g u k) 7 2 = g := by
  simp [classVu, field_or, field_place, field_above, field_below]

@[simp] theorem classVu_u (d : BitVec 6) (a : BitVec 6) (g : BitVec 2) (u : BitVec 4) (k : BitVec 3) : field (classVu d a g u k) 3 4 = u := by
  simp [classVu, field_or, field_place, field_above, field_below]

@[simp] theorem classVu_k (d : BitVec 6) (a : BitVec 6) (g : BitVec 2) (u : BitVec 4) (k : BitVec 3) : field (classVu d a g u k) 0 3 = k := by
  simp [classVu, field_or, field_place, field_above, field_below]

@[simp] theorem classN_z (z : BitVec 21) : field (classN z) 0 21 = z := by
  simp [classN, field_or, field_place, field_above, field_below]

end Sys2Proof.Laws
end

