-- ==== Sys2Proof/Laws/Map.lean ====
section
/-! SUPPORT. Laws of finite maps and of memory: read after write, what a write leaves alone, and that every memory
operation keeps the canonical form. -/

namespace Sys2Proof.Machine

section Maps
variable {α : Type}

theorem mget_mdel (d : α) (m : Map α) (k j : Nat) : mget d (mdel m k) j = if j = k then d else mget d m j := by
  induction m with
  | nil => simp [mdel, mget]
  | cons e r ih =>
    unfold mdel at *
    by_cases h : e.1 = k
    · simp only [List.filter, h, bne_self_eq_false, ih, mget]
      by_cases hj : j = k
      · simp [hj]
      · simp [hj, Ne.symm hj]
    · simp only [List.filter, bne_iff_ne.mpr h, mget, ih]
      by_cases hj : j = k
      · subst hj; simp [h]
      · simp [hj]

theorem mget_mins (d : α) (m : Map α) (k j : Nat) (v : α) (h : ∀ e ∈ m, e.1 ≠ k) :
    mget d (mins m k v) j = if j = k then v else mget d m j := by
  induction m with
  | nil => simp [mins, mget, eq_comm]
  | cons e r ih =>
    have he := h e (by simp)
    have ih' := ih fun x hx => h x (by simp [hx])
    unfold mins
    split
    · simp only [mget, ih']
      by_cases hj : j = k
      · subst hj; simp [he]
      · simp [hj]
    · simp [mget, eq_comm]

theorem mdel_ne (m : Map α) (k : Nat) : ∀ e ∈ mdel m k, e.1 ≠ k := by
  intro e he; simpa using (List.mem_filter.mp he).2

/-- Reading a map after an entry is listed. -/
theorem mget_mset (d : α) (m : Map α) (k j : Nat) (v : α) :
    mget d (mset m k v) j = if j = k then v else mget d m j := by
  rw [mset, mget_mins _ _ _ _ _ (mdel_ne m k), mget_mdel]; split <;> simp_all

@[simp] theorem mget_mset_same (d : α) (m : Map α) (k : Nat) (v : α) : mget d (mset m k v) k = v := by
  simp [mget_mset]

theorem mget_mset_other (d : α) (m : Map α) (k j : Nat) (v : α) (h : j ≠ k) :
    mget d (mset m k v) j = mget d m j := by simp [mget_mset, h]

/-- Reading a map after a write that keeps the canonical form. -/
theorem mget_mput [DecidableEq α] (d : α) (m : Map α) (k j : Nat) (v : α) :
    mget d (mput d m k v) j = if j = k then v else mget d m j := by
  unfold mput; split
  · rw [mget_mdel]; split <;> simp_all
  · rw [mget_mins _ _ _ _ _ (mdel_ne m k), mget_mdel]; split <;> simp_all

theorem mfind_mdel (m : Map α) (k j : Nat) : mfind (mdel m k) j = if j = k then none else mfind m j := by
  induction m with
  | nil => simp [mdel, mfind]
  | cons e r ih =>
    unfold mdel at *
    by_cases h : e.1 = k
    · simp only [List.filter, h, bne_self_eq_false, ih, mfind]
      by_cases hj : j = k
      · simp [hj]
      · simp [hj, Ne.symm hj]
    · simp only [List.filter, bne_iff_ne.mpr h, mfind, ih]
      by_cases hj : j = k
      · subst hj; simp [h]
      · simp [hj]

theorem mfind_mins (m : Map α) (k j : Nat) (v : α) (h : ∀ e ∈ m, e.1 ≠ k) :
    mfind (mins m k v) j = if j = k then some v else mfind m j := by
  induction m with
  | nil => simp [mins, mfind, eq_comm]
  | cons e r ih =>
    have he := h e (by simp)
    have ih' := ih fun x hx => h x (by simp [hx])
    unfold mins
    split
    · simp only [mfind, ih']
      by_cases hj : j = k
      · subst hj; simp [he]
      · simp [hj]
    · simp [mfind, eq_comm]

/-- Finding an entry after one is listed. -/
theorem mfind_mset (m : Map α) (k j : Nat) (v : α) :
    mfind (mset m k v) j = if j = k then some v else mfind m j := by
  rw [mset, mfind_mins _ _ _ _ (mdel_ne m k), mfind_mdel]; split <;> simp_all

@[simp] theorem mfind_mset_same (m : Map α) (k : Nat) (v : α) : mfind (mset m k v) k = some v := by simp [mfind_mset]

/-! ## The canonical form -/

theorem mwf_cons [DecidableEq α] (d : α) (e : Nat × α) (r : Map α) :
    mwf d (e :: r) = true ↔ e.2 ≠ d ∧ (∀ x ∈ r, e.1 < x.1) ∧ mwf d r = true := by
  simp [mwf, and_assoc]

theorem mwf_mdel [DecidableEq α] (d : α) (m : Map α) (k : Nat) (h : mwf d m = true) : mwf d (mdel m k) = true := by
  induction m with
  | nil => rfl
  | cons e r ih =>
    obtain ⟨h1, h2, h3⟩ := (mwf_cons d e r).mp h
    have ih' := ih h3
    unfold mdel at *
    simp only [List.filter]
    split
    · exact (mwf_cons _ _ _).mpr ⟨h1, fun x hx => h2 x (List.mem_filter.mp hx).1, ih'⟩
    · exact ih'

theorem mins_mem {m : Map α} {k : Nat} {v : α} {x : Nat × α} (h : x ∈ mins m k v) : x = (k, v) ∨ x ∈ m := by
  induction m with
  | nil => simpa [mins] using h
  | cons e r ih =>
    unfold mins at h
    split at h
    · rcases List.mem_cons.mp h with rfl | h
      · simp
      · rcases ih h with h | h <;> simp [h]
    · simpa using h

theorem mwf_mins [DecidableEq α] (d : α) (m : Map α) (k : Nat) (v : α) (hv : v ≠ d) (hk : ∀ e ∈ m, e.1 ≠ k)
    (h : mwf d m = true) : mwf d (mins m k v) = true := by
  induction m with
  | nil => simp [mins, mwf, hv]
  | cons e r ih =>
    obtain ⟨h1, h2, h3⟩ := (mwf_cons d e r).mp h
    have ih' := ih (fun x hx => hk x (by simp [hx])) h3
    unfold mins
    split
    · rename_i hlt
      refine (mwf_cons _ _ _).mpr ⟨h1, fun x hx => ?_, ih'⟩
      rcases mins_mem hx with rfl | hx
      · exact hlt
      · exact h2 x hx
    · rename_i hge
      refine (mwf_cons _ _ _).mpr ⟨hv, fun x hx => ?_, h⟩
      have := hk e (by simp)
      rcases List.mem_cons.mp hx with rfl | hx
      · simp only; omega
      · have := h2 x hx; simp only; omega

/-- A write keeps the canonical form. -/
theorem mwf_mput [DecidableEq α] (d : α) (m : Map α) (k : Nat) (v : α) (h : mwf d m = true) :
    mwf d (mput d m k v) = true := by
  unfold mput
  split
  · exact mwf_mdel d m k h
  · exact mwf_mins d _ k v ‹_› (mdel_ne m k) (mwf_mdel d m k h)

end Maps

/-! ## Memory -/

/-- A byte read after a byte is written. -/
theorem rdByte_wrByte (m : List Host.Cell) (a b : Nat) (v : Byte) :
    rdByte (wrByte m a v) b = if b = a then v else rdByte m b := mget_mput 0 m a b v

/-- Writing a byte keeps memory's canonical form. -/
theorem wrByte_wf (m : List Host.Cell) (a : Nat) (v : Byte) (h : Memory.wf m = true) : Memory.wf (wrByte m a v) = true :=
  mwf_mput 0 m a v h

/-- Writing bytes keeps memory's canonical form. -/
theorem wrBytes_wf (m : List Host.Cell) (a : Nat) (bs : List Byte) (h : Memory.wf m = true) :
    Memory.wf (wrBytes m a bs) = true := by
  induction bs generalizing m a with
  | nil => exact h
  | cons b r ih => exact ih _ _ (wrByte_wf m a b h)

/-- A byte read after bytes are written: a written byte, or what stood there. -/
theorem rdByte_wrBytes (m : List Host.Cell) (a b : Nat) (bs : List Byte) :
    rdByte (wrBytes m a bs) b = if a ≤ b ∧ b < a + bs.length then bs.getD (b - a) 0 else rdByte m b := by
  induction bs generalizing m a with
  | nil => simp [wrBytes, show ¬(a ≤ b ∧ b < a) by omega]
  | cons v r ih =>
    rw [wrBytes, ih, rdByte_wrByte]
    by_cases h1 : a + 1 ≤ b ∧ b < a + 1 + r.length
    · have h2 : a ≤ b ∧ b < a + (v :: r).length := by simp only [List.length_cons]; omega
      rw [if_pos h1, if_pos h2, show b - a = (b - (a + 1)) + 1 by omega]; simp
    · rw [if_neg h1]
      by_cases h3 : b = a
      · subst h3; simp
      · have h4 : ¬ (a ≤ b ∧ b < a + (v :: r).length) := by simp only [List.length_cons]; omega
        rw [if_neg h4, if_neg h3]

/-- Bytes outside a write read as before. -/
theorem rdByte_wrBytes_out (m : List Host.Cell) (a b : Nat) (bs : List Byte) (h : b < a ∨ a + bs.length ≤ b) :
    rdByte (wrBytes m a bs) b = rdByte m b := by
  rw [rdByte_wrBytes, if_neg]; omega

@[simp] theorem length_rdBytes (m : List Host.Cell) (a n : Nat) : (rdBytes m a n).length = n := by
  induction n generalizing a with
  | zero => rfl
  | succ n ih => simp [rdBytes, ih]

theorem getD_rdBytes (m : List Host.Cell) (a n i : Nat) (h : i < n) : (rdBytes m a n).getD i 0 = rdByte m (a + i) := by
  induction n generalizing a i with
  | zero => omega
  | succ n ih =>
    cases i with
    | zero => simp [rdBytes]
    | succ i => rw [rdBytes, List.getD_cons_succ, ih _ _ (by omega)]; congr 1; omega

/-- Bytes read back after they are written. -/
theorem rdBytes_wrBytes (m : List Host.Cell) (a : Nat) (bs : List Byte) : rdBytes (wrBytes m a bs) a bs.length = bs := by
  apply List.ext_getElem
  · simp
  · intro i h1 h2
    have := getD_rdBytes (wrBytes m a bs) a bs.length i h2
    rw [rdByte_wrBytes, if_pos (by omega), show a + i - a = i by omega] at this
    rw [List.getD_eq_getElem _ _ h1, List.getD_eq_getElem _ _ h2] at this
    exact this

/-- A sorted map is a set of entries: two canonical maps that read alike are equal. -/
theorem mwf_find {α : Type} [DecidableEq α] (d : α) (m : Map α) (h : mwf d m = true) (e : Nat × α) (he : e ∈ m) :
    mget d m e.1 = e.2 := by
  induction m with
  | nil => simp at he
  | cons x r ih =>
    obtain ⟨_, h2, h3⟩ := (mwf_cons d x r).mp h
    rcases List.mem_cons.mp he with rfl | he
    · simp [mget]
    · have := h2 e he
      rw [mget, if_neg (by omega), ih h3 he]

end Sys2Proof.Machine
end

