-- ==== Sys2Proof/Laws/State.lean ====
section
/-! SUPPORT. The small laws of the state: what each named update leaves in each field, and what each accessor reads after
it, so that no proof unfolds a record update. -/

namespace Sys2Proof.Machine

/-! ## `Device.setCtx` -/

section
variable (d : Device) (a : Nat) (c : Ctx)

@[simp] theorem Device.setCtx_cycle : (d.setCtx a c).cycle = d.cycle := rfl
@[simp] theorem Device.setCtx_power : (d.setCtx a c).power = d.power := rfl
@[simp] theorem Device.setCtx_top : (d.setCtx a c).top = d.top := rfl
@[simp] theorem Device.setCtx_pub : (d.setCtx a c).pub = d.pub := rfl
@[simp] theorem Device.setCtx_qlow : (d.setCtx a c).qlow = d.qlow := rfl
@[simp] theorem Device.setCtx_snapLow : (d.setCtx a c).snapLow = d.snapLow := rfl
@[simp] theorem Device.setCtx_cores : (d.setCtx a c).cores = d.cores := rfl
@[simp] theorem Device.setCtx_cells : (d.setCtx a c).cells = d.cells := rfl
@[simp] theorem Device.setCtx_ready : (d.setCtx a c).ready = d.ready := rfl
@[simp] theorem Device.setCtx_ops : (d.setCtx a c).ops = d.ops := rfl
@[simp] theorem Device.setCtx_mem : (d.setCtx a c).mem = d.mem := rfl
@[simp] theorem Device.setCtx_lines : (d.setCtx a c).lines = d.lines := rfl
@[simp] theorem Device.setCtx_l2 : (d.setCtx a c).l2 = d.l2 := rfl
@[simp] theorem Device.setCtx_hbms : (d.setCtx a c).hbms = d.hbms := rfl
@[simp] theorem Device.setCtx_tab : (d.setCtx a c).tab = d.tab := rfl
@[simp] theorem Device.setCtx_mm : (d.setCtx a c).mm = d.mm := rfl
@[simp] theorem Device.setCtx_err : (d.setCtx a c).err = d.err := rfl
@[simp] theorem Device.setCtx_flash : (d.setCtx a c).flash = d.flash := rfl
@[simp] theorem Device.setCtx_dice : (d.setCtx a c).dice = d.dice := rfl
@[simp] theorem Device.setCtx_out : (d.setCtx a c).out = d.out := rfl

end

/-! ## `Device.updCtx` -/

section
variable (d : Device) (a : Nat) (f : Ctx → Ctx)

@[simp] theorem Device.updCtx_cycle : (d.updCtx a f).cycle = d.cycle := rfl
@[simp] theorem Device.updCtx_power : (d.updCtx a f).power = d.power := rfl
@[simp] theorem Device.updCtx_top : (d.updCtx a f).top = d.top := rfl
@[simp] theorem Device.updCtx_pub : (d.updCtx a f).pub = d.pub := rfl
@[simp] theorem Device.updCtx_qlow : (d.updCtx a f).qlow = d.qlow := rfl
@[simp] theorem Device.updCtx_snapLow : (d.updCtx a f).snapLow = d.snapLow := rfl
@[simp] theorem Device.updCtx_cores : (d.updCtx a f).cores = d.cores := rfl
@[simp] theorem Device.updCtx_cells : (d.updCtx a f).cells = d.cells := rfl
@[simp] theorem Device.updCtx_ready : (d.updCtx a f).ready = d.ready := rfl
@[simp] theorem Device.updCtx_ops : (d.updCtx a f).ops = d.ops := rfl
@[simp] theorem Device.updCtx_mem : (d.updCtx a f).mem = d.mem := rfl
@[simp] theorem Device.updCtx_lines : (d.updCtx a f).lines = d.lines := rfl
@[simp] theorem Device.updCtx_l2 : (d.updCtx a f).l2 = d.l2 := rfl
@[simp] theorem Device.updCtx_hbms : (d.updCtx a f).hbms = d.hbms := rfl
@[simp] theorem Device.updCtx_tab : (d.updCtx a f).tab = d.tab := rfl
@[simp] theorem Device.updCtx_mm : (d.updCtx a f).mm = d.mm := rfl
@[simp] theorem Device.updCtx_err : (d.updCtx a f).err = d.err := rfl
@[simp] theorem Device.updCtx_flash : (d.updCtx a f).flash = d.flash := rfl
@[simp] theorem Device.updCtx_dice : (d.updCtx a f).dice = d.dice := rfl
@[simp] theorem Device.updCtx_out : (d.updCtx a f).out = d.out := rfl

end

/-! ## `Device.setCore` -/

section
variable (d : Device) (n : Nat) (c : Core)

@[simp] theorem Device.setCore_cycle : (d.setCore n c).cycle = d.cycle := rfl
@[simp] theorem Device.setCore_power : (d.setCore n c).power = d.power := rfl
@[simp] theorem Device.setCore_top : (d.setCore n c).top = d.top := rfl
@[simp] theorem Device.setCore_pub : (d.setCore n c).pub = d.pub := rfl
@[simp] theorem Device.setCore_qlow : (d.setCore n c).qlow = d.qlow := rfl
@[simp] theorem Device.setCore_snapLow : (d.setCore n c).snapLow = d.snapLow := rfl
@[simp] theorem Device.setCore_ctxs : (d.setCore n c).ctxs = d.ctxs := rfl
@[simp] theorem Device.setCore_cells : (d.setCore n c).cells = d.cells := rfl
@[simp] theorem Device.setCore_ready : (d.setCore n c).ready = d.ready := rfl
@[simp] theorem Device.setCore_ops : (d.setCore n c).ops = d.ops := rfl
@[simp] theorem Device.setCore_mem : (d.setCore n c).mem = d.mem := rfl
@[simp] theorem Device.setCore_lines : (d.setCore n c).lines = d.lines := rfl
@[simp] theorem Device.setCore_l2 : (d.setCore n c).l2 = d.l2 := rfl
@[simp] theorem Device.setCore_hbms : (d.setCore n c).hbms = d.hbms := rfl
@[simp] theorem Device.setCore_tab : (d.setCore n c).tab = d.tab := rfl
@[simp] theorem Device.setCore_mm : (d.setCore n c).mm = d.mm := rfl
@[simp] theorem Device.setCore_err : (d.setCore n c).err = d.err := rfl
@[simp] theorem Device.setCore_flash : (d.setCore n c).flash = d.flash := rfl
@[simp] theorem Device.setCore_dice : (d.setCore n c).dice = d.dice := rfl
@[simp] theorem Device.setCore_out : (d.setCore n c).out = d.out := rfl

end

/-! ## `Device.updCore` -/

section
variable (d : Device) (n : Nat) (f : Core → Core)

@[simp] theorem Device.updCore_cycle : (d.updCore n f).cycle = d.cycle := rfl
@[simp] theorem Device.updCore_power : (d.updCore n f).power = d.power := rfl
@[simp] theorem Device.updCore_top : (d.updCore n f).top = d.top := rfl
@[simp] theorem Device.updCore_pub : (d.updCore n f).pub = d.pub := rfl
@[simp] theorem Device.updCore_qlow : (d.updCore n f).qlow = d.qlow := rfl
@[simp] theorem Device.updCore_snapLow : (d.updCore n f).snapLow = d.snapLow := rfl
@[simp] theorem Device.updCore_ctxs : (d.updCore n f).ctxs = d.ctxs := rfl
@[simp] theorem Device.updCore_cells : (d.updCore n f).cells = d.cells := rfl
@[simp] theorem Device.updCore_ready : (d.updCore n f).ready = d.ready := rfl
@[simp] theorem Device.updCore_ops : (d.updCore n f).ops = d.ops := rfl
@[simp] theorem Device.updCore_mem : (d.updCore n f).mem = d.mem := rfl
@[simp] theorem Device.updCore_lines : (d.updCore n f).lines = d.lines := rfl
@[simp] theorem Device.updCore_l2 : (d.updCore n f).l2 = d.l2 := rfl
@[simp] theorem Device.updCore_hbms : (d.updCore n f).hbms = d.hbms := rfl
@[simp] theorem Device.updCore_tab : (d.updCore n f).tab = d.tab := rfl
@[simp] theorem Device.updCore_mm : (d.updCore n f).mm = d.mm := rfl
@[simp] theorem Device.updCore_err : (d.updCore n f).err = d.err := rfl
@[simp] theorem Device.updCore_flash : (d.updCore n f).flash = d.flash := rfl
@[simp] theorem Device.updCore_dice : (d.updCore n f).dice = d.dice := rfl
@[simp] theorem Device.updCore_out : (d.updCore n f).out = d.out := rfl

end

/-! ## `Device.updCell` -/

section
variable (d : Device) (n : Nat) (f : Cell → Cell)

@[simp] theorem Device.updCell_cycle : (d.updCell n f).cycle = d.cycle := rfl
@[simp] theorem Device.updCell_power : (d.updCell n f).power = d.power := rfl
@[simp] theorem Device.updCell_top : (d.updCell n f).top = d.top := rfl
@[simp] theorem Device.updCell_pub : (d.updCell n f).pub = d.pub := rfl
@[simp] theorem Device.updCell_qlow : (d.updCell n f).qlow = d.qlow := rfl
@[simp] theorem Device.updCell_snapLow : (d.updCell n f).snapLow = d.snapLow := rfl
@[simp] theorem Device.updCell_ctxs : (d.updCell n f).ctxs = d.ctxs := rfl
@[simp] theorem Device.updCell_cores : (d.updCell n f).cores = d.cores := rfl
@[simp] theorem Device.updCell_ready : (d.updCell n f).ready = d.ready := rfl
@[simp] theorem Device.updCell_ops : (d.updCell n f).ops = d.ops := rfl
@[simp] theorem Device.updCell_mem : (d.updCell n f).mem = d.mem := rfl
@[simp] theorem Device.updCell_lines : (d.updCell n f).lines = d.lines := rfl
@[simp] theorem Device.updCell_l2 : (d.updCell n f).l2 = d.l2 := rfl
@[simp] theorem Device.updCell_hbms : (d.updCell n f).hbms = d.hbms := rfl
@[simp] theorem Device.updCell_tab : (d.updCell n f).tab = d.tab := rfl
@[simp] theorem Device.updCell_mm : (d.updCell n f).mm = d.mm := rfl
@[simp] theorem Device.updCell_err : (d.updCell n f).err = d.err := rfl
@[simp] theorem Device.updCell_flash : (d.updCell n f).flash = d.flash := rfl
@[simp] theorem Device.updCell_dice : (d.updCell n f).dice = d.dice := rfl
@[simp] theorem Device.updCell_out : (d.updCell n f).out = d.out := rfl

end

/-! ## `Device.setReady` -/

section
variable (d : Device) (n : Nat) (q : List ReadyEnt)

@[simp] theorem Device.setReady_cycle : (d.setReady n q).cycle = d.cycle := rfl
@[simp] theorem Device.setReady_power : (d.setReady n q).power = d.power := rfl
@[simp] theorem Device.setReady_top : (d.setReady n q).top = d.top := rfl
@[simp] theorem Device.setReady_pub : (d.setReady n q).pub = d.pub := rfl
@[simp] theorem Device.setReady_qlow : (d.setReady n q).qlow = d.qlow := rfl
@[simp] theorem Device.setReady_snapLow : (d.setReady n q).snapLow = d.snapLow := rfl
@[simp] theorem Device.setReady_ctxs : (d.setReady n q).ctxs = d.ctxs := rfl
@[simp] theorem Device.setReady_cores : (d.setReady n q).cores = d.cores := rfl
@[simp] theorem Device.setReady_cells : (d.setReady n q).cells = d.cells := rfl
@[simp] theorem Device.setReady_ops : (d.setReady n q).ops = d.ops := rfl
@[simp] theorem Device.setReady_mem : (d.setReady n q).mem = d.mem := rfl
@[simp] theorem Device.setReady_lines : (d.setReady n q).lines = d.lines := rfl
@[simp] theorem Device.setReady_l2 : (d.setReady n q).l2 = d.l2 := rfl
@[simp] theorem Device.setReady_hbms : (d.setReady n q).hbms = d.hbms := rfl
@[simp] theorem Device.setReady_tab : (d.setReady n q).tab = d.tab := rfl
@[simp] theorem Device.setReady_mm : (d.setReady n q).mm = d.mm := rfl
@[simp] theorem Device.setReady_err : (d.setReady n q).err = d.err := rfl
@[simp] theorem Device.setReady_flash : (d.setReady n q).flash = d.flash := rfl
@[simp] theorem Device.setReady_dice : (d.setReady n q).dice = d.dice := rfl
@[simp] theorem Device.setReady_out : (d.setReady n q).out = d.out := rfl

end

/-! ## `Device.updTab` -/

section
variable (d : Device) (f : Tables → Tables)

@[simp] theorem Device.updTab_cycle : (d.updTab f).cycle = d.cycle := rfl
@[simp] theorem Device.updTab_power : (d.updTab f).power = d.power := rfl
@[simp] theorem Device.updTab_top : (d.updTab f).top = d.top := rfl
@[simp] theorem Device.updTab_pub : (d.updTab f).pub = d.pub := rfl
@[simp] theorem Device.updTab_qlow : (d.updTab f).qlow = d.qlow := rfl
@[simp] theorem Device.updTab_snapLow : (d.updTab f).snapLow = d.snapLow := rfl
@[simp] theorem Device.updTab_ctxs : (d.updTab f).ctxs = d.ctxs := rfl
@[simp] theorem Device.updTab_cores : (d.updTab f).cores = d.cores := rfl
@[simp] theorem Device.updTab_cells : (d.updTab f).cells = d.cells := rfl
@[simp] theorem Device.updTab_ready : (d.updTab f).ready = d.ready := rfl
@[simp] theorem Device.updTab_ops : (d.updTab f).ops = d.ops := rfl
@[simp] theorem Device.updTab_mem : (d.updTab f).mem = d.mem := rfl
@[simp] theorem Device.updTab_lines : (d.updTab f).lines = d.lines := rfl
@[simp] theorem Device.updTab_l2 : (d.updTab f).l2 = d.l2 := rfl
@[simp] theorem Device.updTab_hbms : (d.updTab f).hbms = d.hbms := rfl
@[simp] theorem Device.updTab_mm : (d.updTab f).mm = d.mm := rfl
@[simp] theorem Device.updTab_err : (d.updTab f).err = d.err := rfl
@[simp] theorem Device.updTab_flash : (d.updTab f).flash = d.flash := rfl
@[simp] theorem Device.updTab_dice : (d.updTab f).dice = d.dice := rfl
@[simp] theorem Device.updTab_out : (d.updTab f).out = d.out := rfl

end

/-! ## `Device.updOut` -/

section
variable (d : Device) (f : Outside → Outside)

@[simp] theorem Device.updOut_cycle : (d.updOut f).cycle = d.cycle := rfl
@[simp] theorem Device.updOut_power : (d.updOut f).power = d.power := rfl
@[simp] theorem Device.updOut_top : (d.updOut f).top = d.top := rfl
@[simp] theorem Device.updOut_pub : (d.updOut f).pub = d.pub := rfl
@[simp] theorem Device.updOut_qlow : (d.updOut f).qlow = d.qlow := rfl
@[simp] theorem Device.updOut_snapLow : (d.updOut f).snapLow = d.snapLow := rfl
@[simp] theorem Device.updOut_ctxs : (d.updOut f).ctxs = d.ctxs := rfl
@[simp] theorem Device.updOut_cores : (d.updOut f).cores = d.cores := rfl
@[simp] theorem Device.updOut_cells : (d.updOut f).cells = d.cells := rfl
@[simp] theorem Device.updOut_ready : (d.updOut f).ready = d.ready := rfl
@[simp] theorem Device.updOut_ops : (d.updOut f).ops = d.ops := rfl
@[simp] theorem Device.updOut_mem : (d.updOut f).mem = d.mem := rfl
@[simp] theorem Device.updOut_lines : (d.updOut f).lines = d.lines := rfl
@[simp] theorem Device.updOut_l2 : (d.updOut f).l2 = d.l2 := rfl
@[simp] theorem Device.updOut_hbms : (d.updOut f).hbms = d.hbms := rfl
@[simp] theorem Device.updOut_tab : (d.updOut f).tab = d.tab := rfl
@[simp] theorem Device.updOut_mm : (d.updOut f).mm = d.mm := rfl
@[simp] theorem Device.updOut_err : (d.updOut f).err = d.err := rfl
@[simp] theorem Device.updOut_flash : (d.updOut f).flash = d.flash := rfl
@[simp] theorem Device.updOut_dice : (d.updOut f).dice = d.dice := rfl

end

/-! ## `Device.updBlock` -/

section
variable (d : Device) (n : Nat) (f : Block → Block)

@[simp] theorem Device.updBlock_cycle : (d.updBlock n f).cycle = d.cycle := rfl
@[simp] theorem Device.updBlock_power : (d.updBlock n f).power = d.power := rfl
@[simp] theorem Device.updBlock_top : (d.updBlock n f).top = d.top := rfl
@[simp] theorem Device.updBlock_pub : (d.updBlock n f).pub = d.pub := rfl
@[simp] theorem Device.updBlock_qlow : (d.updBlock n f).qlow = d.qlow := rfl
@[simp] theorem Device.updBlock_snapLow : (d.updBlock n f).snapLow = d.snapLow := rfl
@[simp] theorem Device.updBlock_ctxs : (d.updBlock n f).ctxs = d.ctxs := rfl
@[simp] theorem Device.updBlock_cores : (d.updBlock n f).cores = d.cores := rfl
@[simp] theorem Device.updBlock_cells : (d.updBlock n f).cells = d.cells := rfl
@[simp] theorem Device.updBlock_ready : (d.updBlock n f).ready = d.ready := rfl
@[simp] theorem Device.updBlock_ops : (d.updBlock n f).ops = d.ops := rfl
@[simp] theorem Device.updBlock_mem : (d.updBlock n f).mem = d.mem := rfl
@[simp] theorem Device.updBlock_lines : (d.updBlock n f).lines = d.lines := rfl
@[simp] theorem Device.updBlock_l2 : (d.updBlock n f).l2 = d.l2 := rfl
@[simp] theorem Device.updBlock_hbms : (d.updBlock n f).hbms = d.hbms := rfl
@[simp] theorem Device.updBlock_mm : (d.updBlock n f).mm = d.mm := rfl
@[simp] theorem Device.updBlock_err : (d.updBlock n f).err = d.err := rfl
@[simp] theorem Device.updBlock_flash : (d.updBlock n f).flash = d.flash := rfl
@[simp] theorem Device.updBlock_dice : (d.updBlock n f).dice = d.dice := rfl
@[simp] theorem Device.updBlock_out : (d.updBlock n f).out = d.out := rfl

end

/-! ## `Device.setBinding` -/

section
variable (d : Device) (n : Nat) (b : Binding)

@[simp] theorem Device.setBinding_cycle : (d.setBinding n b).cycle = d.cycle := rfl
@[simp] theorem Device.setBinding_power : (d.setBinding n b).power = d.power := rfl
@[simp] theorem Device.setBinding_top : (d.setBinding n b).top = d.top := rfl
@[simp] theorem Device.setBinding_pub : (d.setBinding n b).pub = d.pub := rfl
@[simp] theorem Device.setBinding_qlow : (d.setBinding n b).qlow = d.qlow := rfl
@[simp] theorem Device.setBinding_snapLow : (d.setBinding n b).snapLow = d.snapLow := rfl
@[simp] theorem Device.setBinding_ctxs : (d.setBinding n b).ctxs = d.ctxs := rfl
@[simp] theorem Device.setBinding_cores : (d.setBinding n b).cores = d.cores := rfl
@[simp] theorem Device.setBinding_cells : (d.setBinding n b).cells = d.cells := rfl
@[simp] theorem Device.setBinding_ready : (d.setBinding n b).ready = d.ready := rfl
@[simp] theorem Device.setBinding_ops : (d.setBinding n b).ops = d.ops := rfl
@[simp] theorem Device.setBinding_mem : (d.setBinding n b).mem = d.mem := rfl
@[simp] theorem Device.setBinding_lines : (d.setBinding n b).lines = d.lines := rfl
@[simp] theorem Device.setBinding_l2 : (d.setBinding n b).l2 = d.l2 := rfl
@[simp] theorem Device.setBinding_hbms : (d.setBinding n b).hbms = d.hbms := rfl
@[simp] theorem Device.setBinding_mm : (d.setBinding n b).mm = d.mm := rfl
@[simp] theorem Device.setBinding_err : (d.setBinding n b).err = d.err := rfl
@[simp] theorem Device.setBinding_flash : (d.setBinding n b).flash = d.flash := rfl
@[simp] theorem Device.setBinding_dice : (d.setBinding n b).dice = d.dice := rfl
@[simp] theorem Device.setBinding_out : (d.setBinding n b).out = d.out := rfl

end

/-! ## `Device.dropBinding` -/

section
variable (d : Device) (n : Nat)

@[simp] theorem Device.dropBinding_cycle : (d.dropBinding n).cycle = d.cycle := rfl
@[simp] theorem Device.dropBinding_power : (d.dropBinding n).power = d.power := rfl
@[simp] theorem Device.dropBinding_top : (d.dropBinding n).top = d.top := rfl
@[simp] theorem Device.dropBinding_pub : (d.dropBinding n).pub = d.pub := rfl
@[simp] theorem Device.dropBinding_qlow : (d.dropBinding n).qlow = d.qlow := rfl
@[simp] theorem Device.dropBinding_snapLow : (d.dropBinding n).snapLow = d.snapLow := rfl
@[simp] theorem Device.dropBinding_ctxs : (d.dropBinding n).ctxs = d.ctxs := rfl
@[simp] theorem Device.dropBinding_cores : (d.dropBinding n).cores = d.cores := rfl
@[simp] theorem Device.dropBinding_cells : (d.dropBinding n).cells = d.cells := rfl
@[simp] theorem Device.dropBinding_ready : (d.dropBinding n).ready = d.ready := rfl
@[simp] theorem Device.dropBinding_ops : (d.dropBinding n).ops = d.ops := rfl
@[simp] theorem Device.dropBinding_mem : (d.dropBinding n).mem = d.mem := rfl
@[simp] theorem Device.dropBinding_lines : (d.dropBinding n).lines = d.lines := rfl
@[simp] theorem Device.dropBinding_l2 : (d.dropBinding n).l2 = d.l2 := rfl
@[simp] theorem Device.dropBinding_hbms : (d.dropBinding n).hbms = d.hbms := rfl
@[simp] theorem Device.dropBinding_mm : (d.dropBinding n).mm = d.mm := rfl
@[simp] theorem Device.dropBinding_err : (d.dropBinding n).err = d.err := rfl
@[simp] theorem Device.dropBinding_flash : (d.dropBinding n).flash = d.flash := rfl
@[simp] theorem Device.dropBinding_dice : (d.dropBinding n).dice = d.dice := rfl
@[simp] theorem Device.dropBinding_out : (d.dropBinding n).out = d.out := rfl

end

/-! ## `Device.updHbm` -/

section
variable (d : Device) (n : Nat) (f : Hbm → Hbm)

@[simp] theorem Device.updHbm_cycle : (d.updHbm n f).cycle = d.cycle := rfl
@[simp] theorem Device.updHbm_power : (d.updHbm n f).power = d.power := rfl
@[simp] theorem Device.updHbm_top : (d.updHbm n f).top = d.top := rfl
@[simp] theorem Device.updHbm_pub : (d.updHbm n f).pub = d.pub := rfl
@[simp] theorem Device.updHbm_qlow : (d.updHbm n f).qlow = d.qlow := rfl
@[simp] theorem Device.updHbm_snapLow : (d.updHbm n f).snapLow = d.snapLow := rfl
@[simp] theorem Device.updHbm_ctxs : (d.updHbm n f).ctxs = d.ctxs := rfl
@[simp] theorem Device.updHbm_cores : (d.updHbm n f).cores = d.cores := rfl
@[simp] theorem Device.updHbm_cells : (d.updHbm n f).cells = d.cells := rfl
@[simp] theorem Device.updHbm_ready : (d.updHbm n f).ready = d.ready := rfl
@[simp] theorem Device.updHbm_ops : (d.updHbm n f).ops = d.ops := rfl
@[simp] theorem Device.updHbm_mem : (d.updHbm n f).mem = d.mem := rfl
@[simp] theorem Device.updHbm_lines : (d.updHbm n f).lines = d.lines := rfl
@[simp] theorem Device.updHbm_l2 : (d.updHbm n f).l2 = d.l2 := rfl
@[simp] theorem Device.updHbm_tab : (d.updHbm n f).tab = d.tab := rfl
@[simp] theorem Device.updHbm_mm : (d.updHbm n f).mm = d.mm := rfl
@[simp] theorem Device.updHbm_err : (d.updHbm n f).err = d.err := rfl
@[simp] theorem Device.updHbm_flash : (d.updHbm n f).flash = d.flash := rfl
@[simp] theorem Device.updHbm_dice : (d.updHbm n f).dice = d.dice := rfl
@[simp] theorem Device.updHbm_out : (d.updHbm n f).out = d.out := rfl

end

/-! ## `Device.updLine` -/

section
variable (d : Device) (n : Nat) (f : Line → Line)

@[simp] theorem Device.updLine_cycle : (d.updLine n f).cycle = d.cycle := rfl
@[simp] theorem Device.updLine_power : (d.updLine n f).power = d.power := rfl
@[simp] theorem Device.updLine_top : (d.updLine n f).top = d.top := rfl
@[simp] theorem Device.updLine_pub : (d.updLine n f).pub = d.pub := rfl
@[simp] theorem Device.updLine_qlow : (d.updLine n f).qlow = d.qlow := rfl
@[simp] theorem Device.updLine_snapLow : (d.updLine n f).snapLow = d.snapLow := rfl
@[simp] theorem Device.updLine_ctxs : (d.updLine n f).ctxs = d.ctxs := rfl
@[simp] theorem Device.updLine_cores : (d.updLine n f).cores = d.cores := rfl
@[simp] theorem Device.updLine_cells : (d.updLine n f).cells = d.cells := rfl
@[simp] theorem Device.updLine_ready : (d.updLine n f).ready = d.ready := rfl
@[simp] theorem Device.updLine_ops : (d.updLine n f).ops = d.ops := rfl
@[simp] theorem Device.updLine_mem : (d.updLine n f).mem = d.mem := rfl
@[simp] theorem Device.updLine_l2 : (d.updLine n f).l2 = d.l2 := rfl
@[simp] theorem Device.updLine_hbms : (d.updLine n f).hbms = d.hbms := rfl
@[simp] theorem Device.updLine_tab : (d.updLine n f).tab = d.tab := rfl
@[simp] theorem Device.updLine_mm : (d.updLine n f).mm = d.mm := rfl
@[simp] theorem Device.updLine_err : (d.updLine n f).err = d.err := rfl
@[simp] theorem Device.updLine_flash : (d.updLine n f).flash = d.flash := rfl
@[simp] theorem Device.updLine_dice : (d.updLine n f).dice = d.dice := rfl
@[simp] theorem Device.updLine_out : (d.updLine n f).out = d.out := rfl

end

/-! ## `Device.send` -/

section
variable (d : Device) (o : Out)

@[simp] theorem Device.send_cycle : (d.send o).cycle = d.cycle := rfl
@[simp] theorem Device.send_power : (d.send o).power = d.power := rfl
@[simp] theorem Device.send_top : (d.send o).top = d.top := rfl
@[simp] theorem Device.send_pub : (d.send o).pub = d.pub := rfl
@[simp] theorem Device.send_qlow : (d.send o).qlow = d.qlow := rfl
@[simp] theorem Device.send_snapLow : (d.send o).snapLow = d.snapLow := rfl
@[simp] theorem Device.send_ctxs : (d.send o).ctxs = d.ctxs := rfl
@[simp] theorem Device.send_cores : (d.send o).cores = d.cores := rfl
@[simp] theorem Device.send_cells : (d.send o).cells = d.cells := rfl
@[simp] theorem Device.send_ready : (d.send o).ready = d.ready := rfl
@[simp] theorem Device.send_ops : (d.send o).ops = d.ops := rfl
@[simp] theorem Device.send_mem : (d.send o).mem = d.mem := rfl
@[simp] theorem Device.send_lines : (d.send o).lines = d.lines := rfl
@[simp] theorem Device.send_l2 : (d.send o).l2 = d.l2 := rfl
@[simp] theorem Device.send_hbms : (d.send o).hbms = d.hbms := rfl
@[simp] theorem Device.send_tab : (d.send o).tab = d.tab := rfl
@[simp] theorem Device.send_mm : (d.send o).mm = d.mm := rfl
@[simp] theorem Device.send_err : (d.send o).err = d.err := rfl
@[simp] theorem Device.send_flash : (d.send o).flash = d.flash := rfl
@[simp] theorem Device.send_dice : (d.send o).dice = d.dice := rfl

end

/-! ## `Device.updMeter` -/

section
variable (d : Device) (t : Nat) (f : Meter → Meter)

@[simp] theorem Device.updMeter_cycle : (d.updMeter t f).cycle = d.cycle := rfl
@[simp] theorem Device.updMeter_power : (d.updMeter t f).power = d.power := rfl
@[simp] theorem Device.updMeter_top : (d.updMeter t f).top = d.top := rfl
@[simp] theorem Device.updMeter_pub : (d.updMeter t f).pub = d.pub := rfl
@[simp] theorem Device.updMeter_qlow : (d.updMeter t f).qlow = d.qlow := rfl
@[simp] theorem Device.updMeter_snapLow : (d.updMeter t f).snapLow = d.snapLow := rfl
@[simp] theorem Device.updMeter_ctxs : (d.updMeter t f).ctxs = d.ctxs := rfl
@[simp] theorem Device.updMeter_cores : (d.updMeter t f).cores = d.cores := rfl
@[simp] theorem Device.updMeter_cells : (d.updMeter t f).cells = d.cells := rfl
@[simp] theorem Device.updMeter_ready : (d.updMeter t f).ready = d.ready := rfl
@[simp] theorem Device.updMeter_ops : (d.updMeter t f).ops = d.ops := rfl
@[simp] theorem Device.updMeter_mem : (d.updMeter t f).mem = d.mem := rfl
@[simp] theorem Device.updMeter_lines : (d.updMeter t f).lines = d.lines := rfl
@[simp] theorem Device.updMeter_l2 : (d.updMeter t f).l2 = d.l2 := rfl
@[simp] theorem Device.updMeter_hbms : (d.updMeter t f).hbms = d.hbms := rfl
@[simp] theorem Device.updMeter_mm : (d.updMeter t f).mm = d.mm := rfl
@[simp] theorem Device.updMeter_err : (d.updMeter t f).err = d.err := rfl
@[simp] theorem Device.updMeter_flash : (d.updMeter t f).flash = d.flash := rfl
@[simp] theorem Device.updMeter_dice : (d.updMeter t f).dice = d.dice := rfl
@[simp] theorem Device.updMeter_out : (d.updMeter t f).out = d.out := rfl

end

/-! ## `Device.updSnap` -/

section
variable (d : Device) (b h : Nat) (f : Snap → Snap)

@[simp] theorem Device.updSnap_cycle : (d.updSnap b h f).cycle = d.cycle := rfl
@[simp] theorem Device.updSnap_power : (d.updSnap b h f).power = d.power := rfl
@[simp] theorem Device.updSnap_top : (d.updSnap b h f).top = d.top := rfl
@[simp] theorem Device.updSnap_pub : (d.updSnap b h f).pub = d.pub := rfl
@[simp] theorem Device.updSnap_qlow : (d.updSnap b h f).qlow = d.qlow := rfl
@[simp] theorem Device.updSnap_snapLow : (d.updSnap b h f).snapLow = d.snapLow := rfl
@[simp] theorem Device.updSnap_ctxs : (d.updSnap b h f).ctxs = d.ctxs := rfl
@[simp] theorem Device.updSnap_cores : (d.updSnap b h f).cores = d.cores := rfl
@[simp] theorem Device.updSnap_cells : (d.updSnap b h f).cells = d.cells := rfl
@[simp] theorem Device.updSnap_ready : (d.updSnap b h f).ready = d.ready := rfl
@[simp] theorem Device.updSnap_ops : (d.updSnap b h f).ops = d.ops := rfl
@[simp] theorem Device.updSnap_mem : (d.updSnap b h f).mem = d.mem := rfl
@[simp] theorem Device.updSnap_lines : (d.updSnap b h f).lines = d.lines := rfl
@[simp] theorem Device.updSnap_l2 : (d.updSnap b h f).l2 = d.l2 := rfl
@[simp] theorem Device.updSnap_hbms : (d.updSnap b h f).hbms = d.hbms := rfl
@[simp] theorem Device.updSnap_mm : (d.updSnap b h f).mm = d.mm := rfl
@[simp] theorem Device.updSnap_err : (d.updSnap b h f).err = d.err := rfl
@[simp] theorem Device.updSnap_flash : (d.updSnap b h f).flash = d.flash := rfl
@[simp] theorem Device.updSnap_dice : (d.updSnap b h f).dice = d.dice := rfl
@[simp] theorem Device.updSnap_out : (d.updSnap b h f).out = d.out := rfl

end

/-! ## Accessors after updates of their own part -/

theorem Device.ctx_setCtx (d : Device) (a b : Nat) (c : Ctx) : (d.setCtx a c).ctx b = if b = a then c else d.ctx b :=
  mget_mset ({} : Ctx) d.ctxs a b c

@[simp] theorem Device.ctx_setCtx_same (d : Device) (a : Nat) (c : Ctx) : (d.setCtx a c).ctx a = c := by
  simp [Device.ctx_setCtx]

theorem Device.ctx_updCtx (d : Device) (a b : Nat) (f : Ctx → Ctx) :
    (d.updCtx a f).ctx b = if b = a then f (d.ctx a) else d.ctx b := Device.ctx_setCtx d a b _

@[simp] theorem Device.ctx_updCtx_same (d : Device) (a : Nat) (f : Ctx → Ctx) : (d.updCtx a f).ctx a = f (d.ctx a) := by
  simp [Device.ctx_updCtx]

theorem Device.ctx_updCtx_other (d : Device) (a b : Nat) (f : Ctx → Ctx) (h : b ≠ a) :
    (d.updCtx a f).ctx b = d.ctx b := by simp [Device.ctx_updCtx, h]

theorem Device.core_setCore (d : Device) (n m : Nat) (c : Core) :
    (d.setCore n c).core m = if m = n then c else d.core m := mget_mset ({} : Core) d.cores n m c

theorem Device.core_updCore (d : Device) (n m : Nat) (f : Core → Core) :
    (d.updCore n f).core m = if m = n then f (d.core n) else d.core m := Device.core_setCore d n m _

@[simp] theorem Device.core_updCore_same (d : Device) (n : Nat) (f : Core → Core) : (d.updCore n f).core n = f (d.core n) := by
  simp [Device.core_updCore]

theorem Device.cell_updCell (d : Device) (n m : Nat) (f : Cell → Cell) :
    (d.updCell n f).cell m = if m = n then f (d.cell n) else d.cell m := mget_mset ({} : Cell) d.cells n m _

@[simp] theorem Device.cell_updCell_same (d : Device) (n : Nat) (f : Cell → Cell) : (d.updCell n f).cell n = f (d.cell n) := by
  simp [Device.cell_updCell]

theorem Device.readyQ_setReady (d : Device) (n m : Nat) (q : List ReadyEnt) :
    (d.setReady n q).readyQ m = if m = n then q else d.readyQ m := mget_mset [] d.ready n m q

theorem Device.block_updBlock (d : Device) (n m : Nat) (f : Block → Block) :
    (d.updBlock n f).block m = if m = n then f (d.block n) else d.block m := mget_mset ({} : Block) d.tab.blocks n m _

@[simp] theorem Device.block_updBlock_same (d : Device) (n : Nat) (f : Block → Block) :
    (d.updBlock n f).block n = f (d.block n) := by simp [Device.block_updBlock]

theorem Device.binding_setBinding (d : Device) (n m : Nat) (b : Binding) :
    (d.setBinding n b).binding m = if m = n then some b else d.binding m := mfind_mset d.tab.bindings n m b

@[simp] theorem Device.binding_setBinding_same (d : Device) (n : Nat) (b : Binding) :
    (d.setBinding n b).binding n = some b := by simp [Device.binding_setBinding]

theorem Device.binding_dropBinding (d : Device) (n m : Nat) :
    (d.dropBinding n).binding m = if m = n then none else d.binding m := mfind_mdel d.tab.bindings n m

theorem Device.hbm_updHbm (d : Device) (n m : Nat) (f : Hbm → Hbm) :
    (d.updHbm n f).hbm m = if m = n then f (d.hbm n) else d.hbm m := mget_mset ({} : Hbm) d.hbms n m _

theorem Device.line_updLine (d : Device) (n m : Nat) (f : Line → Line) :
    (d.updLine n f).line m = if m = n then f (d.line n) else d.line m := mget_mset ({} : Line) d.lines n m _

theorem Device.snap_updSnap (d : Device) (b h c i : Nat) (f : Snap → Snap) :
    (d.updSnap b h f).snap c i = if c * 16 + i = b * 16 + h then f (d.snap b h) else d.snap c i :=
  mget_mset ({} : Snap) d.tab.snaps (b * 16 + h) (c * 16 + i) _

/-- An update of a binding changes nothing but the serving tables. -/
theorem Device.updBinding_tab (d : Device) (n : Nat) (f : Binding → Binding) :
    ∃ t, d.updBinding n f = { d with tab := t } := by
  unfold Device.updBinding; split
  · exact ⟨_, rfl⟩
  · exact ⟨d.tab, rfl⟩

theorem Device.binding_updBinding (d : Device) (n m : Nat) (f : Binding → Binding) :
    (d.updBinding n f).binding m = if m = n then (d.binding n).map f else d.binding m := by
  unfold Device.updBinding
  cases h : d.binding n with
  | none => simp only [Option.map_none]; split <;> simp_all
  | some b => simp [Device.binding_setBinding]

/-! ## Updates of the machine -/

section
variable (s : State)

@[simp] theorem State.updMe_dev (f : Ctx → Ctx) : (s.updMe f).dev = s.dev.updCtx s.me f := rfl
@[simp] theorem State.updMe_bundle (f : Ctx → Ctx) : (s.updMe f).bundle = s.bundle := rfl
@[simp] theorem State.updMe_agenda (f : Ctx → Ctx) : (s.updMe f).agenda = s.agenda := rfl
@[simp] theorem State.updMe_focus (f : Ctx → Ctx) : (s.updMe f).focus = s.focus := rfl
@[simp] theorem State.updMe_free (f : Ctx → Ctx) : (s.updMe f).free = s.free := rfl
@[simp] theorem State.updMe_last (f : Ctx → Ctx) : (s.updMe f).last = s.last := rfl
@[simp] theorem State.updRegs_dev (f : Regs → Regs) : (s.updRegs f).dev = s.dev.updCtx s.me fun c => { c with regs := f c.regs } := rfl
@[simp] theorem State.updRegs_bundle (f : Regs → Regs) : (s.updRegs f).bundle = s.bundle := rfl
@[simp] theorem State.updRegs_agenda (f : Regs → Regs) : (s.updRegs f).agenda = s.agenda := rfl
@[simp] theorem State.updRegs_focus (f : Regs → Regs) : (s.updRegs f).focus = s.focus := rfl
@[simp] theorem State.updRegs_free (f : Regs → Regs) : (s.updRegs f).free = s.free := rfl
@[simp] theorem State.updRegs_last (f : Regs → Regs) : (s.updRegs f).last = s.last := rfl
@[simp] theorem State.updTask_dev (f : Task → Task) : (s.updTask f).dev = s.dev.updCtx s.me fun c => { c with task := c.task.map f } := rfl
@[simp] theorem State.updTask_bundle (f : Task → Task) : (s.updTask f).bundle = s.bundle := rfl
@[simp] theorem State.updTask_agenda (f : Task → Task) : (s.updTask f).agenda = s.agenda := rfl
@[simp] theorem State.updTask_focus (f : Task → Task) : (s.updTask f).focus = s.focus := rfl
@[simp] theorem State.updTask_free (f : Task → Task) : (s.updTask f).free = s.free := rfl
@[simp] theorem State.updTask_last (f : Task → Task) : (s.updTask f).last = s.last := rfl
@[simp] theorem State.setS_dev (n : BitVec 6) (v : Word) : (s.setS n v).dev = s.dev.updCtx s.me fun c => { c with regs := c.regs.setS n v } := rfl
@[simp] theorem State.setS_bundle (n : BitVec 6) (v : Word) : (s.setS n v).bundle = s.bundle := rfl
@[simp] theorem State.setS_agenda (n : BitVec 6) (v : Word) : (s.setS n v).agenda = s.agenda := rfl
@[simp] theorem State.setS_focus (n : BitVec 6) (v : Word) : (s.setS n v).focus = s.focus := rfl
@[simp] theorem State.setS_free (n : BitVec 6) (v : Word) : (s.setS n v).free = s.free := rfl
@[simp] theorem State.setS_last (n : BitVec 6) (v : Word) : (s.setS n v).last = s.last := rfl
@[simp] theorem State.setP_dev (n : BitVec 3) (v : Bool) : (s.setP n v).dev = s.dev.updCtx s.me fun c => { c with regs := c.regs.setP n v } := rfl
@[simp] theorem State.setP_bundle (n : BitVec 3) (v : Bool) : (s.setP n v).bundle = s.bundle := rfl
@[simp] theorem State.setP_agenda (n : BitVec 3) (v : Bool) : (s.setP n v).agenda = s.agenda := rfl
@[simp] theorem State.setP_focus (n : BitVec 3) (v : Bool) : (s.setP n v).focus = s.focus := rfl
@[simp] theorem State.setP_free (n : BitVec 3) (v : Bool) : (s.setP n v).free = s.free := rfl
@[simp] theorem State.setP_last (n : BitVec 3) (v : Bool) : (s.setP n v).last = s.last := rfl
@[simp] theorem State.setK_dev (n : BitVec 3) (v : Word) : (s.setK n v).dev = s.dev.updCtx s.me fun c => { c with regs := c.regs.setK n v } := rfl
@[simp] theorem State.setK_bundle (n : BitVec 3) (v : Word) : (s.setK n v).bundle = s.bundle := rfl
@[simp] theorem State.setK_agenda (n : BitVec 3) (v : Word) : (s.setK n v).agenda = s.agenda := rfl
@[simp] theorem State.setK_focus (n : BitVec 3) (v : Word) : (s.setK n v).focus = s.focus := rfl
@[simp] theorem State.setK_free (n : BitVec 3) (v : Word) : (s.setK n v).free = s.free := rfl
@[simp] theorem State.setK_last (n : BitVec 3) (v : Word) : (s.setK n v).last = s.last := rfl
@[simp] theorem State.setV_dev (n : BitVec 6) (v : VReg) : (s.setV n v).dev = s.dev.updCtx s.me fun c => c.setV n v := rfl
@[simp] theorem State.setV_bundle (n : BitVec 6) (v : VReg) : (s.setV n v).bundle = s.bundle := rfl
@[simp] theorem State.setV_agenda (n : BitVec 6) (v : VReg) : (s.setV n v).agenda = s.agenda := rfl
@[simp] theorem State.setV_focus (n : BitVec 6) (v : VReg) : (s.setV n v).focus = s.focus := rfl
@[simp] theorem State.setV_free (n : BitVec 6) (v : VReg) : (s.setV n v).free = s.free := rfl
@[simp] theorem State.setV_last (n : BitVec 6) (v : VReg) : (s.setV n v).last = s.last := rfl
@[simp] theorem State.updBun_dev (f : Bundle → Bundle) : (s.updBun f).dev = s.dev := rfl
@[simp] theorem State.updBun_agenda (f : Bundle → Bundle) : (s.updBun f).agenda = s.agenda := rfl
@[simp] theorem State.updBun_focus (f : Bundle → Bundle) : (s.updBun f).focus = s.focus := rfl
@[simp] theorem State.updBun_free (f : Bundle → Bundle) : (s.updBun f).free = s.free := rfl
@[simp] theorem State.updBun_last (f : Bundle → Bundle) : (s.updBun f).last = s.last := rfl
@[simp] theorem State.updBun_bundle (f : Bundle → Bundle) : (s.updBun f).bundle = some (f s.bun) := rfl
@[simp] theorem State.updBun_bun (f : Bundle → Bundle) : (s.updBun f).bun = f s.bun := rfl
@[simp] theorem State.draw_dev : s.draw.1.dev = s.dev := rfl
@[simp] theorem State.draw_bundle : s.draw.1.bundle = s.bundle := rfl
@[simp] theorem State.draw_agenda : s.draw.1.agenda = s.agenda := rfl
@[simp] theorem State.draw_focus : s.draw.1.focus = s.focus := rfl
@[simp] theorem State.draw_last : s.draw.1.last = s.last := rfl
@[simp] theorem State.draw_free : s.draw.1.free = s.free + 1 := rfl
@[simp] theorem State.draw_num : s.draw.2 = s.free := rfl

end

/-! ## Registers -/

/-- A scalar read after a write: `s0` reads zero and a write to it is discarded (R189). -/
theorem Regs.sreg_setS (r : Regs) (n m : BitVec 6) (v : Word) :
    (r.setS n v).sreg m = if m = n ∧ n ≠ 0 then v else r.sreg m := by
  unfold Regs.setS Regs.sreg
  by_cases hn : n = 0
  · simp [hn]
  · by_cases hm : m = 0
    · subst hm; simp only [hn, if_false, if_true, ne_eq, not_false_eq_true, and_true, if_neg (Ne.symm hn)]
    · simp only [hn, hm, if_false, mget_mset, ne_eq, not_false_eq_true, and_true]
      by_cases h : m = n
      · simp [h]
      · have : m.toNat ≠ n.toNat := fun e => h (BitVec.eq_of_toNat_eq e)
        simp [h, this]

/-- What a scalar write leaves alone. -/
theorem Regs.setS_rest (r : Regs) (n : BitVec 6) (v : Word) : { r.setS n v with s := r.s } = r := by
  unfold Regs.setS; split <;> rfl

/-- A mask read after a write. -/
theorem Regs.kreg_setK (r : Regs) (n m : BitVec 3) (v : Word) (hm : m ≠ 0) :
    (r.setK n v).kreg m = if m = n then v else r.kreg m := by
  unfold Regs.setK Regs.kreg
  simp only [hm, if_false, mget_mset]
  by_cases h : m = n
  · simp [h]
  · have : m.toNat ≠ n.toNat := fun e => h (BitVec.eq_of_toNat_eq e)
    simp [h, this]

/-- A predicate read after a write: `p0` reads true and a write to it is discarded (R189). -/
theorem Regs.preg_setP (r : Regs) (n m : BitVec 3) (v : Bool) :
    (r.setP n v).preg m = if m = n ∧ n ≠ 0 then v else r.preg m := by
  have key : ∀ (p : BitVec 8) (n m : BitVec 3) (v : Bool),
      (setBits p n.toNat n.toNat (b2n v)).getLsbD m.toNat = if m = n then v else p.getLsbD m.toNat := by
    unfold setBits b2n; decide +revert
  unfold Regs.setP Regs.preg
  by_cases hn : n = 0
  · simp [hn]
  · simp only [hn, if_false, key, ne_eq, not_false_eq_true, and_true]
    by_cases h : m = n
    · subst h; simp only [if_true, beq_eq_false_iff_ne.mpr hn, Bool.false_or]
    · simp [h]

/-- What a predicate write leaves alone. -/
theorem Regs.setP_rest (r : Regs) (n : BitVec 3) (v : Bool) : { r.setP n v with p := r.p } = r := by
  unfold Regs.setP; split <;> rfl

/-- A vector register read after a write. -/
theorem Ctx.vreg_setV (c : Ctx) (n m : BitVec 6) (v : VReg) :
    mget {} (c.setV n v).v m.toNat = if m = n then v else mget {} c.v m.toNat := by
  unfold Ctx.setV
  simp only [mget_mset]
  by_cases h : m = n
  · simp [h]
  · have : m.toNat ≠ n.toNat := fun e => h (BitVec.eq_of_toNat_eq e)
    simp [h, this]

/-! ## The outcome of a slot -/

@[simp] theorem State.slot_ok (s t : State) : s.slot (.ok t) = .next t := rfl
@[simp] theorem State.slot_error (s : State) (x : Stop) : s.slot (.error x) = .next (s.stopped x) := rfl

/-- A slot always answers a next state: the state it gives, or the one its stop leaves. -/
theorem State.slot_next (s : State) (m : Except Stop State) : ∃ t, s.slot m = .next t := by
  cases m <;> exact ⟨_, rfl⟩

@[simp] theorem require_true (cause : BitVec 8) (val : Word) : require true cause val = .ok () := rfl
@[simp] theorem require_false (cause : BitVec 8) (val : Word) : require false cause val = .error (.trap cause val) := rfl

end Sys2Proof.Machine
end

