-- ==== Sys2Proof/Laws/Ops.lean ====
section
/-! SUPPORT. One lemma per shared operation that says once everything it can do: register writes, outcomes of slots and of
events, committed writes to memory, completions, and the ends of a bundle. -/

namespace Sys2Proof.Laws

open Sys2Proof.Machine Sys2Proof.Safety

/-! ## Register writes (R188, R189) -/

/-- A change of the registers of the context at hand changes nothing else of the machine. -/
theorem onlyMe_updRegs (s : State) (f : Regs → Regs) : OnlyMe s (s.updRegs f) :=
  ⟨fun _ h => Device.ctx_updCtx_other _ _ _ _ h, rfl, fun _ => rfl, rfl⟩

/-- A scalar write changes nothing but that scalar. -/
theorem writesScalar_setS (s : State) (d : BitVec 6) (v : Word) : WritesScalar s (s.setS d v) d v := by
  refine ⟨onlyMe_updRegs s _, fun r => ?_, ?_⟩
  · simp [Regs.sreg_setS]
  · simp [Regs.setS_rest]

/-- A predicate write changes nothing but that predicate. -/
theorem writesPred_setP (s : State) (d : BitVec 3) (v : Bool) : WritesPred s (s.setP d v) d v := by
  refine ⟨onlyMe_updRegs s _, fun r => ?_, ?_⟩
  · simp [Regs.preg_setP]
  · simp [Regs.setP_rest]

/-- A mask write changes nothing but that mask. -/
theorem writesMask_setK (s : State) (d : BitVec 3) (v : Word) : WritesMask s (s.setK d v) d v := by
  refine ⟨onlyMe_updRegs s _, fun r h => ?_, ?_⟩
  · simp [Regs.kreg_setK _ _ _ _ h]
  · simp [Regs.setK]

/-! ## Outcomes -/

theorem completes_next {t : State} {P : State → Prop} (h : P t) : Completes (.next t) P := ⟨t, rfl, h⟩

theorem completes_slot {s t : State} {m : Except Stop State} {P : State → Prop} (e : m = .ok t) (h : P t) :
    Completes (s.slot m) P := ⟨t, by rw [e]; rfl, h⟩

/-- An event whose conditions hold happens. -/
theorem completes_event {s t : State} {m : Option State} {P : State → Prop} (e : m = some t)
    (h : P { t with last := .done }) : Completes (s.event m) fun u => u.last = .done ∧ P u :=
  ⟨{ t with last := .done }, by rw [e]; rfl, rfl, h⟩

@[simp] theorem guardOpt_true {α : Type} (x : α) : guardOpt true x = some x := rfl
@[simp] theorem guardOpt_false {α : Type} (x : α) : guardOpt false x = none := rfl

/-! ## Records and counts (R407, R408, R410, R454) -/

/-- A record changes nothing but the error state. -/
theorem post_spec (d : Device) (r : ErrRec) : ∃ e, d.post r = { d with err := e } := by
  unfold Device.post; split <;> exact ⟨_, rfl⟩

theorem postDev_spec (d : Device) (cls rung agent : Nat) (aux : Word) : ∃ e, d.postDev cls rung agent aux = { d with err := e } :=
  post_spec d _

theorem postBlock_spec (d : Device) (cls rung b agent : Nat) (cause : BitVec 8) (aux : Word) :
    ∃ e, d.postBlock cls rung b agent cause aux = { d with err := e } := post_spec d _

/-- A push onto the fault-address queue changes nothing but the memory controllers' registers. -/
theorem faqPush_spec (d : Device) (tier type line : Nat) : ∃ m, d.faqPush tier type line = { d with mm := m } := by
  unfold Device.faqPush; split
  · exact ⟨_, rfl⟩
  · split <;> exact ⟨_, rfl⟩

theorem lowWater_spec (d e : Device) : ∃ x, d.lowWater e = { e with err := x } := by
  unfold Device.lowWater
  simp only []
  split
  · exact postDev_spec _ _ _ _ _
  · exact ⟨e.err, rfl⟩

/-! ## Committed writes (R117, R135, R143) -/

/-- What the record-keeping of a committed write can change: the lines' records, the snapshot handles, the error state,
what a tenant's later tasks read above, the bytes engine operations still read, and memory, whose form it keeps. -/
def Kept (d e : Device) : Prop :=
  ∃ lines snaps err hz ops mem,
    e = { d with lines := lines, tab := { d.tab with snaps := snaps }, err := err, mm := { d.mm with horizon := hz },
                 ops := ops, mem := mem } ∧
    (Memory.wf d.mem = true → Memory.wf mem = true)

theorem Kept.refl (d : Device) : Kept d d := ⟨d.lines, d.tab.snaps, d.err, d.mm.horizon, d.ops, d.mem, rfl, id⟩

theorem Kept.trans {d e f : Device} (h : Kept d e) (g : Kept e f) : Kept d f := by
  obtain ⟨l, n, r, z, o, m, rfl, w⟩ := h
  obtain ⟨l', n', r', z', o', m', rfl, w'⟩ := g
  exact ⟨l', n', r', z', o', m', rfl, w' ∘ w⟩

theorem Kept.foldl {α : Type} (f : Device → α → Device) (h : ∀ d x, Kept d (f d x)) (l : List α) (d : Device) :
    Kept d (l.foldl f d) := by
  induction l generalizing d with
  | nil => exact .refl d
  | cons x r ih => exact (h d x).trans (ih _)

theorem kept_updLine (d : Device) (n : Nat) (f : Line → Line) : Kept d (d.updLine n f) :=
  ⟨_, d.tab.snaps, d.err, d.mm.horizon, d.ops, d.mem, rfl, id⟩

theorem kept_updSnap (d : Device) (b h : Nat) (f : Snap → Snap) : Kept d (d.updSnap b h f) :=
  ⟨d.lines, _, d.err, d.mm.horizon, d.ops, d.mem, rfl, id⟩

theorem kept_post (d : Device) (r : ErrRec) : Kept d (d.post r) := by
  obtain ⟨e, h⟩ := post_spec d r; exact ⟨d.lines, d.tab.snaps, e, d.mm.horizon, d.ops, d.mem, h, id⟩

theorem kept_lowWater (d e : Device) : Kept e (d.lowWater e) := by
  obtain ⟨x, h⟩ := lowWater_spec d e; exact ⟨e.lines, e.tab.snaps, x, e.mm.horizon, e.ops, e.mem, h, id⟩

theorem kept_reclaim (d : Device) (n : Nat) : Kept d (d.reclaim n) :=
  ⟨_, d.tab.snaps, d.err, _, d.ops, d.mem, rfl, id⟩

theorem kept_ops (d : Device) (o : List EngOp) : Kept d { d with ops := o } :=
  ⟨d.lines, d.tab.snaps, d.err, d.mm.horizon, o, d.mem, rfl, id⟩

theorem kept_rekey (d : Device) (line kid : Nat) : Kept d (d.rekey line kid) := by
  unfold Device.rekey
  dsimp only
  split
  · exact kept_updLine ..
  · exact ⟨_, d.tab.snaps, d.err, d.mm.horizon, d.ops, _, rfl, wrBytes_wf _ _ _⟩

theorem kept_breakGen (d : Device) (agent owner : Nat) (gen : BitVec 32) : Kept d (d.breakGen agent owner gen) := by
  unfold Device.breakGen
  dsimp only
  split
  · exact .refl d
  · exact (kept_updSnap ..).trans (kept_post _ _)

theorem kept_preImage (d : Device) (w : Writer) (line : Nat) (e : Nat × Snap) : Kept d (d.preImage w line e) := by
  unfold Device.preImage
  dsimp only
  repeat' split
  all_goals first
    | exact kept_breakGen ..
    | exact (kept_reclaim ..).trans (kept_breakGen ..)
    | exact kept_updLine ..

theorem kept_touchLine (d : Device) (w : Writer) (line : Nat) (versioned whole : Bool) :
    Kept d (d.touchLine w line versioned whole) := by
  unfold Device.touchLine
  dsimp only
  refine Kept.trans (Kept.trans ?_ (((kept_ops _ _).trans (kept_rekey ..)).trans (kept_updLine _ line _))) (kept_lowWater d _)
  repeat' split
  all_goals first
    | exact (kept_reclaim ..).trans (kept_updLine ..)
    | exact kept_updLine ..
    | exact Kept.foldl _ (fun d x => kept_preImage d w line x) _ _

theorem kept_touchRange (d : Device) (w : Writer) (pa n : Nat) (versioned : Bool) : Kept d (d.touchRange w pa n versioned) :=
  Kept.foldl _ (fun d l => kept_touchLine d w l versioned _) _ _

/-- What a write of an agent of R482 can change: what the record-keeping of its lines changes, its bytes in memory, the
largest stamps, and the list of writes that wait for the version heap. -/
def Written (d e : Device) : Prop :=
  ∃ lines snaps err mm ops mem top pub,
    e = { d with lines := lines, tab := { d.tab with snaps := snaps }, err := err, mm := mm, ops := ops, mem := mem,
                 top := top, pub := pub } ∧
    (Memory.wf d.mem = true → Memory.wf mem = true)

theorem Written.refl (d : Device) : Written d d :=
  ⟨d.lines, d.tab.snaps, d.err, d.mm, d.ops, d.mem, d.top, d.pub, rfl, id⟩

theorem Written.trans {d e f : Device} (h : Written d e) (g : Written e f) : Written d f := by
  obtain ⟨l, n, r, z, o, m, t, p, rfl, w⟩ := h
  obtain ⟨l', n', r', z', o', m', t', p', rfl, w'⟩ := g
  exact ⟨l', n', r', z', o', m', t', p', rfl, w' ∘ w⟩

theorem written_agentWrite (d : Device) (agent n least : Nat) (blk : Option Nat) (kid pa : Nat) (bs : List Byte) :
    Written d (d.agentWrite agent n least blk kid pa bs) := by
  unfold Device.agentWrite
  dsimp only
  obtain ⟨l, sn, r, z, o, m, h, w⟩ := kept_touchRange d
    ⟨agent, stampAbove n (Nat.max least (d.writeFloor (linesOf pa bs.length))), blk, kid⟩ pa bs.length
    (d.versionedLine (pa / 64))
  rw [h]
  exact ⟨l, sn, r, _, o, _, _, _, rfl, fun x => wrBytes_wf _ _ _ (w x)⟩

theorem written_agentStore (d : Device) (n : Nat) (w : HeldWrite) : Written d (d.agentStore n w) := by
  unfold Device.agentStore
  split
  · exact ⟨d.lines, d.tab.snaps, d.err, _, d.ops, d.mem, d.top, d.pub, rfl, id⟩
  · exact written_agentWrite ..

/-- Bytes put in device memory line by line change what writes of an agent of R482 change, and the counter of free
values. -/
theorem linePut_spec (agent : Nat) (kid : Option Nat) (n pa : Nat) (bs : List Byte) (s : State) :
    ∃ d free, Written s.dev d ∧ State.linePut agent kid n pa bs s = { s with dev := d, free := free } := by
  induction n generalizing pa bs s with
  | zero => exact ⟨s.dev, s.free, .refl _, rfl⟩
  | succ n ih =>
    unfold State.linePut
    split
    · exact ⟨s.dev, s.free, .refl _, rfl⟩
    · dsimp only [State.draw]
      obtain ⟨d, f, h, e⟩ := ih (pa + (64 - pa % 64)) (bs.drop (64 - pa % 64)) _
      exact ⟨d, f, (written_agentStore ..).trans h, e⟩

theorem wf_agentWrite (d : Device) (agent n least : Nat) (blk : Option Nat) (kid pa : Nat) (bs : List Byte)
    (h : Memory.wf d.mem = true) : Memory.wf (d.agentWrite agent n least blk kid pa bs).mem = true := by
  obtain ⟨_, _, _, _, _, _, _, _, e, w⟩ := written_agentWrite d agent n least blk kid pa bs
  rw [e]; exact w h

/-! ## Ends of a bundle (R177, R205, R422) -/

/-- A commit closes its bundle. -/
theorem commit_bundle (s : State) : s.commit.bundle = none := by
  rfl

/-- A stop other than a wait closes its bundle. -/
theorem stopped_bundle (s : State) (x : Stop) (h : ∀ w, x ≠ .block w) : (s.stopped x).bundle = none := by
  cases x with
  | block w => exact absurd rfl (h w)
  | _ => rfl

/-- A step's outcome followed by what closes the bundle leaves it closed. -/
theorem andThen_bundle {o : Host.Outcome State Fault Refusal} {f : State → Host.Outcome State Fault Refusal} {t : State}
    (hf : ∀ u v, f u = .next v → v.bundle = none) (h : andThen o f = .next t) : t.bundle = none := by
  unfold andThen at h
  split at h
  · split at h
    · rename_i u hu
      obtain rfl : u = t := by injection h
      simpa using hu
    · exact hf _ _ h
  · rename_i x hx
    exact absurd h (hx t)

/-! ## Stamps (R117) -/

theorem above_stampAbove (n least : Nat) : Above (stampAbove n least) least := by
  rcases Nat.le_total (least + 1 + Config.freeNat n % Nat.max 1 (maxStamp - least)) maxStamp with h | h
  · left
    exact Nat.lt_of_lt_of_eq (by omega) (Nat.min_eq_left h).symm
  · right
    exact Nat.min_eq_right h

/-- What follows a stamp follows every smaller one. -/
theorem above_mono {n m k : Nat} (h : Above n m) (le : k ≤ m) : Above n k := h.imp (Nat.lt_of_le_of_lt le) id

theorem above_nextStamp (least : Nat) : Above (nextStamp least) least := by
  rcases Nat.le_total (least + 1) maxStamp with h | h
  · left
    exact Nat.lt_of_lt_of_eq (by omega) (Nat.min_eq_left h).symm
  · right
    exact Nat.min_eq_right h

/-- `take_stamp` answers a stamp that follows the context's own and `least`, and changes nothing but that stamp, the
task's snapshot stamp, the largest stamp and the counter of free values. -/
theorem takeStamp_spec (s : State) (least : Nat) :
    Above (s.takeStamp least).2 s.ctx.stamp ∧ Above (s.takeStamp least).2 least ∧
      (s.takeStamp least).1 = { s with
        free := s.free + 1
        dev := { s.dev.updCtx s.me fun c => c.atStamp (s.takeStamp least).2 with
                 top := Nat.max s.dev.top (s.takeStamp least).2 } } := by
  have hs : s.ctx.stamp ≤ s.ctx.base := Nat.le_max_left ..
  have hb : s.ctx.base ≤ Nat.max s.ctx.base s.horizon := Nat.le_max_left ..
  have hz : Nat.max s.ctx.base s.horizon ≤ Nat.max (Nat.max s.ctx.base s.horizon) least := Nat.le_max_left ..
  have hl : least ≤ Nat.max (Nat.max s.ctx.base s.horizon) least := Nat.le_max_right ..
  have ha := above_stampAbove s.draw.2 (Nat.max (Nat.max s.ctx.base s.horizon) least)
  exact ⟨above_mono ha (hs.trans (hb.trans hz)), above_mono ha hl, rfl⟩

theorem stampAt_spec (s : State) (st : Nat) :
    s.stampAt st = { s with dev := { s.dev.updCtx s.me fun c => c.atStamp st with top := Nat.max s.dev.top st } } := rfl

/-! ## Loads (R78, R117, R120, R245) -/

/-- What a load can change beside its stamp: leases, L1 copies, and what it asks of peers. -/
def Noted (d e : Device) : Prop := ∃ lines cores out, e = { d with lines := lines, cores := cores, out := out }

theorem Noted.refl (d : Device) : Noted d d := ⟨d.lines, d.cores, d.out, rfl⟩

theorem Noted.trans {d e f : Device} (h : Noted d e) (g : Noted e f) : Noted d f := by
  obtain ⟨l, n, r, rfl⟩ := h
  obtain ⟨l', n', r', rfl⟩ := g
  exact ⟨l', n', r', rfl⟩

theorem Noted.foldl {α : Type} (f : Device → α → Device) (h : ∀ d x, Noted d (f d x)) (l : List α) (d : Device) :
    Noted d (l.foldl f d) := by
  induction l generalizing d with
  | nil => exact .refl d
  | cons x r ih => exact (h d x).trans (ih _)

theorem noted_send (d : Device) (o : Out) : Noted d (d.send o) := ⟨d.lines, d.cores, _, rfl⟩
theorem noted_updLine (d : Device) (n : Nat) (f : Line → Line) : Noted d (d.updLine n f) := ⟨_, d.cores, d.out, rfl⟩
theorem noted_updCore (d : Device) (n : Nat) (f : Core → Core) : Noted d (d.updCore n f) := ⟨d.lines, _, d.out, rfl⟩

theorem noteLoad_spec (s : State) (used : Map L1Line) (st len : Nat) (ps : List Piece) :
    ∃ d, Noted s.dev d ∧ s.noteLoad used st len ps = { s with dev := d } := by
  unfold State.noteLoad
  dsimp only
  have h1 : ∀ l : List Nat, Noted s.dev
      (l.foldl (fun x l => x.updLine l fun e => { e with lease := Nat.max e.lease (Nat.min (st + len) maxStamp) })
        (ps.foldl (fun x p => x.askPeer (some s.blk) p.pa p.n) s.dev)) := fun l =>
    (Noted.foldl _ (fun d p => by unfold Device.askPeer; split; exacts [noted_send _ _, .refl d]) _ _).trans
      (Noted.foldl _ (fun d x => noted_updLine ..) _ _)
  split
  · exact ⟨_, (h1 _).trans (Noted.foldl _ (fun d x => noted_updCore ..) _ _), rfl⟩
  · exact ⟨_, h1 _, rfl⟩

/-- A load of pieces that answers takes one stamp that follows the context's own, and changes nothing else but leases, L1
copies, what it asks of peers and the counter of free values. -/
theorem loadPieces_spec {s t : State} {ps : List Piece} {bs : List Byte} (h : s.loadPieces ps = .ok (t, bs)) :
    ∃ st d free, Above st s.ctx.stamp ∧
      Noted { s.dev.updCtx s.me fun c => c.atStamp st with top := Nat.max s.dev.top st } d ∧
      t = { s with dev := d, free := free } := by
  have hs : s.ctx.stamp ≤ s.ctx.base := Nat.le_max_left ..
  unfold State.loadPieces at h
  dsimp only at h
  generalize hp : (if List.isEmpty _ = true then _ else _ : State × Nat) = p at h
  have key : Above p.2 s.ctx.stamp ∧
      p.1 = { s with dev := { s.dev.updCtx s.me fun c => c.atStamp p.2 with top := Nat.max s.dev.top p.2 }
                     free := p.1.free } := by
    obtain h' | h' : p = _ ∨ p = _ := hp ▸ ite_eq_or_eq _ _ _ <;> rw [h']
    · obtain ⟨h1, -, h3⟩ := takeStamp_spec s.draw.1.draw.1 (s.dev.wtsOver [] (pieceLines ps))
      exact ⟨h1, by rw [h3]; rfl⟩
    · exact ⟨above_mono (above_nextStamp _) (hs.trans ((Nat.le_max_left ..).trans (Nat.le_max_left ..))), rfl⟩
  split at h
  · exact absurd h (by simp)
  · simp only [Except.ok.injEq, Prod.mk.injEq] at h
    obtain ⟨h, -⟩ := h
    obtain ⟨d, hd, e⟩ := noteLoad_spec p.1 _ _ _ _
    rw [e] at h
    rw [key.2] at hd h
    exact ⟨p.2, d, _, key.1, hd, h.symm⟩

/-! ## Stores (R52, R62, R240) -/

/-- Nothing has changed but contexts. -/
def CtxsOnly (s t : State) : Prop := ∃ c, t = { s with dev := { s.dev with ctxs := c } }

theorem CtxsOnly.refl (s : State) : CtxsOnly s s := ⟨s.dev.ctxs, rfl⟩

theorem CtxsOnly.trans {s t u : State} (h : CtxsOnly s t) (g : CtxsOnly t u) : CtxsOnly s u := by
  obtain ⟨c, rfl⟩ := h
  obtain ⟨c', rfl⟩ := g
  exact ⟨c', rfl⟩

theorem ctxsOnly_updMe (s : State) (f : Ctx → Ctx) : CtxsOnly s (s.updMe f) := ⟨_, rfl⟩

theorem holdOp_spec {s t : State} {x : HeldOp} (h : s.holdOp x = .ok t) : CtxsOnly s t := by
  unfold State.holdOp at h
  dsimp only at h
  split at h
  · simp [trapWith] at h
  · cases h; exact ctxsOnly_updMe ..

theorem bufferAt_spec {s t : State} {o : BufOp} (h : s.bufferAt o = .ok t) : CtxsOnly s t := by
  unfold State.bufferAt at h
  split at h
  · cases h; exact .refl s
  · dsimp only at h
    repeat' split at h
    all_goals first
      | (simp [trapWith] at h; done)
      | (cases h; exact ctxsOnly_updMe ..)

/-- The store path changes nothing but contexts. -/
theorem putOp_spec {s t : State} {kind : BitVec 2} {o : BufOp} (h : s.putOp kind o = .ok t) : CtxsOnly s t := by
  unfold State.putOp at h
  simp only [bind, Except.bind, require] at h
  repeat' split at h
  all_goals first
    | exact holdOp_spec h
    | exact bufferAt_spec h
    | simp at h

theorem putPieces_spec {s t : State} {ps : List Piece} {bs : List Byte} (h : s.putPieces ps bs = .ok t) : CtxsOnly s t := by
  induction ps generalizing s bs with
  | nil => cases h; exact .refl _
  | cons p r ih =>
    unfold State.putPieces at h
    simp only [bind, Except.bind] at h
    split at h
    · simp at h
    · rename_i u hu
      exact (putOp_spec hu).trans (ih h)

/-! ## Completions (R355, R356) -/

theorem send_spec (d : Device) (x : Out) : ∃ o, d.send x = { d with out := o } := ⟨_, rfl⟩

theorem updHq_spec (d : Device) (q : Nat) (f : HostQ → HostQ) : ∃ o, d.updHq q f = { d with out := o } := ⟨_, rfl⟩

/-- Bytes written to the host change nothing but what lies outside the device. -/
theorem cmdPut_host (s : State) (q addr : Nat) (bs : List Byte) :
    ∃ o, s.cmdPut q false addr bs = { s with dev := { s.dev with out := o } } := by
  unfold State.cmdPut Device.hostWrite Device.updOut
  generalize hostKey _ _ _ = k
  dsimp only
  split
  · contradiction
  · split
    · exact ⟨_, rfl⟩
    · exact ⟨s.dev.out, rfl⟩

/-- An interrupt changes nothing but what lies outside the device. -/
theorem interrupt_spec (d : Device) (fn vec : Nat) : ∃ o, d.interrupt fn vec = { d with out := o } := by
  unfold Device.interrupt
  dsimp only
  repeat' split
  all_goals exact ⟨_, rfl⟩

/-- A completion whose ring does not lie in device memory changes nothing but what leaves the device, host memory and, where
its record cannot be written, the error state. -/
theorem complete_spec (s : State) (q : Nat) (seq : Word32) (type : Nat) (cpl : Bool) (status : Nat) (result : Word)
    (h : (s.dev.hq q).dev = false) :
    ∃ o e, s.complete q seq type cpl status result = { s with dev := { s.dev with out := o, err := e } } := by
  unfold State.complete
  dsimp only
  split
  · exact ⟨s.dev.out, s.dev.err, rfl⟩
  · split
    · generalize completionRecord _ _ _ _ _ = x
      exact ⟨_, s.dev.err, rfl⟩
    · split
      · exact ⟨s.dev.out, s.dev.err, rfl⟩
      · split
        · obtain ⟨e, he⟩ := postDev_spec (s.dev.updHq q HostQ.stop) 6 0 agCommand 0
          exact ⟨_, e, by rw [he]; rfl⟩
        · rw [h]
          generalize completionRecord _ _ _ _ _ = x
          obtain ⟨o, e⟩ := cmdPut_host s q ((s.dev.hq q).cbase + 16 * (s.dev.hq q).cidx) (toBytes x.toNat 16)
          rw [e]
          split
          · obtain ⟨o', e'⟩ := interrupt_spec (({ s.dev with out := o } : Device).updHq q HostQ.nextRecord) (s.dev.hq q).fn
              (s.dev.hq q).vec
            exact ⟨o', s.dev.err, by rw [e']; rfl⟩
          · exact ⟨_, s.dev.err, rfl⟩

end Sys2Proof.Laws
end

