-- ==== Sys2Proof/Laws/PerInstr.lean ====
section
/-! SUPPORT. One lemma per constructor of `Instr`: the code of a well-formed instruction decodes to it, every operand at
every value that its field admits; the event rows of the table have no code. -/

open Sys2Proof Sys2Proof.Laws

set_option Elab.async false
set_option linter.unusedSimpArgs false

/-- The code of a well-formed instruction decodes to it (R180, R181, R184). -/
def Sys2Proof.Laws.RoundTrip.Statement (i : Instr) : Prop :=
  i.wf = true → ∀ c, encode i = some c → decodeCode c.1 c.2 = .ok i

/-- It is enough that the operand bits decode to the instruction. -/
theorem Sys2Proof.Laws.roundTrip_of {i : Instr} {op : BitVec 7} {o : BitVec 21} (e : encode i = some (op, o))
    (d : i.wf = true → decodeOperands op.toNat o = .ok i) : RoundTrip.Statement i := by
  intro h c hc
  rw [e, Option.some.injEq] at hc
  subst hc
  simp [decodeCode, d h, inRange, h, bind, Except.bind]

theorem Sys2Proof.Laws.RoundTrip.nop : RoundTrip.Statement .nop :=
  roundTrip_of rfl (by simp [decodeOperands, decodeScalar, zeroed, fits_setWidth, flag_ofBool])

theorem Sys2Proof.Laws.RoundTrip.add (d : BitVec 6) (a : BitVec 6) (b : BitVec 6) :
    RoundTrip.Statement (.add d a b) :=
  roundTrip_of rfl (by simp [decodeOperands, decodeScalar, zeroed, fits_setWidth, flag_ofBool])

theorem Sys2Proof.Laws.RoundTrip.sub (d : BitVec 6) (a : BitVec 6) (b : BitVec 6) :
    RoundTrip.Statement (.sub d a b) :=
  roundTrip_of rfl (by simp [decodeOperands, decodeScalar, zeroed, fits_setWidth, flag_ofBool])

theorem Sys2Proof.Laws.RoundTrip.and (d : BitVec 6) (a : BitVec 6) (b : BitVec 6) :
    RoundTrip.Statement (.and d a b) :=
  roundTrip_of rfl (by simp [decodeOperands, decodeScalar, zeroed, fits_setWidth, flag_ofBool])

theorem Sys2Proof.Laws.RoundTrip.or (d : BitVec 6) (a : BitVec 6) (b : BitVec 6) :
    RoundTrip.Statement (.or d a b) :=
  roundTrip_of rfl (by simp [decodeOperands, decodeScalar, zeroed, fits_setWidth, flag_ofBool])

theorem Sys2Proof.Laws.RoundTrip.xor (d : BitVec 6) (a : BitVec 6) (b : BitVec 6) :
    RoundTrip.Statement (.xor d a b) :=
  roundTrip_of rfl (by simp [decodeOperands, decodeScalar, zeroed, fits_setWidth, flag_ofBool])

theorem Sys2Proof.Laws.RoundTrip.andn (d : BitVec 6) (a : BitVec 6) (b : BitVec 6) :
    RoundTrip.Statement (.andn d a b) :=
  roundTrip_of rfl (by simp [decodeOperands, decodeScalar, zeroed, fits_setWidth, flag_ofBool])

theorem Sys2Proof.Laws.RoundTrip.mul (d : BitVec 6) (a : BitVec 6) (b : BitVec 6) :
    RoundTrip.Statement (.mul d a b) :=
  roundTrip_of rfl (by simp [decodeOperands, decodeScalar, zeroed, fits_setWidth, flag_ofBool])

theorem Sys2Proof.Laws.RoundTrip.mulh (d : BitVec 6) (a : BitVec 6) (b : BitVec 6) :
    RoundTrip.Statement (.mulh d a b) :=
  roundTrip_of rfl (by simp [decodeOperands, decodeScalar, zeroed, fits_setWidth, flag_ofBool])

theorem Sys2Proof.Laws.RoundTrip.mulhu (d : BitVec 6) (a : BitVec 6) (b : BitVec 6) :
    RoundTrip.Statement (.mulhu d a b) :=
  roundTrip_of rfl (by simp [decodeOperands, decodeScalar, zeroed, fits_setWidth, flag_ofBool])

theorem Sys2Proof.Laws.RoundTrip.div (d : BitVec 6) (a : BitVec 6) (b : BitVec 6) :
    RoundTrip.Statement (.div d a b) :=
  roundTrip_of rfl (by simp [decodeOperands, decodeScalar, zeroed, fits_setWidth, flag_ofBool])

theorem Sys2Proof.Laws.RoundTrip.divu (d : BitVec 6) (a : BitVec 6) (b : BitVec 6) :
    RoundTrip.Statement (.divu d a b) :=
  roundTrip_of rfl (by simp [decodeOperands, decodeScalar, zeroed, fits_setWidth, flag_ofBool])

theorem Sys2Proof.Laws.RoundTrip.rem (d : BitVec 6) (a : BitVec 6) (b : BitVec 6) :
    RoundTrip.Statement (.rem d a b) :=
  roundTrip_of rfl (by simp [decodeOperands, decodeScalar, zeroed, fits_setWidth, flag_ofBool])

theorem Sys2Proof.Laws.RoundTrip.remu (d : BitVec 6) (a : BitVec 6) (b : BitVec 6) :
    RoundTrip.Statement (.remu d a b) :=
  roundTrip_of rfl (by simp [decodeOperands, decodeScalar, zeroed, fits_setWidth, flag_ofBool])

theorem Sys2Proof.Laws.RoundTrip.shl (d : BitVec 6) (a : BitVec 6) (b : BitVec 6) :
    RoundTrip.Statement (.shl d a b) :=
  roundTrip_of rfl (by simp [decodeOperands, decodeScalar, zeroed, fits_setWidth, flag_ofBool])

theorem Sys2Proof.Laws.RoundTrip.shr (d : BitVec 6) (a : BitVec 6) (b : BitVec 6) :
    RoundTrip.Statement (.shr d a b) :=
  roundTrip_of rfl (by simp [decodeOperands, decodeScalar, zeroed, fits_setWidth, flag_ofBool])

theorem Sys2Proof.Laws.RoundTrip.sra (d : BitVec 6) (a : BitVec 6) (b : BitVec 6) :
    RoundTrip.Statement (.sra d a b) :=
  roundTrip_of rfl (by simp [decodeOperands, decodeScalar, zeroed, fits_setWidth, flag_ofBool])

theorem Sys2Proof.Laws.RoundTrip.min (d : BitVec 6) (a : BitVec 6) (b : BitVec 6) :
    RoundTrip.Statement (.min d a b) :=
  roundTrip_of rfl (by simp [decodeOperands, decodeScalar, zeroed, fits_setWidth, flag_ofBool])

theorem Sys2Proof.Laws.RoundTrip.max (d : BitVec 6) (a : BitVec 6) (b : BitVec 6) :
    RoundTrip.Statement (.max d a b) :=
  roundTrip_of rfl (by simp [decodeOperands, decodeScalar, zeroed, fits_setWidth, flag_ofBool])

theorem Sys2Proof.Laws.RoundTrip.minu (d : BitVec 6) (a : BitVec 6) (b : BitVec 6) :
    RoundTrip.Statement (.minu d a b) :=
  roundTrip_of rfl (by simp [decodeOperands, decodeScalar, zeroed, fits_setWidth, flag_ofBool])

theorem Sys2Proof.Laws.RoundTrip.maxu (d : BitVec 6) (a : BitVec 6) (b : BitVec 6) :
    RoundTrip.Statement (.maxu d a b) :=
  roundTrip_of rfl (by simp [decodeOperands, decodeScalar, zeroed, fits_setWidth, flag_ofBool])

theorem Sys2Proof.Laws.RoundTrip.clz (d : BitVec 6) (a : BitVec 6) : RoundTrip.Statement (.clz d a) :=
  roundTrip_of rfl (by simp [decodeOperands, decodeScalar, zeroed, fits_setWidth, flag_ofBool])

theorem Sys2Proof.Laws.RoundTrip.ctz (d : BitVec 6) (a : BitVec 6) : RoundTrip.Statement (.ctz d a) :=
  roundTrip_of rfl (by simp [decodeOperands, decodeScalar, zeroed, fits_setWidth, flag_ofBool])

theorem Sys2Proof.Laws.RoundTrip.popc (d : BitVec 6) (a : BitVec 6) :
    RoundTrip.Statement (.popc d a) :=
  roundTrip_of rfl (by simp [decodeOperands, decodeScalar, zeroed, fits_setWidth, flag_ofBool])

theorem Sys2Proof.Laws.RoundTrip.mov (d : BitVec 6) (a : BitVec 6) : RoundTrip.Statement (.mov d a) :=
  roundTrip_of rfl (by simp [decodeOperands, decodeScalar, zeroed, fits_setWidth, flag_ofBool])

theorem Sys2Proof.Laws.RoundTrip.bfx (d : BitVec 6) (a : BitVec 6) (b : BitVec 6) :
    RoundTrip.Statement (.bfx d a b) :=
  roundTrip_of rfl (by simp [decodeOperands, decodeScalar, zeroed, fits_setWidth, flag_ofBool])

theorem Sys2Proof.Laws.RoundTrip.bfi (d : BitVec 6) (a : BitVec 6) (b : BitVec 6) :
    RoundTrip.Statement (.bfi d a b) :=
  roundTrip_of rfl (by simp [decodeOperands, decodeScalar, zeroed, fits_setWidth, flag_ofBool])

theorem Sys2Proof.Laws.RoundTrip.sel (d : BitVec 6) (a : BitVec 6) (b : BitVec 6) (c : BitVec 3) :
    RoundTrip.Statement (.sel d a b c) :=
  roundTrip_of rfl (by simp [decodeOperands, decodeScalar, zeroed, fits_setWidth, flag_ofBool])

theorem Sys2Proof.Laws.RoundTrip.cmpEq (d : BitVec 3) (a : BitVec 6) (b : BitVec 6) :
    RoundTrip.Statement (.cmpEq d a b) :=
  roundTrip_of rfl (by simp [decodeOperands, decodeScalar, zeroed, fits_setWidth, flag_ofBool])

theorem Sys2Proof.Laws.RoundTrip.cmpNe (d : BitVec 3) (a : BitVec 6) (b : BitVec 6) :
    RoundTrip.Statement (.cmpNe d a b) :=
  roundTrip_of rfl (by simp [decodeOperands, decodeScalar, zeroed, fits_setWidth, flag_ofBool])

theorem Sys2Proof.Laws.RoundTrip.cmpLt (d : BitVec 3) (a : BitVec 6) (b : BitVec 6) :
    RoundTrip.Statement (.cmpLt d a b) :=
  roundTrip_of rfl (by simp [decodeOperands, decodeScalar, zeroed, fits_setWidth, flag_ofBool])

theorem Sys2Proof.Laws.RoundTrip.cmpGe (d : BitVec 3) (a : BitVec 6) (b : BitVec 6) :
    RoundTrip.Statement (.cmpGe d a b) :=
  roundTrip_of rfl (by simp [decodeOperands, decodeScalar, zeroed, fits_setWidth, flag_ofBool])

theorem Sys2Proof.Laws.RoundTrip.cmpLtu (d : BitVec 3) (a : BitVec 6) (b : BitVec 6) :
    RoundTrip.Statement (.cmpLtu d a b) :=
  roundTrip_of rfl (by simp [decodeOperands, decodeScalar, zeroed, fits_setWidth, flag_ofBool])

theorem Sys2Proof.Laws.RoundTrip.cmpGeu (d : BitVec 3) (a : BitVec 6) (b : BitVec 6) :
    RoundTrip.Statement (.cmpGeu d a b) :=
  roundTrip_of rfl (by simp [decodeOperands, decodeScalar, zeroed, fits_setWidth, flag_ofBool])

theorem Sys2Proof.Laws.RoundTrip.pand (d : BitVec 3) (a : BitVec 3) (b : BitVec 3) :
    RoundTrip.Statement (.pand d a b) :=
  roundTrip_of rfl (by simp [decodeOperands, decodeScalar, zeroed, fits_setWidth, flag_ofBool])

theorem Sys2Proof.Laws.RoundTrip.por (d : BitVec 3) (a : BitVec 3) (b : BitVec 3) :
    RoundTrip.Statement (.por d a b) :=
  roundTrip_of rfl (by simp [decodeOperands, decodeScalar, zeroed, fits_setWidth, flag_ofBool])

theorem Sys2Proof.Laws.RoundTrip.pnot (d : BitVec 3) (a : BitVec 3) :
    RoundTrip.Statement (.pnot d a) :=
  roundTrip_of rfl (by simp [decodeOperands, decodeScalar, zeroed, fits_setWidth, flag_ofBool])

theorem Sys2Proof.Laws.RoundTrip.addi (d : BitVec 6) (a : BitVec 6) (imm : BitVec 9) :
    RoundTrip.Statement (.addi d a imm) :=
  roundTrip_of rfl (by simp [decodeOperands, decodeImmediate, zeroed, fits_setWidth, flag_ofBool])

theorem Sys2Proof.Laws.RoundTrip.andi (d : BitVec 6) (a : BitVec 6) (imm : BitVec 9) :
    RoundTrip.Statement (.andi d a imm) :=
  roundTrip_of rfl (by simp [decodeOperands, decodeImmediate, zeroed, fits_setWidth, flag_ofBool])

theorem Sys2Proof.Laws.RoundTrip.ori (d : BitVec 6) (a : BitVec 6) (imm : BitVec 9) :
    RoundTrip.Statement (.ori d a imm) :=
  roundTrip_of rfl (by simp [decodeOperands, decodeImmediate, zeroed, fits_setWidth, flag_ofBool])

theorem Sys2Proof.Laws.RoundTrip.xori (d : BitVec 6) (a : BitVec 6) (imm : BitVec 9) :
    RoundTrip.Statement (.xori d a imm) :=
  roundTrip_of rfl (by simp [decodeOperands, decodeImmediate, zeroed, fits_setWidth, flag_ofBool])

theorem Sys2Proof.Laws.RoundTrip.shli (d : BitVec 6) (a : BitVec 6) (sh : BitVec 6) :
    RoundTrip.Statement (.shli d a sh) :=
  roundTrip_of rfl (by simp [decodeOperands, decodeImmediate, zeroed, fits_setWidth, flag_ofBool])

theorem Sys2Proof.Laws.RoundTrip.shri (d : BitVec 6) (a : BitVec 6) (sh : BitVec 6) :
    RoundTrip.Statement (.shri d a sh) :=
  roundTrip_of rfl (by simp [decodeOperands, decodeImmediate, zeroed, fits_setWidth, flag_ofBool])

theorem Sys2Proof.Laws.RoundTrip.srai (d : BitVec 6) (a : BitVec 6) (sh : BitVec 6) :
    RoundTrip.Statement (.srai d a sh) :=
  roundTrip_of rfl (by simp [decodeOperands, decodeImmediate, zeroed, fits_setWidth, flag_ofBool])

theorem Sys2Proof.Laws.RoundTrip.li (d : BitVec 6) (imm : BitVec 15) :
    RoundTrip.Statement (.li d imm) :=
  roundTrip_of rfl (by simp [decodeOperands, decodeImmediate, zeroed, fits_setWidth, flag_ofBool])

theorem Sys2Proof.Laws.RoundTrip.lih (d : BitVec 6) (imm : BitVec 15) :
    RoundTrip.Statement (.lih d imm) :=
  roundTrip_of rfl (by simp [decodeOperands, decodeControl, zeroed, fits_setWidth, flag_ofBool])

theorem Sys2Proof.Laws.RoundTrip.cmpiEq (d : BitVec 3) (a : BitVec 6) (imm : BitVec 9) :
    RoundTrip.Statement (.cmpiEq d a imm) :=
  roundTrip_of rfl (by simp [decodeOperands, decodeControl, zeroed, fits_setWidth, flag_ofBool])

theorem Sys2Proof.Laws.RoundTrip.cmpiNe (d : BitVec 3) (a : BitVec 6) (imm : BitVec 9) :
    RoundTrip.Statement (.cmpiNe d a imm) :=
  roundTrip_of rfl (by simp [decodeOperands, decodeControl, zeroed, fits_setWidth, flag_ofBool])

theorem Sys2Proof.Laws.RoundTrip.cmpiLt (d : BitVec 3) (a : BitVec 6) (imm : BitVec 9) :
    RoundTrip.Statement (.cmpiLt d a imm) :=
  roundTrip_of rfl (by simp [decodeOperands, decodeControl, zeroed, fits_setWidth, flag_ofBool])

theorem Sys2Proof.Laws.RoundTrip.cmpiGe (d : BitVec 3) (a : BitVec 6) (imm : BitVec 9) :
    RoundTrip.Statement (.cmpiGe d a imm) :=
  roundTrip_of rfl (by simp [decodeOperands, decodeControl, zeroed, fits_setWidth, flag_ofBool])

theorem Sys2Proof.Laws.RoundTrip.cmpiLtu (d : BitVec 3) (a : BitVec 6) (imm : BitVec 9) :
    RoundTrip.Statement (.cmpiLtu d a imm) :=
  roundTrip_of rfl (by simp [decodeOperands, decodeControl, zeroed, fits_setWidth, flag_ofBool])

theorem Sys2Proof.Laws.RoundTrip.cmpiGeu (d : BitVec 3) (a : BitVec 6) (imm : BitVec 9) :
    RoundTrip.Statement (.cmpiGeu d a imm) :=
  roundTrip_of rfl (by simp [decodeOperands, decodeControl, zeroed, fits_setWidth, flag_ofBool])

theorem Sys2Proof.Laws.RoundTrip.tree (t1 : BitVec 4) (t2 : BitVec 4) (t3 : BitVec 4) (t4 : BitVec 4) (n : BitVec 3) :
    RoundTrip.Statement (.tree t1 t2 t3 t4 n) :=
  roundTrip_of rfl (by simp [decodeOperands, decodeControl, zeroed, fits_setWidth, flag_ofBool])

theorem Sys2Proof.Laws.RoundTrip.tgt (leaf : BitVec 3) (off : BitVec 18) :
    RoundTrip.Statement (.tgt leaf off) :=
  roundTrip_of rfl (by simp [decodeOperands, decodeControl, zeroed, fits_setWidth, flag_ofBool])

theorem Sys2Proof.Laws.RoundTrip.jmp (off : BitVec 18) : RoundTrip.Statement (.jmp off) :=
  roundTrip_of rfl (by simp [decodeOperands, decodeControl, zeroed, fits_setWidth, flag_ofBool])

theorem Sys2Proof.Laws.RoundTrip.call (off : BitVec 18) : RoundTrip.Statement (.call off) :=
  roundTrip_of rfl (by simp [decodeOperands, decodeControl, zeroed, fits_setWidth, flag_ofBool])

theorem Sys2Proof.Laws.RoundTrip.loop (d : BitVec 6) (imm : BitVec 15) :
    RoundTrip.Statement (.loop d imm) :=
  roundTrip_of rfl (by simp [decodeOperands, decodeControl, zeroed, fits_setWidth, flag_ofBool])

theorem Sys2Proof.Laws.RoundTrip.sloop (d : BitVec 3) (q : BitVec 6) (imm : BitVec 9) :
    RoundTrip.Statement (.sloop d q imm) :=
  roundTrip_of rfl (by simp [decodeOperands, decodeControl, zeroed, fits_setWidth, flag_ofBool])

theorem Sys2Proof.Laws.RoundTrip.ret : RoundTrip.Statement .ret :=
  roundTrip_of rfl (by simp [decodeOperands, decodeControl, zeroed, fits_setWidth, flag_ofBool])

theorem Sys2Proof.Laws.RoundTrip.endTask : RoundTrip.Statement .endTask :=
  roundTrip_of rfl (by simp [decodeOperands, decodeControl, zeroed, fits_setWidth, flag_ofBool])

theorem Sys2Proof.Laws.RoundTrip.yield : RoundTrip.Statement .yield :=
  roundTrip_of rfl (by simp [decodeOperands, decodeControl, zeroed, fits_setWidth, flag_ofBool])

theorem Sys2Proof.Laws.RoundTrip.rdv (n : BitVec 6) : RoundTrip.Statement (.rdv n) :=
  roundTrip_of rfl (by simp [decodeOperands, decodeControl, zeroed, fits_setWidth, flag_ofBool])

theorem Sys2Proof.Laws.RoundTrip.segb : RoundTrip.Statement .segb :=
  roundTrip_of rfl (by simp [decodeOperands, decodeControl, zeroed, fits_setWidth, flag_ofBool])

theorem Sys2Proof.Laws.RoundTrip.sege : RoundTrip.Statement .sege :=
  roundTrip_of rfl (by simp [decodeOperands, decodeControl, zeroed, fits_setWidth, flag_ofBool])

theorem Sys2Proof.Laws.RoundTrip.brk (n : BitVec 6) : RoundTrip.Statement (.brk n) :=
  roundTrip_of rfl (by simp [decodeOperands, decodeControl, zeroed, fits_setWidth, flag_ofBool])

theorem Sys2Proof.Laws.RoundTrip.ldb (t : BitVec 6) (base : BitVec 6) (off : BitVec 8) :
    RoundTrip.Statement (.ldb t base off) :=
  roundTrip_of rfl (by simp [decodeOperands, decodeMemory, zeroed, fits_setWidth, flag_ofBool])

theorem Sys2Proof.Laws.RoundTrip.ldbz (t : BitVec 6) (base : BitVec 6) (off : BitVec 8) :
    RoundTrip.Statement (.ldbz t base off) :=
  roundTrip_of rfl (by simp [decodeOperands, decodeMemory, zeroed, fits_setWidth, flag_ofBool])

theorem Sys2Proof.Laws.RoundTrip.ldh (t : BitVec 6) (base : BitVec 6) (off : BitVec 8) :
    RoundTrip.Statement (.ldh t base off) :=
  roundTrip_of rfl (by simp [decodeOperands, decodeMemory, zeroed, fits_setWidth, flag_ofBool])

theorem Sys2Proof.Laws.RoundTrip.ldhz (t : BitVec 6) (base : BitVec 6) (off : BitVec 8) :
    RoundTrip.Statement (.ldhz t base off) :=
  roundTrip_of rfl (by simp [decodeOperands, decodeMemory, zeroed, fits_setWidth, flag_ofBool])

theorem Sys2Proof.Laws.RoundTrip.ldw (t : BitVec 6) (base : BitVec 6) (off : BitVec 8) :
    RoundTrip.Statement (.ldw t base off) :=
  roundTrip_of rfl (by simp [decodeOperands, decodeMemory, zeroed, fits_setWidth, flag_ofBool])

theorem Sys2Proof.Laws.RoundTrip.ldwz (t : BitVec 6) (base : BitVec 6) (off : BitVec 8) :
    RoundTrip.Statement (.ldwz t base off) :=
  roundTrip_of rfl (by simp [decodeOperands, decodeMemory, zeroed, fits_setWidth, flag_ofBool])

theorem Sys2Proof.Laws.RoundTrip.ldd (t : BitVec 6) (base : BitVec 6) (off : BitVec 8) :
    RoundTrip.Statement (.ldd t base off) :=
  roundTrip_of rfl (by simp [decodeOperands, decodeMemory, zeroed, fits_setWidth, flag_ofBool])

theorem Sys2Proof.Laws.RoundTrip.stb (t : BitVec 6) (base : BitVec 6) (off : BitVec 8) :
    RoundTrip.Statement (.stb t base off) :=
  roundTrip_of rfl (by simp [decodeOperands, decodeMemory, zeroed, fits_setWidth, flag_ofBool])

theorem Sys2Proof.Laws.RoundTrip.sth (t : BitVec 6) (base : BitVec 6) (off : BitVec 8) :
    RoundTrip.Statement (.sth t base off) :=
  roundTrip_of rfl (by simp [decodeOperands, decodeMemory, zeroed, fits_setWidth, flag_ofBool])

theorem Sys2Proof.Laws.RoundTrip.stw (t : BitVec 6) (base : BitVec 6) (off : BitVec 8) :
    RoundTrip.Statement (.stw t base off) :=
  roundTrip_of rfl (by simp [decodeOperands, decodeMemory, zeroed, fits_setWidth, flag_ofBool])

theorem Sys2Proof.Laws.RoundTrip.std (t : BitVec 6) (base : BitVec 6) (off : BitVec 8) :
    RoundTrip.Statement (.std t base off) :=
  roundTrip_of rfl (by simp [decodeOperands, decodeMemory, zeroed, fits_setWidth, flag_ofBool])

theorem Sys2Proof.Laws.RoundTrip.spl (t : BitVec 6) (base : BitVec 6) (off : BitVec 8) (ma : Bool) :
    RoundTrip.Statement (.spl t base off ma) :=
  roundTrip_of rfl (by simp [decodeOperands, decodeMemory, zeroed, fits_setWidth, flag_ofBool])

theorem Sys2Proof.Laws.RoundTrip.sps (t : BitVec 6) (base : BitVec 6) (off : BitVec 8) (ma : Bool) :
    RoundTrip.Statement (.sps t base off ma) :=
  roundTrip_of rfl (by simp [decodeOperands, decodeMemory, zeroed, fits_setWidth, flag_ofBool])

theorem Sys2Proof.Laws.RoundTrip.vldp (t : BitVec 6) (base : BitVec 6) (tag : BitVec 4) (off : BitVec 4) (ma : Bool) :
    RoundTrip.Statement (.vldp t base tag off ma) :=
  roundTrip_of rfl (by simp [decodeOperands, decodeMemory, zeroed, fits_setWidth, flag_ofBool])

theorem Sys2Proof.Laws.RoundTrip.vstp (t : BitVec 6) (base : BitVec 6) (off : BitVec 8) (ma : Bool) :
    RoundTrip.Statement (.vstp t base off ma) :=
  roundTrip_of rfl (by simp [decodeOperands, decodeMemory, zeroed, fits_setWidth, flag_ofBool])

theorem Sys2Proof.Laws.RoundTrip.vld (t : BitVec 6) (base : BitVec 6) (tag : BitVec 4) (off : BitVec 4) :
    RoundTrip.Statement (.vld t base tag off) :=
  roundTrip_of rfl (by simp [decodeOperands, decodeMemory, zeroed, fits_setWidth, flag_ofBool])

theorem Sys2Proof.Laws.RoundTrip.vst (t : BitVec 6) (base : BitVec 6) (off : BitVec 4) :
    RoundTrip.Statement (.vst t base off) :=
  roundTrip_of rfl (by simp [decodeOperands, decodeMemory, zeroed, fits_setWidth, flag_ofBool])

theorem Sys2Proof.Laws.RoundTrip.vlds (t : BitVec 6) (base : BitVec 6) (st : BitVec 4) (tag : BitVec 4) :
    RoundTrip.Statement (.vlds t base st tag) :=
  roundTrip_of rfl (by simp [decodeOperands, decodeMemory, zeroed, fits_setWidth, flag_ofBool])

theorem Sys2Proof.Laws.RoundTrip.vsts (t : BitVec 6) (base : BitVec 6) (st : BitVec 4) :
    RoundTrip.Statement (.vsts t base st) :=
  roundTrip_of rfl (by simp [decodeOperands, decodeMemory, zeroed, fits_setWidth, flag_ofBool])

theorem Sys2Proof.Laws.RoundTrip.sld (t : BitVec 6) (base : BitVec 6) (tag : BitVec 4) (off : BitVec 4) :
    RoundTrip.Statement (.sld t base tag off) :=
  roundTrip_of rfl (by simp [decodeOperands, decodeMemory, zeroed, fits_setWidth, flag_ofBool])

theorem Sys2Proof.Laws.RoundTrip.trans (d : BitVec 6) (a : BitVec 6) (b : BitVec 6) :
    RoundTrip.Statement (.trans d a b) :=
  roundTrip_of rfl (by simp [decodeOperands, decodeMemory, zeroed, fits_setWidth, flag_ofBool])

theorem Sys2Proof.Laws.RoundTrip.pref (a : BitVec 6) (b : BitVec 6) :
    RoundTrip.Statement (.pref a b) :=
  roundTrip_of rfl (by simp [decodeOperands, decodeMemory, zeroed, fits_setWidth, flag_ofBool])

theorem Sys2Proof.Laws.RoundTrip.fence : RoundTrip.Statement .fence :=
  roundTrip_of rfl (by simp [decodeOperands, decodeMemory, zeroed, fits_setWidth, flag_ofBool])

theorem Sys2Proof.Laws.RoundTrip.amoadd (d : BitVec 6) (a : BitVec 6) (b : BitVec 6) :
    RoundTrip.Statement (.amoadd d a b) :=
  roundTrip_of rfl (by simp [decodeOperands, decodeAtomic, zeroed, fits_setWidth, flag_ofBool])

theorem Sys2Proof.Laws.RoundTrip.amomin (d : BitVec 6) (a : BitVec 6) (b : BitVec 6) :
    RoundTrip.Statement (.amomin d a b) :=
  roundTrip_of rfl (by simp [decodeOperands, decodeAtomic, zeroed, fits_setWidth, flag_ofBool])

theorem Sys2Proof.Laws.RoundTrip.amomax (d : BitVec 6) (a : BitVec 6) (b : BitVec 6) :
    RoundTrip.Statement (.amomax d a b) :=
  roundTrip_of rfl (by simp [decodeOperands, decodeAtomic, zeroed, fits_setWidth, flag_ofBool])

theorem Sys2Proof.Laws.RoundTrip.amominu (d : BitVec 6) (a : BitVec 6) (b : BitVec 6) :
    RoundTrip.Statement (.amominu d a b) :=
  roundTrip_of rfl (by simp [decodeOperands, decodeAtomic, zeroed, fits_setWidth, flag_ofBool])

theorem Sys2Proof.Laws.RoundTrip.amoand (d : BitVec 6) (a : BitVec 6) (b : BitVec 6) :
    RoundTrip.Statement (.amoand d a b) :=
  roundTrip_of rfl (by simp [decodeOperands, decodeAtomic, zeroed, fits_setWidth, flag_ofBool])

theorem Sys2Proof.Laws.RoundTrip.amoor (d : BitVec 6) (a : BitVec 6) (b : BitVec 6) :
    RoundTrip.Statement (.amoor d a b) :=
  roundTrip_of rfl (by simp [decodeOperands, decodeAtomic, zeroed, fits_setWidth, flag_ofBool])

theorem Sys2Proof.Laws.RoundTrip.amoxor (d : BitVec 6) (a : BitVec 6) (b : BitVec 6) :
    RoundTrip.Statement (.amoxor d a b) :=
  roundTrip_of rfl (by simp [decodeOperands, decodeAtomic, zeroed, fits_setWidth, flag_ofBool])

theorem Sys2Proof.Laws.RoundTrip.amoswp (d : BitVec 6) (a : BitVec 6) (b : BitVec 6) :
    RoundTrip.Statement (.amoswp d a b) :=
  roundTrip_of rfl (by simp [decodeOperands, decodeAtomic, zeroed, fits_setWidth, flag_ofBool])

theorem Sys2Proof.Laws.RoundTrip.amoaddW (d : BitVec 6) (a : BitVec 6) (b : BitVec 6) :
    RoundTrip.Statement (.amoaddW d a b) :=
  roundTrip_of rfl (by simp [decodeOperands, decodeAtomic, zeroed, fits_setWidth, flag_ofBool])

theorem Sys2Proof.Laws.RoundTrip.amominW (d : BitVec 6) (a : BitVec 6) (b : BitVec 6) :
    RoundTrip.Statement (.amominW d a b) :=
  roundTrip_of rfl (by simp [decodeOperands, decodeAtomic, zeroed, fits_setWidth, flag_ofBool])

theorem Sys2Proof.Laws.RoundTrip.amomaxW (d : BitVec 6) (a : BitVec 6) (b : BitVec 6) :
    RoundTrip.Statement (.amomaxW d a b) :=
  roundTrip_of rfl (by simp [decodeOperands, decodeAtomic, zeroed, fits_setWidth, flag_ofBool])

theorem Sys2Proof.Laws.RoundTrip.amominuW (d : BitVec 6) (a : BitVec 6) (b : BitVec 6) :
    RoundTrip.Statement (.amominuW d a b) :=
  roundTrip_of rfl (by simp [decodeOperands, decodeAtomic, zeroed, fits_setWidth, flag_ofBool])

theorem Sys2Proof.Laws.RoundTrip.amoandW (d : BitVec 6) (a : BitVec 6) (b : BitVec 6) :
    RoundTrip.Statement (.amoandW d a b) :=
  roundTrip_of rfl (by simp [decodeOperands, decodeAtomic, zeroed, fits_setWidth, flag_ofBool])

theorem Sys2Proof.Laws.RoundTrip.amoorW (d : BitVec 6) (a : BitVec 6) (b : BitVec 6) :
    RoundTrip.Statement (.amoorW d a b) :=
  roundTrip_of rfl (by simp [decodeOperands, decodeAtomic, zeroed, fits_setWidth, flag_ofBool])

theorem Sys2Proof.Laws.RoundTrip.amoxorW (d : BitVec 6) (a : BitVec 6) (b : BitVec 6) :
    RoundTrip.Statement (.amoxorW d a b) :=
  roundTrip_of rfl (by simp [decodeOperands, decodeAtomic, zeroed, fits_setWidth, flag_ofBool])

theorem Sys2Proof.Laws.RoundTrip.amoswpW (d : BitVec 6) (a : BitVec 6) (b : BitVec 6) :
    RoundTrip.Statement (.amoswpW d a b) :=
  roundTrip_of rfl (by simp [decodeOperands, decodeAtomic, zeroed, fits_setWidth, flag_ofBool])

theorem Sys2Proof.Laws.RoundTrip.amocas (d : BitVec 6) (a : BitVec 6) (b : BitVec 6) :
    RoundTrip.Statement (.amocas d a b) :=
  roundTrip_of rfl (by simp [decodeOperands, decodeAtomic, zeroed, fits_setWidth, flag_ofBool])

theorem Sys2Proof.Laws.RoundTrip.amocasW (d : BitVec 6) (a : BitVec 6) (b : BitVec 6) :
    RoundTrip.Statement (.amocasW d a b) :=
  roundTrip_of rfl (by simp [decodeOperands, decodeAtomic, zeroed, fits_setWidth, flag_ofBool])

theorem Sys2Proof.Laws.RoundTrip.redAdd (a : BitVec 6) (b : BitVec 6) :
    RoundTrip.Statement (.redAdd a b) :=
  roundTrip_of rfl (by simp [decodeOperands, decodeAtomic, zeroed, fits_setWidth, flag_ofBool])

theorem Sys2Proof.Laws.RoundTrip.redMin (a : BitVec 6) (b : BitVec 6) :
    RoundTrip.Statement (.redMin a b) :=
  roundTrip_of rfl (by simp [decodeOperands, decodeAtomic, zeroed, fits_setWidth, flag_ofBool])

theorem Sys2Proof.Laws.RoundTrip.redMax (a : BitVec 6) (b : BitVec 6) :
    RoundTrip.Statement (.redMax a b) :=
  roundTrip_of rfl (by simp [decodeOperands, decodeAtomic, zeroed, fits_setWidth, flag_ofBool])

theorem Sys2Proof.Laws.RoundTrip.redFadd (a : BitVec 6) (b : BitVec 6) :
    RoundTrip.Statement (.redFadd a b) :=
  roundTrip_of rfl (by simp [decodeOperands, decodeAtomic, zeroed, fits_setWidth, flag_ofBool])

theorem Sys2Proof.Laws.RoundTrip.tspawn (a : BitVec 6) : RoundTrip.Statement (.tspawn a) :=
  roundTrip_of rfl (by simp [decodeOperands, decodeAtomic, zeroed, fits_setWidth, flag_ofBool])

theorem Sys2Proof.Laws.RoundTrip.tdec (a : BitVec 6) : RoundTrip.Statement (.tdec a) :=
  roundTrip_of rfl (by simp [decodeOperands, decodeAtomic, zeroed, fits_setWidth, flag_ofBool])

theorem Sys2Proof.Laws.RoundTrip.tadd (a : BitVec 6) (b : BitVec 6) :
    RoundTrip.Statement (.tadd a b) :=
  roundTrip_of rfl (by simp [decodeOperands, decodeAtomic, zeroed, fits_setWidth, flag_ofBool])

theorem Sys2Proof.Laws.RoundTrip.ntr : RoundTrip.Statement .ntr :=
  roundTrip_of rfl (by simp [decodeOperands, decodeAtomic, zeroed, fits_setWidth, flag_ofBool])

theorem Sys2Proof.Laws.RoundTrip.barr (h : BitVec 8) : RoundTrip.Statement (.barr h) :=
  roundTrip_of rfl (by simp [decodeOperands, decodeAtomic, zeroed, fits_setWidth, flag_ofBool])

theorem Sys2Proof.Laws.RoundTrip.bwait (h : BitVec 8) : RoundTrip.Statement (.bwait h) :=
  roundTrip_of rfl (by simp [decodeOperands, decodeAtomic, zeroed, fits_setWidth, flag_ofBool])

theorem Sys2Proof.Laws.RoundTrip.barw (h : BitVec 8) : RoundTrip.Statement (.barw h) :=
  roundTrip_of rfl (by simp [decodeOperands, decodeAtomic, zeroed, fits_setWidth, flag_ofBool])

theorem Sys2Proof.Laws.RoundTrip.qput (q : BitVec 6) (b : BitVec 6) :
    RoundTrip.Statement (.qput q b) :=
  roundTrip_of rfl (by simp [decodeOperands, decodeAtomic, zeroed, fits_setWidth, flag_ofBool])

theorem Sys2Proof.Laws.RoundTrip.qget (d : BitVec 6) (q : BitVec 6) :
    RoundTrip.Statement (.qget d q) :=
  roundTrip_of rfl (by simp [decodeOperands, decodeAtomic, zeroed, fits_setWidth, flag_ofBool])

theorem Sys2Proof.Laws.RoundTrip.qeos (q : BitVec 6) : RoundTrip.Statement (.qeos q) :=
  roundTrip_of rfl (by simp [decodeOperands, decodeAtomic, zeroed, fits_setWidth, flag_ofBool])

theorem Sys2Proof.Laws.RoundTrip.vfput (d : BitVec 6) (b : BitVec 6) :
    RoundTrip.Statement (.vfput d b) :=
  roundTrip_of rfl (by simp [decodeOperands, decodeAtomic, zeroed, fits_setWidth, flag_ofBool])

theorem Sys2Proof.Laws.RoundTrip.vfget (d : BitVec 6) : RoundTrip.Statement (.vfget d) :=
  roundTrip_of rfl (by simp [decodeOperands, decodeAtomic, zeroed, fits_setWidth, flag_ofBool])

theorem Sys2Proof.Laws.RoundTrip.tlw (e : BitVec 3) (a : BitVec 6) : RoundTrip.Statement (.tlw e a) :=
  roundTrip_of rfl (by simp [decodeOperands, decodeAtomic, zeroed, fits_setWidth, flag_ofBool])

theorem Sys2Proof.Laws.RoundTrip.tlr (d : BitVec 6) (e : BitVec 3) : RoundTrip.Statement (.tlr d e) :=
  roundTrip_of rfl (by simp [decodeOperands, decodeAtomic, zeroed, fits_setWidth, flag_ofBool])

theorem Sys2Proof.Laws.RoundTrip.txb : RoundTrip.Statement .txb :=
  roundTrip_of rfl (by simp [decodeOperands, decodeAtomic, zeroed, fits_setWidth, flag_ofBool])

theorem Sys2Proof.Laws.RoundTrip.txc (d : BitVec 6) : RoundTrip.Statement (.txc d) :=
  roundTrip_of rfl (by simp [decodeOperands, decodeAtomic, zeroed, fits_setWidth, flag_ofBool])

theorem Sys2Proof.Laws.RoundTrip.txa : RoundTrip.Statement .txa :=
  roundTrip_of rfl (by simp [decodeOperands, decodeAtomic, zeroed, fits_setWidth, flag_ofBool])

theorem Sys2Proof.Laws.RoundTrip.snap (d : BitVec 6) (drain : Bool) :
    RoundTrip.Statement (.snap d drain) :=
  roundTrip_of rfl (by simp [decodeOperands, decodeAtomic, zeroed, fits_setWidth, flag_ofBool])

theorem Sys2Proof.Laws.RoundTrip.snaprel (a : BitVec 6) : RoundTrip.Statement (.snaprel a) :=
  roundTrip_of rfl (by simp [decodeOperands, decodeAtomic, zeroed, fits_setWidth, flag_ofBool])

theorem Sys2Proof.Laws.RoundTrip.snapsel (a : BitVec 6) : RoundTrip.Statement (.snapsel a) :=
  roundTrip_of rfl (by simp [decodeOperands, decodeAtomic, zeroed, fits_setWidth, flag_ofBool])

theorem Sys2Proof.Laws.RoundTrip.vadd (d : BitVec 6) (a : BitVec 6) (b : BitVec 6) (k : BitVec 3) :
    RoundTrip.Statement (.vadd d a b k) :=
  roundTrip_of rfl (by simp [decodeOperands, decodeVector, zeroed, fits_setWidth, flag_ofBool])

theorem Sys2Proof.Laws.RoundTrip.vsub (d : BitVec 6) (a : BitVec 6) (b : BitVec 6) (k : BitVec 3) :
    RoundTrip.Statement (.vsub d a b k) :=
  roundTrip_of rfl (by simp [decodeOperands, decodeVector, zeroed, fits_setWidth, flag_ofBool])

theorem Sys2Proof.Laws.RoundTrip.vmul (d : BitVec 6) (a : BitVec 6) (b : BitVec 6) (k : BitVec 3) :
    RoundTrip.Statement (.vmul d a b k) :=
  roundTrip_of rfl (by simp [decodeOperands, decodeVector, zeroed, fits_setWidth, flag_ofBool])

theorem Sys2Proof.Laws.RoundTrip.vfma (d : BitVec 6) (a : BitVec 6) (b : BitVec 6) (k : BitVec 3) :
    RoundTrip.Statement (.vfma d a b k) :=
  roundTrip_of rfl (by simp [decodeOperands, decodeVector, zeroed, fits_setWidth, flag_ofBool])

theorem Sys2Proof.Laws.RoundTrip.vfms (d : BitVec 6) (a : BitVec 6) (b : BitVec 6) (k : BitVec 3) :
    RoundTrip.Statement (.vfms d a b k) :=
  roundTrip_of rfl (by simp [decodeOperands, decodeVector, zeroed, fits_setWidth, flag_ofBool])

theorem Sys2Proof.Laws.RoundTrip.vmin (d : BitVec 6) (a : BitVec 6) (b : BitVec 6) (k : BitVec 3) :
    RoundTrip.Statement (.vmin d a b k) :=
  roundTrip_of rfl (by simp [decodeOperands, decodeVector, zeroed, fits_setWidth, flag_ofBool])

theorem Sys2Proof.Laws.RoundTrip.vmax (d : BitVec 6) (a : BitVec 6) (b : BitVec 6) (k : BitVec 3) :
    RoundTrip.Statement (.vmax d a b k) :=
  roundTrip_of rfl (by simp [decodeOperands, decodeVector, zeroed, fits_setWidth, flag_ofBool])

theorem Sys2Proof.Laws.RoundTrip.vneg (d : BitVec 6) (a : BitVec 6) (k : BitVec 3) :
    RoundTrip.Statement (.vneg d a k) :=
  roundTrip_of rfl (by simp [decodeOperands, decodeVector, zeroed, fits_setWidth, flag_ofBool])

theorem Sys2Proof.Laws.RoundTrip.vabs (d : BitVec 6) (a : BitVec 6) (k : BitVec 3) :
    RoundTrip.Statement (.vabs d a k) :=
  roundTrip_of rfl (by simp [decodeOperands, decodeVector, zeroed, fits_setWidth, flag_ofBool])

theorem Sys2Proof.Laws.RoundTrip.vrcp (d : BitVec 6) (a : BitVec 6) (k : BitVec 3) :
    RoundTrip.Statement (.vrcp d a k) :=
  roundTrip_of rfl (by simp [decodeOperands, decodeVector, zeroed, fits_setWidth, flag_ofBool])

theorem Sys2Proof.Laws.RoundTrip.vrsq (d : BitVec 6) (a : BitVec 6) (k : BitVec 3) :
    RoundTrip.Statement (.vrsq d a k) :=
  roundTrip_of rfl (by simp [decodeOperands, decodeVector, zeroed, fits_setWidth, flag_ofBool])

theorem Sys2Proof.Laws.RoundTrip.vsqrt (d : BitVec 6) (a : BitVec 6) (k : BitVec 3) :
    RoundTrip.Statement (.vsqrt d a k) :=
  roundTrip_of rfl (by simp [decodeOperands, decodeVector, zeroed, fits_setWidth, flag_ofBool])

theorem Sys2Proof.Laws.RoundTrip.vexp (d : BitVec 6) (a : BitVec 6) (k : BitVec 3) :
    RoundTrip.Statement (.vexp d a k) :=
  roundTrip_of rfl (by simp [decodeOperands, decodeVector, zeroed, fits_setWidth, flag_ofBool])

theorem Sys2Proof.Laws.RoundTrip.vlog (d : BitVec 6) (a : BitVec 6) (k : BitVec 3) :
    RoundTrip.Statement (.vlog d a k) :=
  roundTrip_of rfl (by simp [decodeOperands, decodeVector, zeroed, fits_setWidth, flag_ofBool])

theorem Sys2Proof.Laws.RoundTrip.vtanh (d : BitVec 6) (a : BitVec 6) (k : BitVec 3) :
    RoundTrip.Statement (.vtanh d a k) :=
  roundTrip_of rfl (by simp [decodeOperands, decodeVector, zeroed, fits_setWidth, flag_ofBool])

theorem Sys2Proof.Laws.RoundTrip.vclass (d : BitVec 6) (a : BitVec 6) (k : BitVec 3) :
    RoundTrip.Statement (.vclass d a k) :=
  roundTrip_of rfl (by simp [decodeOperands, decodeVector, zeroed, fits_setWidth, flag_ofBool])

theorem Sys2Proof.Laws.RoundTrip.vnot (d : BitVec 6) (a : BitVec 6) (k : BitVec 3) :
    RoundTrip.Statement (.vnot d a k) :=
  roundTrip_of rfl (by simp [decodeOperands, decodeVector, zeroed, fits_setWidth, flag_ofBool])

theorem Sys2Proof.Laws.RoundTrip.vredsum (d : BitVec 6) (a : BitVec 6) (k : BitVec 3) :
    RoundTrip.Statement (.vredsum d a k) :=
  roundTrip_of rfl (by simp [decodeOperands, decodeVector, zeroed, fits_setWidth, flag_ofBool])

theorem Sys2Proof.Laws.RoundTrip.vredmax (d : BitVec 6) (a : BitVec 6) (k : BitVec 3) :
    RoundTrip.Statement (.vredmax d a k) :=
  roundTrip_of rfl (by simp [decodeOperands, decodeVector, zeroed, fits_setWidth, flag_ofBool])

theorem Sys2Proof.Laws.RoundTrip.vredmin (d : BitVec 6) (a : BitVec 6) (k : BitVec 3) :
    RoundTrip.Statement (.vredmin d a k) :=
  roundTrip_of rfl (by simp [decodeOperands, decodeVector, zeroed, fits_setWidth, flag_ofBool])

theorem Sys2Proof.Laws.RoundTrip.vredarg (d : BitVec 6) (a : BitVec 6) (k : BitVec 3) :
    RoundTrip.Statement (.vredarg d a k) :=
  roundTrip_of rfl (by simp [decodeOperands, decodeVector, zeroed, fits_setWidth, flag_ofBool])

theorem Sys2Proof.Laws.RoundTrip.vscan (d : BitVec 6) (a : BitVec 6) (k : BitVec 3) :
    RoundTrip.Statement (.vscan d a k) :=
  roundTrip_of rfl (by simp [decodeOperands, decodeVector, zeroed, fits_setWidth, flag_ofBool])

theorem Sys2Proof.Laws.RoundTrip.vmovs (d : BitVec 6) (a : BitVec 6) (k : BitVec 3) :
    RoundTrip.Statement (.vmovs d a k) :=
  roundTrip_of rfl (by simp [decodeOperands, decodeVector, zeroed, fits_setWidth, flag_ofBool])

theorem Sys2Proof.Laws.RoundTrip.vhash (d : BitVec 6) (a : BitVec 6) (k : BitVec 3) :
    RoundTrip.Statement (.vhash d a k) :=
  roundTrip_of rfl (by simp [decodeOperands, decodeVector, zeroed, fits_setWidth, flag_ofBool])

theorem Sys2Proof.Laws.RoundTrip.viadd (d : BitVec 6) (a : BitVec 6) (b : BitVec 6) (k : BitVec 3) :
    RoundTrip.Statement (.viadd d a b k) :=
  roundTrip_of rfl (by simp [decodeOperands, decodeVector, zeroed, fits_setWidth, flag_ofBool])

theorem Sys2Proof.Laws.RoundTrip.visub (d : BitVec 6) (a : BitVec 6) (b : BitVec 6) (k : BitVec 3) :
    RoundTrip.Statement (.visub d a b k) :=
  roundTrip_of rfl (by simp [decodeOperands, decodeVector, zeroed, fits_setWidth, flag_ofBool])

theorem Sys2Proof.Laws.RoundTrip.vimul (d : BitVec 6) (a : BitVec 6) (b : BitVec 6) (k : BitVec 3) :
    RoundTrip.Statement (.vimul d a b k) :=
  roundTrip_of rfl (by simp [decodeOperands, decodeVector, zeroed, fits_setWidth, flag_ofBool])

theorem Sys2Proof.Laws.RoundTrip.vimad (d : BitVec 6) (a : BitVec 6) (b : BitVec 6) (k : BitVec 3) :
    RoundTrip.Statement (.vimad d a b k) :=
  roundTrip_of rfl (by simp [decodeOperands, decodeVector, zeroed, fits_setWidth, flag_ofBool])

theorem Sys2Proof.Laws.RoundTrip.vimin (d : BitVec 6) (a : BitVec 6) (b : BitVec 6) (k : BitVec 3) :
    RoundTrip.Statement (.vimin d a b k) :=
  roundTrip_of rfl (by simp [decodeOperands, decodeVector, zeroed, fits_setWidth, flag_ofBool])

theorem Sys2Proof.Laws.RoundTrip.vimax (d : BitVec 6) (a : BitVec 6) (b : BitVec 6) (k : BitVec 3) :
    RoundTrip.Statement (.vimax d a b k) :=
  roundTrip_of rfl (by simp [decodeOperands, decodeVector, zeroed, fits_setWidth, flag_ofBool])

theorem Sys2Proof.Laws.RoundTrip.vshl (d : BitVec 6) (a : BitVec 6) (b : BitVec 6) (k : BitVec 3) :
    RoundTrip.Statement (.vshl d a b k) :=
  roundTrip_of rfl (by simp [decodeOperands, decodeVector, zeroed, fits_setWidth, flag_ofBool])

theorem Sys2Proof.Laws.RoundTrip.vshr (d : BitVec 6) (a : BitVec 6) (b : BitVec 6) (k : BitVec 3) :
    RoundTrip.Statement (.vshr d a b k) :=
  roundTrip_of rfl (by simp [decodeOperands, decodeVector, zeroed, fits_setWidth, flag_ofBool])

theorem Sys2Proof.Laws.RoundTrip.vsra (d : BitVec 6) (a : BitVec 6) (b : BitVec 6) (k : BitVec 3) :
    RoundTrip.Statement (.vsra d a b k) :=
  roundTrip_of rfl (by simp [decodeOperands, decodeVectorMore, zeroed, fits_setWidth, flag_ofBool])

theorem Sys2Proof.Laws.RoundTrip.vand (d : BitVec 6) (a : BitVec 6) (b : BitVec 6) (k : BitVec 3) :
    RoundTrip.Statement (.vand d a b k) :=
  roundTrip_of rfl (by simp [decodeOperands, decodeVectorMore, zeroed, fits_setWidth, flag_ofBool])

theorem Sys2Proof.Laws.RoundTrip.vor (d : BitVec 6) (a : BitVec 6) (b : BitVec 6) (k : BitVec 3) :
    RoundTrip.Statement (.vor d a b k) :=
  roundTrip_of rfl (by simp [decodeOperands, decodeVectorMore, zeroed, fits_setWidth, flag_ofBool])

theorem Sys2Proof.Laws.RoundTrip.vxor (d : BitVec 6) (a : BitVec 6) (b : BitVec 6) (k : BitVec 3) :
    RoundTrip.Statement (.vxor d a b k) :=
  roundTrip_of rfl (by simp [decodeOperands, decodeVectorMore, zeroed, fits_setWidth, flag_ofBool])

theorem Sys2Proof.Laws.RoundTrip.vcmpEq (kd : BitVec 3) (a : BitVec 6) (b : BitVec 6) (k : BitVec 3) :
    RoundTrip.Statement (.vcmpEq kd a b k) :=
  roundTrip_of rfl (by simp [decodeOperands, decodeVectorMore, zeroed, fits_setWidth, flag_ofBool])

theorem Sys2Proof.Laws.RoundTrip.vcmpNe (kd : BitVec 3) (a : BitVec 6) (b : BitVec 6) (k : BitVec 3) :
    RoundTrip.Statement (.vcmpNe kd a b k) :=
  roundTrip_of rfl (by simp [decodeOperands, decodeVectorMore, zeroed, fits_setWidth, flag_ofBool])

theorem Sys2Proof.Laws.RoundTrip.vcmpLt (kd : BitVec 3) (a : BitVec 6) (b : BitVec 6) (k : BitVec 3) :
    RoundTrip.Statement (.vcmpLt kd a b k) :=
  roundTrip_of rfl (by simp [decodeOperands, decodeVectorMore, zeroed, fits_setWidth, flag_ofBool])

theorem Sys2Proof.Laws.RoundTrip.vcmpLe (kd : BitVec 3) (a : BitVec 6) (b : BitVec 6) (k : BitVec 3) :
    RoundTrip.Statement (.vcmpLe kd a b k) :=
  roundTrip_of rfl (by simp [decodeOperands, decodeVectorMore, zeroed, fits_setWidth, flag_ofBool])

theorem Sys2Proof.Laws.RoundTrip.vcmpGt (kd : BitVec 3) (a : BitVec 6) (b : BitVec 6) (k : BitVec 3) :
    RoundTrip.Statement (.vcmpGt kd a b k) :=
  roundTrip_of rfl (by simp [decodeOperands, decodeVectorMore, zeroed, fits_setWidth, flag_ofBool])

theorem Sys2Proof.Laws.RoundTrip.vcmpGe (kd : BitVec 3) (a : BitVec 6) (b : BitVec 6) (k : BitVec 3) :
    RoundTrip.Statement (.vcmpGe kd a b k) :=
  roundTrip_of rfl (by simp [decodeOperands, decodeVectorMore, zeroed, fits_setWidth, flag_ofBool])

theorem Sys2Proof.Laws.RoundTrip.vcmpUn (kd : BitVec 3) (a : BitVec 6) (b : BitVec 6) (k : BitVec 3) :
    RoundTrip.Statement (.vcmpUn kd a b k) :=
  roundTrip_of rfl (by simp [decodeOperands, decodeVectorMore, zeroed, fits_setWidth, flag_ofBool])

theorem Sys2Proof.Laws.RoundTrip.vsel (d : BitVec 6) (a : BitVec 6) (b : BitVec 6) (k : BitVec 3) :
    RoundTrip.Statement (.vsel d a b k) :=
  roundTrip_of rfl (by simp [decodeOperands, decodeVectorMore, zeroed, fits_setWidth, flag_ofBool])

theorem Sys2Proof.Laws.RoundTrip.vcvt (d : BitVec 6) (a : BitVec 6) (u : BitVec 4) (k : BitVec 3) :
    RoundTrip.Statement (.vcvt d a u k) :=
  roundTrip_of rfl (by simp [decodeOperands, decodeVectorMore, zeroed, fits_setWidth, flag_ofBool])

theorem Sys2Proof.Laws.RoundTrip.vqnt (d : BitVec 6) (a : BitVec 6) (u : BitVec 4) :
    RoundTrip.Statement (.vqnt d a u) :=
  roundTrip_of rfl (by simp [decodeOperands, decodeVectorMore, zeroed, fits_setWidth, flag_ofBool])

theorem Sys2Proof.Laws.RoundTrip.vdqnt (d : BitVec 6) (a : BitVec 6) (b : BitVec 6) :
    RoundTrip.Statement (.vdqnt d a b) :=
  roundTrip_of rfl (by simp [decodeOperands, decodeVectorMore, zeroed, fits_setWidth, flag_ofBool])

theorem Sys2Proof.Laws.RoundTrip.vpackts (d : BitVec 6) (a : BitVec 6) (b : BitVec 6) (k : BitVec 3) :
    RoundTrip.Statement (.vpackts d a b k) :=
  roundTrip_of rfl (by simp [decodeOperands, decodeVectorMore, zeroed, fits_setWidth, flag_ofBool])

theorem Sys2Proof.Laws.RoundTrip.vshuf (d : BitVec 6) (a : BitVec 6) (b : BitVec 6) (k : BitVec 3) :
    RoundTrip.Statement (.vshuf d a b k) :=
  roundTrip_of rfl (by simp [decodeOperands, decodeVectorMore, zeroed, fits_setWidth, flag_ofBool])

theorem Sys2Proof.Laws.RoundTrip.vrot (d : BitVec 6) (a : BitVec 6) (n : BitVec 6) :
    RoundTrip.Statement (.vrot d a n) :=
  roundTrip_of rfl (by simp [decodeOperands, decodeVectorMore, zeroed, fits_setWidth, flag_ofBool])

theorem Sys2Proof.Laws.RoundTrip.vslide (d : BitVec 6) (a : BitVec 6) (b : BitVec 6) :
    RoundTrip.Statement (.vslide d a b) :=
  roundTrip_of rfl (by simp [decodeOperands, decodeVectorMore, zeroed, fits_setWidth, flag_ofBool])

theorem Sys2Proof.Laws.RoundTrip.vbcast (d : BitVec 6) (a : BitVec 6) :
    RoundTrip.Statement (.vbcast d a) :=
  roundTrip_of rfl (by simp [decodeOperands, decodeVectorMore, zeroed, fits_setWidth, flag_ofBool])

theorem Sys2Proof.Laws.RoundTrip.vins (d : BitVec 6) (a : BitVec 6) (n : BitVec 6) :
    RoundTrip.Statement (.vins d a n) :=
  roundTrip_of rfl (by simp [decodeOperands, decodeVectorMore, zeroed, fits_setWidth, flag_ofBool])

theorem Sys2Proof.Laws.RoundTrip.vext (d : BitVec 6) (a : BitVec 6) (n : BitVec 6) :
    RoundTrip.Statement (.vext d a n) :=
  roundTrip_of rfl (by simp [decodeOperands, decodeVectorMore, zeroed, fits_setWidth, flag_ofBool])

theorem Sys2Proof.Laws.RoundTrip.vgather (d : BitVec 6) (a : BitVec 6) (b : BitVec 6) (k : BitVec 3) :
    RoundTrip.Statement (.vgather d a b k) :=
  roundTrip_of rfl (by simp [decodeOperands, decodeVectorMore, zeroed, fits_setWidth, flag_ofBool])

theorem Sys2Proof.Laws.RoundTrip.vscat (d : BitVec 6) (a : BitVec 6) (b : BitVec 6) (k : BitVec 3) :
    RoundTrip.Statement (.vscat d a b k) :=
  roundTrip_of rfl (by simp [decodeOperands, decodeVectorMore, zeroed, fits_setWidth, flag_ofBool])

theorem Sys2Proof.Laws.RoundTrip.vdot (d : BitVec 6) (a : BitVec 6) (b : BitVec 6) (k : BitVec 3) :
    RoundTrip.Statement (.vdot d a b k) :=
  roundTrip_of rfl (by simp [decodeOperands, decodeVectorMore, zeroed, fits_setWidth, flag_ofBool])

theorem Sys2Proof.Laws.RoundTrip.kand (d : BitVec 3) (a : BitVec 3) (b : BitVec 3) :
    RoundTrip.Statement (.kand d a b) :=
  roundTrip_of rfl (by simp [decodeOperands, decodeVectorMore, zeroed, fits_setWidth, flag_ofBool])

theorem Sys2Proof.Laws.RoundTrip.kor (d : BitVec 3) (a : BitVec 3) (b : BitVec 3) :
    RoundTrip.Statement (.kor d a b) :=
  roundTrip_of rfl (by simp [decodeOperands, decodeVectorMore, zeroed, fits_setWidth, flag_ofBool])

theorem Sys2Proof.Laws.RoundTrip.knot (d : BitVec 3) (a : BitVec 3) :
    RoundTrip.Statement (.knot d a) :=
  roundTrip_of rfl (by simp [decodeOperands, decodeVectorMore, zeroed, fits_setWidth, flag_ofBool])

theorem Sys2Proof.Laws.RoundTrip.kpop (d : BitVec 6) (a : BitVec 3) :
    RoundTrip.Statement (.kpop d a) :=
  roundTrip_of rfl (by simp [decodeOperands, decodeVectorMore, zeroed, fits_setWidth, flag_ofBool])

theorem Sys2Proof.Laws.RoundTrip.mcallMm (acc : BitVec 1) (sa : BitVec 6) (sb : BitVec 6) :
    RoundTrip.Statement (.mcallMm acc sa sb) :=
  roundTrip_of rfl (by simp [decodeOperands, decodeSystem, zeroed, fits_setWidth, flag_ofBool])

theorem Sys2Proof.Laws.RoundTrip.mcallAccout (acc : BitVec 1) (sa : BitVec 6) :
    RoundTrip.Statement (.mcallAccout acc sa) :=
  roundTrip_of rfl (by simp [decodeOperands, decodeSystem, zeroed, fits_setWidth, flag_ofBool])

theorem Sys2Proof.Laws.RoundTrip.mcallAccld (acc : BitVec 1) (sa : BitVec 6) :
    RoundTrip.Statement (.mcallAccld acc sa) :=
  roundTrip_of rfl (by simp [decodeOperands, decodeSystem, zeroed, fits_setWidth, flag_ofBool])

theorem Sys2Proof.Laws.RoundTrip.mcallAccadd (acc : BitVec 1) (sa : BitVec 6) :
    RoundTrip.Statement (.mcallAccadd acc sa) :=
  roundTrip_of rfl (by simp [decodeOperands, decodeSystem, zeroed, fits_setWidth, flag_ofBool])

theorem Sys2Proof.Laws.RoundTrip.mcallTransp (sa : BitVec 6) (sb : BitVec 6) :
    RoundTrip.Statement (.mcallTransp sa sb) :=
  roundTrip_of rfl (by simp [decodeOperands, decodeSystem, zeroed, fits_setWidth, flag_ofBool])

theorem Sys2Proof.Laws.RoundTrip.mpar (d : BitVec 3) (a : BitVec 6) :
    RoundTrip.Statement (.mpar d a) :=
  roundTrip_of rfl (by simp [decodeOperands, decodeSystem, zeroed, fits_setWidth, flag_ofBool])

theorem Sys2Proof.Laws.RoundTrip.oclm (o : BitVec 6) : RoundTrip.Statement (.oclm o) :=
  roundTrip_of rfl (by simp [decodeOperands, decodeSystem, zeroed, fits_setWidth, flag_ofBool])

theorem Sys2Proof.Laws.RoundTrip.orel (o : BitVec 6) : RoundTrip.Statement (.orel o) :=
  roundTrip_of rfl (by simp [decodeOperands, decodeSystem, zeroed, fits_setWidth, flag_ofBool])

theorem Sys2Proof.Laws.RoundTrip.old (o : BitVec 6) (a : BitVec 6) (tag : BitVec 4) :
    RoundTrip.Statement (.old o a tag) :=
  roundTrip_of rfl (by simp [decodeOperands, decodeSystem, zeroed, fits_setWidth, flag_ofBool])

theorem Sys2Proof.Laws.RoundTrip.ost (o : BitVec 6) (a : BitVec 6) : RoundTrip.Statement (.ost o a) :=
  roundTrip_of rfl (by simp [decodeOperands, decodeSystem, zeroed, fits_setWidth, flag_ofBool])

theorem Sys2Proof.Laws.RoundTrip.macz (acc : BitVec 1) : RoundTrip.Statement (.macz acc) :=
  roundTrip_of rfl (by simp [decodeOperands, decodeSystem, zeroed, fits_setWidth, flag_ofBool])

theorem Sys2Proof.Laws.RoundTrip.mlim (a : BitVec 6) : RoundTrip.Statement (.mlim a) :=
  roundTrip_of rfl (by simp [decodeOperands, decodeSystem, zeroed, fits_setWidth, flag_ofBool])

theorem Sys2Proof.Laws.RoundTrip.mupld (a : BitVec 6) : RoundTrip.Statement (.mupld a) :=
  roundTrip_of rfl (by simp [decodeOperands, decodeSystem, zeroed, fits_setWidth, flag_ofBool])

theorem Sys2Proof.Laws.RoundTrip.eset (eng : BitVec 4) (r : BitVec 3) (a : BitVec 6) :
    RoundTrip.Statement (.eset eng r a) :=
  roundTrip_of rfl (by simp [decodeOperands, decodeSystem, zeroed, fits_setWidth, flag_ofBool])

theorem Sys2Proof.Laws.RoundTrip.egoCopyMove (d : BitVec 6) (e : BitVec 3) :
    RoundTrip.Statement (.egoCopyMove d e) :=
  roundTrip_of rfl (by simp [decodeOperands, decodeSystem, zeroed, fits_setWidth, flag_ofBool])

theorem Sys2Proof.Laws.RoundTrip.egoCopyFill (d : BitVec 6) (e : BitVec 3) :
    RoundTrip.Statement (.egoCopyFill d e) :=
  roundTrip_of rfl (by simp [decodeOperands, decodeSystem, zeroed, fits_setWidth, flag_ofBool])

theorem Sys2Proof.Laws.RoundTrip.egoCopyMove2d (d : BitVec 6) (e : BitVec 3) :
    RoundTrip.Statement (.egoCopyMove2d d e) :=
  roundTrip_of rfl (by simp [decodeOperands, decodeSystem, zeroed, fits_setWidth, flag_ofBool])

theorem Sys2Proof.Laws.RoundTrip.egoGatherGath (d : BitVec 6) (e : BitVec 3) :
    RoundTrip.Statement (.egoGatherGath d e) :=
  roundTrip_of rfl (by simp [decodeOperands, decodeSystem, zeroed, fits_setWidth, flag_ofBool])

theorem Sys2Proof.Laws.RoundTrip.egoGatherScat (d : BitVec 6) (e : BitVec 3) :
    RoundTrip.Statement (.egoGatherScat d e) :=
  roundTrip_of rfl (by simp [decodeOperands, decodeSystem, zeroed, fits_setWidth, flag_ofBool])

theorem Sys2Proof.Laws.RoundTrip.egoHashSha384 (d : BitVec 6) (e : BitVec 3) :
    RoundTrip.Statement (.egoHashSha384 d e) :=
  roundTrip_of rfl (by simp [decodeOperands, decodeSystem, zeroed, fits_setWidth, flag_ofBool])

theorem Sys2Proof.Laws.RoundTrip.egoCryptoSeal (d : BitVec 6) (e : BitVec 3) :
    RoundTrip.Statement (.egoCryptoSeal d e) :=
  roundTrip_of rfl (by simp [decodeOperands, decodeSystem, zeroed, fits_setWidth, flag_ofBool])

theorem Sys2Proof.Laws.RoundTrip.egoCryptoOpen (d : BitVec 6) (e : BitVec 3) :
    RoundTrip.Statement (.egoCryptoOpen d e) :=
  roundTrip_of rfl (by simp [decodeOperands, decodeSystem, zeroed, fits_setWidth, flag_ofBool])

theorem Sys2Proof.Laws.RoundTrip.egoCollBcast (d : BitVec 6) (e : BitVec 3) :
    RoundTrip.Statement (.egoCollBcast d e) :=
  roundTrip_of rfl (by simp [decodeOperands, decodeSystem, zeroed, fits_setWidth, flag_ofBool])

theorem Sys2Proof.Laws.RoundTrip.egoCollSumf (d : BitVec 6) (e : BitVec 3) :
    RoundTrip.Statement (.egoCollSumf d e) :=
  roundTrip_of rfl (by simp [decodeOperands, decodeSystem, zeroed, fits_setWidth, flag_ofBool])

theorem Sys2Proof.Laws.RoundTrip.egoCollSumi (d : BitVec 6) (e : BitVec 3) :
    RoundTrip.Statement (.egoCollSumi d e) :=
  roundTrip_of rfl (by simp [decodeOperands, decodeSystem, zeroed, fits_setWidth, flag_ofBool])

theorem Sys2Proof.Laws.RoundTrip.egoNetPart (d : BitVec 6) (e : BitVec 3) :
    RoundTrip.Statement (.egoNetPart d e) :=
  roundTrip_of rfl (by simp [decodeOperands, decodeSystem, zeroed, fits_setWidth, flag_ofBool])

theorem Sys2Proof.Laws.RoundTrip.egoNetReply (d : BitVec 6) (e : BitVec 3) :
    RoundTrip.Statement (.egoNetReply d e) :=
  roundTrip_of rfl (by simp [decodeOperands, decodeSystem, zeroed, fits_setWidth, flag_ofBool])

theorem Sys2Proof.Laws.RoundTrip.edep (e : BitVec 3) (a : BitVec 6) :
    RoundTrip.Statement (.edep e a) :=
  roundTrip_of rfl (by simp [decodeOperands, decodeSystem, zeroed, fits_setWidth, flag_ofBool])

theorem Sys2Proof.Laws.RoundTrip.ebar (e : BitVec 3) (a : BitVec 6) :
    RoundTrip.Statement (.ebar e a) :=
  roundTrip_of rfl (by simp [decodeOperands, decodeSystem, zeroed, fits_setWidth, flag_ofBool])

theorem Sys2Proof.Laws.RoundTrip.ecan (e : BitVec 3) (a : BitVec 6) :
    RoundTrip.Statement (.ecan e a) :=
  roundTrip_of rfl (by simp [decodeOperands, decodeSystem, zeroed, fits_setWidth, flag_ofBool])

theorem Sys2Proof.Laws.RoundTrip.csrr (d : BitVec 6) (csr : BitVec 12) :
    RoundTrip.Statement (.csrr d csr) :=
  roundTrip_of rfl (by simp [decodeOperands, decodeSystem, zeroed, fits_setWidth, flag_ofBool])

theorem Sys2Proof.Laws.RoundTrip.csrw (d : BitVec 6) (csr : BitVec 12) :
    RoundTrip.Statement (.csrw d csr) :=
  roundTrip_of rfl (by simp [decodeOperands, decodeSystem, zeroed, fits_setWidth, flag_ofBool])

theorem Sys2Proof.Laws.RoundTrip.csrs (d : BitVec 6) (csr : BitVec 12) :
    RoundTrip.Statement (.csrs d csr) :=
  roundTrip_of rfl (by simp [decodeOperands, decodeSystem, zeroed, fits_setWidth, flag_ofBool])

theorem Sys2Proof.Laws.RoundTrip.csrc (d : BitVec 6) (csr : BitVec 12) :
    RoundTrip.Statement (.csrc d csr) :=
  roundTrip_of rfl (by simp [decodeOperands, decodeSystem, zeroed, fits_setWidth, flag_ofBool])

theorem Sys2Proof.Laws.RoundTrip.trap (n : BitVec 15) : RoundTrip.Statement (.trap n) :=
  roundTrip_of rfl (by simp [decodeOperands, decodeSystem, zeroed, fits_setWidth, flag_ofBool])

theorem Sys2Proof.Laws.RoundTrip.tret : RoundTrip.Statement .tret :=
  roundTrip_of rfl (by simp [decodeOperands, decodeSystem, zeroed, fits_setWidth, flag_ofBool])

theorem Sys2Proof.Laws.RoundTrip.wfe : RoundTrip.Statement .wfe :=
  roundTrip_of rfl (by simp [decodeOperands, decodeSystem, zeroed, fits_setWidth, flag_ofBool])

theorem Sys2Proof.Laws.RoundTrip.halt : RoundTrip.Statement .halt :=
  roundTrip_of rfl (by simp [decodeOperands, decodeSystem, zeroed, fits_setWidth, flag_ofBool])

theorem Sys2Proof.Laws.RoundTrip.wide (imm : BitVec 21) : RoundTrip.Statement (.wide imm) :=
  roundTrip_of rfl (by simp [decodeOperands, decodeSystem, zeroed, fits_setWidth, flag_ofBool])

theorem Sys2Proof.Laws.RoundTrip.taskTake (agent : Nat) : RoundTrip.Statement (.taskTake agent) := by
  intro _ c h; simp [encode] at h

theorem Sys2Proof.Laws.RoundTrip.contextUnblock (agent : Nat) :
    RoundTrip.Statement (.contextUnblock agent) := by
  intro _ c h; simp [encode] at h

theorem Sys2Proof.Laws.RoundTrip.taskPublicationComplete (blk : Nat) :
    RoundTrip.Statement (.taskPublicationComplete blk) := by
  intro _ c h; simp [encode] at h

theorem Sys2Proof.Laws.RoundTrip.deferredEnqueue (cluster : Nat) :
    RoundTrip.Statement (.deferredEnqueue cluster) := by
  intro _ c h; simp [encode] at h

theorem Sys2Proof.Laws.RoundTrip.rqfullTimeout (blk : Nat) :
    RoundTrip.Statement (.rqfullTimeout blk) := by
  intro _ c h; simp [encode] at h

theorem Sys2Proof.Laws.RoundTrip.ntRotation (agent : Nat) : RoundTrip.Statement (.ntRotation agent) := by
  intro _ c h; simp [encode] at h

theorem Sys2Proof.Laws.RoundTrip.queueEnlarge (blk : Nat) : RoundTrip.Statement (.queueEnlarge blk) := by
  intro _ c h; simp [encode] at h

theorem Sys2Proof.Laws.RoundTrip.serviceDatagramReceive (g : Datagram) :
    RoundTrip.Statement (.serviceDatagramReceive g) := by
  intro _ c h; simp [encode] at h

theorem Sys2Proof.Laws.RoundTrip.segmentVerify : RoundTrip.Statement .segmentVerify := by
  intro _ c h; simp [encode] at h

theorem Sys2Proof.Laws.RoundTrip.recordAbandon (blk : Nat) (slot : Nat) :
    RoundTrip.Statement (.recordAbandon blk slot) := by
  intro _ c h; simp [encode] at h

theorem Sys2Proof.Laws.RoundTrip.harbourmasterPick : RoundTrip.Statement .harbourmasterPick := by
  intro _ c h; simp [encode] at h

theorem Sys2Proof.Laws.RoundTrip.candidateHeld (blk : Nat) :
    RoundTrip.Statement (.candidateHeld blk) := by
  intro _ c h; simp [encode] at h

theorem Sys2Proof.Laws.RoundTrip.recallGraceExpiry (blk : Nat) :
    RoundTrip.Statement (.recallGraceExpiry blk) := by
  intro _ c h; simp [encode] at h

theorem Sys2Proof.Laws.RoundTrip.entryTaskEnqueue (blk : Nat) :
    RoundTrip.Statement (.entryTaskEnqueue blk) := by
  intro _ c h; simp [encode] at h

theorem Sys2Proof.Laws.RoundTrip.bindingRecordTimeout (blk : Nat) :
    RoundTrip.Statement (.bindingRecordTimeout blk) := by
  intro _ c h; simp [encode] at h

theorem Sys2Proof.Laws.RoundTrip.bindingEnd (blk : Nat) : RoundTrip.Statement (.bindingEnd blk) := by
  intro _ c h; simp [encode] at h

theorem Sys2Proof.Laws.RoundTrip.preemptionComplete (blk : Nat) :
    RoundTrip.Statement (.preemptionComplete blk) := by
  intro _ c h; simp [encode] at h

theorem Sys2Proof.Laws.RoundTrip.preemptionTimeout (blk : Nat) :
    RoundTrip.Statement (.preemptionTimeout blk) := by
  intro _ c h; simp [encode] at h

theorem Sys2Proof.Laws.RoundTrip.pilotFetchComplete (blk : Nat) (va : Nat) (res : FetchResult) :
    RoundTrip.Statement (.pilotFetchComplete blk va res) := by
  intro _ c h; simp [encode] at h

theorem Sys2Proof.Laws.RoundTrip.firmwareLeafAnswer (blk : Nat) (va : Nat) (leaf : Option (Nat × BitVec 64)) :
    RoundTrip.Statement (.firmwareLeafAnswer blk va leaf) := by
  intro _ c h; simp [encode] at h

theorem Sys2Proof.Laws.RoundTrip.shootdownAck (blk : Nat) : RoundTrip.Statement (.shootdownAck blk) := by
  intro _ c h; simp [encode] at h

theorem Sys2Proof.Laws.RoundTrip.shootdownTimeout (blk : Nat) :
    RoundTrip.Statement (.shootdownTimeout blk) := by
  intro _ c h; simp [encode] at h

theorem Sys2Proof.Laws.RoundTrip.qqfsWrite (v : BitVec 64) : RoundTrip.Statement (.qqfsWrite v) := by
  intro _ c h; simp [encode] at h

theorem Sys2Proof.Laws.RoundTrip.quarantineRelease : RoundTrip.Statement .quarantineRelease := by
  intro _ c h; simp [encode] at h

theorem Sys2Proof.Laws.RoundTrip.quarantineHeadTimeout : RoundTrip.Statement .quarantineHeadTimeout := by
  intro _ c h; simp [encode] at h

theorem Sys2Proof.Laws.RoundTrip.pendingClearDone (page : Nat) :
    RoundTrip.Statement (.pendingClearDone page) := by
  intro _ c h; simp [encode] at h

theorem Sys2Proof.Laws.RoundTrip.poolPageZeroed (core : Nat) (page : Nat) :
    RoundTrip.Statement (.poolPageZeroed core page) := by
  intro _ c h; simp [encode] at h

theorem Sys2Proof.Laws.RoundTrip.calswWrite (hbm : Nat) (v : BitVec 64) :
    RoundTrip.Statement (.calswWrite hbm v) := by
  intro _ c h; simp [encode] at h

theorem Sys2Proof.Laws.RoundTrip.calendarExchange (hbm : Nat) :
    RoundTrip.Statement (.calendarExchange hbm) := by
  intro _ c h; simp [encode] at h

theorem Sys2Proof.Laws.RoundTrip.channelSlotStart (hbm : Nat) (pch : Nat) (slot : Nat) :
    RoundTrip.Statement (.channelSlotStart hbm pch slot) := by
  intro _ c h; simp [encode] at h

theorem Sys2Proof.Laws.RoundTrip.forcedRefreshEnd (hbm : Nat) (pch : Nat) :
    RoundTrip.Statement (.forcedRefreshEnd hbm pch) := by
  intro _ c h; simp [encode] at h

theorem Sys2Proof.Laws.RoundTrip.hotRowWindowEnd (hbm : Nat) :
    RoundTrip.Statement (.hotRowWindowEnd hbm) := by
  intro _ c h; simp [encode] at h

theorem Sys2Proof.Laws.RoundTrip.highRangeEntry (hbm : Nat) :
    RoundTrip.Statement (.highRangeEntry hbm) := by
  intro _ c h; simp [encode] at h

theorem Sys2Proof.Laws.RoundTrip.sldReturn (agent : Nat) : RoundTrip.Statement (.sldReturn agent) := by
  intro _ c h; simp [encode] at h

theorem Sys2Proof.Laws.RoundTrip.stampRaise : RoundTrip.Statement .stampRaise := by
  intro _ c h; simp [encode] at h

theorem Sys2Proof.Laws.RoundTrip.dredgeReclaim (line : Nat) :
    RoundTrip.Statement (.dredgeReclaim line) := by
  intro _ c h; simp [encode] at h

theorem Sys2Proof.Laws.RoundTrip.snapReturn (agent : Nat) : RoundTrip.Statement (.snapReturn agent) := by
  intro _ c h; simp [encode] at h

theorem Sys2Proof.Laws.RoundTrip.drainCommit (blk : Nat) (m : Allotment) :
    RoundTrip.Statement (.drainCommit blk m) := by
  intro _ c h; simp [encode] at h

theorem Sys2Proof.Laws.RoundTrip.drainFail (blk : Nat) (why : DrainFault) :
    RoundTrip.Statement (.drainFail blk why) := by
  intro _ c h; simp [encode] at h

theorem Sys2Proof.Laws.RoundTrip.engineOpComplete (agent : Nat) (e : Nat) :
    RoundTrip.Statement (.engineOpComplete agent e) := by
  intro _ c h; simp [encode] at h

theorem Sys2Proof.Laws.RoundTrip.engineFault (agent : Nat) (e : Nat) (cause : EngineCause) :
    RoundTrip.Statement (.engineFault agent e cause) := by
  intro _ c h; simp [encode] at h

theorem Sys2Proof.Laws.RoundTrip.kDeliveryTaskStart (blk : Nat) :
    RoundTrip.Statement (.kDeliveryTaskStart blk) := by
  intro _ c h; simp [encode] at h

theorem Sys2Proof.Laws.RoundTrip.kDeliveryTimeout (blk : Nat) :
    RoundTrip.Statement (.kDeliveryTimeout blk) := by
  intro _ c h; simp [encode] at h

theorem Sys2Proof.Laws.RoundTrip.replyCounterExhausted (rkid : Nat) :
    RoundTrip.Statement (.replyCounterExhausted rkid) := by
  intro _ c h; simp [encode] at h

theorem Sys2Proof.Laws.RoundTrip.matrixEntryStart (core : Nat) (path : MatrixPath) :
    RoundTrip.Statement (.matrixEntryStart core path) := by
  intro _ c h; simp [encode] at h

theorem Sys2Proof.Laws.RoundTrip.matrixEntryComplete (core : Nat) (path : MatrixPath) :
    RoundTrip.Statement (.matrixEntryComplete core path) := by
  intro _ c h; simp [encode] at h

theorem Sys2Proof.Laws.RoundTrip.lockstepCompare (agent : Nat) (same : Bool) (synd : BitVec 32) :
    RoundTrip.Statement (.lockstepCompare agent same synd) := by
  intro _ c h; simp [encode] at h

theorem Sys2Proof.Laws.RoundTrip.rewindReissue (agent : Nat) :
    RoundTrip.Statement (.rewindReissue agent) := by
  intro _ c h; simp [encode] at h

theorem Sys2Proof.Laws.RoundTrip.eccErrorDetect (e : EccEvent) :
    RoundTrip.Statement (.eccErrorDetect e) := by
  intro _ c h; simp [encode] at h

theorem Sys2Proof.Laws.RoundTrip.patrolRead (line : PatrolLine) (bad : Bool) :
    RoundTrip.Statement (.patrolRead line bad) := by
  intro _ c h; simp [encode] at h

theorem Sys2Proof.Laws.RoundTrip.errorRecordTake : RoundTrip.Statement .errorRecordTake := by
  intro _ c h; simp [encode] at h

theorem Sys2Proof.Laws.RoundTrip.stackResetComplete (stack : Nat) :
    RoundTrip.Statement (.stackResetComplete stack) := by
  intro _ c h; simp [encode] at h

theorem Sys2Proof.Laws.RoundTrip.railFault : RoundTrip.Statement .railFault := by
  intro _ c h; simp [encode] at h

theorem Sys2Proof.Laws.RoundTrip.thermalTrip : RoundTrip.Statement .thermalTrip := by
  intro _ c h; simp [encode] at h

theorem Sys2Proof.Laws.RoundTrip.watchdogReset : RoundTrip.Statement .watchdogReset := by
  intro _ c h; simp [encode] at h

theorem Sys2Proof.Laws.RoundTrip.powerOn : RoundTrip.Statement .powerOn := by
  intro _ c h; simp [encode] at h

theorem Sys2Proof.Laws.RoundTrip.rstNReset : RoundTrip.Statement .rstNReset := by
  intro _ c h; simp [encode] at h

theorem Sys2Proof.Laws.RoundTrip.pcieReset : RoundTrip.Statement .pcieReset := by
  intro _ c h; simp [encode] at h

theorem Sys2Proof.Laws.RoundTrip.standby : RoundTrip.Statement .standby := by
  intro _ c h; simp [encode] at h

theorem Sys2Proof.Laws.RoundTrip.currentCeilingWrite (core : Nat) (v : BitVec 16) :
    RoundTrip.Statement (.currentCeilingWrite core v) := by
  intro _ c h; simp [encode] at h

theorem Sys2Proof.Laws.RoundTrip.ugreqWrite (w : Nat) (v : BitVec 64) :
    RoundTrip.Statement (.ugreqWrite w v) := by
  intro _ c h; simp [encode] at h

theorem Sys2Proof.Laws.RoundTrip.upperGateApply (cell : Nat) :
    RoundTrip.Statement (.upperGateApply cell) := by
  intro _ c h; simp [encode] at h

theorem Sys2Proof.Laws.RoundTrip.upperUngateComplete (cell : Nat) :
    RoundTrip.Statement (.upperUngateComplete cell) := by
  intro _ c h; simp [encode] at h

theorem Sys2Proof.Laws.RoundTrip.coffWrite (w : Nat) (v : BitVec 64) :
    RoundTrip.Statement (.coffWrite w v) := by
  intro _ c h; simp [encode] at h

theorem Sys2Proof.Laws.RoundTrip.faqpopRead : RoundTrip.Statement .faqpopRead := by
  intro _ c h; simp [encode] at h

theorem Sys2Proof.Laws.RoundTrip.bpaddWrite (v : BitVec 64) : RoundTrip.Statement (.bpaddWrite v) := by
  intro _ c h; simp [encode] at h

theorem Sys2Proof.Laws.RoundTrip.pageRetirement (gran : Nat) (fresh : Nat) :
    RoundTrip.Statement (.pageRetirement gran fresh) := by
  intro _ c h; simp [encode] at h

theorem Sys2Proof.Laws.RoundTrip.vheapParkRelease (blk : Nat) :
    RoundTrip.Statement (.vheapParkRelease blk) := by
  intro _ c h; simp [encode] at h

theorem Sys2Proof.Laws.RoundTrip.doorbellWrite (fn : Nat) (q : Nat) (wptr : BitVec 32) :
    RoundTrip.Statement (.doorbellWrite fn q wptr) := by
  intro _ c h; simp [encode] at h

theorem Sys2Proof.Laws.RoundTrip.registerWrite (off : Nat) (v : BitVec 64) :
    RoundTrip.Statement (.registerWrite off v) := by
  intro _ c h; simp [encode] at h

theorem Sys2Proof.Laws.RoundTrip.cmdNop (c : Cmd) : RoundTrip.Statement (.cmdNop c) := by
  intro _ c h; simp [encode] at h

theorem Sys2Proof.Laws.RoundTrip.indirect (c : Cmd) : RoundTrip.Statement (.indirect c) := by
  intro _ c h; simp [encode] at h

theorem Sys2Proof.Laws.RoundTrip.signal (c : Cmd) : RoundTrip.Statement (.signal c) := by
  intro _ c h; simp [encode] at h

theorem Sys2Proof.Laws.RoundTrip.wait (c : Cmd) : RoundTrip.Statement (.wait c) := by
  intro _ c h; simp [encode] at h

theorem Sys2Proof.Laws.RoundTrip.waitSatisfied (q : Nat) : RoundTrip.Statement (.waitSatisfied q) := by
  intro _ c h; simp [encode] at h

theorem Sys2Proof.Laws.RoundTrip.waitTimeout (q : Nat) : RoundTrip.Statement (.waitTimeout q) := by
  intro _ c h; simp [encode] at h

theorem Sys2Proof.Laws.RoundTrip.cbCreate (c : Cmd) : RoundTrip.Statement (.cbCreate c) := by
  intro _ c h; simp [encode] at h

theorem Sys2Proof.Laws.RoundTrip.cbWrite (c : Cmd) : RoundTrip.Statement (.cbWrite c) := by
  intro _ c h; simp [encode] at h

theorem Sys2Proof.Laws.RoundTrip.cbRead (c : Cmd) : RoundTrip.Statement (.cbRead c) := by
  intro _ c h; simp [encode] at h

theorem Sys2Proof.Laws.RoundTrip.cbSuspend (c : Cmd) : RoundTrip.Statement (.cbSuspend c) := by
  intro _ c h; simp [encode] at h

theorem Sys2Proof.Laws.RoundTrip.cbResume (c : Cmd) : RoundTrip.Statement (.cbResume c) := by
  intro _ c h; simp [encode] at h

theorem Sys2Proof.Laws.RoundTrip.cbKill (c : Cmd) : RoundTrip.Statement (.cbKill c) := by
  intro _ c h; simp [encode] at h

theorem Sys2Proof.Laws.RoundTrip.cbRelease (c : Cmd) : RoundTrip.Statement (.cbRelease c) := by
  intro _ c h; simp [encode] at h

theorem Sys2Proof.Laws.RoundTrip.cbReleaseComplete (blk : Nat) :
    RoundTrip.Statement (.cbReleaseComplete blk) := by
  intro _ c h; simp [encode] at h

theorem Sys2Proof.Laws.RoundTrip.cbMigrate (c : Cmd) : RoundTrip.Statement (.cbMigrate c) := by
  intro _ c h; simp [encode] at h

theorem Sys2Proof.Laws.RoundTrip.event (c : Cmd) : RoundTrip.Statement (.event c) := by
  intro _ c h; simp [encode] at h

theorem Sys2Proof.Laws.RoundTrip.imgInstall (c : Cmd) : RoundTrip.Statement (.imgInstall c) := by
  intro _ c h; simp [encode] at h

theorem Sys2Proof.Laws.RoundTrip.imgRetire (c : Cmd) : RoundTrip.Statement (.imgRetire c) := by
  intro _ c h; simp [encode] at h

theorem Sys2Proof.Laws.RoundTrip.hashSet (c : Cmd) : RoundTrip.Statement (.hashSet c) := by
  intro _ c h; simp [encode] at h

theorem Sys2Proof.Laws.RoundTrip.resvWrite (c : Cmd) : RoundTrip.Statement (.resvWrite c) := by
  intro _ c h; simp [encode] at h

theorem Sys2Proof.Laws.RoundTrip.policyRgrace (c : Cmd) : RoundTrip.Statement (.policyRgrace c) := by
  intro _ c h; simp [encode] at h

theorem Sys2Proof.Laws.RoundTrip.policyWclk (c : Cmd) : RoundTrip.Statement (.policyWclk c) := by
  intro _ c h; simp [encode] at h

theorem Sys2Proof.Laws.RoundTrip.shootdown (c : Cmd) : RoundTrip.Statement (.shootdown c) := by
  intro _ c h; simp [encode] at h

theorem Sys2Proof.Laws.RoundTrip.devsnapTake (c : Cmd) : RoundTrip.Statement (.devsnapTake c) := by
  intro _ c h; simp [encode] at h

theorem Sys2Proof.Laws.RoundTrip.devsnapRelease (c : Cmd) : RoundTrip.Statement (.devsnapRelease c) := by
  intro _ c h; simp [encode] at h

theorem Sys2Proof.Laws.RoundTrip.checkpoint (c : Cmd) : RoundTrip.Statement (.checkpoint c) := by
  intro _ c h; simp [encode] at h

theorem Sys2Proof.Laws.RoundTrip.meterRead (c : Cmd) : RoundTrip.Statement (.meterRead c) := by
  intro _ c h; simp [encode] at h

theorem Sys2Proof.Laws.RoundTrip.meterReport (c : Cmd) : RoundTrip.Statement (.meterReport c) := by
  intro _ c h; simp [encode] at h

theorem Sys2Proof.Laws.RoundTrip.diagRead (c : Cmd) : RoundTrip.Statement (.diagRead c) := by
  intro _ c h; simp [encode] at h

theorem Sys2Proof.Laws.RoundTrip.ownerClaim (c : Cmd) : RoundTrip.Statement (.ownerClaim c) := by
  intro _ c h; simp [encode] at h

theorem Sys2Proof.Laws.RoundTrip.ownerHandover (c : Cmd) : RoundTrip.Statement (.ownerHandover c) := by
  intro _ c h; simp [encode] at h

theorem Sys2Proof.Laws.RoundTrip.ownerAccept (c : Cmd) : RoundTrip.Statement (.ownerAccept c) := by
  intro _ c h; simp [encode] at h

theorem Sys2Proof.Laws.RoundTrip.handoverLapse : RoundTrip.Statement .handoverLapse := by
  intro _ c h; simp [encode] at h

theorem Sys2Proof.Laws.RoundTrip.ownerChannelLost : RoundTrip.Statement .ownerChannelLost := by
  intro _ c h; simp [encode] at h

theorem Sys2Proof.Laws.RoundTrip.fwStage (c : Cmd) : RoundTrip.Statement (.fwStage c) := by
  intro _ c h; simp [encode] at h

theorem Sys2Proof.Laws.RoundTrip.fwActivate (c : Cmd) : RoundTrip.Statement (.fwActivate c) := by
  intro _ c h; simp [encode] at h

theorem Sys2Proof.Laws.RoundTrip.firstBeacon (fn : Nat) : RoundTrip.Statement (.firstBeacon fn) := by
  intro _ c h; simp [encode] at h

theorem Sys2Proof.Laws.RoundTrip.fwActivateTimeout (fn : Nat) :
    RoundTrip.Statement (.fwActivateTimeout fn) := by
  intro _ c h; simp [encode] at h

theorem Sys2Proof.Laws.RoundTrip.firmwareSilent (fn : Nat) :
    RoundTrip.Statement (.firmwareSilent fn) := by
  intro _ c h; simp [encode] at h

theorem Sys2Proof.Laws.RoundTrip.mailboxFullTimeout (src : Nat) (dst : Nat) :
    RoundTrip.Statement (.mailboxFullTimeout src dst) := by
  intro _ c h; simp [encode] at h

theorem Sys2Proof.Laws.RoundTrip.regRead (c : Cmd) : RoundTrip.Statement (.regRead c) := by
  intro _ c h; simp [encode] at h

theorem Sys2Proof.Laws.RoundTrip.regWrite (c : Cmd) : RoundTrip.Statement (.regWrite c) := by
  intro _ c h; simp [encode] at h

theorem Sys2Proof.Laws.RoundTrip.aclWrite (c : Cmd) : RoundTrip.Statement (.aclWrite c) := by
  intro _ c h; simp [encode] at h

theorem Sys2Proof.Laws.RoundTrip.sysLaunch (c : Cmd) : RoundTrip.Statement (.sysLaunch c) := by
  intro _ c h; simp [encode] at h

theorem Sys2Proof.Laws.RoundTrip.launch (c : Cmd) : RoundTrip.Statement (.launch c) := by
  intro _ c h; simp [encode] at h

theorem Sys2Proof.Laws.RoundTrip.gangLaunch (c : Cmd) : RoundTrip.Statement (.gangLaunch c) := by
  intro _ c h; simp [encode] at h

theorem Sys2Proof.Laws.RoundTrip.ringOverrunTimeout (q : Nat) :
    RoundTrip.Statement (.ringOverrunTimeout q) := by
  intro _ c h; simp [encode] at h

theorem Sys2Proof.Laws.RoundTrip.hostAccessFail (q : Nat) (kind : HostAccess) :
    RoundTrip.Statement (.hostAccessFail q kind) := by
  intro _ c h; simp [encode] at h

theorem Sys2Proof.Laws.RoundTrip.atsInvalidation (pasid : Nat) :
    RoundTrip.Statement (.atsInvalidation pasid) := by
  intro _ c h; simp [encode] at h

theorem Sys2Proof.Laws.RoundTrip.functionLevelReset (fn : Nat) :
    RoundTrip.Statement (.functionLevelReset fn) := by
  intro _ c h; simp [encode] at h

theorem Sys2Proof.Laws.RoundTrip.getVersion (r : SpdmRequest) : RoundTrip.Statement (.getVersion r) := by
  intro _ c h; simp [encode] at h

theorem Sys2Proof.Laws.RoundTrip.getCapabilities (r : SpdmRequest) :
    RoundTrip.Statement (.getCapabilities r) := by
  intro _ c h; simp [encode] at h

theorem Sys2Proof.Laws.RoundTrip.negotiateAlgorithms (r : SpdmRequest) :
    RoundTrip.Statement (.negotiateAlgorithms r) := by
  intro _ c h; simp [encode] at h

theorem Sys2Proof.Laws.RoundTrip.getDigests (r : SpdmRequest) : RoundTrip.Statement (.getDigests r) := by
  intro _ c h; simp [encode] at h

theorem Sys2Proof.Laws.RoundTrip.getCertificate (r : SpdmRequest) :
    RoundTrip.Statement (.getCertificate r) := by
  intro _ c h; simp [encode] at h

theorem Sys2Proof.Laws.RoundTrip.challenge (r : SpdmRequest) : RoundTrip.Statement (.challenge r) := by
  intro _ c h; simp [encode] at h

theorem Sys2Proof.Laws.RoundTrip.getMeasurements (r : SpdmRequest) :
    RoundTrip.Statement (.getMeasurements r) := by
  intro _ c h; simp [encode] at h

theorem Sys2Proof.Laws.RoundTrip.deviceNumbering (devno : BitVec 9) (routes : List (Nat × List Nat)) :
    RoundTrip.Statement (.deviceNumbering devno routes) := by
  intro _ c h; simp [encode] at h

theorem Sys2Proof.Laws.RoundTrip.linkTraining (port : Nat) :
    RoundTrip.Statement (.linkTraining port) := by
  intro _ c h; simp [encode] at h

theorem Sys2Proof.Laws.RoundTrip.flitError (port : Nat) : RoundTrip.Statement (.flitError port) := by
  intro _ c h; simp [encode] at h

theorem Sys2Proof.Laws.RoundTrip.linkDown (port : Nat) : RoundTrip.Statement (.linkDown port) := by
  intro _ c h; simp [encode] at h

theorem Sys2Proof.Laws.RoundTrip.remoteAccessReceive (r : RemoteAccess) :
    RoundTrip.Statement (.remoteAccessReceive r) := by
  intro _ c h; simp [encode] at h

theorem Sys2Proof.Laws.RoundTrip.remoteAccessTimeout (agent : Nat) :
    RoundTrip.Statement (.remoteAccessTimeout agent) := by
  intro _ c h; simp [encode] at h

theorem Sys2Proof.Laws.RoundTrip.launchPacketReceive (l : LaunchPacket) :
    RoundTrip.Statement (.launchPacketReceive l) := by
  intro _ c h; simp [encode] at h

theorem Sys2Proof.Laws.RoundTrip.launchReplyReceive (id : Nat) (payload : List (BitVec 8)) (final : Bool) (refused : Option (BitVec 16)) :
    RoundTrip.Statement (.launchReplyReceive id payload final refused) := by
  intro _ c h; simp [encode] at h

theorem Sys2Proof.Laws.RoundTrip.gangAckReceive (id : Nat) (dev : Nat) :
    RoundTrip.Statement (.gangAckReceive id dev) := by
  intro _ c h; simp [encode] at h

theorem Sys2Proof.Laws.RoundTrip.gangConfirmReceive (blk : Nat) :
    RoundTrip.Statement (.gangConfirmReceive blk) := by
  intro _ c h; simp [encode] at h

theorem Sys2Proof.Laws.RoundTrip.gangAckTimeout (id : Nat) :
    RoundTrip.Statement (.gangAckTimeout id) := by
  intro _ c h; simp [encode] at h

theorem Sys2Proof.Laws.RoundTrip.gangAbortReceive (blk : Nat) (origin : Nat) :
    RoundTrip.Statement (.gangAbortReceive blk origin) := by
  intro _ c h; simp [encode] at h

theorem Sys2Proof.Laws.RoundTrip.gangMemberTimeout (blk : Nat) :
    RoundTrip.Statement (.gangMemberTimeout blk) := by
  intro _ c h; simp [encode] at h

theorem Sys2Proof.Laws.RoundTrip.migrationCutover (blk : Nat) (dst : Nat) :
    RoundTrip.Statement (.migrationCutover blk dst) := by
  intro _ c h; simp [encode] at h

theorem Sys2Proof.Laws.RoundTrip.migrationAckTimeout (blk : Nat) :
    RoundTrip.Statement (.migrationAckTimeout blk) := by
  intro _ c h; simp [encode] at h

theorem Sys2Proof.Laws.RoundTrip.buoyExpiry (blk : Nat) : RoundTrip.Statement (.buoyExpiry blk) := by
  intro _ c h; simp [encode] at h

theorem Sys2Proof.Laws.RoundTrip.freezeCycle (core : Nat) : RoundTrip.Statement (.freezeCycle core) := by
  intro _ c h; simp [encode] at h

theorem Sys2Proof.Laws.RoundTrip.illegalEncoding (agent : Nat) :
    RoundTrip.Statement (.illegalEncoding agent) := by
  intro _ c h; simp [encode] at h

theorem Sys2Proof.Laws.RoundTrip.instructionFetchFault (agent : Nat) :
    RoundTrip.Statement (.instructionFetchFault agent) := by
  intro _ c h; simp [encode] at h

theorem Sys2Proof.Laws.RoundTrip.beaconRaise (fn : Nat) : RoundTrip.Statement (.beaconRaise fn) := by
  intro _ c h; simp [encode] at h

theorem Sys2Proof.Laws.RoundTrip.keyLoad (kid : Nat) (key : BitVec 256) (ctr : Nat) :
    RoundTrip.Statement (.keyLoad kid key ctr) := by
  intro _ c h; simp [encode] at h

theorem Sys2Proof.Laws.RoundTrip.fuseChange (cfg : List (BitVec 8)) :
    RoundTrip.Statement (.fuseChange cfg) := by
  intro _ c h; simp [encode] at h

theorem Sys2Proof.Laws.RoundTrip.highRangeExit (hbm : Nat) :
    RoundTrip.Statement (.highRangeExit hbm) := by
  intro _ c h; simp [encode] at h

theorem Sys2Proof.Laws.RoundTrip.ethernetLinkChange (port : Nat) (up : Bool) :
    RoundTrip.Statement (.ethernetLinkChange port up) := by
  intro _ c h; simp [encode] at h

theorem Sys2Proof.Laws.RoundTrip.migrationAbort (blk : Nat) :
    RoundTrip.Statement (.migrationAbort blk) := by
  intro _ c h; simp [encode] at h

theorem Sys2Proof.Laws.RoundTrip.migrationCopyReceive (m : MigrationCopy) :
    RoundTrip.Statement (.migrationCopyReceive m) := by
  intro _ c h; simp [encode] at h

theorem Sys2Proof.Laws.RoundTrip.cutoverConfirmReceive (blk : Nat) :
    RoundTrip.Statement (.cutoverConfirmReceive blk) := by
  intro _ c h; simp [encode] at h

theorem Sys2Proof.Laws.RoundTrip.unconfirmedCopyDrop (blk : Nat) :
    RoundTrip.Statement (.unconfirmedCopyDrop blk) := by
  intro _ c h; simp [encode] at h

theorem Sys2Proof.Laws.RoundTrip.firmwareMemoryWrite (agent : Nat) (pa : Nat) (bytes : List (BitVec 8)) :
    RoundTrip.Statement (.firmwareMemoryWrite agent pa bytes) := by
  intro _ c h; simp [encode] at h

theorem Sys2Proof.Laws.RoundTrip.weightSramPlacement (page : Nat) (size : Nat) (mask : BitVec 4) :
    RoundTrip.Statement (.weightSramPlacement page size mask) := by
  intro _ c h; simp [encode] at h
end

