-- ==== Sys2Proof/Tests/Slice0.lean ====
section
/-! SUPPORT. Tests of the definitions: ill-formed terms that the checks refuse, words of the manual that decode, single steps
whose results the manual gives, and states that meet the hypotheses of the statements. -/

set_option Elab.async false

namespace Sys2Proof.Tests

open Sys2Proof Sys2Proof.Machine Sys2Proof.Safety

/-! ## Ill-formed terms, one for each check of WellFormed (R181 and each instruction's own rule) -/

theorem wf_tree_n0 : (Instr.tree 1 0 0 0 0).wf = false := by decide
theorem wf_tree_test_above_n : (Instr.tree 1 2 0 0 1).wf = false := by decide
theorem wf_tree_n5 : (Instr.tree 1 2 3 4 5).wf = false := by decide
theorem wf_tgt_leaf0 : (Instr.tgt 0 8).wf = false := by decide
theorem wf_tgt_leaf6 : (Instr.tgt 6 8).wf = false := by decide
theorem wf_sloop_p0 : (Instr.sloop 0 1 4).wf = false := by decide
theorem wf_tag14 : (Instr.vld 1 2 14 0).wf = false ∧ (Instr.vldp 1 2 14 0 false).wf = false ∧
    (Instr.vlds 1 2 3 15).wf = false ∧ (Instr.sld 1 2 14 0).wf = false ∧ (Instr.old 1 2 14).wf = false := by decide
theorem wf_vcmp_k0 : (Instr.vcmpEq 0 1 2 0).wf = false ∧ (Instr.vcmpNe 0 1 2 0).wf = false ∧
    (Instr.vcmpLt 0 1 2 0).wf = false ∧ (Instr.vcmpLe 0 1 2 0).wf = false ∧ (Instr.vcmpGt 0 1 2 0).wf = false ∧
    (Instr.vcmpGe 0 1 2 0).wf = false ∧ (Instr.vcmpUn 0 1 2 0).wf = false := by decide
theorem wf_vcvt_block : (Instr.vcvt 1 2 10 0).wf = false := by decide
theorem wf_vqnt_groups : (Instr.vqnt 1 4 10).wf = false ∧ (Instr.vqnt 2 4 11).wf = false ∧ (Instr.vqnt 2 4 5).wf = false := by
  decide
theorem wf_k0_destination : (Instr.kand 0 1 2).wf = false ∧ (Instr.kor 0 1 2).wf = false ∧ (Instr.knot 0 1).wf = false := by
  decide
theorem wf_engine6 : (Instr.eset 6 0 1).wf = false := by decide
theorem wf_csr_unassigned : (Instr.csrr 1 0x00C).wf = false ∧ (Instr.csrw 1 0x028).wf = false ∧
    (Instr.csrs 1 0x036).wf = false ∧ (Instr.csrc 1 0x105).wf = false := by decide
theorem wf_agent_2048 : (Instr.taskTake 2048).wf = false ∧ (Instr.engineOpComplete 0 8).wf = false := by decide
theorem wf_block_32768 : (Instr.bindingEnd 32768).wf = false ∧ (Instr.migrationCutover 0 32768).wf = false := by decide
theorem wf_ranges : (Instr.deferredEnqueue 32).wf = false ∧ (Instr.poolPageZeroed 512 0).wf = false ∧
    (Instr.calswWrite 8 0).wf = false ∧ (Instr.channelSlotStart 0 512 0).wf = false := by decide
theorem wf_units : (Instr.stackResetComplete 4).wf = false ∧ (Instr.ugreqWrite 4 0).wf = false ∧
    (Instr.upperGateApply 256).wf = false ∧ (Instr.doorbellWrite 256 0 0).wf = false := by decide
theorem wf_outside : (Instr.firstBeacon 8).wf = false ∧ (Instr.linkTraining 24).wf = false ∧
    (Instr.waitTimeout 16388).wf = false ∧ (Instr.atsInvalidation 1048576).wf = false := by
  refine ⟨?_, ?_, ?_, ?_⟩ <;> rfl
theorem wf_fabric : (Instr.gangAckReceive 0 512).wf = false ∧ (Instr.keyLoad 4096 0 0).wf = false ∧
    (Instr.ethernetLinkChange 2 true).wf = false ∧ (Instr.firmwareMemoryWrite 0x090F 0 []).wf = false ∧
    (Instr.weightSramPlacement 0 4 0).wf = false := by
  refine ⟨?_, ?_, ?_, ?_, ?_⟩ <;> rfl

/-! ## Words of the manual's worked programs (sections 07 to 12, 15 and 16), each family at least once -/

theorem word_cmpi_lt : decodeSlot 0x04608664 = .ok ⟨false, 0, .cmpiLt 1 3 100⟩ := by decide
theorem word_cmpi_eq : decodeSlot 0x84209A00 = .ok ⟨true, 0, .cmpiEq 1 13 0⟩ := by decide
theorem word_cmpi_ne : decodeSlot 0x84409600 = .ok ⟨true, 0, .cmpiNe 1 11 0⟩ := by decide
theorem word_ldd : decodeSlot 0x06630800 = .ok ⟨false, 0, .ldd 6 4 0⟩ := by decide
theorem word_wide : decodeSlot 0x0FE00001 = .ok ⟨false, 0, .wide 1⟩ := by decide
theorem word_nop : decodeSlot 0x80000000 = .ok ⟨true, 0, .nop⟩ := by decide
theorem word_tree : decodeSlot 0x05024008 = .ok ⟨false, 0, .tree 1 2 0 0 2⟩ := by decide
theorem word_tgt : decodeSlot 0x8527FFFA = .ok ⟨true, 0, .tgt 1 0x3FFFA⟩ := by decide
theorem word_addi_leaf3 : decodeSlot 0xB3038FFF = .ok ⟨true, 3, .addi 7 7 0x1FF⟩ := by decide
theorem word_add_leaf2 : decodeSlot 0x20251468 = .ok ⟨false, 2, .add 10 10 13⟩ := by decide
theorem word_std : decodeSlot 0x06E38A02 = .ok ⟨false, 0, .std 7 5 1⟩ := by decide
theorem word_end : decodeSlot 0x85C00001 = .ok ⟨true, 0, .endTask⟩ := by decide
theorem word_li : decodeSlot 0x83EA0304 = .ok ⟨true, 0, .li 20 0x304⟩ := by decide
theorem word_lih : decodeSlot 0x84078080 = .ok ⟨true, 0, .lih 15 0x80⟩ := by decide
theorem word_loop : decodeSlot 0x858A8003 = .ok ⟨true, 0, .loop 21 3⟩ := by decide
theorem word_bfx : decodeSlot 0x80A6A860 = .ok ⟨true, 0, .bfx 13 20 12⟩ := by decide
theorem word_txb : decodeSlot 0x89000000 = .ok ⟨true, 0, .txb⟩ := by decide
theorem word_txc : decodeSlot 0x89058001 = .ok ⟨true, 0, .txc 11⟩ := by decide
theorem word_tspawn : decodeSlot 0x08800A00 = .ok ⟨false, 0, .tspawn 5⟩ := by decide
theorem word_vcmp_gt : decodeSlot 0x8C908210 = .ok ⟨true, 0, .vcmpGt 1 1 2 0⟩ := by decide
theorem word_vredarg : decodeSlot 0x8AE18269 = .ok ⟨true, 0, .vredarg 3 1 1⟩ := by decide
theorem word_vext : decodeSlot 0x8D650602 = .ok ⟨true, 0, .vext 10 3 0⟩ := by decide
theorem word_viadd : decodeSlot 0x8B008210 = .ok ⟨true, 0, .viadd 1 1 2 0⟩ := by decide
theorem word_eset : decodeSlot 0x8E801160 = .ok ⟨true, 0, .eset 0 2 11⟩ := by decide
theorem word_ego_copy_move : decodeSlot 0x8EA0A020 = .ok ⟨true, 0, .egoCopyMove 20 1⟩ := by decide
theorem word_ego_net_reply : decodeSlot 0x0EAAC040 = .ok ⟨false, 0, .egoNetReply 24 2⟩ := by decide
theorem word_tlw : decodeSlot 0x88E0A800 = .ok ⟨true, 0, .tlw 1 20⟩ := by decide
theorem word_old : decodeSlot 0x8E409A0A = .ok ⟨true, 0, .old 1 13 1⟩ := by decide
theorem word_ost : decodeSlot 0x8E412203 = .ok ⟨true, 0, .ost 2 17⟩ := by decide
theorem word_macz : decodeSlot 0x8E400004 = .ok ⟨true, 0, .macz 0⟩ := by decide
theorem word_mcall_mm : decodeSlot 0x8E000001 = .ok ⟨true, 0, .mcallMm 0 0 1⟩ := by decide
theorem word_mcall_accout : decodeSlot 0x8E010080 = .ok ⟨true, 0, .mcallAccout 0 2⟩ := by decide
theorem word_csrr : decodeSlot 0x8F0A8027 = .ok ⟨true, 0, .csrr 21 0x027⟩ := by decide
theorem word_ldwz : decodeSlot 0x0649940F = .ok ⟨false, 0, .ldwz 19 10 7⟩ := by decide
theorem word_sps : decodeSlot 0x07270000 = .ok ⟨false, 0, .sps 14 0 0 false⟩ := by decide
theorem word_sld : decodeSlot 0x87C09400 = .ok ⟨true, 0, .sld 1 10 0 0⟩ := by decide

/-! ## Words that no rule assigns (R180, R181, R184, R185) -/

theorem word_opcode_unassigned : decodeSlot 0x01200000 = .error .opcode := by decide
theorem word_selector_unassigned : decodeSlot 0x00200006 = .error .selector := by decide
theorem word_nop_operands : decodeSlot 0x00000001 = .error .zeroField := by decide
theorem word_reserved_path : decodeSlot 0x60200000 = .error .path := by decide
theorem word_nop_tagged : decodeSlot 0x10000000 = .error .path := by decide
theorem word_shift_above_63 : decodeSlot 0x03800040 = .error .zeroField ∨ decodeSlot 0x03800040 = .error .range := by decide

/-! ## Single steps whose results the manual gives -/

/-- The state a step answers. -/
def after (o : Host.Outcome State Fault Refusal) : State := match o with | .next t => t | _ => State.reset

/-- A machine whose context 0 holds given scalars, by rising number. -/
def withS (l : Map Word) : State := { dev := State.reset.dev.setCtx 0 { run := .issuing, regs := { s := l, p := 1 } } }

/-- A machine whose context 0 holds given vector registers, by rising number. -/
def withV (l : Map VReg) : State := { dev := State.reset.dev.setCtx 0 { run := .issuing, regs := { p := 1 }, v := l } }

/-- The scalar, predicate, mask and vector registers of context 0. -/
def s0 (t : State) (n : BitVec 6) : Word := (t.dev.ctx 0).regs.sreg n
def k0 (t : State) (n : BitVec 3) : Word := (t.dev.ctx 0).regs.kreg n
def v0 (t : State) (n : BitVec 6) : VReg := mget {} (t.dev.ctx 0).v n.toNat

/-- The bundle at `0x10000` at hand, its first slot extended by a `WIDE`. -/
def widened (s : State) (i : BitVec 21) : State :=
  { s with bundle := some { pre := s.dev, agent := 0, start := 0x10000, next := 0x10008, wide := some i } }

-- Section 08's worked example, steps 1, 3 and 5.
theorem test_lih_wide : s0 (after (exec (.lih 20 0) (widened (withS [(20, 0x304)]) 0x2040))) 20 = 0x0102000000000304 := by
  decide
theorem test_bfx_first_byte :
    s0 (after (exec (.bfx 13 20 12) (withS [(12, 0x800), (20, 0x0102000000000304)]))) 13 = 4 := by decide
theorem test_cmpi_eq_zero :
    (after (exec (.cmpiEq 1 13 0) (withS [(13, 0)]))).dev.ctx 0 = { (withS [(13, 0)]).dev.ctx 0 with
      regs := { ((withS [(13, 0)]).dev.ctx 0).regs with p := 3 } } := by decide
-- R207: sums wrap modulo 2^64, and a source may be the destination.
theorem test_add_wraps : s0 (after (exec (.add 1 1 1) (withS [(1, 0x8000000000000001)]))) 1 = 2 := by decide
theorem test_sub_borrows : s0 (after (exec (.sub 3 1 2) (withS [(1, 0), (2, 1)]))) 3 = 0xFFFFFFFFFFFFFFFF := by decide
-- R207: MULH is signed, MULHU is not: (-1) * (-1) = 1 has the high half 0.
theorem test_mulh : s0 (after (exec (.mulh 3 1 1) (withS [(1, 0xFFFFFFFFFFFFFFFF)]))) 3 = 0 := by decide
theorem test_mulhu : s0 (after (exec (.mulhu 3 1 1) (withS [(1, 0xFFFFFFFFFFFFFFFF)]))) 3 = 0xFFFFFFFFFFFFFFFE := by decide
-- R208: a zero divisor, and signed overflow.
theorem test_div_by_zero : s0 (after (exec (.div 3 1 2) (withS [(1, 7)]))) 3 = 0xFFFFFFFFFFFFFFFF := by decide
theorem test_div_overflow :
    s0 (after (exec (.div 3 1 2) (withS [(1, 0x8000000000000000), (2, 0xFFFFFFFFFFFFFFFF)]))) 3 = 0x8000000000000000 := by
  decide
theorem test_rem_sign : s0 (after (exec (.rem 3 1 2) (withS [(1, 0xFFFFFFFFFFFFFFF9), (2, 2)]))) 3 = 0xFFFFFFFFFFFFFFFF := by
  decide
-- R207: a shift amount is B[5:0].
theorem test_shl_64 : s0 (after (exec (.shl 3 1 2) (withS [(1, 5), (2, 64)]))) 3 = 5 := by decide
theorem test_sra_fills : s0 (after (exec (.sra 3 1 2) (withS [(1, 0x8000000000000000), (2, 63)]))) 3 = 0xFFFFFFFFFFFFFFFF := by
  decide
-- R189: a write to s0 is discarded.
theorem test_s0_stays_zero : s0 (after (exec (.addi 0 0 5) (withS []))) 0 = 0 := by decide
-- R209: counts of zero.
theorem test_clz_zero : s0 (after (exec (.clz 1 2) (withS []))) 1 = 64 := by decide
-- R210: a length of 0 leaves d unchanged.
theorem test_bfi_nothing : s0 (after (exec (.bfi 3 1 2) (withS [(1, 9), (2, 0), (3, 77)]))) 3 = 77 := by decide
-- R216: LI sign-extends.
theorem test_li_negative : s0 (after (exec (.li 1 0x7FFF) (withS []))) 1 = 0xFFFFFFFFFFFFFFFF := by decide

/-- FP32 lanes of section 10's worked example: `v1` holds 0.5, 3.0, -0, 3.0 and then 1.0, `v2` 1.0 in every lane. -/
def lanesOf (l : List Nat) (rest : Nat) : Vec :=
  BitVec.ofNat 2048 ((List.range 64).foldr (fun i n => l.getD i rest + 2 ^ 32 * n) 0)
def argmax : Map VReg :=
  [(1, ⟨lanesOf [0x3F000000, 0x40400000, 0x80000000, 0x40400000] 0x3F800000, 5⟩), (2, ⟨lanesOf [] 0x3F800000, 5⟩)]

theorem test_vcmp_gt : k0 (after (exec (.vcmpGt 1 1 2 0) (withV argmax))) 1 = 0xA := by decide +kernel
theorem test_vredarg_all : v0 (after (exec (.vredarg 3 1 0) (withV argmax))) 3 = ⟨1, 4⟩ := by decide +kernel
theorem test_vext : s0 (after (exec (.vext 10 3 0) (withV [(3, ⟨1, 4⟩)]))) 10 = 1 := by decide +kernel

-- Section 06's worked conversions: lane 0 of v2 in E4M3 after VCVT of FP32 1.21875, to nearest, and its flags.
def conv : Map VReg := [(1, ⟨lanesOf [0x3F9C0000] 0, 5⟩)]
theorem test_vcvt_e4m3 : (v0 (after (exec (.vcvt 2 1 8 0) (withV conv))) 2).bits.extractLsb' 0 8 = 0x3A := by decide +kernel
theorem test_vcvt_bf16 :
    (v0 (after (exec (.vcvt 2 1 6 0) (withV [(1, ⟨lanesOf [0x3F808001] 0, 5⟩)]))) 2).bits.extractLsb' 0 16 = 0x3F81 := by decide +kernel
theorem test_vcvt_inexact : (after (exec (.vcvt 2 1 8 0) (withV conv))).bun.flags ≠ 0 := by decide +kernel


-- Section 18's table of hashes (R292, R391): lanes 0 to 3 of `v2` after `VHASH` of the four keys, and the tag.
theorem test_vhash :
    let r := v0 (after (exec (.vhash 2 1 0) (withV [(1, ⟨lanesOf [0x00700100, 0x01010101, 0x00C300A9, 0x007000C3] 0, 0⟩)]))) 2
    r.bits.extractLsb' 0 128 = 0x8376C56F28F38CAB3CA0062ACDB85492 ∧ r.tag = 4 := by decide +kernel

/-! ## States that meet the hypotheses of the statements, clause by clause

Each theorem names its statement. Block 0 has a task on context 4, which is context 0 of core 1; its window holds the code at
0x10000 and a page of data at 0x20000; its trap routine is set. -/

def page : WinEnt := { vpn := 2, sz := 0, pfn := 2, ab := false, w := true }

/-- The running machine, its cores without pool boundaries, with context 4, the binding and the task changed. -/
def running (c : Ctx → Ctx) (k : Binding → Binding := id) (t : Task → Task := id) : State :=
  let t0 := State.reset.withTask
  let s : State := { t0 with dev := { t0.dev with cores := [] } }
  let d := (s.dev.updCtx 4 fun x => c { x with task := x.task.map t }).updBinding 0 fun b => k { b with win := b.win ++ [page] }
  { s with dev := d.updBlock 0 fun m => m.set fTrapva 1 }

/-- The running machine whose context has scalars 1, the address of the page, and 2. -/
def loaded (v : Word := 0) (k : Binding → Binding := id) (t : Task → Task := id) : State :=
  running (fun c => { c with regs := { c.regs with s := [(1, 0x20000), (2, v)] } }) k t

/-- A piece of the data page. -/
def piece (n : Nat) (off : Nat := 0) : Piece := ⟨BitVec.ofNat 64 (0x20000 + off), 0x20000 + off, n, 0, 0⟩

/-- The task of context 4. -/
def task4 (s : State) : Task := ((s.dev.ctx 4).task).getD { blk := 0 }

theorem wit_scalarArithmetic :
    (withS [(1, 7)]).sreg 2 = 0 ∧
    ((withS [(1, 0x8000000000000000), (2, 0xFFFFFFFFFFFFFFFF)]).sreg 1).toInt = -2 ^ 63 ∧
    ((withS [(1, 0x8000000000000000), (2, 0xFFFFFFFFFFFFFFFF)]).sreg 2).toInt = -1 ∧
    (withS [(1, 0x8000000000000000), (2, 1)]).sreg 2 ≠ 0 ∧
    ¬(((withS [(1, 0x8000000000000000), (2, 1)]).sreg 1).toInt = -2 ^ 63 ∧
      ((withS [(1, 0x8000000000000000), (2, 1)]).sreg 2).toInt = -1) := by decide

theorem wit_bitsAndFields :
    (withS []).sreg 1 = 0 ∧
    ((withS [(1, 0x8000000000000000)]).sreg 1).getLsbD 63 = true ∧
    (∀ j, 63 < j → ((withS [(1, 0x8000000000000000)]).sreg 1).getLsbD j = false) ∧
    (∀ j, j < 63 → ((withS [(1, 0x8000000000000000)]).sreg 1).getLsbD j = false) :=
  ⟨by decide, by decide, fun j h => BitVec.getLsbD_of_ge _ _ (by omega), by decide⟩

theorem wit_decisionTrees : 1 ≤ (4 : BitVec 3).toNat ∧ (4 : BitVec 3).toNat ≤ 4 ∧ 1 ≤ (1 : BitVec 3).toNat := by decide

theorem wit_jumps : (withS []).bun.after = none ∧ (withS []).bun.waits = [] ∧ (withS []).bun.jump = none := by decide +kernel

theorem wit_loops :
    let s := withS [(1, 0x3FFFFFFFFFFFFFFF)]
    let body := (s.bun.next - s.bun.start).toNat
    s.ctx0.regs.lpc1.getLsbD 62 = false ∧ 4 * unsignedImm s.bun.wide (1 : BitVec 15) ≥ body ∧
      (s.sreg 1).toNat < 2 ^ 62 ∧ s.sreg 1 ≠ 0 ∧ s.sreg 2 = 0 ∧
      4 * signedImm s.bun.wide (1 : BitVec 9) ≥ body ∧ (1 : BitVec 3) ≠ 0 := by decide +kernel

/-- A third level, a body that is too short and a count that is too large; and the code page on which a count of 0 looks for
its closing bundle. -/
theorem wit_loopTraps :
    (let s := running fun c => { c with regs := { c.regs with lpc1 := 2 ^ 62, s := [(1, 0x4000000000000000)] } }
     s.ctx0.regs.lpc1.getLsbD 62 = true ∧ 2 ^ 62 ≤ (s.sreg 1).toNat ∧ (s.sreg 2).toNat < 2 ^ 62) ∧
    (let s := widened (withS []) 0
     4 * unsignedImm s.bun.wide (1 : BitVec 15) < (s.bun.next - s.bun.start).toNat ∧
       4 * signedImm s.bun.wide (1 : BitVec 9) < ((s.bun.next - s.bun.start).toNat : Int)) ∧
    (∃ e, findEnt ((running id).before.window (running id).blk) 0x1003C = some e ∧ e.ab = false ∧
      isRemote (e.pa 0x1003C) = false) :=
  ⟨by decide +kernel, by decide +kernel, ⟨{ vpn := 1, sz := 0, pfn := 1, ab := false, x := true }, by decide +kernel,
    by decide +kernel, by decide +kernel⟩⟩

/-- A machine whose context has a set event flag, is in mode `m` and has saved an address. -/
def inMode (m : BitVec 2) : State :=
  running fun c => { c with event := true, trap := { c.trap with mode := m, tepc := 0x10004 } }

theorem wit_markersAndReturns :
    (inMode 2).bun.after = none ∧ (inMode 2).bun.waits = [] ∧ (inMode 2).bun.called = false ∧
    (inMode 2).mode = 2 ∧ (inMode 2).mode ≠ 1 ∧ (inMode 2).ctx0.segOpen = false ∧ (inMode 2).binding.prot = false ∧
    (inMode 2).mode ≠ 0 ∧ (inMode 2).ctx0.event = true ∧
    (inMode 1).mode = 1 ∧ (inMode 1).ctx0.trap.tepc &&& ~~~3 ≠ 0 ∧ (inMode 1).bun.after = none ∧
    (inMode 1).bun.waits = [] ∧ (inMode 1).bun.called = false := by decide +kernel

/-- The issuing context of a core of which another is READY, or none. -/
def among (other : Bool) : State :=
  let s := running fun c => { c with run := .issuing }
  if other then { s with dev := s.dev.updCtx 7 fun c => { c with run := .ready } } else s

theorem wit_yield :
    (∀ other, (among other).bun.after = none ∧ (among other).bun.waits = [] ∧ ((among other).dev.ctx (among other).me).run = .issuing) ∧
    (∀ c, c < 4 → 4 * coreOf (among false).me + c ≠ (among false).me →
      ((among false).dev.ctx (4 * coreOf (among false).me + c)).run ≠ .ready ∧
      ((among false).dev.ctx (4 * coreOf (among false).me + c)).run ≠ .issuing) ∧
    4 * coreOf (among true).me + 3 ≠ (among true).me ∧
    ((among true).dev.ctx (4 * coreOf (among true).me + 3)).run = .ready := by decide +kernel

/-- A machine whose context has an open segment that holds stores. -/
def inSegment (h : List HeldOp) (prot : Bool := true) : State :=
  running (fun c => { c with segOpen := true, seg := { held := h }, regs := { c.regs with s := [(1, 0x20000)] } })
    fun k => { k with prot := prot }

theorem wit_segments :
    (running id).mode ≠ 1 ∧ (running id).ctx0.segOpen = false ∧
    (inSegment []).mode ≠ 1 ∧ (inSegment []).ctx0.segOpen = true ∧
    ((inSegment []).dev.ctx (inSegment []).me).seg.held = [] ∧
    (inSegment [.sp 1 0 [7]]).ctx0.segOpen = true ∧ (inSegment [.sp 1 0 [7]]).mode ≠ 1 ∧
    (inSegment []).ctx0.reissuing = false ∧ (inMode 1).mode = 1 ∧
    (let s := inSegment [.sp 1 0 [7], .mem { va := 0x20000, pa := 0x20000, kind := .store [7] } false]
     let ops := (s.dev.ctx s.me).seg.held.filterMap fun h => match h with | .sp _ _ _ => none | .mem o _ => some o
     s.ctx0.segOpen = true ∧ (s.dev.ctx s.me).task = some (task4 s) ∧ ops.length = 1 ∧
       ∀ j, j ≤ ops.length → (withBuffer (task4 s) ((ops.take j).foldl bufferOp (bufferOf (task4 s)))).lines.length ≤ 1024) ∧
    (((running fun c => { c with drains := [(2, [.sp 1 0 [7]])] }).dev.ctx 4).drains = [(2, [.sp 1 0 [7]])]) := by
  decide +kernel

/-- The running machine with a bundle of one word open. -/
def opened : State := { running id with bundle := some { pre := (running id).dev, agent := 4, start := 0x10000, next := 0x10004 } }

theorem wit_traps :
    opened.bundle = some { pre := (running id).dev, agent := 4, start := 0x10000, next := 0x10004 } ∧
    (running id).dev.blockOf 4 = some 0 ∧ ((running id).dev.ctx 4).trap.mode = 0 ∧
    ((running id).dev.block 0).get fTrapva ≠ 0 ∧ opened.bun.after = none ∧ opened.bun.waits = [] ∧
    opened.commit.dev.blockOf opened.me = some 0 ∧ (opened.dev.ctx opened.me).trap.mode = 0 ∧
    (opened.commit.dev.block 0).get fTrapva ≠ 0 ∧ (running id).dev.stopping 0 4 = false ∧
    (running id fun k => { k with preempt := some { save := true, since := 0 } }).dev.stopping 0 4 = true := by decide +kernel

theorem wit_csrs :
    csrAssigned 0x001 = true ∧ csrAssigned 0x035 = true ∧ csrAssigned 0x100 = true ∧ csrAssigned 0x104 = true ∧
    isUpper (coreOf (inMode 2).me) = true ∧ (0x104 : BitVec 12).toNat ≤ 0x104 ∧ (inMode 2).mode ≠ 0 ∧
    (0x01B : BitVec 12).toNat < 0x020 ∧ 0x027 < (0x030 : BitVec 12).toNat ∧ (0x100 : BitVec 12).toNat ≤ 0x100 := by
  decide +kernel

/-! Memory. -/

theorem wit_translation :
    findEnt ((running id).binding.seen 0) 0x30000 = none ∧ findEnt ((running id).binding.seen 0) 0x2FFF8 = some page ∧
    (running id).dev.cycle = 0 ∧
    page.ab = false ∧ page.allows .store = true ∧ page.allows .fetch = false ∧
    (0x2FFF8 : Word).toNat % 2 ^ winShift page.sz + 8 ≤ 2 ^ winShift page.sz ∧
    findEnt ((running id (fun k => { k with win := [{ vpn := 3, sz := 0 }] })).binding.seen 0) 0x30000 =
      some { vpn := 3, sz := 0 } ∧ ({ vpn := 3, sz := 0 } : WinEnt).ab = true := by decide +kernel


/-- The largest offset of each width. -/
theorem wit_scalarLoads :
    (∀ n ∈ ([1, 2, 4, 8] : List Nat), ((loaded).sreg 1 + wordI (signedImm (loaded).bun.wide (127 : BitVec 8) * n)).toNat % n = 0) ∧
    (loaded).translate 0x203F8 8 .load = .ok [piece 8 0x3F8] ∧ (loaded).translate 0x2007F 1 .load = .ok [piece 1 0x7F] ∧
    (loaded).translate 0x200FE 2 .load = .ok [piece 2 0xFE] ∧ (loaded).translate 0x201FC 4 .load = .ok [piece 4 0x1FC] ∧
    Plain (loaded) [piece 8 0x3F8] ∧ Plain (loaded) [piece 1 0x7F] ∧ Plain (loaded) [piece 2 0xFE] ∧
    Plain (loaded) [piece 4 0x1FC] :=
  ⟨by decide +kernel, by decide +kernel, by decide +kernel, by decide +kernel, by decide +kernel,
    by unfold Plain; decide +kernel⟩

/-- Rows of 32 bytes, 64 bytes apart. -/
def rows : List Piece := (List.range 8).map fun j => piece 32 (64 * j)

/-- The first line of the code page, which may be read by slot. -/
def code : Piece := ⟨0x10000, 0x10000, 64, 0, 0⟩

theorem wit_vectorLoads :
    Plain (loaded) [piece 256] ∧ (loaded).translate 0x20000 256 .load = .ok [piece 256] ∧
    Plain (loaded 64) rows ∧ (loaded 64).translateAll 32 .load
      ((List.range 8).map fun j => (loaded 64).sreg 1 + word j * (loaded 64).sreg ((2 : BitVec 4).setWidth 6)) = .ok rows ∧
    Plain (loaded 0x10000) [code] ∧ (loaded 0x10000).translate 0x10000 64 .sld = .ok [code] ∧
    ((loaded 0x10000).sreg 2).toNat % 64 = 0 := by unfold Plain; decide +kernel

theorem wit_storesAreBuffered :
    let k := task4 (loaded 64)
    let s := loaded 64
    let fits (ps : List Piece) (bs : List Byte) : Prop := ∀ j, j ≤ ps.length →
      (withBuffer k (((storeOps ps bs).take j).foldl bufferOp (bufferOf k))).lines.length ≤ 1024
    s.holding = false ∧ (s.dev.ctx s.me).task = some k ∧ (s.dev.ctx s.me).seg.held = [] ∧
    (∀ p ∈ rows ++ [piece 256, piece 1, piece 2, piece 4, piece 8], p.kind = 1 → k.span = none → k.pin = .none ∧ k.sel = none) ∧
    s.translate 0x20000 1 .store = .ok [piece 1] ∧ s.translate 0x20000 2 .store = .ok [piece 2] ∧
    s.translate 0x20000 4 .store = .ok [piece 4] ∧ s.translate 0x20000 8 .store = .ok [piece 8] ∧
    s.translate 0x20000 256 .store = .ok [piece 256] ∧
    s.translateAll 32 .store ((List.range 8).map fun j => s.sreg 1 + word j * s.sreg ((2 : BitVec 4).setWidth 6)) = .ok rows ∧
    fits [piece 1] (toBytes 64 1) ∧ fits [piece 2] (toBytes 64 2) ∧ fits [piece 4] (toBytes 64 4) ∧
    fits [piece 8] (toBytes 64 8) ∧ fits [piece 256] (toBytes 0 256) ∧ fits rows (toBytes 0 256) := by decide +kernel

theorem wit_protectedStores :
    let s := inSegment []
    let k := task4 s
    let c := s.dev.ctx s.me
    let near (l : List HeldOp) : Prop := (heldLines (c.seg.held ++ l)).length ≤ 256
    let fits (ps : List Piece) (bs : List Byte) : Prop :=
      ∀ j, j ≤ ps.length → near (((storeOps ps bs).take j).map fun o => .mem o k.span.isSome)
    s.holding = true ∧ (s.dev.ctx s.me).task = some k ∧
    (∀ p ∈ rows ++ [piece 256, piece 1, piece 2, piece 4, piece 8], p.kind = 1 → k.span = none → k.pin = .none ∧ k.sel = none) ∧
    (∀ n ∈ ([1, 2, 4, 8, 64] : List Nat), (s.sreg 1).toNat % n = 0) ∧
    s.translate 0x20000 1 .store = .ok [piece 1] ∧ s.translate 0x20000 2 .store = .ok [piece 2] ∧
    s.translate 0x20000 4 .store = .ok [piece 4] ∧ s.translate 0x20000 8 .store = .ok [piece 8] ∧
    s.translate 0x20000 256 .store = .ok [piece 256] ∧
    fits [piece 1] (toBytes 0 1) ∧ fits [piece 2] (toBytes 0 2) ∧ fits [piece 4] (toBytes 0 4) ∧ fits [piece 8] (toBytes 0 8) ∧
    fits [piece 256] (toBytes 0 256) ∧ fits rows (toBytes 0 256) ∧
    (∀ kind ∈ [BufKind.redAdd 8 0, .redMin 8 0, .redMax 8 0, .redFadd [0]],
      near [.mem { va := 0x20000, pa := 0x20000, kind := kind } k.span.isSome]) := by decide +kernel

/-- A machine whose scratchpads have `n` pages. -/
def withPool (n : BitVec 11) : State :=
  let s := loaded
  { s with dev := (s.dev.updCore 1 fun k => { k with pb2 := n }).updCore 0 fun k => { k with pb2 := n } }

/-- Eight rows may be held, and so may a word and a vector in the scratchpad of the core's own cell. -/
theorem wit_protectedRows :
    (let s := running (fun c => { c with segOpen := true, regs := { c.regs with s := [(1, 0x20000), (2, 64)] } })
       fun k => { k with prot := true }
     s.holding = true ∧ s.translateAll 32 .store
       ((List.range 8).map fun j => s.sreg 1 + word j * s.sreg ((2 : BitVec 4).setWidth 6)) = .ok rows) ∧
    (let p := withPool 1
     let s : State := { p with dev := (p.dev.updCtx 4 fun c => { c with segOpen := true }).updBinding 0 fun k => { k with prot := true } }
     let names (x : Word) (n align : Nat) : Prop :=
       (if x.getLsbD 26 then s.binding.spCore (coreOf s.me) (bits x 25 22) = some 1 else 1 = coreOf s.me) ∧
       bits x 63 27 = 0 ∧ bits x 21 0 % align = 0 ∧ bits x 21 0 + n ≤ (s.before.core 1).spSize
     s.holding = true ∧ names 0xFF8 8 8 ∧ names 0xF00 256 64 ∧
       (heldLines [.sp 1 0xFF8 (toBytes 0 8)]).length ≤ 256 ∧ (heldLines [.sp 1 0xF00 (toBytes 0 256)]).length ≤ 256) := by
  decide +kernel

/-- `core` is what an address of `n` bytes names in a scratchpad of one page, far addresses among them. -/
theorem wit_scratchpad :
    let s := withPool 1
    let names (core : Nat) (a : Word) (n align : Nat) : Prop :=
      (if a.getLsbD 26 then s.binding.spCore (coreOf s.me) (bits a 25 22) = some core else core = coreOf s.me) ∧
      bits a 63 27 = 0 ∧ bits a 21 0 % align = 0 ∧ bits a 21 0 + n ≤ (s.before.core core).spSize
    names 1 0xFF8 8 8 ∧ names 1 0xF00 256 64 ∧ names 0 0x4000FF8 8 8 ∧ names 0 0x4000F00 256 64 ∧ s.ctx0.seg.held = [] ∧
    (s.dev.ctx s.me).far = [] ∧ s.dev.core 0 = s.before.core 0 ∧ s.holding = false := by decide +kernel

theorem wit_trans : findEnt ((loaded).binding.seen (loaded).dev.cycle) ((loaded).sreg 1 + (loaded).sreg 2) = some page ∧ page.ab = false := by
  decide +kernel

/-- A remote page; one that the stack's weight SRAM holds; and slots of the plan that the core owns or does not. -/
theorem wit_transFields :
    isRemote (({ page with pfn := 0x800000000 } : WinEnt).pa 0x20000) = true ∧ isRemote (page.pa 0x20000) = false ∧
    (let d := (running id).dev.updTab fun t => { t with placed := [(2, { mask := 1 })] }
     d.fromWeightSram 1 (page.pa 0x20000) 2 = true) ∧
    (running id).dev.fromWeightSram 1 (page.pa 0x20000) page.kind = false ∧
    (let owns (h : Hbm) (j : Nat) : Bool := entryOwns (planEntry h.plan (pchOf 0x20000) j) 1
     (∀ j, j < 16 → owns ((running id).dev.hbm (hbmOf 0x20000)) j = false) ∧
     owns { ((running id).dev.hbm (hbmOf 0x20000)) with plan0 := [(16 * pchOf 0x20000 + 15, 0x4001)] } 15 = true) := by
  decide +kernel

/-! Atomics, tasks and synchronisation. -/

theorem pinnable_loaded (v : Word) : Pinnable (loaded v) := by
  intro k h
  have : (loaded v).dev.ctx (loaded v).me = (loaded v).dev.ctx 4 := rfl
  cases h
  exact ⟨rfl, rfl⟩

theorem wit_atomics :
    let s := loaded 5
    s.holding = false ∧ (piece 8).kind = 0 ∧ isRemote (piece 8).pa = false ∧ (s.dev.line ((piece 8).pa / 64)).poison = false ∧
    (s.sreg 1).toNat % 8 = 0 ∧ (s.sreg 1).toNat % 4 = 0 ∧ s.translate (s.sreg 1) 8 .atomic = .ok [piece 8] ∧
    s.translate (s.sreg 1) 4 .atomic = .ok [piece 4] := by decide +kernel

theorem wit_reductions :
    let s := loaded 5
    let k := task4 s
    let op (kind : BufKind) : BufOp := { va := 0x20000, pa := 0x20000, kind := kind }
    s.holding = false ∧ (s.dev.ctx s.me).task = some k ∧ (s.sreg 1).toNat % 8 = 0 ∧ (s.sreg 1).toNat % 4 = 0 ∧
    s.translate (s.sreg 1) 8 .store = .ok [piece 8] ∧ s.translate (s.sreg 1) 4 .store = .ok [piece 4] ∧
    (∀ kind ∈ [.redAdd 8 5, .redMin 8 5, .redMax 8 5, BufKind.redFadd [5]],
      (withBuffer k (bufferOp (bufferOf k) (op kind))).lines.length ≤ 1024) ∧
    (toBytes 7 8).length = 8 ∧ (toBytes 7 4).length = 4 ∧ (fp32.decode (ofBytes (toBytes 0x7F800001 4))).isNan = true ∧
    (fp32.decode (0xFFC00000 : Word32).toNat).isNan = true := by decide +kernel

/-- The count of the record on the page. -/
def counted (n v : Nat) : State :=
  let s := loaded (word v)
  { s with dev := s.dev.poke 0x20000 (toBytes n 8) }

theorem wit_records :
    ((loaded).sreg 1).toNat % 64 = 0 ∧ (piece 8).kind = 0 ∧ ((loaded).dev.ctx (loaded).me).task = some (task4 (loaded)) ∧
    (loaded).translate ((loaded).sreg 1) 8 .store = .ok [piece 8] ∧ (task4 (loaded)).spawns.length < 32 ∧
    32 ≤ (task4 (loaded 0 id fun t => { t with spawns := List.replicate 32 0x20000 })).spawns.length ∧
    (loaded).holding = false ∧ isRemote (piece 8).pa = false ∧ ((loaded).dev.line ((piece 8).pa / 64)).poison = false ∧
    (piece 8).pa % 64 = 0 ∧ ((loaded).dev.block (loaded).blk).get fTrapva ≠ 0 ∧
    (loaded).translate ((loaded).sreg 1) 8 .atomic = .ok [piece 8] ∧ (loaded).binding.prot = false ∧
    (loaded 0 fun k => { k with prot := true }).binding.prot = true ∧
    -- the count at each end of its range, and beyond
    (let old (s : State) : Nat := bits (rearm s.binding.bseq (recOf (s.dev.bytesUnder 0 0x20000 64))).1 15 0
     (old (counted 0 0) : Int) + -1 < 0 ∧ 0 ≤ (old (counted 0 0) : Int) + ((counted 0 65535).sreg 2).toInt ∧
     (old (counted 0 0) : Int) + ((counted 0 65535).sreg 2).toInt ≤ 65535 ∧
     65535 < (old (counted 0 0) : Int) + ((counted 0 65536).sreg 2).toInt) := by decide +kernel

/-- The running machine with barrier 255, on which `got` of two arrivals stand and the context owes `mine`'s wait. -/
def atBarrier (got : Nat) (done : BitVec 32 := 0) (mine : Mine := {}) : State :=
  running (fun c => { c with bars := [(255, mine)] }) fun k => { k with bars := [(255, { need := 2, got := got, done := done })] }

theorem pinnable_task (s : State) (k : Task) (h : (s.dev.ctx s.me).task = some k) (e : k.buf = [])
    (f : (s.dev.ctx s.me).seg.held = []) : Pinnable s := by
  intro x hx
  rw [h] at hx
  cases hx
  simp [e, f, heldVersioned]

theorem wit_barriers :
    (∀ s ∈ [atBarrier 0, atBarrier 1, atBarrier 0 1 { owed := true }], s.holding = false ∧
      (∃ k, (s.dev.ctx s.me).task = some k ∧ k.buf = []) ∧
      (∃ k x, s.dev.binding s.blk = some k ∧ mfind k.bars (255 : BitVec 8).toNat = some x ∧ x.faulted = false) ∧
      (mget {} s.ctx0.bars (255 : BitVec 8).toNat).bfault = false) ∧
    (mget {} ((atBarrier 0).dev.ctx (atBarrier 0).me).bars 255).owed = false ∧
    (let s := atBarrier 0 1 { owed := true }
     (mget {} (s.dev.ctx s.me).bars 255).owed = true ∧ (mget {} (s.dev.ctx s.me).bars 255).mine ≠ 1) := by
  refine ⟨?_, by decide +kernel, by decide +kernel⟩
  intro s hs
  simp only [List.mem_cons, List.not_mem_nil, or_false] at hs
  rcases hs with rfl | rfl | rfl <;> exact ⟨by decide +kernel, ⟨_, rfl, rfl⟩, ⟨_, _, rfl, rfl, rfl⟩, by decide +kernel⟩

/-- The running machine with stream queue 63, of which core 1 is producer and consumer, and a loop that reads it. -/
def atQueue (l : List QEnt) : State :=
  let s := running (fun c => { c with regs := { c.regs with lpc0 := word (2 ^ 63 + 2 ^ 62 + 63 * 2 ^ 8 + 7) } })
    fun k => { k with queues := [(63, { cap := 2, prod := 1, cons := 1, ents := l })] }
  { s with dev := { s.dev with cycle := 10 } }

theorem wit_streamQueues :
    (∀ s ∈ [atQueue [{}], atQueue [{ token := true }]], s.holding = false ∧ (∃ k, (s.dev.ctx s.me).task = some k ∧ k.buf = []) ∧
      ∃ k x e, s.dev.binding s.blk = some k ∧ mfind k.queues (63 : BitVec 6).toNat = some x ∧
        x.prod = k.lcell (cellOf (coreOf s.me)) * 2 + coreOf s.me % 2 ∧
        x.cons = k.lcell (cellOf (coreOf s.me)) * 2 + coreOf s.me % 2 ∧
        x.ents.length + (x.took.filter (· == s.dev.cycle)).length < x.cap ∧ x.ents = [e] ∧ e.cyc < s.dev.cycle) ∧
    (atQueue [{ token := true }]).ctx0.regs.streamPred (63 : BitVec 6).toNat = some 7 := by
  refine ⟨?_, by decide +kernel⟩
  intro s hs
  simp only [List.mem_cons, List.not_mem_nil, or_false] at hs
  rcases hs with rfl | rfl <;> exact ⟨by decide +kernel, ⟨_, rfl, rfl⟩, ⟨_, _, _, rfl, rfl, by decide +kernel, by decide +kernel,
    by decide +kernel, rfl, by decide +kernel⟩⟩

/-- The running machine with vectors in the FIFO that leads up, where its core gets, and down, where it puts. -/
def atFifo (up down : Nat) : State :=
  let s := running id fun k => { k with shape := 1 }
  { s with dev := { s.dev.updCell 0 fun x =>
      { x with up := { ents := List.replicate up {} }, down := { ents := List.replicate down {} } } with cycle := 1 } }

theorem wit_verticalFifos :
    let s := atFifo 16 15
    let cell := s.dev.cell (cellOf (coreOf s.me))
    s.holding = false ∧ (s.dev.ctx s.me).task = some (task4 s) ∧ (task4 s).buf = [] ∧
    lowerOnly s.binding.shape.toNat = false ∧ cell.gated = false ∧ cell.ungating = false ∧ coreOf s.me % 2 = 1 ∧
    cell.down.ents.length + (cell.down.took.filter (· == s.dev.cycle)).length < 16 ∧
    cell.up.ents = {} :: List.replicate 15 {} ∧ ({} : QEnt).cyc < s.dev.cycle := by decide +kernel

theorem wit_timelines :
    let s := running fun c => { c with tls := [(7, { issued := 1, stamps := [(1, 5)] })], regs := { c.regs with s := [(1, 1)] } }
    let tl : Timeline := mget {} (s.dev.ctx s.me).tls (7 : BitVec 3).toNat
    tl.fault = [] ∧ (s.sreg 1).toNat ≤ tl.issued ∧ (s.sreg 1).toNat ≤ tl.counter ∧
    (s.dev.ops.all fun o => !(o.held && o.agent == s.me && o.e == (7 : BitVec 3).toNat)) = true := by decide +kernel

/-- The running machine with a transaction open at stamp 1 that holds a store to a live line. -/
def inSpan (kind : Bool) : State :=
  let op : BufOp := { va := 0x20000, pa := 0x20000, kind := .store [7], versioned := kind }
  let s := loaded 0 id fun t => { t with span := some { sx := 1, buf := [op] } }
  { s with dev := s.dev.updLine 0x800 fun l => { l with wts := 2, writer := 9 } }

theorem wit_transactions :
    let s := loaded
    s.holding = false ∧ (s.dev.ctx s.me).seg.held = [] ∧ (s.dev.ctx s.me).task = some (task4 s) ∧ (task4 s).span = none ∧
    (task4 s).sel = none ∧
    (∀ kind, let s := inSpan kind
      (s.dev.ctx s.me).task = some (task4 s) ∧ s.holding = false ∧ (s.dev.ctx s.me).seg.held = [] ∧
      ∃ q, (task4 s).span = some q ∧ s.spanFails q.buf = kind ∧ (task4 s).buf = [] ∧
        ∀ o ∈ q.buf, o.kind.isStore = true ∧ isLocal o.pa = true) := by
  refine ⟨by decide +kernel, by decide +kernel, by decide +kernel, by decide +kernel, by decide +kernel, fun kind => ?_⟩
  cases kind <;> exact ⟨rfl, by decide +kernel, by decide +kernel, ⟨_, rfl, by decide +kernel, rfl, by decide +kernel⟩⟩

/-- The running machine with handle 15 in a state. -/
def atHandle (n : BitVec 2) (v : Word) : State :=
  let s := running fun c => { c with regs := { c.regs with s := [(1, v)] } }
  { s with dev := s.dev.updSnap 0 15 fun _ => { st := 3, gen := 1, state := n } }

theorem wit_snapshots :
    (running id).dev.freeHandle 0 = some 1 ∧ (running id).mode ≠ 2 ∧ (running id).blk = 0 ∧ (running id).holding = false ∧
    ((running id).dev.ctx (running id).me).task = some (task4 (running id)) ∧ (task4 (running id)).buf = [] ∧
    (running id).spanOpen = false ∧ ((running id).sreg 1).toNat % 16 = 0 ∧
    ((atHandle 1 15).sreg 1).toNat % 16 = 15 ∧ ((atHandle 1 15).dev.snap 0 15).state = 1 ∧
    ((atHandle 2 15).dev.snap 0 15).state = 2 ∧ (atHandle 1 15).spanOpen = false ∧ (atHandle 1 15).holding = false := by
  decide +kernel

/-- The task of context 4 in mode `m` may end, with stores of `buf`. -/
def ending (m : BitVec 2) (buf : List BufOp) (tiled : Bool) : State :=
  running (fun c => { c with trap := { c.trap with mode := m } }) (fun k => { k with tx := 2, ty := 1, tz := 1 })
    fun t => { t with buf := buf, tiled := tiled, recVa := 0x20000 }


def isOk {α : Type} (x : Except Stop α) : Bool := match x with | .ok _ => true | .error _ => false

theorem ok_of_isOk {α : Type} (x : Except Stop α) (h : isOk x = true) : ∃ r, x = .ok r := by
  cases x with
  | ok r => exact ⟨r, rfl⟩
  | error _ => cases h

/-- A store of one byte to the page. -/
def oneStore : BufOp := { va := 0x20000, pa := 0x20000, kind := .store [7] }

theorem commits_ending (m : BitVec 2) (tiled : Bool) (h : m = 0 ∨ m = 2) : ∀ (e : Bool) n,
    let s := ending m [] tiled
    isOk ((s.updBun fun b => { b with ends := e, compared := true }).standing.commitTask s.me n (task4 s)) = true := by
  rcases h with rfl | rfl <;> cases tiled <;> intro e n <;> cases e <;> with_unfolding_all rfl

theorem wit_tasksEnd (m : BitVec 2) (tiled : Bool) (h : m = 0 ∨ m = 2) :
    Commits (ending m [] tiled) (task4 (ending m [] tiled)) ∧
    (ending m [] tiled).dev.binding (task4 (ending m [] tiled)).blk ≠ none ∧ (ending m [] tiled).mode = m ∧ m ≠ 1 := by
  have hc := commits_ending m tiled h
  rcases h with rfl | rfl <;> cases tiled <;>
    exact ⟨⟨rfl, rfl, rfl, rfl, (by intro e he; cases he), (by decide +kernel), fun e n => ok_of_isOk _ (hc e n)⟩,
      by decide +kernel, rfl, by decide⟩

/-- Of a task of a dispensed tile and of one with a record, on each of the modes in which it may end. -/
theorem wit_committedStores (m : BitVec 2) (tiled : Bool) (h : m = 0 ∨ m = 2) :
    let s := ending m [oneStore] tiled
    let k := task4 s
    Commits s k ∧ s.dev.binding k.blk ≠ none ∧ k.tiled = tiled ∧ k.spawns = [] ∧ s.mode = m := by
  rcases h with rfl | rfl <;> cases tiled <;>
    exact ⟨⟨rfl, rfl, rfl, rfl, (by intro e he; cases he), (by decide +kernel), fun e _ => by cases e <;> exact ok_of_isOk _ rfl⟩,
      by decide +kernel, rfl, rfl, rfl⟩

/-! Vectors: registers of each tag. -/

/-- A machine whose vector registers 0 to 15 carry tag `t`, with lanes of `n`. -/
def tagged (t : BitVec 4) (n : Nat := 0) : State := withV ((List.range 16).map fun r => (r, ⟨lanesOf [] n, t⟩))

theorem wit_vectorTags :
    (∀ t ∈ ([0, 1, 2, 3, 4, 5, 6, 7, 8, 9, 10, 11, 12, 13] : List (BitVec 4)),
      (tagged t).tagOf 1 = t.toNat ∧ (tagged t).tagOf 2 = t.toNat ∧ (tagged t).tagOf 3 = t.toNat ∧ t.toNat < 14 ∧
      (tagged t).ctx0.regs.fcsr.getLsbD 4 = false) ∧
    (∀ i, i < 8 → (tagged 5).tagOf (4 + BitVec.ofNat 6 i) = 5) ∧
    (fmtOf 5).decode (elCode ((tagged 5 0x7FC00000).vreg 1).bits 32 0) = .nan ∧
    (fmtOf 5).decode (elCode ((tagged 5 0xFF800000).vreg 1).bits 32 0) = .inf true ∧
    (fmtOf 5).decode (elCode ((tagged 5 0x7F800000).vreg 1).bits 32 0) = .inf false ∧
    (fmtOf 5).decode (elCode ((tagged 5 0x3F800000).vreg 1).bits 32 0) = .fin false 0x800000 (-23) := by decide +kernel

/-- The tags of each vector conversion and reduction with mixed sources: `a` of one tag, `b` of another, `d` of a third. -/
def mixed (a b d : BitVec 4) : State := withV [(1, ⟨0, a⟩), (2, ⟨0, b⟩), (3, ⟨0, d⟩)]

theorem wit_vectorMixedTags :
    (∀ t ∈ ([1, 2, 3] : List (BitVec 4)), (mixed t t 4).tagOf 1 = t.toNat ∧ (mixed t t 4).tagOf 2 = t.toNat ∧
      (mixed t t 4).tagOf 3 = 4) ∧
    (∀ t ∈ ([6, 7, 8, 9] : List (BitVec 4)), (mixed t t 5).tagOf 2 = t.toNat ∧ (mixed t t 5).tagOf 3 = 5) ∧
    (∀ t ∈ ([10, 11, 12] : List (BitVec 4)), (mixed t 2 0).tagOf 1 = t.toNat ∧ (mixed t 2 0).tagOf 2 = 2) ∧
    (mixed 5 4 0).tagOf 2 = 4 := by decide +kernel

/-- The running machine whose vector 2 holds word indexes 0 to 63, for addresses on the page. -/
def indexed : State :=
  let s := loaded
  { s with dev := s.dev.updCtx 4 fun c => { c with
      v := [(2, ⟨lanesOf (List.range 64) 0, 4⟩)], regs := { c.regs with k := [(1, 0x8000000000000001)] } } }

theorem wit_gatherScatter :
    let s := indexed
    let lanes := (List.range 64).filter fun l => (s.kreg 1).getLsbD l
    let addr (l : Nat) : Word := s.sreg 1 + 4 * (BitVec.ofNat 32 (elCode (s.vreg 2).bits 32 l)).signExtend 64
    let ps := [piece 4, piece 4 252]
    let x := task4 s
    let ops := storeOps ps (lanes.flatMap fun l => toBytes (elCode (s.vreg 3).bits 32 l) 4)
    s.tagOf 2 = 4 ∧ s.translateAll 4 .load (lanes.map addr) = .ok ps ∧ Plain s ps ∧ ps ≠ [] ∧
    s.translateAll 4 .store (lanes.map addr) = .ok ps ∧ s.holding = false ∧ (s.dev.ctx s.me).task = some x ∧
    (∀ p ∈ ps, p.kind = 1 → x.span = none → x.pin = .none ∧ x.sel = none) ∧
    (∀ j, j ≤ ps.length → (withBuffer x ((ops.take j).foldl bufferOp (bufferOf x))).lines.length ≤ 1024) := by
  unfold Plain; decide +kernel

/-- A gather of no lanes reads nothing. -/
theorem wit_emptyGather :
    let s := running fun c => { c with regs := { c.regs with k := [(1, 0)] } }
    s.tagOf 2 = 0 ∧ s.translateAll 4 .load (((List.range 64).filter fun l => (s.kreg 1).getLsbD l).map fun _ => s.sreg 1) = .ok [] := by
  decide +kernel

/-! The matrix unit and the engines. -/

/-- Core 1 with scratchpads of 8 pages, operand slots 0 to 63 claimed by context 4 with a tag, and `mp0` and `mp1` set. -/
def atMatrix (tag : BitVec 4) (mp0 mp1 : Word) : State :=
  let s := withPool 8
  let slots := (List.range 64).map fun o => (o, ({ tag := tag, claim := some 4 } : OpSlot))
  { s with dev := (s.dev.updCore 1 fun k => { k with slots := slots }).updCtx 4 fun c => { c with mp := [(0, mp0), (1, mp1)] } }

theorem wit_matrixEntries :
    let claimed (s : State) (o n : Nat) : Prop := o + n ≤ 64 ∧ ∀ i, i < n → (s.core0.slot (o + i)).claim = some s.me
    let carry (s : State) (o n tag : Nat) : Prop := ∀ i, i < n → s.slotTag (o + i) = tag
    (let s := atMatrix 8 0x100800100 0
     (s.dev.core (coreOf s.me)).mq.length < 8 ∧ (∃ p, mmPair (s.slotTag 63) (s.slotTag 62) = some p) ∧ 0 < mpKn s.mp0 ∧
     mpBounds s.mp0 = true ∧ claimed s 63 1 ∧ carry s 63 1 8 ∧ ceilDiv (mpKn s.mp0) (kslot 8) = 1 ∧ s.bankTag 0 = 0) ∧
    (let s := atMatrix 4 0x100010100 0x4
     claimed s 60 4 ∧ carry s 60 4 4 ∧ s.bankTag 1 = 0 ∧ bits (mget 0 s.ctx0.mp 1) 3 0 = 4 ∧ mpBounds s.mp0 = true ∧
     tagWidth 4 / 8 = 4) ∧
    (let s := atMatrix 8 0 0
     claimed s 63 1 ∧ claimed s 62 1 ∧ s.slotTag 63 = 8 ∧ (63 : BitVec 6) ≠ 62) ∧
    (let s := atMatrix 11 0 0
     let near (r : Nat × Nat) : Prop := (s.sreg 2).getLsbD 26 = false ∨ r.1 = coreOf s.me ∨ r.1 + 1 = coreOf s.me
     (s.sreg 2).toNat % 256 = 0 ∧ (∃ r, spTarget s.before s.binding (coreOf s.me) (s.sreg 2) (16384 + planeBytes 11) 1 = .ok r ∧
       near r) ∧ s.slotTag 63 = 11) :=
  ⟨⟨by decide +kernel, ⟨_, rfl⟩, by decide +kernel⟩, by decide +kernel, by decide +kernel,
    ⟨by decide +kernel, ⟨_, rfl, by decide +kernel⟩, by decide +kernel⟩⟩

theorem wit_matrixControls :
    ((running id).core0.slot (63 : BitVec 6).toNat).claim = none ∧
    ((atMatrix 8 0 0).core0.slot (63 : BitVec 6).toNat).claim = some (atMatrix 8 0 0).me := by decide +kernel

/-- A library under way to core 3, which has nothing queued. -/
theorem wit_installs :
    let x : LibInstall := { agent := 4, cores := [3], ver := 1, dig := [] }
    let d : Device := { (running id).dev with dice := { (running id).dev.dice with installs := [x] } }
    d.dice.installs = [x] ∧ ∀ c ∈ x.cores, (d.core c).mq = [] := by decide +kernel

/-- A library image of no groups at the page, and its machine in system mode: header, and a signature of zeros. -/
def withLibrary : State :=
  let s := running fun c => { c with regs := { c.regs with s := [(1, 0x20000)] }, trap := { c.trap with mode := 2 } }
  { s with dev := s.dev.poke 0x20000 (toBytes 1 4 ++ toBytes libMagic 4) }

/-- Whether a signature is right is for the security root's key (`Config.sigOk`): where it takes that image's, the library
is read. -/
theorem wit_library (h : ∀ m g, Config.sigOk m g = true) :
    withLibrary.mode = 2 ∧ isOk (withLibrary.readLibrary (withLibrary.sreg 1)) = true := by
  refine ⟨by decide +kernel, ?_⟩
  simp only [State.readLibrary, h]
  rfl

/-- A machine whose engine kind `eng` has shadow registers `regs`, scratchpads of 8 pages and keys 1. -/
def atEngine (eng : Nat) (regs : List Word) : State :=
  let s := withPool 8
  let d := s.dev.updCtx 4 fun c => { c with shadow := regs.zipIdx.map fun x => (8 * eng + x.2, x.1) }
  { s with dev := d.updBlock 0 fun b => (b.set fRkid 1).set fDkid 1 }

/-- The operation's registers are in order, its ranges are fixed and its queue has room. -/
def ready (eng : Nat) (form : State → EngRegs → Form) (regs : List Word) : Bool :=
  let s := atEngine eng regs
  let f := form s (s.ctx0.engRegs eng)
  (f.refused == none) && isOk (s.fixAll f.wants) && decide (s.dev.engQueue s.me eng < 32) && !s.holding

theorem wit_engines :
    ready 0 formMove [0x20000, 0x20100, 64] = true ∧ ready 0 formFill [0, 0x20100, 64] = true ∧
    ready 0 formMove2d [0x20000, 0x20100, 64, 0, 1] = true ∧ ready 1 formGath [0x20000, 0x20100, 64, 0, 0, 1] = true ∧
    ready 1 formScat [0x20000, 0x20100, 64, 0, 0, 1] = true ∧ ready 2 formSha384 [0x20000, 0x20100, 64] = true ∧
    ready 3 formSeal [0x20000, 0x20100, 64, 0, 0, 0x20200, 0x20300, 16] = true ∧
    ready 3 formOpen [0x20000, 0x20100, 64, 0, 0, 0x20200, 0x20300, 16] = true ∧
    ready 4 formBcast [0, 0x100, 64, 0, 1, 1] = true ∧ ready 4 (formSum sumF32) [0, 0x100, 64, 0, 1, 1] = true ∧
    ready 4 (formSum fun vs => (sumI32 vs, 0)) [0, 0x100, 64, 0, 1, 1] = true ∧
    ready 5 (formNet false) [0x20000, 0, 64] = true ∧ ready 5 (formNet true) [0x20000, 0, 64] = true ∧
    (∀ f ∈ ([(0, formMove), (0, formMove2d), (1, formGath), (1, formScat), (3, formSeal), (3, formOpen), (5, formNet false)] :
        List (Nat × (State → EngRegs → Form))),
      (f.2 (running id) ((running id).ctx0.engRegs f.1)).refused.isSome = true) ∧
    (∀ f ∈ ([(0, formFill), (2, formSha384), (4, formBcast), (4, formSum sumF32), (5, formNet true)] :
        List (Nat × (State → EngRegs → Form))),
      (f.2 (atEngine f.1 [1, 1, 2, 256]) ((atEngine f.1 [1, 1, 2, 256]).ctx0.engRegs f.1)).refused.isSome = true) := by
  decide +kernel

theorem wit_engineAttachments :
    let s := loaded
    (s.sreg 1).toNat % 64 = 0 ∧ s.translate (s.sreg 1) 8 .store = .ok [piece 8] ∧ (piece 8).kind = 0 ∧
    (mget {} (s.dev.ctx s.me).tls (7 : BitVec 3).toNat).succ.length < 8 ∧ s.holding = false ∧
    isOk ((atBarrier 0).barrier 255) = true ∧ (atBarrier 0).holding = false := by decide +kernel

/-! Events. The running machine, long after reset, with the device and the binding changed. -/

def late (f : Device → Device := id) (k : Binding → Binding := id) (c : Ctx → Ctx := id) : State :=
  let s := running c k
  { s with dev := f { s.dev with cycle := 57600000 * 10000 } }

def entry4 : ReadyEnt := { blk := 0, recVa := 0x20000, tier := true }

theorem wit_taskEvents :
    (let take (r : Option Restart) : Prop :=
       let s := late fun d => d.setReady 0 [{ entry4 with resume := r }]
       s.dev.holder (coreOf 5) = some 0 ∧ ∃ b, s.dev.binding 0 = some b ∧ s.dev.mayTake b 5 = true ∧
         b.cluster (b.lcell (cellOf (coreOf 5)) / 8) = 0 ∧
         takeFirst (fun e => e.fits 0 b 5) (s.dev.readyQ 0) = some ({ entry4 with resume := r }, []) ∧
         s.dev.firstFor b 0 { entry4 with resume := r } 5 = true ∧
         findEnt (b.seen s.dev.cycle) (va57 entry4.recVa) = some page ∧ page.ab = false ∧ page.kind = 0 ∧
         isRemote (page.pa (va57 entry4.recVa)) = false ∧ (s.dev.line (page.pa (va57 entry4.recVa) / 64)).poison = false
     take (some {}) ∧ take none) ∧
    (let s := late id id fun c => { c with run := .blocked .eventFlag, event := true }
     ∃ b, s.dev.binding 0 = some b ∧ s.dev.blockOf 4 = some 0 ∧ (s.dev.ctx 4).run = .blocked .eventFlag ∧
       s.dev.waitOver 0 b 4 .eventFlag = true) ∧
    (let x : Committing := { agent := 4, st := 9 }
     let s := late id fun k => { k with committing := [x] }
     ∃ b, s.dev.binding 0 = some b ∧
       takeFirst (fun x : Committing => b.deferred.all fun f => f.ent.floor != x.st) b.committing = some (x, [])) ∧
    (let f : Deferred := { cluster := 31, ent := entry4, since := 0 }
     let s := late id fun k => { k with deferred := [f] }
     ∃ b, s.dev.binding 0 = some b ∧ s.dev.deferredFor 31 = some 0 ∧
       takeFirst (fun f : Deferred => f.cluster == 31) b.deferred = some (f, []) ∧ (s.dev.readyQ 31).length < 4096 ∧
       f ∈ b.deferred ∧ f.since + 1800000 ≤ s.dev.cycle ∧ (s.dev.block 0).get fTrapva ≠ 0) ∧
    (let s := late id id fun c => { c with ntDue := [(5, 7)] }
     (s.dev.ctx 4).ntDue = [(5, 7)] ∧ 5 ≤ s.dev.cycle) := by
  refine ⟨⟨⟨?_, _, rfl, ?_⟩, ⟨?_, _, rfl, ?_⟩⟩, ⟨_, rfl, ?_⟩, ⟨_, rfl, ?_⟩, ⟨_, rfl, ?_⟩, ?_⟩ <;> decide +kernel

/-- The running machine long stuck on a full queue, beside an empty one of `cap` entries in the same pool. -/
def stuckOn (cap : Nat) : State :=
  late id (fun k => { k with stuck := 64, queues :=
    [(3, { cap := 1, prod := 0, cons := 1, ents := [{}] }), (4, { cap := cap, prod := 0, cons := 1 })] })
    fun c => { c with run := .blocked (.queueFull 3) }

theorem wit_bindingTaskEvents :
    (∀ cap ∈ [1, 12288], ∃ b q, (stuckOn cap).dev.binding 0 = some b ∧ 64 ≤ b.stuck ∧ leastQueue b.fullQueues = some q ∧
       (stuckOn cap).dev.stuck b = true ∧ ((stuckOn cap).dev.ready.all fun e => e.2.all fun x => x.blk != 0) = true ∧
       (∀ x ∈ b.kdel, x.ctx.isSome = true) ∧ (∀ e ∈ b.fullQueues, (stuckOn cap).dev.canDouble b e.2 = (cap == 1)) ∧
       ((stuckOn cap).dev.block 0).get fTrapva ≠ 0) ∧
    (let s := late fun d => d.updCore 511 fun k => { k with unzeroed := [1023] }
     1023 ∈ (s.dev.core 511).unzeroed) ∧
    (let x : KDel := { cause := 0x65, val := 0, since := 0 }
     let s := late (fun d => { d with ctxs := (List.range 8).map fun a => (a, ({ run := .halted } : Ctx)) }) fun k => { k with kdel := [x] }
     ∃ b, s.dev.binding 0 = some b ∧ b.kdel = [x] ∧ x ∈ b.kdel ∧
       x.ctx = none ∧ x.ent = none ∧ x.pinned = none ∧ x.since + 64 ≤ s.dev.cycle ∧ s.dev.kContext b = none) ∧
    (let x : KDel := { cause := 0x65, val := 0, since := 57600000 * 10000 - 64 }
     let s := late id fun k => { k with kdel := [x] }
     ∃ b, s.dev.binding 0 = some b ∧ b.kdel = [x] ∧ (∀ y ∈ b.kdel, y.ctx = none ∧ y.ent = none ∧ y.pinned = none) ∧
       b.preempt = none ∧ b.running = true ∧ s.dev.kContext b = some 0 ∧ s.dev.cycle ≤ x.since + 64) ∧
    (let s := late id id fun c => { c with run := .blocked .snapshot, stamp := 5 }
     (s.dev.ctx 4).run = .blocked .snapshot ∧
       ∀ e ∈ s.dev.tab.bindings, ∀ x ∈ e.2.committing, (s.dev.ctx 4).stamp ≤ x.st) := by
  refine ⟨?_, by decide +kernel, ⟨_, rfl, by decide +kernel⟩, ⟨_, rfl, by decide +kernel⟩, by decide +kernel⟩
  intro cap h
  simp only [List.mem_cons, List.not_mem_nil, or_false] at h
  rcases h with rfl | rfl <;> exact ⟨_, _, rfl, by decide +kernel, rfl, by decide +kernel⟩

/-- A request record of a block. -/
def record (done : Bool) : Rec :=
  { unit := 0, units := 1, rkid := 1, fnid := 1, reqid := 7, tlen := 4, done := done, got := if done then [0] else [] }

/-- Block 1 QUEUED with a record and an installed image. -/
def queued (f : Block → Block := id) : State :=
  late fun d => (d.updTab fun t => { t with images := [(5, {})] }).updBlock 1 fun m =>
    f { (m.set fState sQueued).set fImage 5 with recs := [record true] }

/-- Block 0 in the binding steps with a record, or RUNNING, its key 1 loaded or not. -/
def binding0 (key : Bool) (st : Nat) (done : Bool := true) (k : Binding → Binding := id) (c : Ctx → Ctx := id)
    (entry : Nat := 0x800) : State :=
  late (fun d => ((d.poke 0x20002 [1]).updTab fun t =>
    { t with keys := if key then [(1, (9, 0))] else [], domains := [(0, 1)] }).updBlock 0 fun m =>
    { ((m.set fState st).set fRkid 1).set fEntry entry with recs := [record done] }) k c

theorem wit_harbourmaster :
    (queued.dev.candidates = [1] ∧ queued.dev.claimReady 1 = none ∧ queued.dev.findGroup 1 = some 1) ∧
    (late id).dev.candidates = [] ∧
    (let s := queued fun m => { m with firsts := 4096 }
     s.dev.candidate 1 = true ∧ 4096 ≤ (s.dev.block 1).firsts) ∧
    (let s := queued fun m => { m with claim := some 2, recallAt := some 0 }
     (s.dev.block 1).claim = some 2 ∧ (s.dev.block 1).recallAt = some 0 ∧ 0 + 1800000 ≤ s.dev.cycle ∧
       s.dev.holders ((s.dev.block 1).groupAt 2) = []) := by decide +kernel

/-- Block 1 QUEUED for every cell, of which block 0 holds one: of the reservation that owns them all, or of none. -/
def wanting (own : Bool) (prio : Nat) : State :=
  let s := queued fun m =>
    { ((m.set fShape 8).set fResv 3).set fPrio prio with recs := [{ record true with pcls := 7 }] }
  { s with dev := s.dev.updTab fun t => { t with resv := [(3, { cells := if own then BitVec.allOnes 256 else 0 })] } }

theorem wit_claims :
    (∀ e ∈ [(true, 0, true, false), (false, 7, false, true), (false, 0, false, false)],
      let s := wanting e.1 e.2.1
      s.dev.candidates = [1] ∧ s.dev.claimReady 1 = none ∧ s.dev.findGroup 1 = none ∧ (s.dev.block 1).claim = none ∧
        (s.dev.startRecall 1).isSome = e.2.2.1 ∧ (s.dev.startPreempt 1).isSome = e.2.2.2) := by decide +kernel

/-- Block 0 in the binding steps with a saved computation, whose save area holds a poisoned line or none. -/
def restoring (bad : Bool) : State :=
  late (fun d => ({ d with lines := if bad then [(0, { poison := true })] else [] }.updTab fun t =>
    { t with keys := [(1, (9, 0))], domains := [(0, 1)] }).updBlock 0 fun m =>
      { ((m.set fState sBinding).set fRkid 1).set fSavelen 1 with saved := some (d.saveOf 0 { gbase := 0 }) })
    fun k => { k with running := false }

/-- What a restoration reads begins with the first line of the save area. -/
theorem area_length_pos (v : Saved) (i : Image) (b : Nat) : 0 < (v.area i b).length := by
  simp only [Saved.area, List.length_append, List.length_replicate]; omega

theorem wit_saveBad : ∀ bad, (restoring bad).dev.saveBad 0 = bad := by
  intro bad
  cases bad
  · rfl
  · obtain ⟨v, hv⟩ : ∃ v, ((restoring true).dev.block 0).saved = some v := ⟨_, rfl⟩
    have hl : (restoring true).dev.lines = [(0, { poison := true })] := rfl
    have hb : ((restoring true).dev.block 0).get fSavea = 0 := by decide +kernel
    simp [Device.saveBad, hv, hl, hb, area_length_pos]

theorem wit_bindingSteps :
    (∀ bad, (∃ k v, (restoring bad).dev.binding 0 = some k ∧ k.running = false ∧ ((restoring bad).dev.block 0).saved = some v) ∧
      (restoring bad).dev.mstate 0 = sBinding ∧ (restoring bad).dev.keysLoaded 0 = true) ∧
    (let s := binding0 true sBinding true (fun k => { k with running := false, win := [{ vpn := 3, sz := 0 }] }) id 0xC00
     ∃ k w, s.dev.binding 0 = some k ∧ (s.dev.block 0).head = some (record true) ∧
       findEnt (k.seen s.dev.cycle) (va57 ((s.dev.block 0).get fEntry * 64)) = some w ∧ w.ab = true ∧
       (findEnt k.win (va57 ((s.dev.block 0).get fEntry * 64))).any (·.ab) = true) ∧
    (∀ win ∈ [[], [{ page with vpn := 3, kind := 1 }]],
     let s := binding0 true sBinding true (fun k => { k with running := false, win := win }) id 0xC00
     ∃ k, s.dev.binding 0 = some k ∧ findEnt (k.seen s.dev.cycle) (va57 ((s.dev.block 0).get fEntry * 64)) = win.head?) ∧
    (let s := binding0 true sBinding true fun k => { k with running := false }
     let u : State := { s with dev := { s.dev with lines := [(2048, { poison := true })] } }
     (u.dev.line (page.pa 0x20000 / 64)).poison = true) ∧
    (∀ key, let s := binding0 key sBinding true (fun k => { k with running := false })
      (∃ k, s.dev.binding 0 = some k ∧ k.running = false ∧
        findEnt (k.seen s.dev.cycle) (va57 ((s.dev.block 0).get fEntry * 64)) = some page ∧
        (let r := rearm k.bseq (recOf (s.dev.lineUnder (page.pa 0x20000 / 64) page.kid.toNat))
         recordOk k { recOf (s.dev.lineUnder (page.pa 0x20000 / 64) page.kid.toNat) with w0 := setBits r.1 35 32 8, w3 := r.2 } =
           true)) ∧
      s.dev.mstate 0 = sBinding ∧ s.dev.keysLoaded 0 = key ∧
      (s.dev.block 0).saved = none ∧ (s.dev.block 0).head = some (record true) ∧ (record true).done = true ∧
      page.ab = false ∧ page.kind = 0 ∧ isLocal (page.pa 0x20000) = true ∧
      (s.dev.line (page.pa 0x20000 / 64)).poison = false ∧ (s.dev.block 0).get fTrapva ≠ 0) ∧
    (let s := binding0 true sBinding false (fun k => { k with running := false })
     ∃ k, s.dev.binding 0 = some k ∧ k.running = false ∧ (s.dev.block 0).head = some (record false) ∧
       (record false).done = false ∧ k.since + 36000 ≤ s.dev.cycle) := by
  refine ⟨?_, ⟨_, { vpn := 3, sz := 0 }, rfl, by decide +kernel⟩, ?_, by decide +kernel, ?_, ⟨_, rfl, by decide +kernel⟩⟩
  · intro bad
    cases bad <;> exact ⟨⟨_, _, rfl, rfl, rfl⟩, by decide +kernel⟩
  · intro win h
    simp only [List.mem_cons, List.not_mem_nil, or_false] at h
    rcases h with rfl | rfl <;> exact ⟨_, rfl, by decide +kernel⟩
  · intro key
    cases key <;> exact ⟨⟨_, rfl, by decide +kernel, by decide +kernel, by decide +kernel⟩, by decide +kernel⟩

theorem wit_bindingEnds :
    (let s := binding0 true sRunning true id fun c => { c with task := none, run := .vacant }
     ∃ k, s.dev.binding 0 = some k ∧ s.dev.mstate 0 = sRunning ∧ k.running = true ∧ s.dev.bindingOver 0 k = true ∧
       k.preempt = none ∧ (s.dev.block 0).retire = false) ∧
    (let p : Preempt := { save := true, since := 0 }
     let s := binding0 true sRunning true (fun k => { k with preempt := some p }) fun c => { c with run := .halted }
     ∃ k, s.dev.binding 0 = some k ∧ k.preempt = some p ∧ s.dev.allStopped k = true ∧ s.dev.bindingOver 0 k = false ∧
       p.suspend = false ∧ (s.dev.block 0).retire = false) ∧
    (let p : Preempt := { save := true, since := 0 }
     let late (pin : Pin) (t : Bool) : Prop :=
       let s := binding0 true sRunning true (fun k => { k with preempt := some p })
         fun c => { c with task := if t then some { blk := 0, pin := pin } else none }
       ∃ k, s.dev.binding 0 = some k ∧ k.preempt = some p ∧ p.since + s.dev.preemptBound 0 ≤ s.dev.cycle ∧
         s.dev.drainedGroup k = true ∧ s.dev.err.queue.length < 1024 ∧ s.dev.mstate 0 ≠ sDead ∧
         (t = false → ∀ a ∈ k.agents, (s.dev.ctx a).task = none) ∧
         (t = true → s.dev.allStopped k = false ∧ 4 ∈ k.agents ∧ (s.dev.ctx 4).task = some { blk := 0, pin := pin } ∧
           ∀ a ∈ k.agents, a ≠ 4 → (s.dev.ctx a).task = none)
     late .none false ∧ late .none true ∧ late .firm true) := by
  and_intros <;> exact ⟨_, rfl, by decide +kernel⟩

/-- The request of `record` in one segment, sealed under the key 9. -/
def request (fcs udp service : Bool) (tag : Option Nat := none) : Datagram :=
  let dws : List Nat := [0x53524451 * 2 ^ 32 + 2 ^ 24 + 1, 2 ^ 32, 7, 4 * 2 ^ 32 + 2 ^ 8, 4, 5, 0, 0]
  let hdr : BitVec 512 := BitVec.ofNat 512 (dws.foldr (fun x n => x + 2 ^ 64 * n) 0)
  let nonce := toBytes 5 12
  let z := gcmSeal (toBytes 9 32) nonce (toBytes hdr.toNat 64) [1, 2, 3, 4]
  { port := 1, fcsOk := fcs, udpOk := udp, saddr := 0, sport := 0, daddr := 6, dport := if service then 9 else 8, hdr := hdr,
    body := z.1, tag := BitVec.ofNat 128 (tag.getD (ofBytes z.2)) }

/-- Block 2 holds the pair of that request, with its records, key 1 is loaded, and port 1 serves at address 6 and port 9. -/
def serving (recs : List Rec) (wait : List Datagram := []) (bound : Bool := false) : State :=
  late fun d =>
    let d1 := (d.updTab fun t => { t with keys := [(1, (9, 0))], hash := [(hashKey 1 1, 2)] }).updOut fun o =>
      { o with segWait := wait, eth := [(1, { addrs := [6], service := some 9 })], linkUp := 0xFFFFFF, routes := [(511, [23])] }
    let d2 := if bound then d1.setBinding 2 { gbase := 9 } else d1
    d2.updBlock 2 fun m => { ((((m.set fState sQueued).set fRkid 1).set fFnid 1).set fQlog 10) with recs := recs }

/-- The pair of the request is nowhere, or where a buoy stands for a block that has gone to device 511. -/
def moved (buoy : Bool) : State :=
  late fun d => (d.updTab fun t => { t with keys := [(1, (9, 0))] }).updOut fun o =>
    { o with linkUp := 0xFFFFFF, routes := [(511, [23])], buoys := if buoy then
        [(0, { dev := 511, blk := 3, since := 57600000 * 10000, pair := hashKey 1 1 })] else [] }

theorem wit_requests :
    (let g := request true true true
     let s := serving [record false]
     s.dev.out.ethUp.getLsbD g.port.toNat = true ∧ frameBytes g ≤ 9216 ∧ g.fcsOk = true ∧ s.dev.isService g = true ∧
       g.udpOk = true ∧ dgOk g = true ∧ (s.dev.key (dgRkid g)).isSome = true ∧ s.dev.matching g = some (2, record false, 0) ∧
       (record false).tlen = dgTlen g ∧ (record false).nseg = dgNseg g ∧
       (serving []).dev.lookup g = .block 2 ∧ (serving []).dev.matching g = none ∧
       (serving []).dev.appendStatus 2 (unitsOf (dgTlen g)) = 0 ∧ s.dev.mstate 2 ≠ sDead ∧
       (moved false).dev.lookup g = .nothing ∧ (moved true).dev.lookup g = .buoy 511 ∧
       (moved true).dev.matching g = none ∧ (moved true).dev.reachable 511 = true) ∧
    (request false true true).fcsOk = false ∧ (serving []).dev.isService (request true true false) = false ∧
    (request true true false).fcsOk = true ∧ (request true false true).udpOk = false ∧
    (late id).dev.key (dgRkid (request true true true)) = none := by decide +kernel

theorem wit_segment :
    let g := request true true true
    gcmOpen (toBytes 9 32) (toBytes (dgNonce g) 12) (toBytes g.hdr.toNat 64) g.body (toBytes g.tag.toNat 16) =
      some [1, 2, 3, 4] := by decide +kernel

theorem wit_requestEvents :
    (let g := request true true true
     let s := serving [record false] [g]
     s.dev.out.segWait = [g] ∧ s.dev.key (dgRkid g) = some (9, 0) ∧
       s.dev.matching g = some (2, record false, 0) ∧ (record false).abandoned = false ∧
       (record false).got.contains (dgSeg g) = false ∧ (record false).tlen = dgTlen g ∧ (record false).nseg = dgNseg g ∧
       s.dev.mstate 2 ≠ sDead) ∧
    (let g := request true true true (some 0)
     gcmOpen (toBytes 9 32) (toBytes (dgNonce g) 12) (toBytes g.hdr.toNat 64) g.body (toBytes g.tag.toNat 16) = none) ∧
    (let s := serving [record false] [] true
     (s.dev.block 2).recs.find? (fun r => r.unit == 0 && !r.done && !r.abandoned) = some (record false) ∧
       (record false).arrived + 180000000 ≤ s.dev.cycle ∧ (s.dev.binding 2).isSome = true) ∧
    (let s := late fun d => d.updTab fun t => { t with keys := [(4095, (9, 2 ^ 63))] }
     s.dev.key 4095 = some (9, 2 ^ 63) ∧ 4095 ∉ s.dev.tab.exhausted) ∧
    (late id).dev.out.ethUp.getLsbD 1 ≠ false ∧ (9 : Nat) ≤ 2 ^ 63 := by decide +kernel

/-- Block 0's page tables at 0x40000 map 0x30000 to a page at 0x50000 that is not resident, and the Pilot has been asked
for it. -/
def mapped (b : Binding → Binding := id) (f : Device → Device := id) (pte : Nat := 0x50201) : State :=
  late (fun d =>
    let put (d : Device) (a v : Nat) : Device := d.poke a (toBytes v 8)
    let d1 := put (put (put (put (put d 0x40000 0x41003) 0x41000 0x42003) 0x42000 0x43003) 0x43000 0x44003) 0x44018 pte
    f ((d1.updBlock 0 fun m => m.set fPtroot 0x40).updTab fun t =>
      { t with fetches := [{ blk := 0, va := 0x30000, started := true }] })) b

/-- Block 0's page known by digests. -/
def known (ds : List (List Byte)) : State := mapped id (fun d => d.updBlock 0 fun m => { m with shared := [(0x30000, ds)] }) 0x502A1

theorem wit_pageFetch :
    (let f : Fetch := { blk := 0, va := 0x30000, started := true }
     ∀ pte ∈ [0x50001, 0x50201, 0x502A1],
       ((mapped id id pte).dev.startFetches 64).tab.fetches.find?
         (fun f => f.blk == 0 && f.va == 0x30000 && f.started && f.failed.isNone) = some f ∧ f.again = false ∧
       (mapped id id pte).dev.walk 0 0x30000 = .leaf 0 (word pte) ∧
       (mapped id id pte).dev.mm.retires 0 (pageBase 0 0x30000) = false ∧
       (mapped id id pte).dev.copyFits (ptePa (word pte) / 65536) 0 0 [] = true) ∧
    (word 0x50001).getLsbD 9 = false ∧ (word 0x50201).getLsbD 9 = true ∧ bits (word 0x50201) 7 6 ≠ 2 ∧
    (word 0x502A1).getLsbD 9 = true ∧ bits (word 0x502A1) 7 6 = 2 ∧
    isLocal 0x44018 = true ∧ 0x44018 % 8 = 0 ∧
    ((mapped).agentPut agMemory 0x44018 (toBytes (0 : Word).toNat 8)).dev.walk 0 0x30000 = .invalid ∧
    ((mapped).agentPut agMemory 0x44018 (toBytes (0x60001 : Word).toNat 8)).dev.walk 0 0x30000 = .leaf 0 0x60001 ∧
    (mapped).dev.mustWait none (0x44018 / 64) = false ∧
    ((mapped).agentPut agMemory 0x44018 (toBytes (0x60001 : Word).toNat 8)).dev.installable 0 0x30000 0 0x60001 = true ∧
    (mapped).dev.walk 0 0x40000 = .invalid ∧ ((mapped).dev.binding 0).isSome = true ∧
    (let s := mapped fun k => { k with win := [{ vpn := 4, sz := 0 }], parked := [{ va := some 0x40000, ent := entry4 }] }
     ((s.dev.unmappable 0 0x40000).unpark 0 0x40000 0x06 (va57 0x40000)).2 = true) := by
  decide +kernel

/-- A fetched shared-weight page is right or wrong by its digests. -/
theorem wit_digests (bytes : List Byte) :
    pageDigests (2 ^ winShift 0) bytes =
      (known (pageDigests (2 ^ winShift 0) bytes)).dev.expected 0 (pageBase 0 0x30000) (2 ^ winShift 0) ∧
    pageDigests (2 ^ winShift 0) bytes ≠ (known []).dev.expected 0 (pageBase 0 0x30000) (2 ^ winShift 0) :=
  ⟨rfl, fun h => absurd (congrArg List.length h) (by simp [pageDigests]; decide)⟩

/-- A command under way from queue 0. -/
def under (k : PendKind) : Pending := ⟨0, 7, 3, true, k⟩

theorem wit_shootdowns :
    (let s := late fun d => d.updOut fun o => { o with pend := [under (.shoot 1)] }
     s.dev.out.pend.find? (fun p => p.kind.shootsAt 1) = some (under (.shoot 1)) ∧ s.dev.binding 1 = none ∧
       s.dev.mstate 1 ≠ sMigrating) ∧
    (let h : Shoot := { since := 0, q := 0 }
     let s := late (fun d => d.updOut fun o => { o with pend := [under (.shoot 0)] }) fun k => { k with shoots := [h] }
     s.dev.out.pend.find? (fun p => p.kind.shootsAt 0) = some (under (.shoot 0)) ∧
       ∃ k, s.dev.binding 0 = some k ∧ k.shoots.find? (fun h => h.q == (under (.shoot 0)).q) = some h ∧
         s.dev.shootDone h = true) ∧
    (let h : Shoot := { since := 0, pins := [(4, none)], q := 0 }
     let s := late id fun k => { k with shoots := [h] }
     ∃ k, s.dev.binding 0 = some k ∧ h ∈ k.shoots ∧ k.preempt = none ∧ h.since + 18000000 ≤ s.dev.cycle ∧
       s.dev.shootDone h = false) :=
  ⟨by decide +kernel, ⟨by decide +kernel, ⟨_, rfl, by decide +kernel⟩⟩, ⟨_, rfl, by decide +kernel⟩⟩

theorem wit_quarantine :
    (late id).dev.mm.ring.length < 16384 ∧
    16384 ≤ (late fun d => { d with mm := { d.mm with ring := List.replicate 16384 (0, 0, none) } }).dev.mm.ring.length ∧
    (let s := late fun d => { d with top := 9, mm := { d.mm with ring := [(0x500001, 5, some 0)] } }
     s.dev.mm.ring = [(0x500001, 5, some 0)] ∧ s.dev.mm.waiting = [] ∧ s.dev.mm.unpushed = [] ∧ (5 : Word).toNat < s.dev.qsc ∧ 0 + 18000000 < s.dev.cycle) ∧
    (let s := late fun d => { d with top := 9, mm := { d.mm with ring := [(0x500001, 5, none)], unpushed := [(0x600000, 5)] } }
     s.dev.mm.ring = [(0x500001, 5, none)] ∧ s.dev.mm.unpushed = [(0x600000, 5)] ∧ (5 : Word).toNat < s.dev.qsc ∧
       ([] : List (Word × Word × Option Nat)).length < 16384) ∧
    (let s := late fun d => { d with mm := { d.mm with clearing := [(0x50, 1)] } }
     mfind s.dev.mm.clearing 0x50 = some 1) := by decide +kernel

theorem wit_firmwareWrites :
    (0x0910 : Nat) ≤ 0x0917 ∧ ([7] : List Byte) ≠ [] ∧ isRemote (2 ^ 39 - 1) = false ∧ isLocal (2 ^ 39 - 1) = true ∧
    (late id).dev.mustWait none ((2 ^ 39 - 1) / 64) = false ∧
    (let w : HeldWrite := { agent := 0x0910, pa := 2 ^ 39 - 1, bytes := [7] }
     (late fun d => { d with mm := { d.mm with waiting := [w] } }).dev.mustWait none ((2 ^ 39 - 1) / 64) = true) ∧
    isRemote (2 ^ 39) = false ∧ isLocal (2 ^ 39) = false ∧
    (let s := late fun d => d.updTab fun t => { t with copies := [(0, { sz := 3, here := true })] }
     (2 : Nat) < 4 ∧ 5 * 65536 % 2 ^ winShift (BitVec.ofNat 2 0) = 0 ∧ isLocal (5 * 65536) = true ∧
       (late fun d => d.updTab fun t => { t with copies := [(5, { here := true })] }).dev.weightPage 5 0 = true ∧
       s.dev.weightPage 0 3 = true ∧ s.dev.sramUsed 3 + 2 ^ winShift (BitVec.ofNat 2 0) ≤ 805306368 ∧ s.dev.lines = []) := by decide +kernel

theorem wit_versionHeap :
    (let s := late fun d => { d with top := 9, lines := [(7, { versions := [{ st := 3, data := 0 }] })] }
     (s.dev.dredged (s.dev.line 7)).held < (s.dev.line 7).held ∧ s.dev.mm.waiting = []) ∧
    (let p : Parked := { va := none, ent := entry4, since := 0 }
     let s := late id fun k => { k with parked := [p] }
     ∃ k, s.dev.binding 0 = some k ∧ takeFirst (fun p : Parked => p.va.isNone) k.parked = some (p, []) ∧
       p.since + 1800000 ≤ s.dev.cycle ∧ p.ent.blk = 0 ∧ (s.dev.readyQ (k.cluster p.ent.lclus)).length < 4096) ∧
    (let s := late fun d => (d.updBlock 0 fun m => { m with drains := [15] }).updSnap 0 15 fun _ => { state := 2 }
     s.dev.draining 0 = some 15 ∧ (s.dev.snap 0 15).broken = false ∧ s.dev.drainPoisoned 0 15 = false ∧ 0 ≠ devTable ∧
       ([] : List (BitVec 63)).length = extentsFor (s.dev.drainWrites 0 15)) ∧
    (let s := late fun d => (d.updBlock devTable fun m => { m with drains := [15] }).updSnap devTable 15 fun _ => { state := 2 }
     s.dev.draining devTable = some 15 ∧ (s.dev.snap devTable 15).broken = false ∧ s.dev.devicePoisoned 15 = false) ∧
    (let u : Buffer := { va := 0x30000, size := 0x10000, psz := 0 }
     let s := mapped id (fun d => (({ d with lines := [(0x1400, { poison := true })] }.updTab fun t =>
       { t with images := [(0, { buffers := [u] })] }).updBlock 0 fun m => { m with drains := [15] }).updSnap 0 15 fun _ =>
         { state := 2 }) 0x50009
     s.dev.draining 0 = some 15 ∧ s.dev.poisonedDrain 0 15 = true) ∧
    (let s := late fun d => (d.updBlock 0 fun m => { m with drains := [15] }).updSnap 0 15 fun _ => { state := 2, broken := true }
     s.dev.draining 0 = some 15 ∧ (s.dev.snap 0 15).broken = true) ∧
    (let s := mapped id (fun d => { d.updTab (fun t => { t with images := [(0, { buffers := [{ va := 0x30000, size := 0x10000, psz := 0 }] })] })
         with flash := { d.flash with bpBusy := [0x50000] } }) 0x50009
     s.dev.flash.bpBusy = [0x50000] ∧ s.dev.mm.retire = none ∧ (s.dev.mappings 5).map (fun m => (m.blk, m.sz, m.pte)) = [(0, 0, 0x50009)] ∧
       s.dev.freshPage 0x70 0x50000 65536 65536 = true ∧ (∀ x ∈ s.dev.mappings 5, s.dev.mstate x.blk ≠ sMigrating)) ∧
    (let r : Retire := { gran := 5, fresh := 0x70, maps := [⟨0, 0x30000, 0, 0x50009⟩] }
     let s := mapped id (fun d => { d with mm := { d.mm with retire := some r } }) 0x50009
     s.dev.mm.retire = some r ∧ (s.endMapped r ⟨0, 0x30000, 0, 0x50009⟩).isSome = true) ∧
    (let r : Retire := { gran := 5, fresh := 0x70, areas := [(0x50000, 0x1000)] }
     let s := late fun d => { d with mm := { d.mm with retire := some r } }
     s.dev.mm.retire = some r ∧ r.maps = [] ∧ (s.endAreas r).isSome = true) ∧
    (let s := mapped id fun d => { d with flash := { d.flash with bpBusy := [0x600000] } }
     s.dev.flash.bpBusy = [0x600000] ∧ isLocal (0x70 * 65536) = true ∧ s.dev.badGranule 0x70 = false ∧
       0x70 ≠ bits (0x600000 : Word) 51 16 ∧ s.dev.mappings (bits (0x600000 : Word) 51 16) = [] ∧
       ∀ b ∈ s.dev.liveBlocks, s.dev.tablesIn b (bits (0x600000 : Word) 51 16) = false ∧
         (s.dev.block b).ownsIn (bits (0x600000 : Word) 51 16 * 65536) 65536 = false) :=
  ⟨by decide +kernel, ⟨_, rfl, by decide +kernel⟩, by decide +kernel⟩

/-- Stack 7 changed, long after reset, at a boundary of slots, rotations and windows. -/
def atStack (f : Hbm → Hbm) : State := late fun d => d.updHbm 7 f

theorem wit_calendar :
    (7 : Nat) < 8 ∧ (511 : Nat) < 512 ∧ (late id).dev.cycle % 288 = 0 ∧ (late id).dev.cycle % 18 = 0 ∧
    (late id).dev.cycle % 57600000 = 0 ∧
    ((atStack fun h => { h with calsw := 1 }).dev.hbm 7).calsw = 1 ∧
    ((atStack fun h => { h with calsw := 1 }).dev.hbm 7).refuses = false ∧
    ((atStack fun h => { h with calsw := 1, plan1 := [(8176, 1), (8184, 1)] }).dev.hbm 7).refuses = true ∧
    (let s := atStack fun h => { h with chans := [(511, { bal := 7, begun := 3 })] }
     let t : State := { s with dev := { s.dev with cycle := 18 * 7 + 54 } }
     t.dev.cycle = 18 * 7 + 54 ∧ ((t.dev.hbm 7).chan 511).begun ≤ 7 ∧ ((((t.dev.hbm 7).chan 511).settle 7).pass 7).bal + 1 = 8) ∧
    -- the end of a forced refresh before slot 7 leaves no balance; a claim of slot 9 to the pointer's bank conflicts there,
    -- and one of other traffic in slot 6 is done
    (let c : Chan := ((({ bal := 3, forced := some 126 } : Chan).settle 7).pass 7)
     c.forced = none ∧ c.targeted = [] ∧ c.bal = 0 ∧ c.conflict 7 = false) ∧
    (let c : Chan := { claims := [{ slot := 9, line := 0 }, { slot := 6, line := 0, other := true }] }
     (c.pass 7).conflict 7 = true ∧ (c.pass 7).claims.length = 1) ∧
    entryRefresh (planEntry ((late id).dev.hbm 7).plan 511 0) = true ∧ entryRefresh (planEntry ((late id).dev.hbm 7).plan 511 15) = false ∧
    (((atStack fun h => { h with chans := [(511, { forced := some 3 })] }).dev.hbm 7).chan 511).forced = some 3 ∧
    3 + 54 ≤ (late id).dev.cycle ∧ ((late id).dev.hbm 7).high = false ∧
    ((atStack fun h => { h with high := true }).dev.hbm 7).high = true ∧
    (let p : PendSld := { line := 1, issue := 0, ret := 9 }
     let s := late id id fun c => { c with slds := [p] }
     (s.dev.ctx 4).slds.find? s.dev.sldDue = some p) ∧
    (let p : PendSld := { line := 1, issue := 0, ret := 9, chan := some (7, 511), win := some 0 }
     let s := late id id fun c => { c with slds := [p] }
     (s.dev.ctx 4).slds.find? s.dev.sldDue = some p ∧ p.notBefore (s.dev.ctx 4).refAt = true) := by decide +kernel

/-- Block 0 RUNNING with an operation of context 4 on a timeline. -/
def atOp (work : List EngWrite) (task : Task → Task := id) : State :=
  let o : EngOp := { blk := 0, agent := 4, e := 7, num := 1, eng := 0, op := 0, held := false, work := work }
  let s := running (fun c => { c with tls := [(7, { issued := 1, live := [1] })] }) id task
  { s with dev := { s.dev with ops := [o] } }

def met (s : State) : Option Met :=
  match s.dev.runnable 4 7, s.dev.binding 0 with
  | some o, some k => (s.engOutcome o k).2
  | _, _ => none

theorem wit_engineEvents :
    (∃ o k, (atOp []).dev.runnable 4 7 = some o ∧ (atOp []).dev.binding o.blk = some k ∧ o.work = [] ∧ o.succ = [] ∧
      o.bar = none ∧ o.eng ≠ 5 ∧ met (atOp []) = none) ∧
    (let s := atOp [{ dst := 0x90000, bytes := [7] }] fun t => { t with pin := .firm }
     ∃ o k m, s.dev.runnable 4 7 = some o ∧ s.dev.binding o.blk = some k ∧ (s.engOutcome o k).2 = some m ∧
       (s.engOutcome o k).1.dev.faults o m = true ∧ o.bar = none ∧ o.tasked = true ∧
       ∃ x, ((s.engOutcome o k).1.dev.ctx 4).task = some x ∧ x.pin = .firm) :=
  ⟨⟨_, _, rfl, rfl, rfl, rfl, rfl, by decide, rfl⟩, ⟨_, _, _, rfl, rfl, rfl, rfl, rfl, rfl, _, rfl, rfl⟩⟩

/-- An entry of core 1's matrix queue. -/
def macz (started : Bool) : MEntry := { ctx := 4, e := 0, num := 1, op := .macz 1, started := started }

/-- The machine with the words of the next bundle, the core's ceiling and the context's `pc`. -/
def fetching (w : Word32) (pc : Word := 0x10000) (ceiling : BitVec 16 := 65535) : State :=
  late (fun d => (d.placeCode 0x10000 0 [w]).updCore 1 fun k => { k with ceiling := ceiling })
    (fun k => { k with win := { vpn := 3, sz := 0 } :: k.win }) fun c => { c with regs := { c.regs with pc := pc } }

theorem wit_coreEvents :
    (let s := late fun d => d.updCore 1 fun k => { k with mq := [macz false] }
     nextEntry .array [] (s.dev.core 1).mq = some ([], macz false) ∧ (macz false).free [] = true ∧ (s.dev.core 1).issued = false ∧
       (macz false).issued + 2 ≤ s.dev.cycle) ∧
    (let s := late fun d => d.updCore 1 fun k => { k with mq := [macz true] }
     (s.dev.core 1).doneEntry .array = some (macz true) ∧ (macz true).op = .macz 1) ∧
    (let u := (fetching 0x88000000 0x10000 0).issuePoint 1
     (u.dev.core 1).freezes (u.nextWeight 1) = true ∧ (u.dev.core 1).issued = false) ∧
    (let u := (fetching 0x80000001).issuePoint 1
     u.nextBundle 1 = some (4, 0, .ok [0x80000001]) ∧
       (encodingFault (!isUpper (coreOf 4)) (([0x80000001] : List Word32).map decWord)).isSome = true ∧
       (let shut : State := { u with bundle := some (shutBundle u 4 [0x80000001]) }
        let leaf := shut.leafOf (([0x80000001] : List Word32).map decWord)
        (u.dev.ctx 4).interlocked u.dev.cycle leaf (([0x80000001] : List Word32).map decWord) = false ∧
          shut.farHeld leaf (([0x80000001] : List Word32).map decWord) = false) ∧
       (u.dev.core (coreOf 4)).freezes (u.nextWeight (coreOf 4)) = false) ∧
    ((fetching 0 0x90000).issuePoint 1).nextBundle 1 = some (4, 0, .error (.trap 0x08 0x90000)) ∧
    ((fetching 0 0x30000).issuePoint 1).nextBundle 1 = some (4, 0, .error (.abort 0x40 0x30000)) ∧
    (∀ stop ∈ [none, some 0],
     let s := running (fun c => { c with segOpen := true, seg := { stopped := stop } }) fun k => { k with prot := true }
     (∃ k, s.dev.taskBinding 4 = some (0, k) ∧ k.prot = true ∧ k.follower (cellOf (coreOf 4)) = false) ∧
       (s.dev.ctx 4).segOpen = true ∧ (s.dev.ctx 4).seg.stopped = stop ∧ (s.dev.ctx 4).seg.matrix = false ∧
       (s.dev.ctx 4).seg.rewinds < 2) ∧
    (∀ c : Bool × Bool × Nat, c ∈ [(false, false, 0), (true, true, 0), (true, false, 2)] →
      let s := running (fun x => { x with segOpen := c.1, seg := { matrix := c.2.1, rewinds := c.2.2 } }) fun k => { k with prot := true }
      (s.dev.taskBinding 4).any (fun b => b.2.prot && !b.2.follower (cellOf (coreOf 4))) = true ∧
        ((s.dev.ctx 4).segOpen = false ∨ (s.dev.ctx 4).seg.stopped = none ∧
          ((s.dev.ctx 4).seg.matrix = true ∨ 2 ≤ (s.dev.ctx 4).seg.rewinds))) ∧
    (let s := late id id fun c => { c with segOpen := true, seg := { stopped := some 0 } }
     (s.dev.ctx 4).seg.stopped = some 0 ∧ (s.dev.ctx 4).segOpen = true ∧ 0 + 40 ≤ s.dev.cycle) :=
  ⟨by decide +kernel, by decide +kernel, by decide +kernel, by decide +kernel, by decide +kernel, by decide +kernel,
    List.forall_mem_cons.2 ⟨⟨⟨_, rfl, by decide +kernel⟩, by decide +kernel⟩, List.forall_mem_cons.2
      ⟨⟨⟨_, rfl, by decide +kernel⟩, by decide +kernel⟩, nofun⟩⟩, by decide +kernel, by decide +kernel⟩

/-! Errors, power and commands. The owner is the driver of the physical function, on host queue 0, and every firmware
function is up. -/

def owned (f : Device → Device := id) (k : Binding → Binding := id) : State :=
  late (fun d => f (d.updOut fun o =>
    { o with owner := 4, hostq := [(0, { d0 := 0x8000000000000000 })]
             firm := (List.range 8).map fun f => (f, ({ up := true } : Firm)) })) k

def ecc (struct : Nat) (corrected : Bool) (unit : Nat := 0) : EccEvent :=
  { struct := struct, agent := 2047, unit := unit, pa := 0x20000, corrected := corrected, synd := 0 }

theorem wit_errorsAndPower :
    (∀ n, n < 18 → (late id).dev.eccFits (ecc (n + 1) true) = true) ∧
    ((late fun d => d.setMstate 1 sIdle).dev.eccFits (ecc 15 true 1) = true) ∧
    (late id).dev.eccFits (ecc 14 false) = true ∧ (late id).dev.patrols .hbm 0x1FFFFFFFF = true ∧
    ((late id).dev.access 0x1FFFFFFFF).isSome = true ∧
    (let s := late fun d => d.updTab fun t => { t with placed := [(8, { mask := 8 })] }
     s.dev.patrols (.sram 3) 2048 = true) ∧
    (let r : ErrRec := { cls := 1, prev := true }
     let s := late fun d => { d with err := { d.err with queue := [r] } }
     s.dev.err.queue = [r] ∧ r.prev = true) ∧
    (late id).dev.eccFits (ecc 8 false 1) = true ∧
    (let at_ (p m : BitVec 16) (td th : BitVec 8) (c : BitVec 16) : State :=
       late fun d => ((d.updOut fun o => { o with sensors := { pwr := p, module := m, tdie := td, thbm := th } }).updCore 511 fun k =>
         { k with ceiling := c })
     (∀ s ∈ [at_ 2801 0 0 0 9, at_ 0 3001 0 0 9, at_ 0 0 105 0 9, at_ 0 0 0 95 9], ((s.dev.core 511).ceiling = 9 ∧
       (2800 < s.dev.out.sensors.pwr.toNat ∨ 3000 < s.dev.out.sensors.module.toNat ∨ 105 ≤ s.dev.out.sensors.tdie.toNat ∨
         95 ≤ s.dev.out.sensors.thbm.toNat))) ∧
     (let s := at_ 2660 2850 100 90 9
      (s.dev.core 511).ceiling = 9 ∧ s.dev.out.sensors.pwr.toNat ≤ 2660 ∧ s.dev.out.sensors.module.toNat ≤ 2850 ∧
        s.dev.out.sensors.tdie.toNat ≤ 100 ∧ s.dev.out.sensors.thbm.toNat ≤ 90)) ∧
    (let r : ErrRec := { cls := 1 }
     let s := late fun d => d.post r
     s.dev.err.queue ≠ [] ∧ ∀ r ∈ s.dev.err.queue, r.prev = false ∧ r.rung ≠ 5 ∧ r.rung ≠ 6 ∧ r.cls ≠ 2 ∧ r.cls ≠ 3) ∧
    mfind (late fun d => { d with err := { d.err with stackReset := [(3, 1)] } }).dev.err.stackReset 3 = some 1 ∧
    ((late id).dev.fw 4).last + 90000000 ≤ (late id).dev.cycle ∧ (late id).dev.power = .on ∧
    (late fun d => { d with power := .off }).dev.power = .off ∧ (late id).dev.power ≠ .off ∧
    (511 : Nat) < 512 ∧ (owned id).dev.owner = some 0 ∧
    bits (0x10000 : Word) 59 52 = 0 ∧ bits (0x10000 : Word) 15 0 = 0 ∧
    (owned id).dev.flash.bad.length + (owned id).dev.flash.bpBusy.length < 8192 ∧
    (let s := late fun d => d.updCell 255 fun x => { x with ugreq := true }
     (s.dev.cell 255).ugreq = true ∧ (s.dev.cell 255).gated = false ∧ s.dev.usesUpper 255 = false) ∧
    (let s := late fun d => d.updCell 255 fun x => { x with gated := true, ungating := true }
     (s.dev.cell 255).gated = true ∧ (s.dev.cell 255).ungating = true) ∧
    ((owned id).dev.hq 0).en = true ∧ ((owned id).dev.hq 0).dev = false ∧ ((owned id).dev.hq 0).fn = 0 ∧
    (owned id).dev.out.pcie.has 0 = true ∧ (owned id).dev.mm.waiting = [] ∧
    (0x208 : Nat) % 8 = 0 ∧ (0x100028 : Nat) % 8 = 0 := by decide +kernel

/-- A command of the owner. -/
def cmd (arg : BitVec 13) (words : List Word32) : Cmd := { who := 0, q := 0, level := 0, cpl := false, arg := arg, words := words }

theorem wit_taken :
    (∀ t ∈ ([0, 1, 2, 3, 8, 9, 10, 11, 12, 13, 0x10, 0x11, 0x12, 0x14, 0x15, 0x18, 0x1A, 0x1B, 0x1D, 0x1E, 0x1F, 0x20, 0x22,
        0x23, 0x24, 0x25, 0x28, 0x29, 0x30, 0x31] : List Nat),
      ∀ w ∈ [whoO, whoMT, whoOMT, { all := true }, { m := true }, { o := true, t := true }, { o := true, d := true }],
        Taken (owned id) (cmd 0 []) t w) ∧
    Names (owned id) (cmd 0 [32767]) 32767 ∧ Names (owned id) (cmd 0 [0]) 0 := by
  unfold Taken Names; decide +kernel

/-- The machine with block 1 in a state, and a command of the owner that waits. -/
def inState (st : Nat) (k : PendKind := .suspend 9) : State :=
  owned fun d => { d.updOut (fun o => { o with pend := [{ under k with q := 5 }], linkUp := 0xFFFFFF, routes := [(511, [23])] }) with top := 9 }
    |>.updBlock 1 fun m => m.set fState st

theorem wit_streamCommands :
    (cmd 0 []).arg = 0 ∧ plain (cmd 0 [0, 0, 0x100000]) 3 0 = true ∧ (3 : Nat) < 4 ∧ 0 < pw (cmd 0 [0, 0, 0x100000]) 2 ∧
    pw (cmd 0 [0, 0, 0x100000]) 2 ≤ 2 ^ 20 ∧ plain (cmd 1 [0x20000, 0, 9, 0]) 4 1 = true ∧
    pd (cmd 1 [0x20000, 0, 9, 0]) 0 % 8 = 0 ∧ isLocal (pd (cmd 1 [0x20000, 0, 9, 0]) 0) = true ∧
    isRemote (pd (cmd 1 [0, 0x000FFC00, 9, 0]) 0) = true ∧
    (inState sIdle).dev.reachable (peerOf (pd (cmd 1 [0, 0x000FFC00, 9, 0]) 0)) = true ∧
    plain (cmd 1 [0x20000, 0, 0, 0, 5]) 5 2 = true ∧ isLocal (pd (cmd 1 [0x20000, 0, 0, 0, 5]) 0) = true ∧
    (owned id).dev.mustWait none (pd (cmd 1 [0x20000, 0, 9, 0]) 0 / 64) = false ∧
    (let w : HeldWrite := { agent := 0x0910, pa := 0x20000, bytes := [7] }
     (owned fun d => { d with mm := { d.mm with waiting := [w] } }).dev.mustWait none (0x20000 / 64) = true) ∧
    isLocal (pd (cmd 1 [0, 0x000FFC00, 0, 0, 5]) 0) = false ∧ isRemote (pd (cmd 1 [0, 0x000FFC00, 0, 0, 5]) 0) = true ∧
    (owned id).waitMet 0 true 0x20000 0 false = true ∧ (owned id).waitMet 0 false 8 1 true = false ∧
    (let p := { under (.wait true 0x20000 0 false (some 1)) with q := 5 }
     let s := inState sIdle p.kind
     p ∈ s.dev.out.pend ∧ (∀ x ∈ s.dev.out.pend, x.q = p.q → x = p) ∧ s.waitMet p.q true 0x20000 0 false = true ∧
       1 ≤ s.dev.cycle) := by decide +kernel

/-- The words of a create command for block 1 with image 5 and room to save. -/
def createWords : List Word32 :=
  let m := ((({} : Block).set fImage 5).set fSavelen 0xFFFFFF).set fRkid 1
  1 :: ((List.range 15).flatMap fun i => [(m.dw i).setWidth 32, (m.dw i >>> 32).setWidth 32]) ++ List.replicate 34 0

def withImage : State := owned fun d => d.updTab fun t => { t with images := [(5, {})] }

theorem wit_controlBlocks :
    (let c := cmd 0 createWords
     let m := createdBlock (withImage.dev.block 1) ((withImage.dev.flash.current 1).getD 0) c
     plain c 65 0 = true ∧ withImage.dev.mstate 1 = sFree ∧ m.shapeOk = true ∧ withImage.dev.saveOk m = true ∧
       withImage.dev.pairHeld 1 (hashKey (m.get fRkid) (m.get fFnid)) = false) ∧
    (let c := cmd 0 [1, 14, 5, 0, 0xFFFFFFFF, 0xFFFFFFFF]
     let i := pw c 1
     let mask := word (pd c 4) &&& rwMask i
     plain c 6 0 = true ∧ i < 15 ∧ ((withImage.dev.block 1).write i (word (pd c 2)) mask).shapeOk = true ∧ i ≠ 0 ∧ i ≠ 8 ∧ i ≠ 9) ∧
    (let c := cmd 0 [1, 9, 0xFFFFFF, 0, 0xFFFFFFFF, 0]
     let mask := word (pd c 4) &&& rwMask 9
     withImage.dev.saveOk ((({} : Block).set fImage 5).write 9 (word (pd c 2)) mask) = true) ∧
    plain (cmd 0 [1, 0, 0]) 3 0 = true ∧
    (∀ n, n < 5 → stateArg (cmd (BitVec.ofNat 13 n) [1]) n = true) ∧
    (∀ st ∈ [sIdle, sQueued, sPreempted, sSuspended, sDead], (inState st).dev.mstate 1 = st ∧
      (inState st).dev.retiredImage 1 = false) ∧ (late id).dev.mstate 0 = sRunning ∧ sRunning ≠ sFree ∧
    (inState sDead).dev.quiet 1 = true ∧
    (let s := owned fun d => { d.updBlock 1 fun m => (m.set fState sDead).set fBstamp 9 with qlow := 5 }
     s.dev.mstate 1 = sDead ∧ s.dev.quiet 1 = false) ∧
    plain (cmd 0 [1, 511]) 2 0 = true ∧ (inState sIdle).dev.out.buoys.length < 4096 ∧ (inState sIdle).dev.reachable 511 = true ∧
    plain (cmd 0 [1]) 1 0 = true ∧ (owned id).dev.binding 1 = none ∧ (owned id).dev.binding 0 ≠ none ∧
    (let p := { under (.release 1) with q := 5 }
     let s := inState sDead p.kind
     p ∈ s.dev.out.pend ∧ p.kind = .release 1 ∧ s.dev.quiet 1 = true) := by decide +kernel

/-- The least image, at the page of device memory: one buffer of one page, which holds its entry. -/
def leastImage : List Byte :=
  let dws : List Nat := [2 ^ 32 + 0x495A5844, 77 * 2 ^ 32 + 2 ^ 14, 2 ^ 32 + 2 ^ 16 + 1, 2 ^ 32 + 2 ^ 16 + 1, 0, 0x10000, 0, 1] ++
    List.replicate 8 0 ++ [0x10000, 0x10000, 0x20, 0]
  dws.flatMap fun x => toBytes x 8

theorem wit_imageCommands :
    (let c := cmd 1 [0x20000, 0, 160, 3, 4095]
     let s := owned fun d => d.poke 0x20000 leastImage
     plain c 5 1 = true ∧ pw c 4 < 4096 ∧ isLocal (pd c 0) = true ∧ isLocal (pd c 0 + pw c 2 - 1) = true ∧
       (loadImage (s.dev.cmdGet c.q (c.arg.getLsbD 0) (pd c 0) (pw c 2)) 3 4095).isSome = true) ∧
    plain (cmd 0 [3]) 1 0 = true ∧ mfind withImage.dev.tab.images ((({} : Block).set fImage 5).get fImage) = some {} ∧
    plain (cmd 0 [4095, 1, 0x7FFF]) 3 0 = true ∧ pw (cmd 0 [4095, 1, 0x7FFF]) 0 < 4096 ∧
    pw (cmd 0 [4095, 1, 0x7FFF]) 2 < 0x8000 ∧ pw (cmd 0 [4095, 1, 0x8000]) 2 = 0x8000 ∧
    (let c := cmd 1 [1023, 0x10005, 1, 0, 0, 0, 0, 0, 0, 0]
     plain c 10 1 = true ∧ pw c 0 < 1024 ∧ (∀ x ∈ (owned id).dev.tab.resv, x.1 = pw c 0 ∨ x.2.cells &&& cellWords c = 0) ∧
       ((owned id).dev.resvOf (pw c 0)).cells &&& ~~~(cellWords c) = 0) ∧
    plain (cmd 0 [0, 1789200, 0]) 3 0 = true ∧ pw (cmd 0 [0, 1789200, 0]) 0 = 0 ∧ pd (cmd 0 [0, 1789200, 0]) 1 ≤ 1789200 ∧
    pw (cmd 0 [1, 7, 0]) 0 = 1 ∧ plain (cmd 0 [1, 0, 0, 1]) 4 0 = true ∧ (owned id).dev.binding 1 = none ∧
    (owned id).dev.mstate 1 ≠ sMigrating ∧ ((owned id).dev.binding 0).isSome = true ∧
    (inState sMigrating).dev.binding 1 = none ∧ (inState sMigrating).dev.mstate 1 = sMigrating ∧
    plain (cmd 0 [0, 511, 0, 0]) 4 0 = true ∧ pw (cmd 0 [0, 511, 0, 0]) 1 ≤ 511 ∧
    (let s := owned fun d => ((d.updTab fun t => { t with images := [(5, { sys := true })] }).updBlock 1 fun m =>
       (m.set fState sIdle).set fImage 5)
     (s.dev.imageOf 1).sys = true ∧ s.dev.mstate 1 ≠ sFree ∧ s.dev.mstate 1 ≠ sDead ∧ s.dev.retiredImage 1 = false ∧
       (s.dev.block 1).hasUnits 1 = true) := by decide +kernel

theorem wit_snapshotCommands :
    (owned id).dev.settled = true ∧ plain (cmd 0 []) 0 0 = true ∧ (owned id).dev.freeHandle devTable = some 1 ∧
    (cmd 241 []).words = [] ∧ (cmd 241 []).arg.toNat = 16 * 15 + 1 ∧ (cmd 241 []).arg.toNat < 256 ∧
    (∀ n ∈ ([1, 2] : List (BitVec 2)),
      let s := owned fun d => (d.updSnap devTable 15 fun _ => { state := n }).updSnap 32767 15 fun _ => { state := n }
      (s.dev.snap devTable 15).state = n ∧ (s.dev.snap 32767 15).state = n ∧ n ≠ 0) ∧
    plain (cmd 0 [0xFFFFFFFF, 15]) 2 0 = true ∧ pw (cmd 0 [0xFFFFFFFF, 15]) 0 = 0xFFFFFFFF ∧
    pw (cmd 0 [32767, 15]) 0 < 32768 ∧ 1 ≤ pw (cmd 0 [32767, 15]) 1 ∧ pw (cmd 0 [32767, 15]) 1 ≤ 15 ∧
    plain (cmd 0 [4095, 0, 0]) 3 0 = true ∧ pw (cmd 0 [4095, 0, 0]) 0 < 4096 ∧ (owned id).dev.reaches 0 4095 = true ∧
    plain (cmd 0 [4095, 1, 0, 0]) 4 0 = true ∧ pw (cmd 0 [4095, 1, 0, 0]) 0 + pw (cmd 0 [4095, 1, 0, 0]) 1 ≤ 4096 ∧
    (∀ i, i < 1 → (owned id).dev.reaches 0 (4095 + i) = true) := by decide +kernel

/-- The machine with the owner register at a value, and the driver's queue. -/
def withOwner (v : BitVec 8) (since : Nat := 0) : State := owned fun d => d.updOut fun o => { o with owner := v, handover := since }

theorem wit_ownerCommands :
    (withOwner 0).dev.owner = none ∧ (withOwner 0).dev.claimTurn 0 = true ∧ Taken (withOwner 0) (cmd 0 [0]) 0x20 { m := true } ∧
    (cmd 0 [0]).words.length = 1 ∧ pw (cmd 0 [0]) 0 = 0 ∧ (cmd 0 [0]).arg = 0 ∧ (cmd 2 [0]).arg = 2 ∧
    (withOwner 0x84 576000000000).dev.handing = true ∧ bits (withOwner 0x84).dev.out.owner 5 4 = 0 ∧
    Taken (withOwner 0x84 576000000000) (cmd 2 [0]) 0x20 { m := true } ∧ (cmd 1 [3]).arg = 1 ∧ pw (cmd 1 [3]) 0 ≤ 3 ∧
    (withOwner 0x84).dev.out.owner.getLsbD 7 = true ∧
    (withOwner 0x84).dev.out.handover + 1800000000 ≤ (withOwner 0x84).dev.cycle ∧
    (let s := owned fun d => d.updPcie fun p => { p with link := false }
     s.dev.owner = some 0 ∧ s.dev.channelLost 0 = true) ∧ plain (cmd 0 [8]) 1 0 = true ∧ pw (cmd 0 [8]) 0 = 8 ∧
    regOffset (pw (cmd 0 [8]) 0) = true ∧ regOffset 0x7FFFF8 = true ∧ plain (cmd 0 [0x100028, 0, 0]) 3 0 = true ∧
    regOffset 0x100028 = true ∧ pw (cmd 0 [0x100028, 0, 0]) 0 = 0x100028 ∧
    plain (cmd 0 (8191 :: List.replicate 8 0)) 9 0 = true ∧ pw (cmd 0 (8191 :: List.replicate 8 0)) 0 < 8192 := by
  unfold Taken; decide +kernel

theorem wit_firmwareCommands :
    (let c := cmd 0 [7, 0, 0, 0]
     c.words.length = 4 ∧ c.arg = 0 ∧ pw c 0 ≤ 7 ∧ ((owned id).dev.fw (pw c 0)).probation = none ∧
       imagePasses (pw c 0) ((owned id).dev.cmdGet c.q false (pd c 1) (pw c 3)) = false) ∧
    (let c := cmd 0 [7]
     let s := owned fun d => d.updFw 7 fun g => { g with validB := true }
     c.words.length = 1 ∧ c.arg = 0 ∧ (s.dev.fw (pw c 0)).valid (!(s.dev.fw (pw c 0)).running) = true ∧
       (s.dev.fw (pw c 0)).probation = none) := by decide +kernel

/-- An image of no groups: a header of version 1 and a signature of zeros. -/
def leastFirmware : List Byte := toBytes 1 4 ++ toBytes libMagic 4 ++ List.replicate 152 0

/-- Whether an image passes is for the security root's key (`Config.sigOk`) and fuses: where they admit it, it does. -/
theorem wit_fwStagePasses (h : ∀ m g, Config.sigOk m g = true) (v : Config.fusedMinimum 7 ≤ 1) :
    imagePasses 7 leastFirmware = true := by
  have shape : (decide (160 ≤ leastFirmware.length) && libHeaderOk (leastFirmware.take 64) &&
      ofBytes ((leastFirmware.drop 8).take 8) + 64 == leastFirmware.length - 96) = true ∧
      ofBytes (leastFirmware.take 4) = 1 := by decide +kernel
  simp_all [imagePasses]

theorem wit_launchCommands :
    (let c := cmd 7 [511, 1, 255, 0, 0, 0]
     (inState sIdle).dev.launchHeld 0 = false ∧ c.arg.toNat < 8 ∧ c.words.length = 6 + pw c 5 ∧ pw c 5 ≤ 1024 ∧
       pw c 0 < 512 ∧ pw c 1 < 32768 ∧ pw c 2 < 256 ∧ pw c 0 ≠ (inState sIdle).dev.out.devno.toNat ∧
       (inState sIdle).dev.reachable (pw c 0) = true) ∧
    (let c := cmd 7 [2, 0, 0, 0, 511, 32767, 255, 510, 0, 0]
     4 ≤ c.words.length ∧ c.words.length = 4 + 3 * pw c 0 + pw c 3 ∧ 2 ≤ pw c 0 ∧ pw c 0 ≤ 16 ∧
       ∀ m ∈ gangMembers c, m.1 < 512 ∧ m.2.1 < 32768 ∧ m.2.2 < 256) := by decide +kernel

/-! The fabric, migration, firmware and SPDM. -/

/-- An access entry that gives device 511's tenant 9 every right on the first gigabyte, and its launch into block 1. -/
def admitting (f : Device → Device := id) (k : Binding → Binding := id) : State :=
  owned (fun d => f ((d.updOut fun o => { o with linkUp := 0xFFFFFF, acl :=
    [(0, { w0 := word (2 ^ 63 + 15 * 2 ^ 52 + 9 * 2 ^ 28 + 511), w2 := 0x3FFFFFFF }),
     (1, { w0 := word (2 ^ 63 + 2 ^ 62 + 15 * 2 ^ 52 + 9 * 2 ^ 28 + 511), w1 := 1, w2 := 1 })] }).updBlock 1 fun m =>
       (m.set fState sIdle).set fGen 3)) k

def access (k : RemoteKind) (pa : Nat := 0x20000) : RemoteAccess := { sdev := 511, ten := 9, pa := pa, kind := k, port := 23 }

def packet (blk : Nat) : LaunchPacket :=
  { sdev := 511, ten := 9, id := 5, blk := blk, gen := 3, pcls := 0, gang := false, payload := [] }

theorem wit_fabric :
    (∀ r ∈ ([(511, [23])] : List (BitVec 9 × List Nat)), r.1.toNat < 512 ∧ ∀ p ∈ r.2, p < 24) ∧
    (23 : Nat) < 24 ∧ (admitting).dev.out.linkUp.getLsbD 23 = true ∧ (admitting).dev.out.launches = [] ∧
    mget 0 (admitting).dev.out.flitTries 23 < 16 ∧
    (let s := admitting fun d => d.updOut fun o => { o with flitTries := [(23, 16)] }
     s.dev.out.linkUp.getLsbD 23 = true ∧ 16 ≤ mget 0 s.dev.out.flitTries 23) ∧
    (admitting).dev.out.migs = [] ∧
    (admitting).dev.remoteKid (access (.load 8)) 0 0x20000 8 = some 0 ∧
    (∀ l ∈ linesOf 0x20000 8, ((admitting).dev.line l).poison = false ∧ ((admitting).dev.line l).wts = 0) ∧
    (admitting).dev.remoteKid (access (.atomic 8 0 1 0)) 2 0x20000 8 = some 0 ∧
    amoNew (0 : BitVec 4).toNat 8 (ofBytes ((admitting).dev.bytesUnder 0 0x20000 8)) 1 0 = some 1 ∧
    (admitting).dev.remoteKid (access (.atomic 8 0 1 0) 0x40000000) 2 0x40000000 8 = none ∧
    (let s := admitting fun d => { d with lines := [(0x800, { poison := true })] }
     s.dev.remoteKid (access (.atomic 8 0 1 0)) 2 0x20000 8 = some 0 ∧ (s.dev.line (0x20000 / 64)).poison = true) ∧
    (let x := rearm ((0 : Word).extractLsb' 0 31) (recOf ((admitting).dev.lineUnder (0x20000 / 64) 0))
     (9 : BitVec 4).toNat = 9 ∧ (0 : Int) ≤ bits x.1 15 0 + (1 : Word).toInt ∧ bits x.1 15 0 + (1 : Word).toInt ≤ 65535) ∧
    (let ops : List (Nat × RemoteOp) := [(0x20000, .store [7])]
     ((admitting).dev.remoteOps (access (.publish ops)) ops).isSome = true ∧ (admitting).dev.buoyAt 0x20000 = none) ∧
    (let ops : List (Nat × RemoteOp) := [(0x40000000, .store [7])]
     (admitting).dev.remoteOps (access (.publish ops)) ops = none) ∧
    (let u : Buoy := { dev := 511, blk := 3, since := 57600000 * 10000, pages := [(0x20000, 65536)] }
     let s := admitting fun d => d.updOut fun o => { o with buoys := [(0, u)], routes := [(511, [23])] }
     s.dev.buoyAt 0x20000 = some 511 ∧ s.dev.reachable 511 = true ∧
       (s.dev.remoteOps (access (.publish [(0x20000, .store [7])])) [(0x20000, .store [7])]).isSome = true) ∧
    (late id).dev.ctx 4 ≠ {} ∧ ((late id).dev.ctx 4).task.isSome = true ∧
    (admitting).dev.remoteKid (access (.load 8) 0x40000000) 0 0x40000000 8 = none ∧
    (admitting).dev.mayLaunch 511 9 2 = false ∧ (admitting).dev.mayLaunch 511 9 1 = true ∧
    (admitting).dev.mstate 1 ≠ sFree ∧ ((admitting).dev.block 1).get fGen = (packet 1).gen.toNat ∧
    (admitting).dev.appendStatus 1 (unitsOf (packet 1).payload.length) = 0 := by decide +kernel

/-- A launch of one block, or of a gang of two, under number 5. -/
def launched (gang : Bool) (acks : List Nat) (since : Nat) : State :=
  let x : Launch :=
    { q := 0, reply := none, members := [(511, 1), (510, 2)], acks := acks, gang := gang, since := since }
  owned fun d => d.updOut fun o => { o with launches := [(5, x)] }

theorem wit_launches :
    ((launched false [] 0).dev.launchOf 5).isSome = true ∧
    (let s := launched true [0] 0
     ∃ x e, s.dev.launchOf 5 = some x ∧ x.gang = true ∧ x.members.zipIdx.find? (fun e => !x.acks.contains e.2) = some e ∧
       x.since + 36000 < s.dev.cycle) ∧
    (let s := launched true [] (57600000 * 10000)
     ∃ base x i m, s.dev.gangOf 6 = some (base, x, i) ∧ x.members[i]? = some m ∧ s.dev.cycle ≤ x.since + 36000 ∧
       x.acks.contains i = false ∧ x.acks.length + 1 < x.members.length + 1) ∧
    (let g : GangHold := { origin := 511, id := 5, since := 0 }
     let s := late (fun d => d.updCtx 4 fun c => { c with task := none, run := .vacant }) fun k => { k with gang := some g }
     ∃ k, s.dev.binding 0 = some k ∧ k.gang = some g ∧ g.since + 1800000 ≤ s.dev.cycle ∧
       ∀ a ∈ k.agents, (s.dev.ctx a).task = none) ∧
    (let g : GangHold := { origin := 511, id := 5, since := 0 }
     let s := late fun d => d.updBlock 1 fun m => { m.set fState sPreempted with saved := some (d.saveOf 0 { gbase := 0, gang := some g }) }
     s.dev.binding 1 = none ∧ ((s.dev.block 1).saved.bind fun v => v.group.gang) = some g) ∧
    (let r : Rec := { record true with gang := true, origin := some (511, 5) }
     let s := queued fun m => { m with recs := [r] }
     s.dev.binding 1 = none ∧ s.dev.mstate 1 ≠ sPreempted ∧ (s.dev.block 1).recs.find?
       (fun r => r.gang && (match r.origin with | some o => o.1 == 511 | none => false)) = some r) := by
  refine ⟨by decide +kernel, ⟨_, _, rfl, rfl, rfl, by decide +kernel⟩, ⟨_, _, _, _, rfl, rfl, ?_⟩, ⟨_, rfl, ?_⟩, ?_⟩ <;>
    decide +kernel

theorem wit_migrations :
    (let g : Migration := { dev := 511, susp := false, since := 0 }
     let s := late fun d => (d.setMstate 32767 sMigrating).updOut fun o => { o with migs := [(32767, g)] }
     s.dev.migration 32767 = some g ∧ g.since + 18000000000 ≤ s.dev.cycle) ∧
    (∀ asked ∈ [none, some (57600000 * 10000 - 180000000)],
     let g : Migration := { dev := 511, susp := false, since := 57600000 * 10000 - 180000000, asked := asked }
     let s := late fun d => (d.setMstate 32767 sMigrating).updOut fun o => { o with migs := [(32767, g)] }
     s.dev.migration 32767 = some g ∧ s.dev.cycle < g.since + 18000000000 ∧
       g.asked.getD g.since + 180000000 ≤ s.dev.cycle) ∧
    (let u : Buoy := { dev := 511, blk := 2, since := 0 }
     let s := late fun d => d.updOut fun o => { o with buoys := [(32767 * 256 + 3, u)] }
     (32767 * 256 + 3, u) ∈ s.dev.out.buoys ∧ (32767 * 256 + 3) / 256 = 32767 ∧ u.since + 180000000 ≤ s.dev.cycle) ∧
    (late id).dev.takesCopy 32767 = true ∧ (∀ e ∈ ([(2 ^ 39 - 1, 7)] : List (Nat × Byte)), isLocal e.1 = true) ∧
    (let s := late fun d => d.updBlock 1 fun m => { m with unconfirmed := some 0 }
     (s.dev.block 1).unconfirmed = some 0 ∧ 0 + 18000000000 ≤ s.dev.cycle) := by decide +kernel

/-- Queue 0 with a `SIGNAL` to host memory in its ring. -/
def signalling : State :=
  owned fun d => (d.updHq 0 fun h => { h with d1 := 0x1000, wptr := 5 }).hostWrite 0 0 0x1000
    (toBytes (2 * 2 ^ 26 + 4 * 2 ^ 14) 4)

/-- Queue 0 with one command of a thousand words, of which its ring has one. -/
def overrun : State :=
  owned fun d => (d.updHq 0 fun h => { h with d1 := 0x1000, wptr := 4, since := some 0 }).hostWrite 0 0 0x1000
    (toBytes (1000 * 2 ^ 14) 4)

theorem wit_firmwareEvents :
    (let p : Probation := { since := 0, slot := false, cnt := 3 }
     let s := owned fun d => d.updFw 7 fun g => { g with probation := some p }
     (s.dev.fw 7).probation = some p ∧ p.since + 90000000 ≤ s.dev.cycle) ∧
    (let p : Probation := { since := 57600000 * 10000, slot := false, cnt := 3 }
     let s := owned fun d => d.updFw 7 fun g => { g with probation := some p }
     (s.dev.fw 7).probation = some p ∧ s.dev.cycle ≤ p.since + 90000000) ∧
    (∀ slow : Bool, let s := owned fun d => d.updFw 7 fun _ => { started := some (if slow then 0 else 57600000 * 10000) }
     (s.dev.fw 7).probation = none ∧ s.dev.booting 7 = true ∧ (s.dev.fw 7).startedAt 7 ≤ s.dev.cycle ∧
       (if slow then (s.dev.fw 7).startedAt 7 + 90000000 ≤ s.dev.cycle else s.dev.cycle ≤ (s.dev.fw 7).startedAt 7 + 90000000)) ∧
    (owned id).dev.carries 7 = true ∧
    ((owned id).dev.fw 7).probation = none ∧ ((owned id).dev.fw 7).last + 90000000 ≤ (owned id).dev.cycle ∧
    (let s := owned fun d => (d.updOut fun o => { o with mail := [(6 * 8 + 7, List.replicate 16 0)] }).updFw 6 fun g =>
       { g with sends := [(7, 0)], held := some 0 }
     16 ≤ (s.dev.mailbox 6 7).length ∧ (s.dev.fw 6).sends = [(7, 0)] ∧ (s.dev.fw 6).held = some 0 ∧
       0 + 180000000 ≤ s.dev.cycle) ∧
    ((owned id).dev.hq 0).en = true ∧ ((owned id).dev.hq 0).dev = false ∧ (owned id).dev.busyQueue 0 = false ∧
    (let p := under (.wait false 8 0 true none)
     let s := owned fun d => d.updOut fun o => { o with pend := [p] }
     p ∈ s.dev.out.pend ∧ p.q = 0 ∧ (∀ x ∈ s.dev.out.pend, x.q = 0 → x = p)) ∧
    (signalling.dev.out.pend = [] ∧ (signalling.dev.hq 0).en = true ∧
      (signalling.dev.packet 0).any (fun p => p.fits && hasHostData (packetType p.head) (p.head.extractLsb' 0 13)) = true) ∧
    (1 : Nat) ≤ 255 ∧
    (overrun.dev.hq 0).since = some 0 ∧ (∃ p, overrun.dev.packet 0 = some p ∧ p.fits = false ∧ p.level = 0) ∧
    (overrun.dev.hq 0).en = true ∧ 0 + 18000000 ≤ overrun.dev.cycle := by
  and_intros <;> first | (refine ⟨_, rfl, ?_⟩; decide +kernel) | decide +kernel

theorem wit_spdm :
    (∀ n : BitVec 2, (owned fun d => { d with dice := { d.dice with negotiated := n } }).dev.dice.negotiated = n) ∧
    (owned id).dev.out.bootOk = true ∧ bits (0 : BitVec 8) 3 0 = 0 ∧ (0xFF : BitVec 8).toNat = 0xFF ∧
    (12 : BitVec 8).toNat ≤ 12 := by decide +kernel

/-- The form of a certificate is open (`Config.factoryCertificate`): where it has bytes, a chunk begins within the chain. -/
theorem wit_certificates (h : Config.factoryCertificate ≠ []) : (0 : BitVec 16).toNat < (owned id).dev.certificates.length := by
  have := List.length_pos_iff.2 h
  simp only [Device.certificates, List.length_append]
  exact Nat.add_pos_left (Nat.add_pos_left this _) _

/-! The machine as a whole. -/

theorem wit_step :
    (let s := fetching 0x80000000
     let u := s.issuePoint s.focus
     let ds := [decWord 0x80000000]
     s.agenda = [] ∧ s.dev.power = .on ∧ u.nextBundle s.focus = some (4, 0, .ok [0x80000000]) ∧
       (u.dev.core (coreOf 4)).freezes (bundleWeight 0 ds) = false ∧
       (u.dev.ctx 4).interlocked u.dev.cycle 0 ds = false ∧
       State.farHeld { u with bundle := some (shutBundle u 4 [0x80000000]) } 0 ds = false ∧
       encodingFault (!isUpper (coreOf 4)) ds = none ∧
       (let v := openBundle u 4 0 [0x80000000]
        operandFault (v.before.core (coreOf 4)).vlimit (fun r => (mget {} v.ctx0.v r.toNat).tag) ds = none ∧
        modeFault v.ctx0.trap.mode v.bun.leaf ds = none ∧ v.bun.leaf = 0 ∧
        (decWord 0x80000000).taken v.bun.leaf = true) ∧
       (decWord 0x80000000).instr = some .nop ∧ lastOf .nop = none) ∧
    opened.bundle.isSome = true ∧ opened.bun.blockedBy = none ∧ opened.ctx0.segOpen = false ∧
    (∀ d ∈ [decWord 0x80000000], d.taken 0 = true → d.instr = some .nop) ∧
    resultsDue opened.dev.cycle 0 [decWord 0x80000000] = [] ∧ opened.ctx.due = [] ∧
    -- a slot of another leaf, and one whose trap ends the bundle beside a lower slot that reads no memory
    (decWord 0xB3038FFF).taken 0 = false ∧
    (match exec (.trap 0) (opened.atSlot [decWord 0x80000000] 0 (decWord 0x80000000)) with
      | .next t => t.bundle.isNone | _ => false) = true ∧
    ({ running id with agenda := [.event .stampRaise] } : State).agenda = [.event .stampRaise] ∧
    (running id).dev.lets .stampRaise = true := by decide +kernel

theorem wit_encoding :
    (∀ i ∈ ([.add 63 63 63, .li 63 0x7FFF, .vadd 63 0 63 7, .tree 15 15 15 15 4, .egoNetReply 63 7, .csrr 63 0x104] : List Instr),
      i.wf = true ∧ (encode i).isSome = true ∧ pathOk 0 i = true) ∧
    decodeSlot 0x80000000 = .ok ⟨true, 0, .nop⟩ := by decide +kernel

theorem wit_memWhole : MemWhole (loaded) ∧ MemWhole opened := by
  constructor <;> exact ⟨by unfold MemCanonical; decide +kernel, fun b h => by cases h <;> decide +kernel⟩

theorem wit_memory : Memory.wf State.reset.dev.mem = true ∧ Memory.wf (loaded).dev.mem = true ∧
    (0x20000 + 64 ≤ 0x20040 ∨ 0x20040 + 64 ≤ 0x20000) := by decide +kernel

-- A step fetches, decodes and runs the instruction placed where it fetches (R51): section 08's `ADDI s7, s7, -1`, tagged
-- with leaf 3.
theorem test_step_runs :
    ((after (step (State.reset.withFetchWord 32 0xB3038FFF))).dev.ctx 4).regs.sreg 7 = 0xFFFFFFFFFFFFFFFF := by
  decide +kernel

end Sys2Proof.Tests
end

/-! PROOF. Pages, errors, resets and power (O46, O49): what each event of theirs leaves, from one lemma per operation of the
device that the events share. -/

namespace Sys2Proof.Proofs

open Sys2Proof Sys2Proof.Machine Sys2Proof.Safety Sys2Proof.Laws

/-! ## How an event ends -/

theorem happens_event {i : Instr} {s t : State} {m : Option State} {P : State → Prop} (x : exec i s = s.event m)
    (e : m = some t) (h : P { t with last := .done }) : Happens i s P := by
  unfold Happens; rw [x]; exact completes_event e h

theorem happens_dev {i : Instr} {s : State} {m : Option Device} {d : Device} {P : State → Prop} (x : exec i s = s.devEvent m)
    (e : m = some d) (h : P { s with dev := d, last := .done }) : Happens i s P :=
  happens_event (m := m.map fun d => { s with dev := d }) x (by rw [e]; rfl) h

theorem becomes_dev {i : Instr} {s : State} {m : Option Device} {d : Device} (x : exec i s = s.devEvent m)
    (e : m = some d) : Becomes i s d := by
  unfold Becomes; rw [x, e]; rfl

/-- An event that leaves contexts and memory as they are. -/
theorem apart_of {s t : State} (c : t.dev.ctxs = s.dev.ctxs) (m : t.dev.mem = s.dev.mem) : Apart s t :=
  ⟨c, fun a => by rw [m]⟩

/-! ## Maps -/

theorem mfind_map {α β : Type} (g : Nat → α → β) (m : Map α) (k : Nat) :
    mfind (m.map fun e => (e.1, g e.1 e.2)) k = (mfind m k).map (g k) := by
  induction m with
  | nil => rfl
  | cons e r ih =>
    by_cases h : e.1 = k
    · simp [mfind, h]
    · simp [mfind, h, ih]

/-- Reading a map of which only the entries of some keys are kept. -/
theorem mget_filter {α : Type} (p : Nat → Bool) (z : α) (m : Map α) (k : Nat) :
    mget z (m.filter fun e => p e.1) k = if p k then mget z m k else z := by
  induction m with
  | nil => simp [mget]
  | cons e r ih =>
    cases hp : p e.1 <;> by_cases h : e.1 = k <;> simp_all [mget]

/-! ## Records and counts (R399, R407, R408, R410) -/

/-- What the reporting of an error leaves alone: the contexts, memory, and the counts of corrected errors. -/
def Reports (d x : Device) : Prop :=
  x.ctxs = d.ctxs ∧ x.mem = d.mem ∧ x.err.corrected = d.err.corrected

theorem Reports.refl (d : Device) : Reports d d := ⟨rfl, rfl, rfl⟩

theorem Reports.trans {d x y : Device} (h : Reports d x) (g : Reports x y) : Reports d y :=
  ⟨g.1.trans h.1, g.2.1.trans h.2.1, g.2.2.trans h.2.2⟩

theorem reports_post (d : Device) (r : ErrRec) : Reports d (d.post r) := by
  unfold Device.post; split <;> exact ⟨rfl, rfl, rfl⟩

theorem reports_faqPush (d : Device) (tier type line : Nat) : Reports d (d.faqPush tier type line) := by
  obtain ⟨m, h⟩ := faqPush_spec d tier type line
  rw [h]; exact ⟨rfl, rfl, rfl⟩

theorem reports_breakGen (d : Device) (agent owner : Nat) (gen : BitVec 32) : Reports d (d.breakGen agent owner gen) := by
  unfold Device.breakGen
  dsimp only
  split
  · exact .refl d
  · exact Reports.trans ⟨rfl, rfl, rfl⟩ (reports_post _ _)

theorem reports_updLine (d : Device) (n : Nat) (f : Line → Line) : Reports d (d.updLine n f) := ⟨rfl, rfl, rfl⟩

theorem reports_poisonHeap (d : Device) (line agent : Nat) : Reports d (d.poisonHeap line agent) := by
  unfold Device.poisonHeap
  split
  · split
    · exact .refl d
    · extract_lets x
      split
      · exact reports_updLine ..
      · split
        · exact reports_breakGen ..
        · exact .refl d
  · exact .refl d

theorem reports_poisonLine (d : Device) (struct tier line agent : Nat) (synd : BitVec 32) :
    Reports d (d.poisonLine struct tier line agent synd) := by
  unfold Device.poisonLine
  split
  · exact reports_faqPush ..
  · exact (((reports_updLine ..).trans (reports_poisonHeap ..)).trans (reports_faqPush ..)).trans (reports_post _ _)

theorem reports_mergeCorrected (d : Device) (e : EccEvent) : Reports d (d.mergeCorrected e) := ⟨rfl, rfl, rfl⟩

/-- A corrected error raises the count of its structure and stack by one, and leaves contexts and memory alone (R399). -/
theorem corrected_counts (d : Device) (e : EccEvent) :
    (d.corrected e).ctxs = d.ctxs ∧ (d.corrected e).mem = d.mem ∧
      mget 0 (d.corrected e).err.corrected (e.struct * 4 + eccStack e) =
        mget 0 d.err.corrected (e.struct * 4 + eccStack e) + 1 := by
  unfold Device.corrected
  extract_lets k x0 x first d1 d2 l times full x1 d3
  have h2 : Reports d1 d2 := by
    unfold d2
    split
    · exact reports_post _ _
    · exact reports_mergeCorrected ..
  have h3 : Reports d2 d3 := ⟨rfl, rfl, rfl⟩
  have hk : mget 0 d1.err.corrected k = mget 0 d.err.corrected k + 1 := mget_mset_same ..
  have key : ∀ y, Reports d1 y → y.ctxs = d.ctxs ∧ y.mem = d.mem ∧ mget 0 y.err.corrected k = mget 0 d.err.corrected k + 1 :=
    fun y ⟨hc, hm, he⟩ => ⟨hc, hm, by rw [he, hk]⟩
  split
  · split
    · exact key _ ((h2.trans h3).trans (reports_faqPush ..))
    · exact key _ (h2.trans h3)
  · exact key _ h2

/-! ## Storage errors and the patrol (R398 to R401) -/

@[simp] theorem line_post (d : Device) (r : ErrRec) (n : Nat) : (d.post r).line n = d.line n := by
  obtain ⟨e, h⟩ := post_spec d r
  rw [h]; rfl

@[simp] theorem line_faqPush (d : Device) (tier type line n : Nat) : (d.faqPush tier type line).line n = d.line n := by
  obtain ⟨m, h⟩ := faqPush_spec d tier type line
  rw [h]; rfl

/-- Poison that meets the version heap leaves every line's own poison bit as it was. -/
theorem poisonHeap_poison (d : Device) (line agent n : Nat) : ((d.poisonHeap line agent).line n).poison = (d.line n).poison := by
  unfold Device.poisonHeap
  split
  · split
    · rfl
    · extract_lets x
      split
      · rw [Device.line_updLine]
        split
        · subst n; rfl
        · rfl
      · split
        · unfold Device.breakGen
          extract_lets h
          split
          · rfl
          · rw [line_post]; rfl
        · rfl
  · rfl

/-- A line found uncorrectable is poisoned (R401). -/
theorem poisonLine_poison (d : Device) (struct tier line agent : Nat) (synd : BitVec 32) :
    ((d.poisonLine struct tier line agent synd).line line).poison = true := by
  unfold Device.poisonLine
  split
  next h => rwa [line_faqPush]
  next => simp [poisonHeap_poison, Device.line_updLine]

theorem moveSld_mem (d : Device) (at_ : Nat) (e : Nat × PendSld) : (d.moveSld at_ e).mem = d.mem := by
  have place : ∀ core from_ q, (d.placeSld core from_ q).1.mem = d.mem := by
    intro core from_ q
    unfold Device.placeSld
    extract_lets hb c h ch owns put
    have hp : ∀ o i t, (put o i t).1.mem = d.mem := fun _ _ _ => rfl
    split
    · exact hp ..
    · split
      · exact hp ..
      · rfl
  exact place ..

theorem replaceSlds_mem (d : Device) (hb c i : Nat) : (d.replaceSlds hb c i).mem = d.mem := by
  unfold Device.replaceSlds Device.moveSlds
  extract_lets moved owns mine d1
  have fold : ∀ (l : List (Nat × PendSld)) (x : Device), (l.foldl (fun x e => x.moveSld (18 * i) e) x).mem = x.mem := by
    intro l
    induction l with
    | nil => exact fun _ => rfl
    | cons e r ih => exact fun x => (ih _).trans (moveSld_mem ..)
  exact fold ..

/-- An access of other traffic changes no byte of memory. -/
theorem access_mem {d y : Device} {line : Nat} (h : d.access line = some y) : y.mem = d.mem := by
  unfold Device.access at h
  extract_lets hb c i h0 ch taken d1 at h
  split at h
  · rw [← Option.some.inj h]
    split
    · rfl
    · exact replaceSlds_mem ..
  · contradiction

theorem patrolled_mem {d y : Device} {x : PatrolLine} (h : (if x.site = .hbm then d.access x.num else some d) = some y) :
    y.mem = d.mem := by
  split at h
  · exact access_mem h
  · rw [← Option.some.inj h]

/-- What a patrol read finds leaves memory's bytes as they are (R400). -/
theorem patrolError_mem (d : Device) (site : PatrolSite) (line : Nat) : (d.patrolError site line).mem = d.mem := by
  have push : ∀ (x : Device) t k, x.mem = d.mem → (x.faqPush t k line).mem = d.mem :=
    fun x t k h => (reports_faqPush x t k line).2.1.trans h
  match site with
  | .hbm => exact (reports_poisonLine ..).2.1
  | .l2 true => exact (reports_poisonLine ..).2.1
  | .l2 false => exact push _ _ _ (corrected_counts d
      { agent := 0, struct := 11, unit := 0, pa := line * 64, corrected := false, synd := 0 }).2.1
  | .sram _ => exact push _ _ _ (reports_post d _).2.1

/-- A poisoned line of HBM, or a changed one of L2, carries its poison bit after the patrol read. -/
theorem patrolError_poison (d : Device) (site : PatrolSite) (line : Nat) (h : site = .hbm ∨ site = .l2 true) :
    ((d.patrolError site line).line line).poison = true := by
  obtain rfl | rfl := h <;> exact poisonLine_poison ..

theorem getLsbD_clear_bit (m : BitVec 4) {k : Nat} (h : k < 4) : (setBits m k k 0).getLsbD k = false := by
  obtain rfl | rfl | rfl | rfl : k = 0 ∨ k = 1 ∨ k = 2 ∨ k = 3 := by omega
  all_goals
    unfold setBits
    simp

theorem winShift_ge (sz : BitVec 2) : 16 ≤ winShift sz := by
  unfold winShift; split <;> omega

/-- The base of a page is a multiple of 64 KiB. -/
theorem pageBase_div_mul (pa : Nat) (sz : BitVec 2) :
    pa / 2 ^ winShift sz * 2 ^ winShift sz / 65536 * 65536 = pa / 2 ^ winShift sz * 2 ^ winShift sz :=
  Nat.div_mul_cancel (Dvd.dvd.mul_left (pow_dvd_pow 2 (winShift_ge sz) : 2 ^ 16 ∣ _) _)

/-- A page's copy removed from a stack's weight SRAM is no longer there (R80, R398). -/
theorem sramPage_unplace (d : Device) (k pa : Nat) (h : k < 4) : (d.unplace k pa).sramPage k pa = none := by
  unfold Device.sramPage Device.sramPages
  rw [List.find?_eq_none]
  intro p hp
  obtain ⟨sz, hsz, hf⟩ := List.mem_filterMap.1 hp
  have hlt : sz < 4 := List.mem_range.1 hsz
  let B := pa / 2 ^ winShift (BitVec.ofNat 2 sz) * 2 ^ winShift (BitVec.ofNat 2 sz)
  have hB : B / 65536 * 65536 = B := pageBase_div_mul pa _
  have hk : (B / 65536 * 4 + sz) % 4 = sz := by omega
  have hd : (B / 65536 * 4 + sz) / 4 = B / 65536 := by omega
  have hin : B ≤ pa ∧ pa < B + 2 ^ winShift (BitVec.ofNat 2 sz) :=
    ⟨Nat.div_mul_le_self .., Nat.lt_div_mul_add (by positivity)⟩
  unfold Device.unplace Device.updTab at hf
  extract_lets sh on at hf
  dsimp only at hf
  rw [mfind_map (fun key (e : SramPage) => if on key then e.drop k else e)] at hf
  have hon : on (B / 65536 * 4 + sz) = true := by
    simp only [on, hk, hd, hB]
    exact decide_eq_true hin
  obtain ⟨q, -, hq⟩ := Option.map_eq_some_iff.1 hf
  rw [if_pos hon] at hq
  rw [← hq]
  simp [SramPage.drop, getLsbD_clear_bit _ h]

/-- `ECC_ERROR_DETECT` but for errors in the shared-storage code that is counted without a fate (R398, R399). -/
theorem eccErrorDetect_happens (s : State) (e : EccEvent) (fits : s.dev.eccFits e = true)
    (loud : ¬(e.struct = 8 ∧ e.unit ≠ 0)) :
    exec (.eccErrorDetect e) s = s.devEvent (some
      (if e.corrected then s.dev.corrected e else if e.struct ≤ 10 then s.dev.coreError e else s.dev.farError e)) := by
  show execEccErrorDetect e s = _
  unfold execEccErrorDetect
  extract_lets d silent count
  have hs : silent = false := by simpa [silent] using loud
  rw [show d.eccFits e = true from fits, hs]
  rfl

/-- A silent error is counted, and nothing else follows (R398, R399). -/
theorem silentEcc_happens (s : State) (e : EccEvent) (fits : s.dev.eccFits e = true) (h8 : e.struct = 8) (hu : e.unit ≠ 0) :
    Happens (.eccErrorDetect e) s fun t => Apart s t ∧
      mget 0 t.dev.err.corrected (32 + eccStack e) = mget 0 s.dev.err.corrected (32 + eccStack e) + 1 := by
  let k := 32 + eccStack e
  have x : exec (.eccErrorDetect e) s = s.devEvent (some { s.dev with
      err := { s.dev.err with corrected := mset s.dev.err.corrected k (mget 0 s.dev.err.corrected k + 1) } }) := by
    show execEccErrorDetect e s = _
    unfold execEccErrorDetect
    extract_lets d silent count
    have hs : silent = true := by simp [silent, h8, hu]
    rw [show d.eccFits e = true from fits, hs]
    rfl
  exact happens_dev x rfl ⟨apart_of rfl rfl, mget_mset_same ..⟩

/-- The clauses of storage errors (R398, R399, R401). -/
theorem ecc_events (s : State) (e : EccEvent) (fits : s.dev.eccFits e = true) (loud : ¬(e.struct = 8 ∧ e.unit ≠ 0)) :
    (e.corrected = true → Happens (.eccErrorDetect e) s fun t => Apart s t ∧
      mget 0 t.dev.err.corrected (e.struct * 4 + eccStack e) = mget 0 s.dev.err.corrected (e.struct * 4 + eccStack e) + 1) ∧
    (e.corrected = false → e.struct ≤ 10 → Becomes (.eccErrorDetect e) s (s.dev.coreError e)) ∧
    (e.corrected = false → 10 < e.struct → Becomes (.eccErrorDetect e) s (s.dev.farError e)) ∧
    (e.corrected = false → e.struct = 14 → Happens (.eccErrorDetect e) s fun t => Apart s t ∧
      (t.dev.line (e.pa / 64)).poison = true) := by
  have x := eccErrorDetect_happens s e fits loud
  refine ⟨fun hc => ?_, fun hc h => ?_, fun hc h => ?_, fun hc h => ?_⟩
  · rw [if_pos hc] at x
    obtain ⟨hx, hm, hk⟩ := corrected_counts s.dev e
    exact happens_dev x rfl ⟨apart_of hx hm, hk⟩
  · rw [if_neg (by simp [hc]), if_pos h] at x
    exact becomes_dev x rfl
  · rw [if_neg (by simp [hc]), if_neg (by omega)] at x
    exact becomes_dev x rfl
  · have hf : s.dev.farError e = s.dev.poisonLine 14 3 (e.pa / 64) e.agent e.synd := by
      unfold Device.farError
      rw [h]
      rfl
    rw [if_neg (by simp [hc]), if_neg (by omega), hf] at x
    obtain ⟨hx, hm, -⟩ := reports_poisonLine s.dev 14 3 (e.pa / 64) e.agent e.synd
    exact happens_dev x rfl ⟨apart_of hx hm, poisonLine_poison ..⟩

/-- A patrol read takes its slot where it reads HBM, and a line found uncorrectable has the fate of its structure (R400). -/
theorem patrol_events (s : State) (x : PatrolLine) (y : Device) (ok : s.dev.patrols x.site x.num = true)
    (hy : (if x.site = .hbm then s.dev.access x.num else some s.dev) = some y) :
    Becomes (.patrolRead x false) s y ∧ MemSame s { s with dev := y } ∧
    Happens (.patrolRead x true) s fun t => MemSame s t ∧
      (x.site = .hbm ∨ x.site = .l2 true → (t.dev.line x.num).poison = true) ∧
      ∀ k, x.site = .sram k → t.dev.sramPage k (x.num * 64) = none := by
  have hm : y.mem = s.dev.mem := patrolled_mem hy
  have hx : ∀ bad, exec (.patrolRead x bad) s =
      s.devEvent (some (if bad then y.patrolError x.site x.num else y)) := by
    intro bad
    show execPatrolRead x bad s = _
    unfold execPatrolRead
    rw [ok]
    by_cases hs : x.site = .hbm
    · rw [if_pos hs] at hy
      simp only [guardOpt_true, bind, Option.bind, if_pos hs, hy]
      rfl
    · rw [if_neg hs] at hy
      simp only [guardOpt_true, bind, Option.bind, if_neg hs, Option.some.inj hy]
      rfl
  refine ⟨becomes_dev (hx false) rfl, fun a => by rw [hm], happens_dev (hx true) rfl ⟨fun a => ?_, ?_, ?_⟩⟩
  · show rdByte (y.patrolError x.site x.num).mem a = _
    rw [patrolError_mem, hm]
  · exact patrolError_poison y x.site x.num
  · intro k hk
    have k4 : k < 4 := by
      rw [hk] at ok
      simp [Device.patrols] at ok
      exact ok.2.1
    show (y.patrolError x.site x.num).sramPage k (x.num * 64) = none
    rw [hk]
    have hs : ∀ d : Device, (d.faqPush 2 3 x.num).sramPage k (x.num * 64) = d.sramPage k (x.num * 64) := by
      intro d
      obtain ⟨m, h⟩ := faqPush_spec d 2 3 x.num
      rw [h]; rfl
    refine (hs _).trans ?_
    show Device.sramPage (Device.unplace _ (k % 4) _) k _ = none
    rw [Nat.mod_eq_of_lt k4]
    exact sramPage_unplace _ _ _ k4

/-! ## Records taken (R407, R408, R413) -/

/-- Writing a record changes the window, the newest record's number, and what lies outside the device. -/
theorem writeRecord_spec (d : Device) (r : ErrRec) :
    ∃ o, d.writeRecord r = { d with
      err := { d.err with window := mset d.err.window (r.seq.toNat % 32) r.bits512, newest := r.seq }, out := o } := by
  unfold Device.writeRecord
  extract_lets b e d1 d2
  have h2 : ∃ o, d2 = { d1 with out := o } := by
    unfold d2
    split
    · exact ⟨d1.out, rfl⟩
    · exact ⟨_, rfl⟩
  obtain ⟨o, ho⟩ := h2
  split
  · obtain ⟨o', h'⟩ := interrupt_spec d2 0 (bits d.err.elcfg 42 32)
    exact ⟨o', by rw [h', ho]⟩
  · exact ⟨o, ho⟩

/-- What the firmware makes of a record that it takes: numbered and timed, unless a reset has kept it (R408, R419). -/
def takenRec (d : Device) (r : ErrRec) : ErrRec :=
  { r with seq := if r.prev then r.seq else d.err.seq, ov := d.err.lost || r.ov
           time := if r.prev then r.time else word d.wallClock }

/-- Taking a record changes the error state and what lies outside the device. -/
theorem takeRecord_spec (s : State) (r : ErrRec) (rest : List ErrRec) :
    let x := takenRec s.dev r
    ∃ o, (s.takeRecord r rest).1 = { s with dev := { s.dev with
      err := { s.dev.err with
        queue := rest, lost := false, seq := if r.prev then s.dev.err.seq else s.dev.err.seq + 1
        window := mset s.dev.err.window (x.seq.toNat % 32) x.bits512, newest := x.seq }
      out := o } } := by
  obtain ⟨o, h⟩ := writeRecord_spec { s.dev with err := { s.dev.err with
    queue := rest, lost := false, seq := if r.prev then s.dev.err.seq else s.dev.err.seq + 1 } } (takenRec s.dev r)
  exact ⟨o, congrArg (fun d => { s with dev := d }) h⟩

/-- The firmware acts on no record that a reset has kept. -/
theorem actOn_prev (s : State) (r : ErrRec) (h : r.prev = true) : s.actOn r = s := by
  unfold State.actOn
  rw [if_pos h]

/-- The firmware acts on no record below rung 5 that counts against no cell. -/
theorem actOn_quiet (s : State) (r : ErrRec) (h5 : r.rung ≠ 5) (h6 : r.rung ≠ 6) (h2 : r.cls ≠ 2) (h3 : r.cls ≠ 3) :
    s.actOn r = s := by
  simp only [State.actOn, if_neg h6, if_neg h5, h2, h3, or_self, false_and, if_false, ite_self]

/-- `ERROR_RECORD_TAKE` (R407, R408). -/
theorem errorRecordTake_events (s : State) (r : ErrRec) (rest : List ErrRec) (hq : s.dev.err.queue = r :: rest) :
    let d := s.dev
    let u := s.takeRecord r rest
    exec .errorRecordTake s = .next { u.1.actOn u.2 with last := .done } ∧
    (r.prev = false → r.rung ≠ 5 → r.rung ≠ 6 → r.cls ≠ 2 → r.cls ≠ 3 → Happens .errorRecordTake s fun t =>
      Apart s t ∧ t.dev.err.queue = rest ∧ t.dev.err.seq = d.err.seq + 1 ∧ t.dev.err.lost = false ∧
        t.dev.err.newest = d.err.seq ∧
        mget 0 t.dev.err.window (d.err.seq.toNat % 32) =
          { r with seq := d.err.seq, ov := d.err.lost || r.ov, time := word d.wallClock }.bits512) ∧
    (r.prev = true → Happens .errorRecordTake s fun t => Apart s t ∧ t.dev.err.queue = rest ∧
      t.dev.err.seq = d.err.seq ∧ mget 0 t.dev.err.window (r.seq.toNat % 32) = { r with ov := d.err.lost || r.ov }.bits512) := by
  intro d u
  have x : exec .errorRecordTake s = s.event (some (u.1.actOn u.2)) := by
    show execErrorRecordTake s = _
    unfold execErrorRecordTake
    rw [hq]
  obtain ⟨o, ho⟩ := takeRecord_spec s r rest
  refine ⟨x, fun hp h5 h6 h2 h3 => ?_, fun hp => ?_⟩
  · have hx : takenRec s.dev r = { r with seq := d.err.seq, ov := d.err.lost || r.ov, time := word d.wallClock } := by
      simp [takenRec, hp, d]
    refine happens_event x (congrArg some (actOn_quiet u.1 u.2 h5 h6 h2 h3)) ?_
    rw [ho, hx, hp]
    exact ⟨apart_of rfl rfl, rfl, rfl, rfl, rfl, mget_mset_same ..⟩
  · have hx : takenRec s.dev r = { r with ov := d.err.lost || r.ov } := by simp [takenRec, hp, d]
    refine happens_event x (congrArg some (actOn_prev u.1 u.2 hp)) ?_
    rw [ho, hx, hp]
    exact ⟨apart_of rfl rfl, rfl, rfl, mget_mset_same ..⟩

/-- `STACK_RESET_COMPLETE` (R418). -/
theorem stackResetComplete_happens (s : State) (stack t0 : Nat) (h : mfind s.dev.err.stackReset stack = some t0) :
    Happens (.stackResetComplete stack) s fun t => mfind t.dev.err.stackReset stack = none ∧ Apart s t :=
  happens_dev (m := (mfind s.dev.err.stackReset stack).map _)
    (d := { s.dev with err := { s.dev.err with stackReset := mdel s.dev.err.stackReset stack } }) rfl (by rw [h]; rfl)
    ⟨by simp [mfind_mdel], apart_of rfl rfl⟩

/-! ## Resets and power (R372 to R378, R419, R475) -/

/-- The record that the security root keeps is the last of those kept (R419). -/
theorem lastRecord_kept (d : Device) (cls agent : Nat) :
    ∃ r : ErrRec, (d.lastRecord cls agent).flash.kept.getLast? = some r ∧ r.cls = BitVec.ofNat 8 cls ∧ r.rung = 6 := by
  let r : ErrRec := { cls := BitVec.ofNat 8 cls, rung := 6, agent := BitVec.ofNat 16 agent, seq := d.err.seq,
                      time := word d.wallClock }
  refine ⟨r, ?_, rfl, rfl⟩
  show (List.drop ((d.flash.kept ++ [r]).length - 16) (d.flash.kept ++ [r])).getLast? = some r
  rw [List.getLast?_drop, if_neg (by simp), List.getLast?_concat]

/-- The reading of the root blocks posts records, and changes nothing else (R458). -/
theorem readRoots_spec (d : Device) : ∃ e, d.readRoots = { d with err := e } ∧ ∀ r ∈ d.err.queue, r ∈ e.queue := by
  unfold Device.readRoots
  generalize List.filter _ _ = l
  induction l generalizing d with
  | nil => exact ⟨d.err, rfl, fun _ h => h⟩
  | cons b l ih =>
    have hp : ∃ e, d.post { cls := 3, agent := BitVec.ofNat 16 agDrain } = { d with err := e } ∧ ∀ r ∈ d.err.queue, r ∈ e.queue := by
      unfold Device.post
      split
      · exact ⟨_, rfl, fun _ h => h⟩
      · exact ⟨_, rfl, fun _ h => List.mem_append_left _ h⟩
    obtain ⟨e, he, hs⟩ := hp
    obtain ⟨e', he', hs'⟩ := ih { d with err := e }
    exact ⟨e', by rw [List.foldl_cons, he, he'], fun r h => hs' r (hs r h)⟩

/-- After a reset no context runs, memory is clear, the device is on, and each record that the security root kept waits, marked
as one from before the reset (R378, R419). -/
theorem reset_spec (d : Device) : d.reset.power = .on ∧ d.reset.ctxs = [] ∧ d.reset.mem = [] ∧
    ∀ r ∈ d.flash.kept, { r with prev := true } ∈ d.reset.err.queue := by
  unfold Device.reset
  extract_lets x f y
  obtain ⟨e, h, hq⟩ := readRoots_spec y
  rw [h]
  exact ⟨rfl, rfl, rfl, fun r hr => hq _ (List.mem_map_of_mem hr)⟩

/-- `FAULT_N` and `THERMTRIP_N` (R419): the device is held in reset, its contexts and memory gone, and what caused it kept. -/
theorem heldDown_happens {i : Instr} {s : State} {o : Out}
    (x : exec i s = s.event (some (State.powerDown { s with dev := (s.dev.lastRecord 8 0x0917).send o } .held))) :
    Happens i s fun t => t.dev.power = .held ∧ t.dev.ctxs = [] ∧ t.dev.mem = [] ∧
      t.dev.out.outbox = s.dev.out.outbox ++ [o] ∧ Whole t ∧
        ∃ r : ErrRec, t.dev.flash.kept.getLast? = some r ∧ r.cls = 8 ∧ r.rung = 6 :=
  happens_event x rfl ⟨rfl, rfl, rfl, rfl, rfl, lastRecord_kept s.dev 8 0x0917⟩

/-- `WATCHDOG_RESET` (R475). -/
theorem watchdogReset_happens (s : State) (h : (s.dev.fw 4).last + 90000000 ≤ s.dev.cycle) :
    Happens .watchdogReset s fun t => t.dev.power = .on ∧ t.dev.ctxs = [] ∧ t.dev.mem = [] ∧
      ∃ r ∈ t.dev.err.queue, r.cls = 9 ∧ r.prev = true := by
  obtain ⟨hp, hc, hm, hq⟩ := reset_spec (s.dev.lastRecord 9 0x0914)
  obtain ⟨r, hr, hcls, -⟩ := lastRecord_kept s.dev 9 0x0914
  refine happens_event (m := guardOpt _ _) rfl (if_pos (decide_eq_true h)) ⟨hp, hc, hm, _, hq r ?_, hcls, rfl⟩
  exact List.mem_of_getLast? hr

/-- The resets and the loss of power that need no record (R375, R377, R378). -/
theorem power_events (s : State) :
    (s.dev.power = .off → Happens .powerOn s fun t => t.dev = s.dev.reset) ∧
    (s.dev.power = .on → Happens .rstNReset s fun t => t.dev = s.dev.reset) ∧
    Becomes .pcieReset s (s.dev.updPcie fun _ => { link := false }) ∧
    (s.dev.power ≠ .off → Happens .standby s fun t => t.dev.power = .off ∧ t.dev.ctxs = [] ∧ t.dev.mem = []) := by
  refine ⟨fun h => ?_, fun h => ?_, rfl, fun h => ?_⟩
  · exact happens_event (m := guardOpt _ _) rfl (if_pos (beq_iff_eq.2 h)) rfl
  · exact happens_event (m := guardOpt _ _) rfl (if_pos (beq_iff_eq.2 h)) rfl
  · exact happens_event (m := guardOpt _ _) rfl (if_pos (bne_iff_ne.2 h)) ⟨rfl, rfl, rfl⟩

/-! ## Ceilings, gates and cells (R373, R379, R380, R417) -/

/-- `CURRENT_CEILING_WRITE` (R373): a ceiling stays, falls where a limit is exceeded, or rises where all is well below. -/
theorem currentCeilingWrite_happens (s : State) (core : Nat) (x : BitVec 16) (hc : core < 512)
    (h : let old := (s.dev.core core).ceiling
      let y := s.dev.out.sensors
      x = old ∨ (x.toNat < old.toNat ∧ (2800 < y.pwr.toNat ∨ 3000 < y.module.toNat ∨ 105 ≤ y.tdie.toNat ∨ 95 ≤ y.thbm.toNat)) ∨
        (old.toNat < x.toNat ∧ y.pwr.toNat ≤ 2660 ∧ y.module.toNat ≤ 2850 ∧ y.tdie.toNat ≤ 100 ∧ y.thbm.toNat ≤ 90)) :
    Happens (.currentCeilingWrite core x) s fun t => Apart s t ∧ (t.dev.core core).ceiling = x := by
  have ok : s.dev.out.sensors.admits (s.dev.core core).ceiling.toNat x.toNat = true := by
    unfold Sensors.admits
    obtain rfl | ⟨lt, hot⟩ | ⟨lt, under⟩ := h
    · rw [if_neg (Nat.lt_irrefl _), if_neg (Nat.lt_irrefl _)]
    · rw [if_pos lt]; exact decide_eq_true hot
    · rw [if_neg (by omega), if_pos lt]; exact decide_eq_true under
  exact happens_dev (m := guardOpt _ _) rfl (if_pos (by simp [hc, ok])) ⟨apart_of rfl rfl, by simp⟩

/-- Cell `k` of a device changed by `f`, with contexts, memory and the memory controllers' registers as before. -/
def ChangesCell (k : Nat) (f : Cell → Cell) (d x : Device) : Prop :=
  x.ctxs = d.ctxs ∧ x.mem = d.mem ∧ x.mm = d.mm ∧ ∀ j, x.cell j = if j = k then f (d.cell j) else d.cell j

theorem changesCell_updCell (d : Device) (k : Nat) (f : Cell → Cell) : ChangesCell k f d (d.updCell k f) := by
  refine ⟨rfl, rfl, rfl, fun j => ?_⟩
  rw [Device.cell_updCell]
  split
  · subst j; rfl
  · rfl

/-- Cells changed one after another, each by its own change. -/
theorem cell_foldl (base : Nat) (f : Nat → Cell → Cell) (g : Device → Nat → Device)
    (step : ∀ d i, ChangesCell (base + i) (f i) d (g d i)) (n : Nat) (d : Device) :
    let x := (List.range n).foldl g d
    x.ctxs = d.ctxs ∧ x.mem = d.mem ∧ x.mm = d.mm ∧
      ∀ i, i < n → x.cell (base + i) = f i (d.cell (base + i)) := by
  have key : let x := (List.range n).foldl g d
      x.ctxs = d.ctxs ∧ x.mem = d.mem ∧ x.mm = d.mm ∧
        ∀ i, x.cell (base + i) = if i < n then f i (d.cell (base + i)) else d.cell (base + i) := by
    induction n with
    | zero => exact ⟨rfl, rfl, rfl, fun i => (if_neg (Nat.not_lt_zero i)).symm⟩
    | succ n ih =>
      obtain ⟨hc, hm, hmm, hcell⟩ := ih
      obtain ⟨sc, sm, smm, scell⟩ := step ((List.range n).foldl g d) n
      intro x
      have hx : x = g ((List.range n).foldl g d) n := by
        simp only [x, List.range_succ, List.foldl_append, List.foldl_cons, List.foldl_nil]
      rw [hx]
      refine ⟨sc.trans hc, sm.trans hm, smm.trans hmm, fun i => ?_⟩
      rw [scell, hcell]
      by_cases h : i = n
      · subst h; simp
      · simp only [Nat.add_left_cancel_iff, h, if_false]
        exact if_congr (by omega) rfl rfl
  obtain ⟨hc, hm, hmm, hcell⟩ := key
  exact ⟨hc, hm, hmm, fun i hi => by rw [hcell, if_pos hi]⟩

/-- A write of a `ugreq` register sets the request bit of its 64 cells (R379, R380). -/
theorem writeUgreq_spec (d : Device) (w : Nat) (v : Word) :
    (d.writeUgreq w v).ctxs = d.ctxs ∧ (d.writeUgreq w v).mem = d.mem ∧ (d.writeUgreq w v).mm = d.mm ∧
      ∀ i, i < 64 → ((d.writeUgreq w v).cell (64 * w + i)).ugreq = v.getLsbD i := by
  obtain ⟨hc, hm, hmm, h⟩ := cell_foldl (64 * w) (fun i c => c.request (v.getLsbD i)) _
    (fun d i => changesCell_updCell d (64 * w + i) _) 64 d
  refine ⟨hc, hm, hmm, fun i hi => (congrArg Cell.ugreq (h i hi)).trans ?_⟩
  cases hv : v.getLsbD i <;> simp [Cell.request]

/-- A write of a `coff` register returns the cells of its ones to service (R417). -/
theorem writeCoff_spec (d : Device) (w : Nat) (v : Word) :
    (d.writeCoff w v).ctxs = d.ctxs ∧ (d.writeCoff w v).mem = d.mem ∧ (d.writeCoff w v).mm = d.mm ∧
      ∀ i, i < 64 → ((d.writeCoff w v).cell (64 * w + i)).offline = ((d.cell (64 * w + i)).offline && !v.getLsbD i) := by
  let back (i : Nat) (c : Cell) : Cell := if v.getLsbD i then { c with offline := false } else c
  have step : ∀ (d : Device) (i : Nat), ChangesCell (64 * w + i) (back i) d
      (if v.getLsbD i then d.updCell (64 * w + i) fun c => { c with offline := false } else d) := by
    intro d i
    cases hv : v.getLsbD i
    · exact ⟨rfl, rfl, rfl, fun j => by simp [back, hv]⟩
    · have hb : back i = fun c => { c with offline := false } := by funext c; simp [back, hv]
      rw [hb]
      exact changesCell_updCell ..
  obtain ⟨hc, hm, hmm, h⟩ := cell_foldl (64 * w) back _ step 64 d
  refine ⟨hc, hm, hmm, fun i hi => (congrArg Cell.offline (h i hi)).trans ?_⟩
  cases hv : v.getLsbD i <;> simp [back, hv]

/-- `UPPER_GATE_APPLY` (R33, R380). -/
theorem upperGateApply_happens (s : State) (cell : Nat) (hc : cell < 256) (hr : (s.dev.cell cell).ugreq = true)
    (hg : (s.dev.cell cell).gated = false) (hu : s.dev.usesUpper cell = false) :
    Happens (.upperGateApply cell) s fun t => Apart s t ∧ (t.dev.cell cell).gated = true ∧
      (t.dev.cell cell).up = {} ∧ (t.dev.cell cell).down = {} ∧
      t.dev.core (2 * cell + 1) = { ceiling := (s.dev.core (2 * cell + 1)).ceiling } := by
  refine happens_dev (m := guardOpt _ _) rfl (if_pos (by simp [hc, hr, hg, hu])) ⟨apart_of rfl rfl, ?_⟩
  have hcell : ∀ (d : Device) n f k, (Device.updCore d n f).cell k = d.cell k := fun _ _ _ _ => rfl
  have hcore : ∀ (d : Device) n f k, (Device.updCell d n f).core k = d.core k := fun _ _ _ _ => rfl
  simp [hcell, hcore]

/-- `UPPER_UNGATE_COMPLETE` (R33, R380). -/
theorem upperUngateComplete_happens (s : State) (cell : Nat) (hg : (s.dev.cell cell).gated = true)
    (hu : (s.dev.cell cell).ungating = true) :
    Happens (.upperUngateComplete cell) s fun t => Apart s t ∧ (t.dev.cell cell).gated = false :=
  happens_dev (m := guardOpt _ _) rfl (if_pos (by simp [hg, hu])) ⟨apart_of rfl rfl, by simp⟩

/-! ## Device registers (R101, R150, R349 to R352, R410 to R412) -/

/-- Contexts, and the writes that wait for the version heap, are as before. -/
def KeepsWaiting (d x : Device) : Prop := x.ctxs = d.ctxs ∧ x.mm.waiting = d.mm.waiting

theorem keepsWaiting_lowWater (d e : Device) : KeepsWaiting e (d.lowWater e) := by
  obtain ⟨x, h⟩ := lowWater_spec d e
  rw [h]; exact ⟨rfl, rfl⟩

/-- A line's new key changes memory and the lines' records only. -/
theorem rekey_spec (d : Device) (line kid : Nat) : ∃ m l, d.rekey line kid = { d with mem := m, lines := l } := by
  unfold Device.rekey
  extract_lets own c d1
  have h1 : ∃ m, d1 = { d with mem := m } := by
    unfold d1
    split
    · exact ⟨d.mem, rfl⟩
    · exact ⟨_, rfl⟩
  obtain ⟨m, h⟩ := h1
  exact ⟨m, _, by rw [h]; rfl⟩

/-- An entry of the quarantine ring changes memory and a line's record only. -/
theorem ringWrite_spec (d : Device) (page st : Word) : ∃ m l, d.ringWrite page st = { d with mem := m, lines := l } := by
  unfold Device.ringWrite
  extract_lets pa
  split
  · obtain ⟨m, l, h⟩ := rekey_spec d (pa / 64) 0
    exact ⟨_, l, by rw [h]; rfl⟩
  · exact ⟨d.mem, d.lines, rfl⟩

/-- A push onto the quarantine ring where it has room (R99): the entry is written, and stands at the ring's tail. -/
theorem quarantine_room (d : Device) (page fs : Word) (h : d.mm.ring.length < 16384) :
    ∃ w, d.quarantine page fs = { d.ringWrite page (word (max fs.toNat d.mm.lastAck)) with
      mm := { d.mm with ring := d.mm.ring ++ [(page, word (max fs.toNat d.mm.lastAck), w)] } } := by
  obtain ⟨m, l, hw⟩ := ringWrite_spec d page (word (max fs.toNat d.mm.lastAck))
  unfold Device.quarantine
  rw [if_neg (by omega)]
  extract_lets st d1 src m'
  have hmm : d1.mm = d.mm := by rw [show d1 = _ from hw]
  have hm' : m' = { d.mm with ring := d.mm.ring ++ [(page, st, none)] } := by simp only [m', src, hmm]
  have hx : ∃ w, (if d1.mm.ring.isEmpty then m'.headWait d.cycle else m') =
      { d.mm with ring := d.mm.ring ++ [(page, st, w)] } := by
    rw [hm', hmm]
    cases hr : d.mm.ring with
    | nil => exact ⟨some d.cycle, rfl⟩
    | cons x r => exact ⟨none, rfl⟩
  obtain ⟨w, hw'⟩ := hx
  exact ⟨w, congrArg (fun z => ({ d1 with mm := z } : Device)) hw'⟩

/-- A push onto a full quarantine ring (R446): the record, and the page kept by the firmware. -/
theorem quarantine_full (d : Device) (page fs : Word) (h : 16384 ≤ d.mm.ring.length) :
    ∃ e, d.quarantine page fs = { d with err := e, mm := { d.mm with unpushed := d.mm.unpushed ++ [(page, fs)] } } := by
  obtain ⟨e, he⟩ := postDev_spec d 5 0 agMemory page
  unfold Device.quarantine
  rw [if_pos h]
  exact ⟨e, by rw [he]⟩

theorem keepsWaiting_quarantine (d : Device) (page fs : Word) : KeepsWaiting d (d.quarantine page fs) := by
  rcases Nat.lt_or_ge d.mm.ring.length 16384 with h | h
  · obtain ⟨w, hw⟩ := quarantine_room d page fs h
    obtain ⟨m, l, hr⟩ := ringWrite_spec d page (word (max fs.toNat d.mm.lastAck))
    rw [hw, hr]; exact ⟨rfl, rfl⟩
  · obtain ⟨e, he⟩ := quarantine_full d page fs h
    rw [he]; exact ⟨rfl, rfl⟩

/-- A write of a bad-page entry with a bit of 59:52 or of 15:0 set is dropped whole (R411; log entry 121). -/
theorem addBadPage_dropped (d : Device) (v : Word) (h : bits v 59 52 ≠ 0 ∨ bits v 15 0 ≠ 0) : d.addBadPage v = d := if_pos h

/-- A bad-page entry waits for flash while the list has room (R411, R449). -/
theorem addBadPage_room (d : Device) (v : Word) (h1 : bits v 59 52 = 0) (h2 : bits v 15 0 = 0)
    (h : d.flash.bad.length + d.flash.bpBusy.length < 8192) :
    d.addBadPage v = { d with flash := { d.flash with bpBusy := d.flash.bpBusy ++ [v] } } := by
  unfold Device.addBadPage
  rw [if_neg (by simp [h1, h2]), if_neg (by omega)]

/-- A bad-page entry is refused with records while the list is full (R411, R449). -/
theorem addBadPage_full (d : Device) (v : Word) (h1 : bits v 59 52 = 0) (h2 : bits v 15 0 = 0)
    (h : 8192 ≤ d.flash.bad.length + d.flash.bpBusy.length) : ∃ e, d.addBadPage v = { d with err := e } := by
  unfold Device.addBadPage Device.retired
  rw [if_neg (by simp [h1, h2]), if_pos h]
  obtain ⟨e, he⟩ := postDev_spec d 5 0 agMemory 0
  rw [he]
  obtain ⟨e', he'⟩ := post_spec { d with err := e } _
  exact ⟨e', he'⟩

theorem keepsWaiting_addBadPage (d : Device) (v : Word) : KeepsWaiting d (d.addBadPage v) := by
  by_cases h : bits v 59 52 ≠ 0 ∨ bits v 15 0 ≠ 0
  · rw [addBadPage_dropped d v h]; exact ⟨rfl, rfl⟩
  · obtain ⟨h1, h2⟩ := not_or.1 h
    rcases Nat.lt_or_ge (d.flash.bad.length + d.flash.bpBusy.length) 8192 with hr | hr
    · rw [addBadPage_room d v (not_not.1 h1) (not_not.1 h2) hr]; exact ⟨rfl, rfl⟩
    · obtain ⟨e, he⟩ := addBadPage_full d v (not_not.1 h1) (not_not.1 h2) hr
      rw [he]; exact ⟨rfl, rfl⟩

theorem keepsWaiting_writeManagement (d : Device) (off : Nat) (v : Word) : KeepsWaiting d (d.writeManagement off v) := by
  unfold Device.writeManagement
  extract_lets i
  split
  · obtain ⟨hc, -, hmm, -⟩ := writeUgreq_spec d (i - 0x20) v
    exact ⟨hc, by rw [hmm]⟩
  · split
    · obtain ⟨hc, -, hmm, -⟩ := writeCoff_spec d (i - 0x30) v
      exact ⟨hc, by rw [hmm]⟩
    · split
      · exact ⟨rfl, rfl⟩
      · split <;> exact ⟨rfl, rfl⟩

theorem keepsWaiting_ite {d x y : Device} {b : Prop} [Decidable b] (hx : KeepsWaiting d x) (hy : KeepsWaiting d y) :
    KeepsWaiting d (if b then x else y) := by
  split
  · exact hx
  · exact hy

theorem keepsWaiting_writeMemory (d : Device) (off : Nat) (v : Word) : KeepsWaiting d (d.writeMemory off v) := by
  have same : ∀ m : Mm, m.waiting = d.mm.waiting → KeepsWaiting d { d with mm := m } := fun _ h => ⟨rfl, h⟩
  have here : KeepsWaiting d d := ⟨rfl, rfl⟩
  unfold Device.writeMemory
  extract_lets m free
  split
  · exact keepsWaiting_ite (same _ rfl) here
  · exact same _ rfl
  · exact keepsWaiting_quarantine ..
  · exact same _ rfl
  · exact keepsWaiting_ite (same _ rfl) here
  · exact keepsWaiting_ite (keepsWaiting_lowWater d { d with mm := { m with vhlen := v.extractLsb' 0 32 } }) here
  · exact keepsWaiting_ite (same _ rfl) here
  · exact keepsWaiting_addBadPage ..
  · exact same _ rfl
  · exact same _ rfl
  · exact same _ rfl
  · exact here

/-- A BAR0 write changes no context, and none of the writes that wait for the version heap (R349). -/
theorem keepsWaiting_writeReg (d : Device) (off : Nat) (v : Word) : KeepsWaiting d (d.writeReg off v) := by
  unfold Device.writeReg
  refine keepsWaiting_ite (keepsWaiting_writeManagement ..) (keepsWaiting_ite ⟨rfl, rfl⟩
    (keepsWaiting_ite (keepsWaiting_writeMemory ..) (keepsWaiting_ite ?_ (keepsWaiting_ite ⟨rfl, rfl⟩ ⟨rfl, rfl⟩))))
  unfold Device.writeController
  exact keepsWaiting_ite ⟨rfl, rfl⟩ (keepsWaiting_ite ⟨rfl, rfl⟩ ⟨rfl, rfl⟩)

/-! ## Writes that wait tried again (R482) -/

/-- Writes of agents of R482 change what `Written` lists, and the counter of free values. -/
theorem storeAll_spec (l : List HeldWrite) (s : State) :
    ∃ d free, Written s.dev d ∧ s.storeAll l = { s with dev := d, free := free } := by
  induction l generalizing s with
  | nil => exact ⟨s.dev, s.free, .refl _, rfl⟩
  | cons w r ih =>
    obtain ⟨d, f, h, e⟩ := ih { s with free := s.free + 1, dev := s.dev.agentStore s.free w }
    exact ⟨d, f, (written_agentStore ..).trans h, e⟩

theorem written_ctxs {d e : Device} (h : Written d e) : e.ctxs = d.ctxs := by
  obtain ⟨_, _, _, _, _, _, _, _, rfl, _⟩ := h
  rfl

theorem retried_ctxs (s : State) : s.retried.dev.ctxs = s.dev.ctxs := by
  obtain ⟨d, f, h, e⟩ := storeAll_spec s.dev.mm.waiting { s with dev := { s.dev with mm := { s.dev.mm with waiting := [] } } }
  unfold State.retried
  rw [e]; exact written_ctxs h

/-- Where no write waits, nothing is tried again. -/
theorem retried_none (s : State) (h : s.dev.mm.waiting = []) : s.retried = s := by
  unfold State.retried
  rw [h]
  show { s with dev := { s.dev with mm := { s.dev.mm with waiting := [] } } } = s
  rw [← h]

/-! ## Writes of the host (R348, R349, R352, R410, R411) -/

/-- A BAR0 write by the control owner's driver (R349). -/
theorem registerWrite_events (s : State) (off : Nat) (v : Word) (ho : off % 8 = 0) (hw : s.dev.owner = some 0)
    (hp : s.dev.out.pcie.has 0 = true) :
    (Happens (.registerWrite off v) s fun t => t.dev.ctxs = s.dev.ctxs) ∧
    (s.dev.mm.waiting = [] → Becomes (.registerWrite off v) s (s.dev.writeReg off v)) := by
  obtain ⟨hc, hk⟩ := keepsWaiting_writeReg s.dev off v
  have x : exec (.registerWrite off v) s = s.event (some (State.retried { s with dev := s.dev.writeReg off v })) := by
    show execRegisterWrite off v s = _
    unfold execRegisterWrite
    rw [ho, hw, hp]
    rfl
  refine ⟨happens_event x rfl ((retried_ctxs _).trans hc), fun h => ?_⟩
  unfold Becomes
  rw [x, retried_none _ (hk.trans h)]
  rfl

/-- What the control owner's writes of the named registers do (R379, R380, R410, R411, R417). -/
theorem owner_events (s : State) (w : Nat) (v : Word) (ho : s.dev.owner.isSome = true) :
    (w < 4 → (Happens (.ugreqWrite w v) s fun t => Apart s t ∧
        ∀ i, i < 64 → (t.dev.cell (64 * w + i)).ugreq = v.getLsbD i) ∧
      (Happens (.coffWrite w v) s fun t => Apart s t ∧ ∀ i, i < 64 →
        (t.dev.cell (64 * w + i)).offline = ((s.dev.cell (64 * w + i)).offline && !v.getLsbD i))) ∧
    (Happens .faqpopRead s fun t => Apart s t ∧ t.dev.mm.faq = s.dev.mm.faq.drop 1) ∧
    (bits v 59 52 ≠ 0 ∨ bits v 15 0 ≠ 0 → Becomes (.bpaddWrite v) s s.dev) ∧
    (bits v 59 52 = 0 → bits v 15 0 = 0 →
      (s.dev.flash.bad.length + s.dev.flash.bpBusy.length < 8192 → Happens (.bpaddWrite v) s fun t => Apart s t ∧
        t.dev.flash.bpBusy = s.dev.flash.bpBusy ++ [v]) ∧
      (8192 ≤ s.dev.flash.bad.length + s.dev.flash.bpBusy.length → Happens (.bpaddWrite v) s fun t => Apart s t ∧
        t.dev.flash = s.dev.flash)) := by
  have hb : exec (.bpaddWrite v) s = s.devEvent (some (s.dev.addBadPage v)) := by
    show execBpaddWrite v s = _
    unfold execBpaddWrite
    rw [ho, guardOpt_true]
  refine ⟨fun hw => ⟨?_, ?_⟩, ?_, fun h => ?_, fun h1 h2 => ⟨fun h => ?_, fun h => ?_⟩⟩
  · obtain ⟨hc, hm, -, h⟩ := writeUgreq_spec s.dev w v
    exact happens_dev (m := guardOpt _ _) rfl (if_pos (by simp [hw, ho])) ⟨apart_of hc hm, h⟩
  · obtain ⟨hc, hm, -, h⟩ := writeCoff_spec s.dev w v
    exact happens_dev (m := guardOpt _ _) rfl (if_pos (by simp [hw, ho])) ⟨apart_of hc hm, h⟩
  · exact happens_dev (m := guardOpt _ _) rfl (if_pos ho) ⟨apart_of rfl rfl, rfl⟩
  · exact becomes_dev hb (congrArg some (addBadPage_dropped _ v h))
  · exact happens_dev hb (congrArg some (addBadPage_room _ v h1 h2 h)) ⟨apart_of rfl rfl, rfl⟩
  · obtain ⟨e, he⟩ := addBadPage_full s.dev v h1 h2 h
    exact happens_dev hb (congrArg some he) ⟨apart_of rfl rfl, rfl⟩

/-- A doorbell of an enabled host queue of the function (R348, R352). -/
theorem doorbellWrite_happens (s : State) (fn q : Nat) (x : BitVec 32) (hq : q < 16384) (he : (s.dev.hq q).en = true)
    (hd : (s.dev.hq q).dev = false) (hf : (s.dev.hq q).fn = fn) (hp : s.dev.out.pcie.has fn = true) :
    Happens (.doorbellWrite fn q x) s fun t => Apart s t ∧ t.dev.hq q = { s.dev.hq q with wptr := x } :=
  happens_dev (m := guardOpt _ _) rfl (if_pos (by simp [hq, he, hd, hf, hp])) ⟨apart_of rfl rfl, mget_mset_same ..⟩

/-- Settles O49: each event of errors, resets, power and the host's registers by its own lemma above. -/
theorem errorAndPowerEventsHappen : Obligations.ErrorAndPowerEventsHappen := by
  intro s e cell w v d
  obtain ⟨powerOn, rstN, pcie, standby⟩ := power_events s
  exact ⟨ecc_events s e, silentEcc_happens s e, patrol_events s, errorRecordTake_events s, stackResetComplete_happens s,
    ⟨heldDown_happens rfl, heldDown_happens rfl⟩, watchdogReset_happens s, powerOn, rstN, pcie, standby,
    currentCeilingWrite_happens s, owner_events s w v, upperGateApply_happens s cell, upperUngateComplete_happens s cell,
    doorbellWrite_happens s, fun off => registerWrite_events s off v, rfl, rfl, rfl, rfl⟩

/-! ## The length of an encrypted line (R84) -/

theorem length_toBytes (x n : Nat) : (toBytes x n).length = n := by
  induction n generalizing x with
  | zero => rfl
  | succ n ih => simp [toBytes, ih]

/-- The rounds of AES end in an addition of the last round key to 16 shifted bytes, or are none. -/
theorem length_aesRounds_le (ks : List (List Byte)) (s : List Byte) (h : s.length ≤ 16 ∨ ks ≠ []) :
    (aesRounds s ks).length ≤ 16 := by
  induction ks generalizing s with
  | nil => exact h.resolve_right fun g => g rfl
  | cons k r ih =>
    cases r with
    | nil => simp [aesRounds, aesShift]
    | cons k' r => exact ih _ (.inr (List.cons_ne_nil _ _))

theorem length_aesBlock_le (keys : List (List Byte)) (s : List Byte) (h : s.length ≤ 16) : (aesBlock keys s).length ≤ 16 :=
  length_aesRounds_le _ _ (.inl (by simp; omega))

theorem length_xtsBlocks_le (cipher : List Byte → List Byte) (n : Nat) (t bs : List Byte) (h : t.length ≤ 16) :
    (xtsBlocks cipher n t bs).length ≤ 16 * n := by
  induction n generalizing t bs with
  | zero => exact Nat.le_refl _
  | succ n ih =>
    have := ih (xtsDouble t) (bs.drop 16) (by simp [xtsDouble, length_toBytes])
    simp only [xtsBlocks, List.length_append, List.length_zipWith]
    omega

theorem length_xtsUnder_le (enc : Bool) (line : Nat) (c : Cipher) (bs : List Byte) (h : bs.length ≤ 64) :
    (xtsUnder enc line c bs).length ≤ 64 := by
  unfold xtsUnder
  split
  · exact length_xtsBlocks_le _ 4 _ _ (length_aesBlock_le _ _ (by rw [length_toBytes]))
  · exact h

/-- A line reads as no more than 64 bytes under any key. -/
theorem length_lineUnder_le (d : Device) (line kid : Nat) : (d.lineUnder line kid).length ≤ 64 := by
  have h : (d.lineBytes line).length ≤ 64 := by simp [Device.lineBytes]
  unfold Device.lineUnder
  extract_lets own c
  split
  · exact h
  · exact length_xtsUnder_le _ _ _ _ (length_xtsUnder_le _ _ _ _ h)

/-! ## Which bytes a committed write changes (R117, R482) -/

/-- Memory reads as before but in the lines that `n` bytes from `lo` touch. -/
def MemNear (d e : Device) (lo n : Nat) : Prop :=
  ∀ a, a / 64 < lo / 64 ∨ (lo + n - 1) / 64 < a / 64 → rdByte e.mem a = rdByte d.mem a

theorem memNear_of_mem {d e : Device} (h : e.mem = d.mem) (lo n : Nat) : MemNear d e lo n := fun a _ => by rw [h]

theorem rekey_out (d : Device) (line kid a : Nat) (h : a / 64 ≠ line) : rdByte (d.rekey line kid).mem a = rdByte d.mem a := by
  unfold Device.rekey
  extract_lets own c d1
  show rdByte d1.mem a = _
  unfold d1
  split
  · rfl
  · have := length_lineUnder_le d line kid
    exact rdByte_wrBytes_out _ _ _ _ (by omega)

theorem preImage_mem (d : Device) (w : Writer) (line : Nat) (e : Nat × Snap) : (d.preImage w line e).mem = d.mem := by
  unfold Device.preImage
  extract_lets d1 l t
  have h1 : d1.mem = d.mem := by
    unfold d1
    split <;> rfl
  split
  · exact (reports_breakGen ..).2.1.trans h1
  · exact h1

theorem foldl_preImage_mem (w : Writer) (line : Nat) (l : List (Nat × Snap)) (d : Device) :
    (l.foldl (fun x e => x.preImage w line e) d).mem = d.mem := by
  induction l generalizing d with
  | nil => rfl
  | cons e r ih => exact (ih _).trans (preImage_mem ..)

theorem lowWater_mem (d e : Device) : (d.lowWater e).mem = e.mem := by
  obtain ⟨x, h⟩ := lowWater_spec d e
  rw [h]

theorem touchLine_out (d : Device) (w : Writer) (line : Nat) (versioned whole : Bool) (a : Nat) (h : a / 64 ≠ line) :
    rdByte (d.touchLine w line versioned whole).mem a = rdByte d.mem a := by
  unfold Device.touchLine
  extract_lets t d0 d1
  have h0 : d0.mem = d.mem := by
    unfold d0
    split <;> rfl
  have h1 : d1.mem = d.mem := by
    unfold d1
    split
    · rfl
    · split
      · exact h0
      · exact foldl_preImage_mem ..
  rw [lowWater_mem]
  exact (rekey_out _ line w.kid a h).trans (by rw [h1])

theorem touchRange_out (d : Device) (w : Writer) (pa n : Nat) (v : Bool) (a : Nat) (h : a / 64 ∉ linesOf pa n) :
    rdByte (d.touchRange w pa n v).mem a = rdByte d.mem a := by
  unfold Device.touchRange
  generalize linesOf pa n = l at h
  induction l generalizing d with
  | nil => rfl
  | cons x r ih =>
    obtain ⟨hx, hr⟩ := not_or.1 (mt List.mem_cons.2 h)
    exact (ih _ hr).trans (touchLine_out _ _ _ _ _ _ hx)

theorem mem_linesOf {pa n l : Nat} (h : l ∈ linesOf pa n) : n ≠ 0 ∧ pa / 64 ≤ l ∧ l ≤ (pa + n - 1) / 64 := by
  unfold linesOf at h
  split at h
  · simp at h
  · obtain ⟨i, hi, rfl⟩ := List.mem_map.1 h
    have := List.mem_range.1 hi
    omega

/-- A write leaves every byte alone that lies in none of its lines. -/
theorem agentWrite_near (d : Device) (agent n least : Nat) (blk : Option Nat) (kid pa : Nat) (bs : List Byte) :
    MemNear d (d.agentWrite agent n least blk kid pa bs) pa bs.length := by
  intro a ha
  unfold Device.agentWrite
  extract_lets st
  have hout : a < pa ∨ pa + bs.length ≤ a := by omega
  refine (rdByte_wrBytes_out _ _ _ _ hout).trans (touchRange_out _ _ _ _ _ _ fun hm => ?_)
  have := mem_linesOf hm
  omega

/-- The bytes of a write are in memory after it. -/
theorem agentWrite_bytes (d : Device) (agent n least : Nat) (blk : Option Nat) (kid pa : Nat) (bs : List Byte) :
    rdBytes (d.agentWrite agent n least blk kid pa bs).mem pa bs.length = bs := rdBytes_wrBytes ..

theorem agentStore_near (d : Device) (n : Nat) (w : HeldWrite) : MemNear d (d.agentStore n w) w.pa w.bytes.length := by
  unfold Device.agentStore
  split
  · exact memNear_of_mem rfl _ _
  · exact agentWrite_near _ _ _ _ _ _ _ _

/-- The state after the first line of a write. -/
def lineStored (agent : Nat) (kid : Option Nat) (pa : Nat) (bs : List Byte) (s : State) : State :=
  { s with
    free := s.free + 1
    dev := s.dev.agentStore s.free { agent := agent, kid := kid.getD (s.dev.line (pa / 64)).kid, pa := pa, bytes := bs } }

theorem linePut_nil (agent : Nat) (kid : Option Nat) (n pa : Nat) (s : State) : State.linePut agent kid n pa [] s = s := by
  cases n <;> simp [State.linePut]

theorem linePut_succ (agent : Nat) (kid : Option Nat) (n pa : Nat) (bs : List Byte) (s : State) (hne : bs ≠ [])
    (hl : isLocal pa = true) :
    State.linePut agent kid (n + 1) pa bs s = State.linePut agent kid n (pa + (64 - pa % 64)) (bs.drop (64 - pa % 64))
      (lineStored agent kid pa (bs.take (64 - pa % 64)) s) := by
  conv_lhs => unfold State.linePut
  rw [if_neg (by simp [hne, hl])]
  rfl

theorem linePut_near (agent : Nat) (kid : Option Nat) (n pa : Nat) (bs : List Byte) (s : State) :
    MemNear s.dev (State.linePut agent kid n pa bs s).dev pa bs.length := by
  induction n generalizing pa bs s with
  | zero => exact memNear_of_mem rfl _ _
  | succ n ih =>
    by_cases hne : bs = []
    · rw [hne, linePut_nil]; exact memNear_of_mem rfl _ _
    cases hl : isLocal pa with
    | false => unfold State.linePut; rw [if_pos (by simp [hl])]; exact memNear_of_mem rfl _ _
    | true =>
      intro a ha
      have hlen := List.length_pos_iff.2 hne
      have near : rdByte (lineStored agent kid pa (bs.take (64 - pa % 64)) s).dev.mem a = rdByte s.dev.mem a :=
        agentStore_near _ _ _ a (by simp only [List.length_take]; omega)
      rw [linePut_succ _ _ _ _ _ _ hne hl, ← near]
      rcases Nat.lt_or_ge (64 - pa % 64) bs.length with h | h
      · exact ih _ _ _ a (by simp only [List.length_drop]; omega)
      · rw [List.drop_eq_nil_of_le h, linePut_nil]

/-- Bytes that an agent writes change no byte outside their lines (R482). -/
theorem agentPut_near (s : State) (agent pa : Nat) (bs : List Byte) :
    MemNear s.dev (s.agentPut agent pa bs).dev pa bs.length := linePut_near _ _ _ _ _ _

/-- What an agent of R482 writes changes, beside the counter of free values. -/
theorem agentPut_spec (s : State) (agent pa : Nat) (bs : List Byte) :
    ∃ d free, Written s.dev d ∧ s.agentPut agent pa bs = { s with dev := d, free := free } := linePut_spec ..

theorem agentPut_ctxs (s : State) (agent pa : Nat) (bs : List Byte) : (s.agentPut agent pa bs).dev.ctxs = s.dev.ctxs := by
  obtain ⟨d, f, h, e⟩ := agentPut_spec s agent pa bs
  rw [e]; exact written_ctxs h

/-- Bytes within one line are one store of the agent. -/
theorem agentPut_line (s : State) (agent pa : Nat) (bs : List Byte) (hne : bs ≠ []) (hl : isLocal pa = true)
    (h : pa % 64 + bs.length ≤ 64) :
    s.agentPut agent pa bs = lineStored agent none pa bs s := by
  refine (linePut_succ _ _ _ _ _ _ hne hl).trans ?_
  rw [List.drop_eq_nil_of_le (by omega), List.take_of_length_le (by omega), linePut_nil]

/-- Bytes within one line are in memory after the write, unless it has to wait for the version heap. -/
theorem agentPut_line_bytes (s : State) (agent pa : Nat) (bs : List Byte) (hne : bs ≠ []) (hl : isLocal pa = true)
    (h : pa % 64 + bs.length ≤ 64) (hw : s.dev.mustWait none (pa / 64) = false) :
    rdBytes (s.agentPut agent pa bs).dev.mem pa bs.length = bs := by
  rw [agentPut_line s agent pa bs hne hl h]
  show rdBytes (s.dev.agentStore s.free _).mem pa bs.length = bs
  unfold Device.agentStore
  rw [if_neg (by simp [hw])]
  exact agentWrite_bytes _ _ _ _ _ _ _ _

/-- Bytes within one line that have to wait for the version heap are the last of the writes that wait (R482). -/
theorem agentPut_line_waits (s : State) (agent pa : Nat) (bs : List Byte) (hne : bs ≠ []) (hl : isLocal pa = true)
    (h : pa % 64 + bs.length ≤ 64) (hw : s.dev.mustWait none (pa / 64) = true) :
    ∃ kid, (s.agentPut agent pa bs).dev = { s.dev with mm := { s.dev.mm with
      waiting := s.dev.mm.waiting ++ [{ agent := agent, kid := kid, pa := pa, bytes := bs }] } } := by
  refine ⟨(s.dev.line (pa / 64)).kid, ?_⟩
  rw [agentPut_line s agent pa bs hne hl h]
  show s.dev.agentStore s.free _ = _
  unfold Device.agentStore
  rw [if_pos hw]
  rfl

/-! ## The quarantine ring (R98 to R101, R446, R450) -/

/-- The address of the entry that the next push onto the quarantine ring writes (R101). -/
def ringAddr (d : Device) : Nat := d.mm.qqbase.toNat + 16 * ((d.mm.head.toNat + d.mm.ring.length) % 16384)

theorem ringWrite_near (d : Device) (page st : Word) : MemNear d (d.ringWrite page st) (ringAddr d) 16 := by
  intro a ha
  unfold Device.ringWrite
  extract_lets pa
  have hpa : pa = ringAddr d := rfl
  split
  · refine (rdByte_wrBytes_out _ _ _ _ ?_).trans (rekey_out _ _ _ _ ?_)
    · simp only [List.length_append, length_toBytes]; omega
    · omega
  · rfl

theorem ringWrite_bytes (d : Device) (page st : Word) (hl : isLocal (ringAddr d) = true) :
    rdBytes (d.ringWrite page st).mem (ringAddr d) 16 = toBytes page.toNat 8 ++ toBytes st.toNat 8 := by
  unfold Device.ringWrite
  extract_lets pa
  have hlen : (toBytes page.toNat 8 ++ toBytes st.toNat 8).length = 16 := by simp [length_toBytes]
  rw [if_pos (show isLocal pa = true from hl)]
  exact hlen ▸ rdBytes_wrBytes ..

/-- A write of `qqfs` pushes a page (R101), or, on a full ring, leaves it with the firmware (R446). -/
theorem qqfsWrite_happens (s : State) (v : Word) :
    let d := s.dev
    let st := word (max v.toNat d.mm.lastAck)
    Happens (.qqfsWrite v) s fun t => t.dev.ctxs = d.ctxs ∧ MemNear d t.dev (ringAddr d) 16 ∧
      (d.mm.ring.length < 16384 → (∃ w, t.dev.mm.ring = d.mm.ring ++ [(d.mm.qqpg, st, w)]) ∧
        (isLocal (ringAddr d) = true →
          rdBytes t.dev.mem (ringAddr d) 16 = toBytes d.mm.qqpg.toNat 8 ++ toBytes st.toNat 8)) ∧
      (16384 ≤ d.mm.ring.length → MemSame s t ∧
        t.dev.mm = { d.mm with unpushed := d.mm.unpushed ++ [(d.mm.qqpg, v)] }) := by
  intro d st
  refine happens_dev (m := some (d.quarantine d.mm.qqpg v)) rfl rfl ?_
  show (d.quarantine d.mm.qqpg v).ctxs = _ ∧ _
  rcases Nat.lt_or_ge d.mm.ring.length 16384 with h | h
  · obtain ⟨w, e⟩ := quarantine_room d d.mm.qqpg v h
    obtain ⟨m, l, hr⟩ := ringWrite_spec d d.mm.qqpg st
    have near := ringWrite_near d d.mm.qqpg st
    have bytes := ringWrite_bytes d d.mm.qqpg st
    rw [e]
    exact ⟨by rw [hr], near, fun _ => ⟨⟨w, rfl⟩, bytes⟩, fun h' => absurd h (by omega)⟩
  · obtain ⟨e, he⟩ := quarantine_full d d.mm.qqpg v h
    rw [he]
    exact ⟨rfl, memNear_of_mem rfl _ _, fun h' => absurd h (by omega), fun _ => ⟨fun _ => rfl, rfl⟩⟩

theorem headWait_map (m : Mm) (c : Nat) : (m.headWait c).ring.map (fun x => (x.1, x.2.1)) = m.ring.map (fun x => (x.1, x.2.1)) := by
  unfold Mm.headWait
  split
  · next h => rw [h]; rfl
  · rfl

/-- The wait of a new head changes the ring only. -/
theorem headWait_spec (m : Mm) (c : Nat) : ∃ r, m.headWait c = { m with ring := r } := by
  unfold Mm.headWait
  split
  · exact ⟨_, rfl⟩
  · exact ⟨m.ring, rfl⟩

/-- The head of the ring is released where its free stamp has passed and no write waits for the version heap (R99). -/
theorem quarantineRelease_becomes (s : State) (page st : Word) (w : Option Nat) (rest : List (Word × Word × Option Nat))
    (hr : s.dev.mm.ring = (page, st, w) :: rest) (hq : st.toNat < s.dev.qsc)
    (hw : ((s.dev.noteQsc).releaseHead page rest).mm.waiting = []) :
    Becomes .quarantineRelease s ((s.dev.noteQsc).releaseHead page rest) := by
  have hq' : decide (st.toNat < s.dev.noteQsc.qsc) = true := by
    refine decide_eq_true (Nat.lt_of_lt_of_le hq (Nat.le_max_left ..))
  show execQuarantineRelease s = _
  unfold execQuarantineRelease
  rw [hr]
  show s.event (guardOpt _ _) = _
  rw [hq', retried_none _ hw]
  rfl

/-- The device whose ring has lost its head, with the page that it names pending clear and reported (R99, R100). -/
def headReleased (d : Device) (page : Word) (rest : List (Word × Word × Option Nat)) : Device :=
  let m : Mm := { d.mm with ring := rest, head := d.mm.head + 1, unpushed := d.mm.unpushed.drop 1 }
  (({ d with mm := m.headWait d.cycle } : Device).pendingClear page).send (.pageFreed page)

theorem releaseHead_nil (d : Device) (page : Word) (rest : List (Word × Word × Option Nat)) (h : d.mm.unpushed = []) :
    d.releaseHead page rest = headReleased d page rest := by
  unfold Device.releaseHead
  split
  · next h' => cases h.symm.trans h'
  · rfl

theorem releaseHead_cons (d : Device) (page : Word) (rest : List (Word × Word × Option Nat)) {x us}
    (h : d.mm.unpushed = x :: us) : d.releaseHead page rest = (headReleased d page rest).quarantine x.1 x.2 := by
  unfold Device.releaseHead headReleased
  rw [h]

theorem headReleased_mm (d : Device) (page : Word) (rest : List (Word × Word × Option Nat)) :
    let m := (headReleased d page rest).mm
    m.ring.map (fun x => (x.1, x.2.1)) = rest.map (fun x => (x.1, x.2.1)) ∧ m.unpushed = d.mm.unpushed.drop 1 ∧
      m.waiting = d.mm.waiting ∧ m.lastAck = d.mm.lastAck ∧ mfind m.clearing (bits page 51 16) = some (bits page 1 0) := by
  let m0 : Mm := { d.mm with ring := rest, head := d.mm.head + 1, unpushed := d.mm.unpushed.drop 1 }
  obtain ⟨r, hr⟩ := headWait_spec m0 d.cycle
  have hm : (headReleased d page rest).mm =
      { m0.headWait d.cycle with clearing := mset (m0.headWait d.cycle).clearing (bits page 51 16) (bits page 1 0) } := rfl
  have hmap := headWait_map m0 d.cycle
  rw [hm]
  refine ⟨hmap, ?_, ?_, ?_, mfind_mset_same _ _ _⟩ <;> rw [hr]

/-- The bytes of a page that is released are zero, but those of bad granules (R100, R448). -/
theorem headReleased_byte (d : Device) (page : Word) (rest : List (Word × Word × Option Nat)) (a : Nat) :
    let lo := bits page 51 16 * 65536
    let n := 2 ^ winShift (BitVec.ofNat 2 (bits page 1 0))
    rdByte (headReleased d page rest).mem a =
      if lo ≤ a ∧ a < lo + n ∧ d.badGranule (a / 65536) = false then 0 else rdByte d.mem a := by
  intro lo n
  refine (mget_filter (fun a => !(decide (lo ≤ a ∧ a < lo + n) && !d.badGranule (a / 65536))) 0 d.mem a).trans ?_
  by_cases h : lo ≤ a ∧ a < lo + n ∧ d.badGranule (a / 65536) = false
  · rw [if_pos h, if_neg (by simp [h])]
  · rw [if_neg h, if_pos]
    · rfl
    · cases hb : d.badGranule (a / 65536)
      · simp only [hb, and_true] at h
        simp [h]
      · simp

theorem keepsWaiting_releaseHead (d : Device) (page : Word) (rest : List (Word × Word × Option Nat)) :
    (d.releaseHead page rest).mm.waiting = d.mm.waiting := by
  obtain ⟨-, -, hw, -⟩ := headReleased_mm d page rest
  cases h : d.mm.unpushed with
  | nil => rw [releaseHead_nil _ _ _ h, hw]
  | cons x us => rw [releaseHead_cons _ _ _ h, (keepsWaiting_quarantine ..).2, hw]

/-- A release that makes room pushes the first page that the firmware keeps (R446). -/
theorem quarantineRelease_pushes (s : State) (page st : Word) (w : Option Nat) (rest : List (Word × Word × Option Nat))
    (hr : s.dev.mm.ring = (page, st, w) :: rest) (hq : st.toNat < s.dev.qsc) (hw : s.dev.mm.waiting = []) {x us}
    (hu : s.dev.mm.unpushed = x :: us) (hl : rest.length < 16384) :
    Happens .quarantineRelease s fun t => t.dev.mm.unpushed = us ∧
      t.dev.mm.ring.map (fun y => (y.1, y.2.1)) =
        rest.map (fun y => (y.1, y.2.1)) ++ [(x.1, word (max x.2.toNat s.dev.mm.lastAck))] := by
  obtain ⟨hring, hup, -, hack, -⟩ := headReleased_mm s.dev.noteQsc page rest
  have hroom : (headReleased s.dev.noteQsc page rest).mm.ring.length < 16384 := by
    rw [show List.length _ = rest.length by simpa using congrArg List.length hring]; exact hl
  obtain ⟨w', e⟩ := quarantine_room _ x.1 x.2 hroom
  refine ⟨_, quarantineRelease_becomes s page st w rest hr hq ((keepsWaiting_releaseHead ..).trans hw), rfl, ?_⟩
  show (s.dev.noteQsc.releaseHead page rest).mm.unpushed = _ ∧ List.map _ (s.dev.noteQsc.releaseHead page rest).mm.ring = _
  rw [releaseHead_cons _ _ _ (show s.dev.noteQsc.mm.unpushed = _ from hu), e]
  refine ⟨hup.trans (by rw [show s.dev.noteQsc.mm.unpushed = _ from hu]; rfl), ?_⟩
  rw [List.map_append, hring, hack]
  rfl

/-- A release with no page to push leaves the page pending clear, zero but for its bad granules, and reported (R99, R100). -/
theorem quarantineRelease_clears (s : State) (page st : Word) (w : Option Nat) (rest : List (Word × Word × Option Nat))
    (hr : s.dev.mm.ring = (page, st, w) :: rest) (hq : st.toNat < s.dev.qsc) (hw : s.dev.mm.waiting = [])
    (hu : s.dev.mm.unpushed = []) :
    Happens .quarantineRelease s fun t =>
      let lo := bits page 51 16 * 65536
      let n := 2 ^ winShift (BitVec.ofNat 2 (bits page 1 0))
      t.dev.mm.ring.map (fun x => (x.1, x.2.1)) = rest.map (fun x => (x.1, x.2.1)) ∧
        mfind t.dev.mm.clearing (bits page 51 16) = some (bits page 1 0) ∧
        t.dev.out.outbox = s.dev.out.outbox ++ [.pageFreed page] ∧
        (∀ a, a < lo ∨ lo + n ≤ a → rdByte t.dev.mem a = rdByte s.dev.mem a) ∧
        ∀ a, lo ≤ a → a < lo + n → s.dev.badGranule (a / 65536) = false → rdByte t.dev.mem a = 0 := by
  obtain ⟨hring, -, -, -, hclear⟩ := headReleased_mm s.dev.noteQsc page rest
  refine ⟨_, quarantineRelease_becomes s page st w rest hr hq ((keepsWaiting_releaseHead ..).trans hw), rfl, ?_⟩
  have e := releaseHead_nil s.dev.noteQsc page rest hu
  extract_lets lo n
  have hbyte := headReleased_byte s.dev.noteQsc page rest
  show List.map _ (s.dev.noteQsc.releaseHead page rest).mm.ring = _ ∧
    mfind (s.dev.noteQsc.releaseHead page rest).mm.clearing _ = _ ∧ (s.dev.noteQsc.releaseHead page rest).out.outbox = _ ∧
    (∀ a, _ → rdByte (s.dev.noteQsc.releaseHead page rest).mem a = _) ∧
    ∀ a, _ → _ → _ → rdByte (s.dev.noteQsc.releaseHead page rest).mem a = 0
  rw [e]
  refine ⟨hring, hclear, rfl, fun a ha => ?_, fun a h1 h2 h3 => ?_⟩
  · exact (hbyte a).trans (if_neg (by omega))
  · exact (hbyte a).trans (if_pos ⟨h1, h2, h3⟩)

theorem quarantineHeadTimeout_happens (s : State) (page st : Word) (t0 : Nat) (rest : List (Word × Word × Option Nat))
    (hr : s.dev.mm.ring = (page, st, some t0) :: rest) (ht : t0 + 18000000 < s.dev.cycle) :
    Happens .quarantineHeadTimeout s fun t => t.dev.mm.ring = (page, st, none) :: rest ∧ Apart s t := by
  let d : Device := { s.dev with mm := { s.dev.mm with ring := (page, st, none) :: rest } }
  obtain ⟨e, he⟩ := postDev_spec d 7 0 agMemory st
  have hx : exec .quarantineHeadTimeout s = s.devEvent (some (d.postDev 7 0 agMemory st)) := by
    show execQuarantineHeadTimeout s = _
    unfold execQuarantineHeadTimeout
    rw [hr]
    exact congrArg s.devEvent (if_pos (decide_eq_true ht))
  rw [he] at hx
  exact happens_dev hx rfl ⟨rfl, apart_of rfl rfl⟩

theorem pendingClearDone_happens (s : State) (page sz : Nat) (h : mfind s.dev.mm.clearing page = some sz) :
    Happens (.pendingClearDone page) s fun t => mfind t.dev.mm.clearing page = none ∧ Apart s t :=
  happens_dev (m := (mfind s.dev.mm.clearing page).map fun _ =>
      { s.dev with mm := { s.dev.mm with clearing := mdel s.dev.mm.clearing page } }) rfl (congrArg (Option.map _) h)
    ⟨(mfind_mdel ..).trans (if_pos rfl), apart_of rfl rfl⟩

/-! ## Writes of the firmware (R482) -/

theorem firmwareMemoryWrite_happens (s : State) (agent pa : Nat) (bytes : List Byte) (h1 : 0x0910 ≤ agent)
    (h2 : agent ≤ 0x0917) (hne : bytes ≠ []) (hr : isRemote pa = false) (hl : isLocal pa = true)
    (hl' : isLocal (pa + bytes.length - 1) = true) :
    Happens (.firmwareMemoryWrite agent pa bytes) s fun t => t.dev.ctxs = s.dev.ctxs ∧ MemNear s.dev t.dev pa bytes.length ∧
      (pa % 64 + bytes.length ≤ 64 →
        (s.dev.mustWait none (pa / 64) = false → ∀ i, i < bytes.length → rdByte t.dev.mem (pa + i) = bytes.getD i 0) ∧
        (s.dev.mustWait none (pa / 64) = true → MemSame s t ∧ ∃ w : HeldWrite, t.dev.mm.waiting = s.dev.mm.waiting ++ [w] ∧
          w.agent = agent ∧ w.pa = pa ∧ w.bytes = bytes)) := by
  have hx : exec (.firmwareMemoryWrite agent pa bytes) s = s.event (some (s.agentPut agent pa bytes)) := by
    show execFirmwareMemoryWrite agent pa bytes s = _
    unfold execFirmwareMemoryWrite
    rw [if_neg (by simp [hr, hne]; omega), if_neg (by simp [hl, hl'])]
  refine happens_event hx rfl ⟨agentPut_ctxs .., agentPut_near s agent pa bytes, fun hin => ⟨fun hw i hi => ?_, fun hw => ?_⟩⟩
  · have hb := agentPut_line_bytes s agent pa bytes hne hl hin hw
    show rdByte (s.agentPut agent pa bytes).dev.mem (pa + i) = _
    rw [← getD_rdBytes _ _ _ _ hi, hb]
  · obtain ⟨kid, e⟩ := agentPut_line_waits s agent pa bytes hne hl hin hw
    show (∀ a, rdByte (s.agentPut agent pa bytes).dev.mem a = _) ∧
      ∃ w : HeldWrite, (s.agentPut agent pa bytes).dev.mm.waiting = _ ++ [w] ∧ _
    rw [e]
    exact ⟨fun _ => rfl, _, rfl, rfl, rfl, rfl⟩

theorem firmwareMemoryWrite_stops (s : State) (agent pa : Nat) (bytes : List Byte) (h1 : 0x0910 ≤ agent)
    (h2 : agent ≤ 0x0917) (hne : bytes ≠ []) (hr : isRemote pa = false)
    (hl : isLocal pa = false ∨ isLocal (pa + bytes.length - 1) = false) :
    exec (.firmwareMemoryWrite agent pa bytes) s = .fault .reservedPhysical := by
  show execFirmwareMemoryWrite agent pa bytes s = _
  unfold execFirmwareMemoryWrite
  rw [if_neg (by simp [hr, hne]; omega), if_pos (by simpa using hl)]

/-! ## Weight SRAM (R14, R22, R80) -/

theorem weightSramPlacement_happens (s : State) (page size : Nat) (mask : BitVec 4) :
    let d := s.dev
    let bytes := 2 ^ winShift (BitVec.ofNat 2 size)
    let old : SramPage := mget {} d.tab.placed (page * 4 + size)
    size < 4 → page * 65536 % bytes = 0 → isLocal (page * 65536) = true → d.weightPage page size = true →
    (∀ i, i < 4 → mask.getLsbD i = true → old.mask.getLsbD i = false → d.sramUsed i + bytes ≤ 805306368) →
    (∀ l ∈ d.lines, page * 1024 ≤ l.1 → l.1 < page * 1024 + bytes / 64 → l.2.poison = false) →
    Happens (.weightSramPlacement page size mask) s fun t => Apart s t ∧
      let new : SramPage := mget {} t.dev.tab.placed (page * 4 + size)
      new.mask = old.mask ||| mask ∧
        ∀ i, i < bytes → rdByte new.data (page * 65536 + i) = rdByte d.mem (page * 65536 + i) := by
  intro d bytes old hs hp hl hw hroom hpoison
  have hroom' : ((List.range 4).all fun st => !(mask.getLsbD st && !(d.placedMask page size).getLsbD st) ||
      decide (d.sramUsed st + bytes ≤ sramSize)) = true := by
    refine List.all_eq_true.2 fun st hst => ?_
    cases hm : mask.getLsbD st with
    | false => rfl
    | true =>
      cases ho : old.mask.getLsbD st with
      | true => simp [Device.placedMask, old, d] at ho ⊢; simp [ho]
      | false =>
        have := hroom st (List.mem_range.1 hst) hm ho
        simp [sramSize, this]
  have hclean : (d.lines.any fun l => decide (page * 1024 ≤ l.1 ∧ l.1 < page * 1024 + bytes / 64) && l.2.poison) = false := by
    refine List.any_eq_false.2 fun l hl => ?_
    by_cases h : page * 1024 ≤ l.1 ∧ l.1 < page * 1024 + bytes / 64
    · simp [hpoison l hl h.1 h.2]
    · simp [h]
  have hx : exec (.weightSramPlacement page size mask) s = s.devEvent (some (d.placePage page size mask)) := by
    show execWeightSramPlacement page size mask s = _
    unfold execWeightSramPlacement
    extract_lets new room
    refine congrArg s.devEvent (if_pos ?_)
    rw [show room = true from hroom', show s.dev.weightPage page size = true from hw, hl,
      show (s.dev.lines.any fun l => decide (page * 1024 ≤ l.1 ∧ l.1 < page * 1024 + bytes / 64) && l.2.poison) = false from hclean]
    simpa using ⟨hs, hp⟩
  refine happens_dev hx rfl ⟨apart_of rfl rfl, ?_⟩
  show (mget {} (mset d.tab.placed (page * 4 + size) _) (page * 4 + size)).mask = _ ∧ _
  rw [mget_mset_same]
  refine ⟨rfl, fun i hi => ?_⟩
  refine (congrArg (fun x : SramPage => rdByte x.data (page * 65536 + i)) (mget_mset_same ..)).trans ?_
  exact (mget_filter (fun a => decide (page * 65536 ≤ a ∧ a < page * 65536 + bytes)) 0 d.mem _).trans
    (if_pos (decide_eq_true (by omega)))

/-! ## The Dredge and the version heap (R149, R455) -/

theorem dredgeReclaim_happens (s : State) (line : Nat)
    (h : (s.dev.dredged (s.dev.line line)).held < (s.dev.line line).held) (hw : s.dev.mm.waiting = []) :
    Happens (.dredgeReclaim line) s fun t => t.dev.line line = s.dev.dredged (s.dev.line line) ∧ Apart s t := by
  refine happens_event (m := guardOpt _ _) rfl ((if_pos (decide_eq_true h)).trans (congrArg some (retried_none _ hw))) ?_
  exact ⟨mget_mset_same .., apart_of rfl rfl⟩

theorem vheapParkRelease_happens (s : State) (blk : Nat) (k : Binding) (p : Parked) (rest : List Parked)
    (hk : s.dev.binding blk = some k) (hp : takeFirst (fun p : Parked => p.va.isNone) k.parked = some (p, rest))
    (ht : p.freed = true ∨ p.since + 1800000 ≤ s.dev.cycle) (hb : p.ent.blk = blk)
    (hq : (s.dev.readyQ (k.cluster p.ent.lclus)).length < 4096) :
    Happens (.vheapParkRelease blk) s fun t => Apart s t ∧ t.dev.binding blk = some { k with parked := rest } ∧
      t.dev.readyQ (k.cluster p.ent.lclus) = s.dev.readyQ (k.cluster p.ent.lclus) ++ [p.ent] := by
  let k' : Binding := { k with parked := rest }
  let d1 := s.dev.setBinding blk k'
  let c := k.cluster p.ent.lclus
  have he : d1.enqueue p.ent = d1.setReady c (s.dev.readyQ c ++ [p.ent]) := by
    unfold Device.enqueue
    rw [hb, Device.binding_setBinding_same]
    exact if_neg (Nat.not_le.2 hq)
  have hx : exec (.vheapParkRelease blk) s = s.devEvent (some (d1.enqueue p.ent)) := by
    show execVheapParkRelease blk s = _
    unfold execVheapParkRelease
    rw [hk]
    show s.devEvent ((takeFirst _ k.parked).bind _) = _
    rw [hp]
    exact congrArg s.devEvent (if_pos (by simpa [cyclesMs] using ht))
  rw [he] at hx
  refine happens_dev hx rfl ⟨apart_of rfl rfl, Device.binding_setBinding_same .., ?_⟩
  exact (Device.readyQ_setReady ..).trans (if_pos rfl)

/-! ## The Pilot's fetches (R345, R463) -/

/-- The start of a fetch changes the list of fetches only. -/
theorem startFetch_spec {d e : Device} (h : d.startFetch = some e) : ∃ fs, e = { d with tab := { d.tab with fetches := fs } } := by
  unfold Device.startFetch at h
  extract_lets mark at h
  split at h
  · cases h
  · split at h
    · exact ⟨_, (Option.some.inj h).symm⟩
    · obtain ⟨p, -, hp⟩ := Option.map_eq_some_iff.1 h
      exact ⟨_, hp.symm⟩

theorem startFetches_spec (d : Device) (n : Nat) : ∃ fs, d.startFetches n = { d with tab := { d.tab with fetches := fs } } := by
  induction n generalizing d with
  | zero => exact ⟨d.tab.fetches, rfl⟩
  | succ n ih =>
    unfold Device.startFetches
    split
    · next x hx =>
      obtain ⟨fs, rfl⟩ := startFetch_spec hx
      obtain ⟨gs, hg⟩ := ih { d with tab := { d.tab with fetches := fs } }
      exact ⟨gs, hg⟩
    · exact ⟨d.tab.fetches, rfl⟩

theorem walk_startFetches (d : Device) (n b va : Nat) : (d.startFetches n).walk b va = d.walk b va := by
  obtain ⟨fs, h⟩ := startFetches_spec d n
  rw [h]; rfl

theorem expected_startFetches (d : Device) (n b va size : Nat) :
    (d.startFetches n).expected b va size = d.expected b va size := by
  obtain ⟨fs, h⟩ := startFetches_spec d n
  rw [h]; rfl

theorem copyFits_startFetches (d : Device) (n page : Nat) (sz : BitVec 2) (sdom : Nat) (ds : List (List Byte)) :
    (d.startFetches n).copyFits page sz sdom ds = d.copyFits page sz sdom ds := by
  obtain ⟨fs, h⟩ := startFetches_spec d n
  rw [h]; rfl

theorem imageOf_startFetches (d : Device) (n b : Nat) : (d.startFetches n).imageOf b = d.imageOf b := by
  obtain ⟨fs, h⟩ := startFetches_spec d n
  rw [h]; rfl

theorem block_startFetches (d : Device) (n b : Nat) : (d.startFetches n).block b = d.block b := by
  obtain ⟨fs, h⟩ := startFetches_spec d n
  rw [h]; rfl

theorem retires_startFetches (d : Device) (n b va : Nat) : (d.startFetches n).mm.retires b va = d.mm.retires b va := by
  obtain ⟨fs, h⟩ := startFetches_spec d n
  rw [h]

/-- What a fetch's end does to a page that is not retiring and fits where its leaf puts it, by the answer that ends it. -/
theorem fetched_cases (s : State) (f : Fetch) (sz : BitVec 2) (pte : Word) (res : FetchResult)
    (hr : s.dev.mm.retires f.blk (pageBase sz f.va) = false)
    (hf : bits pte 7 6 = 2 → s.dev.copyFits (ptePa pte / 65536) sz ((s.dev.block f.blk).get fSdom)
      (s.dev.expected f.blk (pageBase sz f.va) (2 ^ winShift sz)) = true) :
    let size := 2 ^ winShift sz
    let parts := (s.dev.imageOf f.blk).contents (pageBase sz f.va) size
    let right (ps : List (Nat × List Byte)) : Prop :=
      pageDigests size (partBytes size ps) = s.dev.expected f.blk (pageBase sz f.va) size
    let place (ps : List (Nat × List Byte)) : Prop :=
      s.fetched f sz pte res = some (s.placePage f.blk (pageBase sz f.va) sz pte ps)
    let missed (cls : Nat) : Prop := s.fetched f sz pte res = some { s with dev := s.dev.fetchMissed f cls }
    (bits pte 7 6 = 2 → f.again = false →
      (∀ bytes, res = .peer bytes → (right [(0, bytes)] → place [(0, bytes.take size)]) ∧ (¬ right [(0, bytes)] → missed 3)) ∧
      (res = .peerFailed → missed 6)) ∧
    (res = .flash → (bits pte 7 6 ≠ 2 ∨ right parts → place parts) ∧ (bits pte 7 6 = 2 → ¬ right parts → missed 3)) ∧
    (res = .flashFailed → missed 6) ∧ (bits pte 7 6 = 2 → res = .flashBad → missed 3) := by
  intro size parts right place missed
  have hopen : ¬ ((!(!decide (bits pte 7 6 = 2) || s.dev.copyFits (ptePa pte / 65536) sz ((s.dev.block f.blk).get fSdom)
      (s.dev.expected f.blk (pageBase sz f.va) size)) || s.dev.mm.retires f.blk (pageBase sz f.va)) = true) := by
    by_cases hw : bits pte 7 6 = 2
    · simp [hr, hf hw, size]
    · simp [hr, hw]
  refine ⟨fun hw ha => ⟨?_, ?_⟩, ?_, ?_, ?_⟩
  · rintro bytes rfl
    refine ⟨fun h => ?_, fun h => ?_⟩
    · refine (if_neg hopen).trans ((if_pos ⟨decide_eq_true hw, by simp [ha]⟩).trans (congrArg some (if_pos ?_)))
      exact beq_iff_eq.2 h
    · refine (if_neg hopen).trans ((if_pos ⟨decide_eq_true hw, by simp [ha]⟩).trans (congrArg some (if_neg ?_)))
      exact fun e => h (beq_iff_eq.1 e)
  · rintro rfl
    exact (if_neg hopen).trans (if_pos ⟨decide_eq_true hw, by simp [ha]⟩)
  · rintro rfl
    refine ⟨fun h => ?_, fun hw h => ?_⟩
    · refine (if_neg hopen).trans (congrArg some (if_pos ?_))
      rcases h with h | h
      · simp [h]
      · exact Bool.or_eq_true_iff.2 (.inr (beq_iff_eq.2 h))
    · refine (if_neg hopen).trans (congrArg some (if_neg ?_))
      simpa [hw] using h
  · rintro rfl
    exact if_neg hopen
  · rintro hw rfl
    exact (if_neg hopen).trans (if_pos (decide_eq_true hw))

/-- `PILOT_FETCH_COMPLETE` (R345, R463): what a fetch's end does to its page, by the answer that ends it. -/
theorem pilotFetchComplete_events (s : State) (blk va : Nat) (f : Fetch) (sz : BitVec 2) (pte : Word) (res : FetchResult)
    (hfind : (s.dev.startFetches 64).tab.fetches.find?
      (fun f => f.blk == blk && f.va == va && f.started && f.failed.isNone) = some f)
    (hw : s.dev.walk blk va = .leaf sz pte) (hr : s.dev.mm.retires blk (pageBase sz va) = false)
    (hf : bits pte 7 6 = 2 → s.dev.copyFits (ptePa pte / 65536) sz ((s.dev.block blk).get fSdom)
      (s.dev.expected blk (pageBase sz va) (2 ^ winShift sz)) = true) :
    let d0 := s.dev.startFetches 64
    let ends (u : State) : Prop := exec (.pilotFetchComplete blk va res) s =
      .next { ({ u with dev := u.dev.startFetches 64 } : State) with last := .done }
    let place (parts : List (Nat × List Byte)) : Prop :=
      ends (State.placePage { s with dev := d0 } blk (pageBase sz va) sz pte parts)
    let missed (cls : Nat) : Prop := ends { s with dev := d0.fetchMissed f cls }
    let size := 2 ^ winShift sz
    let parts := (s.dev.imageOf blk).contents (pageBase sz va) size
    let right (ps : List (Nat × List Byte)) : Prop :=
      pageDigests size (partBytes size ps) = s.dev.expected blk (pageBase sz va) size
    (pte.getLsbD 9 = false → ends { s with dev := d0.dropFetch blk va 1 }) ∧
    (pte.getLsbD 9 = true →
      (bits pte 7 6 = 2 → f.again = false →
        (∀ bytes, res = .peer bytes → (right [(0, bytes)] → place [(0, bytes.take size)]) ∧
          (¬ right [(0, bytes)] → missed 3)) ∧
        (res = .peerFailed → missed 6)) ∧
      (res = .flash → (bits pte 7 6 ≠ 2 ∨ right parts → place parts) ∧
        (bits pte 7 6 = 2 → ¬ right parts → missed 3)) ∧
      (res = .flashFailed → missed 6) ∧ (bits pte 7 6 = 2 → res = .flashBad → missed 3)) := by
  have hkey := List.find?_some hfind
  simp only [Bool.and_eq_true, beq_iff_eq] at hkey
  obtain ⟨⟨⟨rfl, rfl⟩, -⟩, -⟩ := hkey
  intro d0 ends place missed size parts right
  have hx (m : Option State) (hm : m = if pte.getLsbD 9 then State.fetched { s with dev := d0 } f sz pte res
      else some { s with dev := d0.dropFetch f.blk f.va 1 }) :
      exec (.pilotFetchComplete f.blk f.va res) s =
        s.event (m.bind fun t => some { t with dev := t.dev.startFetches 64 }) := by
    show execPilotFetchComplete f.blk f.va res s = _
    unfold execPilotFetchComplete
    show s.event ((List.find? _ d0.tab.fetches).bind _) = _
    rw [hfind, show (s.dev.startFetches 64).walk f.blk f.va = .leaf sz pte from (walk_startFetches ..).trans hw, hm]
    refine congrArg s.event ?_
    by_cases h9 : pte.getLsbD 9 = true
    · rw [if_pos h9]
      exact if_pos h9
    · rw [if_neg h9]
      exact if_neg h9
  refine ⟨fun h9 => hx (some { s with dev := d0.dropFetch f.blk f.va 1 }) (by rw [h9]; rfl), fun h9 => ?_⟩
  have hend {u : State} (h : State.fetched { s with dev := d0 } f sz pte res = some u) : ends u :=
    hx (some u) ((if_pos h9).trans h).symm
  obtain ⟨hpeer, hflash, hfailed, hbad⟩ := fetched_cases { s with dev := d0 } f sz pte res ((retires_startFetches ..).trans hr)
    fun h => by rw [copyFits_startFetches, expected_startFetches, block_startFetches]; exact hf h
  rw [expected_startFetches, imageOf_startFetches] at *
  exact ⟨fun h ha => ⟨fun b hb => ⟨fun h' => hend (((hpeer h ha).1 b hb).1 h'), fun h' => hend (((hpeer h ha).1 b hb).2 h')⟩,
      fun h' => hend ((hpeer h ha).2 h')⟩,
    fun h => ⟨fun h' => hend ((hflash h).1 h'), fun hw' h' => hend ((hflash h).2 hw' h')⟩,
    fun h => hend (hfailed h), fun h h' => hend (hbad h h')⟩

/-! ## What is stored: memory and the flash tier

Aborts, kills, pre-emptions, shoot-downs and parked tasks leave both alone. -/

/-- Memory and the flash tier are as before. -/
def Stored (d e : Device) : Prop := e.mem = d.mem ∧ e.flash = d.flash

theorem Stored.refl (d : Device) : Stored d d := ⟨rfl, rfl⟩

theorem Stored.trans {d e f : Device} (h : Stored d e) (g : Stored e f) : Stored d f := ⟨g.1.trans h.1, g.2.trans h.2⟩

theorem Stored.foldl {α : Type} (f : Device → α → Device) (h : ∀ d x, Stored d (f d x)) (l : List α) (d : Device) :
    Stored d (l.foldl f d) := by
  induction l generalizing d with
  | nil => exact .refl d
  | cons x r ih => exact (h d x).trans (ih _)

theorem Stored.ite {d x y : Device} {b : Prop} [Decidable b] (hx : Stored d x) (hy : Stored d y) :
    Stored d (if b then x else y) := by
  split
  · exact hx
  · exact hy

theorem stored_updCtx (d : Device) (a : Nat) (f : Ctx → Ctx) : Stored d (d.updCtx a f) := ⟨rfl, rfl⟩
theorem stored_updCore (d : Device) (n : Nat) (f : Core → Core) : Stored d (d.updCore n f) := ⟨rfl, rfl⟩
theorem stored_updCell (d : Device) (n : Nat) (f : Cell → Cell) : Stored d (d.updCell n f) := ⟨rfl, rfl⟩
theorem stored_setCtx (d : Device) (a : Nat) (c : Ctx) : Stored d (d.setCtx a c) := ⟨rfl, rfl⟩
theorem stored_updTab (d : Device) (f : Tables → Tables) : Stored d (d.updTab f) := ⟨rfl, rfl⟩
theorem stored_setMstate (d : Device) (b st : Nat) : Stored d (d.setMstate b st) := ⟨rfl, rfl⟩
theorem stored_noteAbort (d : Device) (b : Nat) (cause : BitVec 8) : Stored d (d.noteAbort b cause) := ⟨rfl, rfl⟩
theorem stored_noteCandidates (d : Device) : Stored d d.noteCandidates := ⟨rfl, rfl⟩

theorem stored_updBinding (d : Device) (b : Nat) (f : Binding → Binding) : Stored d (d.updBinding b f) := by
  unfold Device.updBinding
  split
  · exact ⟨rfl, rfl⟩
  · exact .refl d

theorem stored_post (d : Device) (r : ErrRec) : Stored d (d.post r) := by
  obtain ⟨e, h⟩ := post_spec d r
  rw [h]; exact ⟨rfl, rfl⟩

theorem stored_postBlock (d : Device) (cls rung b agent : Nat) (cause : BitVec 8) (aux : Word) :
    Stored d (d.postBlock cls rung b agent cause aux) := stored_post ..

theorem stored_postDev (d : Device) (cls rung agent : Nat) (aux : Word) : Stored d (d.postDev cls rung agent aux) := by
  obtain ⟨e, h⟩ := postDev_spec d cls rung agent aux
  rw [h]; exact ⟨rfl, rfl⟩

theorem stored_freeCells (d : Device) (cells : List Nat) : Stored d (d.freeCells cells) := by
  unfold Device.freeCells
  extract_lets cores agents d1 d2
  have h1 : Stored d d1 := .foldl _ (fun _ _ => stored_updCell ..) _ _
  have h2 : Stored d1 d2 := .foldl _ (fun _ _ => stored_setCtx ..) _ _
  exact (h1.trans h2).trans (.foldl _ (fun _ _ => stored_updCore ..) _ _)

theorem stored_release (d : Device) (b : Nat) : Stored d (d.release b) := by
  unfold Device.release
  split
  · exact .refl d
  · extract_lets d1 mine d2
    have h1 : Stored d d1 := .trans (e := d.charge b _ _) ⟨rfl, rfl⟩ (stored_freeCells ..)
    exact h1.trans ⟨rfl, rfl⟩

theorem stored_unbind (d : Device) (b : Nat) : Stored d (d.unbind b) := .trans (stored_release d b) ⟨rfl, rfl⟩

/-! ### Replies -/

theorem stored_sendSegment (d : Device) (t : ReplyTo) (kind msg status tlen nseg seg : Nat) (body : List Byte) :
    Stored d (d.sendSegment t kind msg status tlen nseg seg body) := by
  unfold Device.sendSegment
  split
  · exact .refl d
  · extract_lets nonce hdr sealed d1
    have h1 : Stored d d1 := ⟨rfl, rfl⟩
    exact .ite (.refl d) (.ite h1 (h1.trans (stored_postDev ..)))

theorem stored_sendSegments (t : ReplyTo) (kind msg status tlen nseg n seg : Nat) (bs : List Byte) (d : Device) :
    Stored d (Device.sendSegments t kind msg status tlen nseg n seg bs d) := by
  induction n generalizing seg bs d with
  | zero => exact .refl d
  | succ n ih => exact (stored_sendSegment ..).trans (ih ..)

theorem stored_sendMessage (d : Device) (t : ReplyTo) (kind msg status : Nat) (payload : List Byte) :
    Stored d (d.sendMessage t kind msg status payload) := by
  unfold Device.sendMessage
  extract_lets nseg d1
  have h1 : Stored d d1 := stored_sendSegments ..
  split
  · exact .ite (h1.trans ⟨rfl, rfl⟩) h1
  · exact h1

theorem stored_errorReply (d : Device) (b : Nat) (r : Rec) (status : Nat) : Stored d (d.errorReply b r status) := by
  unfold Device.errorReply
  split
  · exact .ite ⟨rfl, rfl⟩ (.refl d)
  · exact stored_sendMessage ..

/-! ### Kills and K deliveries -/

theorem stored_killBlock (d : Device) (b : Nat) : Stored d (d.killBlock b) := by
  unfold Device.killBlock
  extract_lets recs bound d1 replies
  have h1 : Stored d d1 := stored_release ..
  have h2 : Stored d1 replies := .foldl _ (fun x e => .ite (stored_errorReply ..) (.refl x)) _ _
  exact (h1.trans h2).trans ⟨rfl, rfl⟩

theorem stored_kill (d : Device) (b : Nat) (cause : BitVec 8) : Stored d (d.kill b cause) :=
  (stored_noteAbort ..).trans (stored_killBlock ..)

theorem stored_kQueueFor (d : Device) (b : Nat) (cause : BitVec 8) (val : Word) (ent : Option ReadyEnt)
    (pinned : Option Nat) : Stored d (d.kQueueFor b cause val ent pinned) :=
  .ite (stored_kill ..) (stored_updBinding ..)

theorem stored_kQueue (d : Device) (b : Nat) (cause : BitVec 8) (val : Word) (ent : Option ReadyEnt) :
    Stored d (d.kQueue b cause val ent) := stored_kQueueFor ..

theorem stored_unpark (d : Device) (b va : Nat) (cause : BitVec 8) (val : Word) : Stored d (d.unpark b va cause val).1 := by
  unfold Device.unpark
  split
  · exact .refl d
  · split
    · exact .refl d
    · extract_lets out hit pinned d1 d2
      have h1 : Stored d d1 := ⟨rfl, rfl⟩
      have h2 : Stored d1 d2 := .foldl _ (fun _ _ => stored_kQueue ..) _ _
      exact (h1.trans h2).trans (.foldl _ (fun _ _ => stored_kQueueFor ..) _ _)

theorem stored_park (d : Device) (b : Nat) (va : Word) (ent : ReadyEnt) : Stored d (d.park b va ent) := by
  unfold Device.park
  split
  · exact stored_kQueue ..
  · exact stored_updBinding ..

/-! ### Aborts (R72, R74) -/

theorem stored_enqueue (d : Device) (e : ReadyEnt) : Stored d (d.enqueue e) := by
  unfold Device.enqueue
  split
  · exact .refl d
  · exact .ite ⟨rfl, rfl⟩ ⟨rfl, rfl⟩

theorem stored_startFetches (d : Device) (n : Nat) : Stored d (d.startFetches n) := by
  obtain ⟨fs, h⟩ := startFetches_spec d n
  rw [h]; exact ⟨rfl, rfl⟩

theorem stored_requestFetch (d : Device) (b va : Nat) : Stored d (d.requestFetch b va) := by
  unfold Device.requestFetch
  extract_lets d1
  have h1 : Stored d d1 := stored_startFetches ..
  exact .ite h1 ((h1.trans (stored_updTab ..)).trans (stored_startFetches ..))

/-- The device that the answer to a touch of an absent entry leaves. -/
def repairDev : Repair → Device
  | .present d => d
  | .parked d => d

theorem stored_repair (d : Device) (b : Nat) (va : Word) : Stored d (repairDev (d.repair b va)) := by
  unfold Device.repair
  split
  · exact .refl d
  · extract_lets base
    split
    · exact stored_updBinding ..
    · split
      · exact stored_requestFetch ..
      · exact ⟨rfl, rfl⟩

theorem stored_requeue (d : Device) (cause : BitVec 8) (val : Word) (e : ReadyEnt) : Stored d (d.requeue cause val e) := by
  have hr := stored_repair d e.blk val
  unfold Device.requeue
  split
  · split
    · next x h => rw [h] at hr; exact hr.trans (stored_enqueue ..)
    · next x h => rw [h] at hr; exact hr.trans (stored_park ..)
  · exact .ite (stored_updBinding ..) (stored_enqueue ..)

theorem stored_passIssue (d : Device) (a : Nat) : Stored d (d.passIssue a) := by
  unfold Device.passIssue
  extract_lets core order
  split
  · exact .refl d
  · split
    · exact stored_updCtx ..
    · exact .refl d

theorem stored_leave (d : Device) (a : Nat) (r : RunState) : Stored d (d.leave a r) :=
  .ite (.trans (stored_updCtx ..) (stored_passIssue ..)) (stored_updCtx ..)

theorem stored_cancelOps (d : Device) (a : Nat) (p : EngOp → Bool) : Stored d (d.cancelOps a p) :=
  .trans (e := { d with ops := d.ops.filter fun o => !(o.agent == a && p o) }) ⟨rfl, rfl⟩
    (.foldl _ (fun _ _ => stored_updCtx ..) _ _)

theorem stored_asyncTrap (d : Device) (a : Nat) (cause : BitVec 8) (val : Word) : Stored d (d.asyncTrap a cause val) := by
  unfold Device.asyncTrap
  split
  · exact .refl d
  · extract_lets tva
    exact .ite ((stored_post ..).trans (stored_kill ..)) (.ite (stored_kill ..) (stored_updCtx ..))

theorem stored_abortTask (d : Device) (a : Nat) (cause : BitVec 8) (val : Word) : Stored d (d.abortTask a cause val) := by
  unfold Device.abortTask
  split
  · exact stored_leave ..
  · extract_lets errs vh d1 d2 d3 seq d4 e
    have h1 : Stored d d1 := ⟨rfl, rfl⟩
    have h2 : Stored d1 d2 := .ite (stored_post ..) (.ite (stored_postBlock ..) (.ite (stored_postBlock ..) (.refl d1)))
    have h3 : Stored d2 d3 := (stored_cancelOps ..).trans ⟨rfl, rfl⟩
    have h4 : Stored d3 d4 := stored_postBlock ..
    have h5 := (h1.trans h2).trans h3
    exact .ite ((h5.trans h4).trans ((stored_updCtx ..).trans (stored_asyncTrap ..)))
      (h5.trans (((stored_updCtx ..).trans (stored_leave ..)).trans (stored_requeue ..)))

/-! ### Pre-emptions and shoot-downs (R64, R97) -/

theorem stored_withdraw (d : Device) (a : Nat) : Stored d (d.withdraw a) :=
  .trans (stored_updCore ..) (.foldl _ (fun _ _ => stored_updCtx ..) _ _)

theorem stored_stopCtx (d : Device) (b a : Nat) : Stored d (d.stopCtx b a) := by
  unfold Device.stopCtx
  extract_lets c prot save
  split
  · exact .refl d
  · exact .ite (.refl d) (.ite ((stored_updCtx ..).trans (stored_abortTask ..))
      (.ite (.ite (((stored_withdraw ..).trans (stored_updCtx ..)).trans (stored_leave ..)) (.refl d))
        ((stored_updCtx ..).trans (stored_leave ..))))

theorem stored_requestPreempt (d : Device) (b : Nat) (save suspend : Bool) : Stored d (d.requestPreempt b save suspend) := by
  unfold Device.requestPreempt
  split
  · exact .refl d
  · split
    · exact stored_unbind ..
    · split
      · exact ⟨rfl, rfl⟩
      · next k _ _ _ =>
        extract_lets d1 d2
        have h1 : Stored d d1 := ⟨rfl, rfl⟩
        have h2 : Stored d1 d2 := .foldl _ (fun _ _ => stored_updCtx ..) _ _
        exact (h1.trans h2).trans (.foldl _ (fun _ _ => stored_stopCtx ..) _ _)

theorem stored_suspendIdle (d : Device) (b : Nat) : Stored d (d.suspendIdle b) := .ite (stored_setMstate ..) (.refl d)

theorem stored_holdOwners (d : Device) (owners : List Nat) : Stored d (d.holdOwners owners) := by
  unfold Device.holdOwners
  extract_lets hold mine d1
  have h : ∀ x b, Stored x (hold x b) := fun _ _ => (stored_requestPreempt ..).trans (stored_suspendIdle ..)
  have h1 : Stored d d1 := (Stored.foldl hold h _ _).trans (stored_noteCandidates _)
  exact h1.trans ⟨rfl, rfl⟩

theorem stored_shootWindow (d : Device) (b : Nat) (hit : WinEnt → Bool) : Stored d (d.shootWindow b hit) := by
  unfold Device.shootWindow
  split
  · exact .refl d
  · next k _ =>
    extract_lets mark d1
    have h1 : Stored d d1 := ⟨rfl, rfl⟩
    refine h1.trans (.foldl _ (fun x a => ?_) _ _)
    split
    · exact .ite (stored_abortTask ..) (.refl x)
    · exact .refl x

theorem stored_shootMapping (d : Device) (m : Mapping) : Stored d (d.shootMapping m) :=
  (stored_shootWindow ..).trans (stored_updBinding ..)

/-! ## The firmware's answer for a leaf (R85, R444) -/

/-- An answer writes its entry, and installs the leaf that results. -/
theorem exec_firmwareLeafAnswer_some (s : State) (blk va pa : Nat) (v : Word) (hl : isLocal pa = true) (ha : pa % 8 = 0) :
    let t := s.agentPut agMemory pa (toBytes v.toNat 8)
    exec (.firmwareLeafAnswer blk va (some (pa, v))) s = s.event (match t.dev.walk blk va with
      | .leaf sz p => guardOpt (t.dev.installable blk va sz p) (t.installLeaf blk va sz p)
      | .invalid => some t) := by
  intro t
  have hok : (isLocal pa && pa % 8 == 0) = true := by simp [hl, ha]
  show execFirmwareLeafAnswer blk va (some (pa, v)) s = _
  unfold execFirmwareLeafAnswer
  simp only [hok, Bool.true_and]
  rfl

/-- An entry written where no leaf results is in memory, unless it has to wait for the version heap. -/
theorem firmwareLeafAnswer_written (s : State) (blk va pa : Nat) (v : Word) (hl : isLocal pa = true) (ha : pa % 8 = 0)
    (hw : (s.agentPut agMemory pa (toBytes v.toNat 8)).dev.walk blk va = .invalid) :
    Happens (.firmwareLeafAnswer blk va (some (pa, v))) s fun t => MemNear s.dev t.dev pa 8 ∧ t.dev.ctxs = s.dev.ctxs ∧
      (s.dev.mustWait none (pa / 64) = false → rdBytes t.dev.mem pa 8 = toBytes v.toNat 8) := by
  have hlen : (toBytes v.toNat 8).length = 8 := length_toBytes ..
  have hx : exec (.firmwareLeafAnswer blk va (some (pa, v))) s = s.event (some (s.agentPut agMemory pa (toBytes v.toNat 8))) := by
    rw [exec_firmwareLeafAnswer_some s blk va pa v hl ha, hw]
  refine happens_event hx rfl ⟨?_, agentPut_ctxs .., fun hm => ?_⟩
  · have h := agentPut_near s agMemory pa (toBytes v.toNat 8)
    rwa [hlen] at h
  · have h := agentPut_line_bytes s agMemory pa (toBytes v.toNat 8) (by simp [toBytes]) hl (by omega) hm
    rwa [hlen] at h

/-- An entry that maps the page, at a page that may hold it, is installed (R85). -/
theorem firmwareLeafAnswer_installs (s : State) (blk va pa : Nat) (v : Word) (hl : isLocal pa = true) (ha : pa % 8 = 0)
    {sz p} (hw : (s.agentPut agMemory pa (toBytes v.toNat 8)).dev.walk blk va = .leaf sz p)
    (hi : (s.agentPut agMemory pa (toBytes v.toNat 8)).dev.installable blk va sz p = true) :
    exec (.firmwareLeafAnswer blk va (some (pa, v))) s =
      .next { (s.agentPut agMemory pa (toBytes v.toNat 8)).installLeaf blk va sz p with last := .done } := by
  rw [exec_firmwareLeafAnswer_some s blk va pa v hl ha, hw]
  exact congrArg s.event (if_pos hi)

/-- An address declared unmappable: the tasks that wait for it get NOMAP (R444). -/
theorem firmwareLeafAnswer_none (s : State) (blk va : Nat) (hw : s.dev.walk blk va = .invalid)
    (hb : (s.dev.binding blk).isSome = true) :
    Happens (.firmwareLeafAnswer blk va none) s fun t => MemSame s t ∧
      ∀ x, (s.dev.unmappable blk va).unpark blk va 0x06 (va57 va) = (x, true) → t.dev = x := by
  have hs : Stored s.dev (s.dev.unmappable blk va) := stored_post ..
  have hx : exec (.firmwareLeafAnswer blk va none) s = s.devEvent (
      match (s.dev.unmappable blk va).unpark blk va cNOMAP (va57 va) with
      | (d, true) => some d
      | (_, false) => some ((s.dev.unmappable blk va).kQueue blk cNOMAP (va57 va) none)) := by
    show execFirmwareLeafAnswer blk va none s = _
    unfold execFirmwareLeafAnswer
    simp only [hw, hb, if_true] <;> rfl
  rcases h : (s.dev.unmappable blk va).unpark blk va cNOMAP (va57 va) with ⟨d, found⟩
  have hd := hs.trans (h ▸ stored_unpark (s.dev.unmappable blk va) blk va cNOMAP (va57 va))
  rw [h] at hx
  cases found with
  | true => exact happens_dev hx rfl ⟨fun a => congrArg (rdByte · a) hd.1, fun x hx' => congrArg Prod.fst hx'⟩
  | false =>
    have hk : Stored s.dev _ := hs.trans (stored_kQueue _ blk cNOMAP (va57 va) none)
    exact happens_dev hx rfl ⟨fun a => congrArg (rdByte · a) hk.1, fun x hx' => absurd (congrArg Prod.snd hx') (by simp)⟩

/-! ## Shoot-downs (R97, R445) -/

theorem written_out {d e : Device} (h : Written d e) : e.out = d.out := by
  obtain ⟨_, _, _, _, _, _, _, _, rfl, _⟩ := h
  rfl

theorem written_flash {d e : Device} (h : Written d e) : e.flash = d.flash := by
  obtain ⟨_, _, _, _, _, _, _, _, rfl, _⟩ := h
  rfl

theorem cmdPut_pend (s : State) (q : Nat) (dev : Bool) (addr : Nat) (bs : List Byte) :
    (s.cmdPut q dev addr bs).dev.out.pend = s.dev.out.pend := by
  unfold State.cmdPut
  extract_lets h
  split
  · obtain ⟨d, f, hd, e⟩ := agentPut_spec s agCommand addr bs
    rw [e]
    exact congrArg Outside.pend (written_out hd)
  · split <;> rfl

theorem interrupt_pend (d : Device) (fn vec : Nat) : (d.interrupt fn vec).out.pend = d.out.pend := by
  unfold Device.interrupt
  extract_lets k v
  split
  · rfl
  · split <;> rfl

/-- A completion leaves the list of pending commands alone (R356). -/
theorem complete_pend (s : State) (q : Nat) (seq : Word32) (type : Nat) (cpl : Bool) (status : Nat) (result : Word) :
    (s.complete q seq type cpl status result).dev.out.pend = s.dev.out.pend := by
  unfold State.complete
  extract_lets h bits128 s1 d
  split
  · rfl
  · split
    · rfl
    · split
      · rfl
      · split
        · obtain ⟨e, he⟩ := postDev_spec (s.dev.updHq q HostQ.stop) 6 0 agCommand 0
          rw [he]; rfl
        · have h1 : d.out.pend = s.dev.out.pend := cmdPut_pend ..
          show (if _ then _ else _ : Device).out.pend = _
          split
          · exact (interrupt_pend ..).trans h1
          · exact h1

/-- A shoot-down that is acknowledged is no longer pending. -/
theorem endShootdown_pend (s : State) (p : Pending) (st : Nat) : p ∉ (s.endShootdown p st).dev.out.pend := by
  have gone : p ∉ s.dev.out.pend.filter fun x => !decide (x = p) := by simp
  unfold State.endShootdown
  split
  · exact gone
  · unfold State.finishPend
    rw [complete_pend]
    exact gone

theorem shootdownAck_happens (s : State) (blk : Nat) (p : Pending)
    (hp : s.dev.out.pend.find? (fun p => p.kind.shootsAt blk) = some p)
    (h : s.dev.binding blk = none ∧ s.dev.mstate blk ≠ sMigrating ∨
      (∃ k h, s.dev.binding blk = some k ∧ k.shoots.find? (fun h => h.q == p.q) = some h ∧ s.dev.shootDone h = true)) :
    Happens (.shootdownAck blk) s fun t => p ∉ t.dev.out.pend := by
  have hover : (match s.dev.binding blk with
      | none => s.dev.mstate blk != sMigrating
      | some k => match k.shoots.find? fun h => h.q == p.q with | some h => s.dev.shootDone h | none => true) = true := by
    rcases h with ⟨hb, hm⟩ | ⟨k, h, hb, hs, hd⟩
    · rw [hb]; exact bne_iff_ne.2 hm
    · rw [hb]; simp only [hs, hd]
  let d := s.ackStamp.1.dev.updBinding blk fun k => { k with shoots := k.shoots.filter fun h => h.q != p.q }
  have hx : exec (.shootdownAck blk) s =
      s.event (some (State.endShootdown { s.ackStamp.1 with dev := d } p s.ackStamp.2)) := by
    show execShootdownAck blk s = _
    unfold execShootdownAck
    show s.event ((List.find? _ _).bind _) = _
    rw [hp]
    exact congrArg s.event (if_pos hover)
  exact happens_event hx rfl (endShootdown_pend _ _ _)

/-- The binding of a block that is unbound is gone. -/
theorem unbind_binding (d : Device) (b : Nat) : (d.unbind b).binding b = none := by
  show (d.release b).binding b = none
  unfold Device.release
  split
  · assumption
  · exact (mfind_mdel ..).trans (if_pos rfl)

theorem passIssue_tab (d : Device) (a : Nat) : (d.passIssue a).tab = d.tab := by
  unfold Device.passIssue
  extract_lets core order
  split
  · rfl
  · split <;> rfl

theorem leave_tab (d : Device) (a : Nat) (r : RunState) : (d.leave a r).tab = d.tab := by
  unfold Device.leave
  extract_lets was d1
  split
  · exact passIssue_tab ..
  · rfl

theorem withdraw_tab (d : Device) (a : Nat) : (d.withdraw a).tab = d.tab := by
  unfold Device.withdraw
  extract_lets gone d1
  have : ∀ l : List MEntry, ∀ x : Device, (l.foldl (fun x m => x.updCtx a fun c =>
      { c with tls := mset c.tls m.e ((mget {} c.tls m.e).drop m.num) }) x).tab = x.tab := fun l => by
    induction l with
    | nil => intro; rfl
    | cons m r ih => exact fun x => ih _
  exact this ..

/-- Under the save policy a context stops without an abort, and the serving tables stay as they are (R64). -/
theorem stopCtx_tab (d : Device) (b a : Nat) {k p} (hk : d.binding b = some k) (hp : k.preempt = some p) (hs : p.save = true) :
    (d.stopCtx b a).tab = d.tab := by
  unfold Device.stopCtx
  extract_lets c prot save
  have hsave : save = true := by simp only [save, hk, hp, hs]
  split
  · rfl
  · split
    · rfl
    · split
      · next h => rw [hsave] at h; exact absurd h.1 (by simp)
      · split
        · split
          · exact (leave_tab ..).trans (withdraw_tab d a)
          · rfl
        · exact leave_tab ..

theorem foldl_stopCtx_tab (b : Nat) (l : List Nat) (d : Device) {k p} (hk : d.binding b = some k) (hp : k.preempt = some p)
    (hs : p.save = true) : (l.foldl (fun x a => x.stopCtx b a) d).tab = d.tab := by
  induction l generalizing d with
  | nil => rfl
  | cons a r ih =>
    have h := stopCtx_tab d b a hk hp hs
    exact (ih _ ((congrArg (fun t : Tables => mfind t.bindings b) h).trans hk)).trans h

theorem foldl_updCtx_tab (f : Ctx → Ctx) (l : List Nat) (d : Device) : (l.foldl (fun x a => x.updCtx a f) d).tab = d.tab := by
  induction l generalizing d with
  | nil => rfl
  | cons a r ih => exact ih _

/-- A bound block is asked to stop under the save policy. -/
theorem requestPreempt_saves (d : Device) (b : Nat) (k : Binding) (hk : d.binding b = some k) (hp : k.preempt = none)
    (hm : d.mstate b ≠ sBinding) :
    ∃ k' p, (d.requestPreempt b true false).binding b = some k' ∧ k'.preempt = some p ∧ p.save = true := by
  let d1 := d.setBinding b { k with preempt := some { save := true, since := d.cycle, suspend := false } }
  let d2 := k.agents.foldl (fun x a => x.updCtx a fun c => { c with event := true }) d1
  have he : d.requestPreempt b true false = k.agents.foldl (fun x a => x.stopCtx b a) d2 := by
    unfold Device.requestPreempt
    simp only [hk, if_neg hm, hp]
    rfl
  have h1 : d1.binding b = some { k with preempt := some { save := true, since := d.cycle, suspend := false } } :=
    Device.binding_setBinding_same ..
  have h2 : d2.binding b = d1.binding b := congrArg (fun t : Tables => mfind t.bindings b) (foldl_updCtx_tab ..)
  have h3 := foldl_stopCtx_tab b k.agents d2 (h2.trans h1) rfl rfl
  exact ⟨_, _, (congrArg (fun x => x.binding b) he).trans
    ((congrArg (fun t : Tables => mfind t.bindings b) h3).trans (h2.trans h1)), rfl, rfl⟩

theorem shootdownTimeout_happens (s : State) (blk : Nat) (k : Binding) (h : Shoot) (hh : h ∈ k.shoots)
    (hk : s.dev.binding blk = some k) (hp : k.preempt = none) (ht : h.since + 18000000 ≤ s.dev.cycle)
    (hd : s.dev.shootDone h = false) :
    Happens (.shootdownTimeout blk) s fun t => MemSame s t ∧ (s.dev.mstate blk = sBinding → t.dev.binding blk = none) ∧
      (s.dev.mstate blk ≠ sBinding → ∃ k' p, t.dev.binding blk = some k' ∧ k'.preempt = some p ∧ p.save = true) := by
  have hx : exec (.shootdownTimeout blk) s = s.devEvent (some (s.dev.requestPreempt blk true false)) := by
    show execShootdownTimeout blk s = _
    unfold execShootdownTimeout
    rw [hk]
    refine congrArg s.devEvent (if_pos ?_)
    rw [hp]
    exact List.any_eq_true.2 ⟨h, hh, by simp [cyclesMs, ht, hd]⟩
  refine happens_dev hx rfl ⟨fun a => congrArg (rdByte · a) (stored_requestPreempt ..).1, fun hm => ?_,
    fun hm => requestPreempt_saves s.dev blk k hk hp hm⟩
  show (s.dev.requestPreempt blk true false).binding blk = none
  unfold Device.requestPreempt
  rw [hk]
  simp only [if_pos hm]
  exact unbind_binding ..

/-! ## Drains (R147, R457) -/

theorem bits_setBits_low (x : Word) (v : Nat) (h : v < 2) : bits (setBits x 0 0 v) 0 0 = v := by
  have hb : ∀ y : Word, bits y 0 0 = (y.getLsbD 0).toNat := fun y => by
    have hm : bits y 0 0 = y.toNat % 2 := by simp [bits]
    rw [hm, BitVec.getLsbD, Nat.testBit_zero]
    rcases Nat.mod_two_eq_zero_or_one y.toNat with h | h <;> simp [h]
  rw [hb]
  obtain rfl | rfl : v = 0 ∨ v = 1 := by omega
  · unfold setBits; simp
  · unfold setBits; simp

/-- `msel` is one bit. -/
theorem msel_lt (m : Block) : m.get fMsel < 2 := (BitVec.extractLsb' 0 1 (m.dw 6)).isLt

theorem get_set_msel (m : Block) (v : Nat) (h : v < 2) : (m.set fMsel v).get fMsel = v := by
  show bits (mget _ (mset m.words 6 _) 6) 0 0 = v
  rw [mget_mset_same]
  exact bits_setBits_low _ v h

theorem get_drains (m : Block) (l : List Nat) (f : Fld) : Block.get { m with drains := l } f = m.get f := rfl

theorem block_updBlock (d : Device) (b : Nat) (f : Block → Block) : (d.updBlock b f).block b = f (d.block b) :=
  mget_mset_same ..

/-- A drain that ends leaves its result in the handle's entry, and is no longer under way (R147). -/
theorem endDrain_spec (d : Device) (b h : Nat) (res : BitVec 2) :
    let e := d.endDrain b h res
    (e.snap b h).dres = res ∧ e.ctxs = d.ctxs ∧ e.mem = d.mem ∧ e.flash = d.flash ∧
      e.block b = { d.block b with drains := (d.block b).drains.drop 1 } := by
  refine ⟨?_, rfl, rfl, rfl, mget_mset_same ..⟩
  exact congrArg Snap.dres (mget_mset_same ..)

/-- A drain of the device table commits (R146). -/
theorem drainCommit_device (s : State) (h : Nat) (m : Allotment) (hh : s.dev.draining devTable = some h)
    (hb : (s.dev.snap devTable h).broken = false) (hp : s.dev.devicePoisoned h = false) :
    Happens (.drainCommit devTable m) s fun t => (t.dev.snap devTable h).dres = 1 ∧ Apart s t := by
  obtain ⟨hres, hc, hm, -, -⟩ := endDrain_spec s.dev devTable h 1
  have hx : exec (.drainCommit devTable m) s = s.event (some { s with dev := s.dev.endDrain devTable h 1 }) := by
    show execDrainCommit devTable m s = _
    unfold execDrainCommit
    show s.event ((s.dev.draining devTable).bind _) = _
    rw [hh]
    show s.event (if (s.dev.snap devTable h).broken then none else _) = _
    rw [if_neg (by simp [hb]), if_pos rfl, hp]
    rfl
  exact happens_event hx rfl ⟨hres, apart_of hc hm⟩

/-- The sequence number of the root record that the next drain of a block writes (R148). -/
def nextSeqOf (d : Device) (b : Nat) : Word32 :=
  match d.flash.dseq b ((d.block b).get fMsel) with
  | some n => n + 1
  | none => 1

/-- The flash tier with a block's new checkpoint and its root record on the side that `msel` does not select. -/
def drainedFlash (d : Device) (b h : Nat) (m : Allotment) : Flash :=
  let other := 1 - (d.block b).get fMsel
  { d.flash with
    roots := mset d.flash.roots (2 * b + other) (rootRecord (d.newCkpt b h m) m.mlba (d.snap b h) (nextSeqOf d b))
    ckpts := mset d.flash.ckpts (2 * b + other) (d.newCkpt b h m) }

/-- The state of a drain that commits once its root record is in flash and in memory (R147, steps 1 to 4). -/
def rootPut (s : State) (b h : Nat) (m : Allotment) : State :=
  State.agentPut { s with dev := { s.dev with flash := drainedFlash s.dev b h m } } agDrain
    ((s.dev.block b).get (if 1 - (s.dev.block b).get fMsel = 0 then fRoota else fRootb) * 64)
    (toBytes (rootRecord (s.dev.newCkpt b h m) m.mlba (s.dev.snap b h) (nextSeqOf s.dev b)).toNat 64)

theorem commitDrain_dev (s : State) (b h : Nat) (m : Allotment) :
    (s.commitDrain b h m).dev =
      ((rootPut s b h m).dev.updBlock b fun x => x.set fMsel (1 - (s.dev.block b).get fMsel)).endDrain b h 1 := rfl

theorem rootPut_flash (s : State) (b h : Nat) (m : Allotment) : (rootPut s b h m).dev.flash = drainedFlash s.dev b h m := by
  obtain ⟨x, fr, hw, e⟩ := agentPut_spec { s with dev := { s.dev with flash := drainedFlash s.dev b h m } } agDrain
    ((s.dev.block b).get (if 1 - (s.dev.block b).get fMsel = 0 then fRoota else fRootb) * 64)
    (toBytes (rootRecord (s.dev.newCkpt b h m) m.mlba (s.dev.snap b h) (nextSeqOf s.dev b)).toNat 64)
  exact (congrArg (fun t : State => t.dev.flash) e).trans (written_flash hw)

theorem rootPut_near (s : State) (b h : Nat) (m : Allotment) :
    MemNear s.dev (rootPut s b h m).dev
      ((s.dev.block b).get (if (s.dev.block b).get fMsel = 1 then fRoota else fRootb) * 64) 64 := by
  have hside : (1 - (s.dev.block b).get fMsel = 0) = ((s.dev.block b).get fMsel = 1) := by
    have := msel_lt (s.dev.block b)
    exact propext ⟨by omega, by omega⟩
  have near := agentPut_near { s with dev := { s.dev with flash := drainedFlash s.dev b h m } } agDrain
    ((s.dev.block b).get (if 1 - (s.dev.block b).get fMsel = 0 then fRoota else fRootb) * 64)
    (toBytes (rootRecord (s.dev.newCkpt b h m) m.mlba (s.dev.snap b h) (nextSeqOf s.dev b)).toNat 64)
  rw [length_toBytes] at near
  simp only [← hside]
  exact near

/-- A drain of a block commits: its checkpoint and root record on the side that `msel` does not select, and `msel` inverted
(R147, R148). -/
theorem commitDrain_spec (s : State) (b h : Nat) (m : Allotment) :
    let d := s.dev
    let t := s.commitDrain b h m
    let sel := (d.block b).get fMsel
    (t.dev.snap b h).dres = 1 ∧ t.dev.ctxs = d.ctxs ∧ (t.dev.block b).get fMsel = 1 - sel ∧
      t.dev.flash.ckpt b (1 - sel) = d.newCkpt b h m ∧
      mfind t.dev.flash.roots (2 * b + (1 - sel)) = some (rootRecord (d.newCkpt b h m) m.mlba (d.snap b h) (nextSeqOf d b)) ∧
      MemNear d t.dev ((d.block b).get (if sel = 1 then fRoota else fRootb) * 64) 64 := by
  intro d t sel
  let y := (rootPut s b h m).dev.updBlock b fun x => x.set fMsel (1 - sel)
  obtain ⟨hres, hc, hm, hf, hk⟩ := endDrain_spec y b h 1
  have hflash : (y.endDrain b h 1).flash = drainedFlash d b h m := hf.trans (rootPut_flash s b h m)
  have near := rootPut_near s b h m
  rw [show t.dev = y.endDrain b h 1 from commitDrain_dev s b h m]
  refine ⟨hres, hc.trans (agentPut_ctxs ..), ?_, ?_, ?_, fun a ha => ?_⟩
  · rw [hk, get_drains, block_updBlock]
    exact get_set_msel _ _ (by omega)
  · rw [hflash]
    exact mget_mset_same ..
  · rw [hflash]
    exact mfind_mset_same ..
  · rw [hm]
    exact near a ha

theorem drainCommit_block (s : State) (blk h : Nat) (m : Allotment) (hh : s.dev.draining blk = some h)
    (hb : (s.dev.snap blk h).broken = false) (hn : blk ≠ devTable) (hp : s.dev.drainPoisoned blk h = false)
    (he : m.extents.length = extentsFor (s.dev.drainWrites blk h)) :
    exec (.drainCommit blk m) s = s.event (some (s.commitDrain blk h m)) := by
  show execDrainCommit blk m s = _
  unfold execDrainCommit
  show s.event ((s.dev.draining blk).bind _) = _
  rw [hh]
  show s.event (if (s.dev.snap blk h).broken then none else _) = _
  rw [if_neg (by simp [hb]), if_neg hn]
  exact congrArg s.event (if_pos (by simp [hp, he]))

/-- A drain that fails leaves its result in the handle's entry and memory as it was (R457). -/
theorem drainFail_happens (s : State) (blk h : Nat) (why : DrainFault) (hh : s.dev.draining blk = some h)
    (h1 : why ≠ .broken ∨ (s.dev.snap blk h).broken = true) (h2 : why ≠ .poisoned ∨ s.dev.poisonedDrain blk h = true) :
    Happens (.drainFail blk why) s fun t => (t.dev.snap blk h).dres = 2 ∧ Apart s t ∧
      t.dev.block blk = { s.dev.block blk with drains := (s.dev.block blk).drains.drop 1 } := by
  let r : ErrRec := { cls := BitVec.ofNat 8 (drainClass why), agent := BitVec.ofNat 16 agDrain,
                      mctx := if blk = devTable then none else s.dev.who blk }
  obtain ⟨hres, hc, hm, -, hk⟩ := endDrain_spec s.dev blk h 2
  obtain ⟨e, he⟩ := post_spec (s.dev.endDrain blk h 2) r
  have hx : exec (.drainFail blk why) s = s.devEvent (some ((s.dev.endDrain blk h 2).post r)) := by
    show execDrainFail blk why s = _
    unfold execDrainFail
    show s.devEvent ((s.dev.draining blk).bind _) = _
    rw [hh]
    exact congrArg s.devEvent (if_pos (by simpa using ⟨h1, h2⟩))
  rw [he] at hx
  exact happens_dev hx rfl ⟨hres, apart_of hc hm, hk⟩

/-! ## The retirement of a page (R448, R449) -/

/-- The retirement under way ends as its kind says. -/
theorem pageRetirement_ends (s : State) (r : Retire) (hr : s.dev.mm.retire = some r) :
    (∀ m ms u, r.maps = m :: ms → s.endMapped r m = some u →
      exec (.pageRetirement r.gran r.fresh) s = .next { u with last := .done }) ∧
    (∀ u, r.maps = [] → s.endAreas r = some u →
      exec (.pageRetirement r.gran r.fresh) s = .next { u with last := .done }) := by
  have hx (u : State) (h : (match r.maps with | m :: _ => s.endMapped r m | [] => s.endAreas r) = some u) :
      exec (.pageRetirement r.gran r.fresh) s = .next { u with last := .done } := by
    show execPageRetirement r.gran r.fresh s = _
    unfold execPageRetirement
    rw [hr]
    show s.event (if r.gran ≠ r.gran ∨ r.fresh ≠ r.fresh then none else _) = _
    rw [if_neg (by simp)]
    exact congrArg s.event h
  exact ⟨fun m ms u hm hu => hx u (by rw [hm]; exact hu), fun u hm hu => hx u (by rw [hm]; exact hu)⟩

/-- A state whose oldest bad-page entry has just reached flash (R411). -/
def badListed (s : State) (e : Word) (rest : List Word) : State :=
  { s with dev := { s.dev with flash := { s.dev.flash with bad := s.dev.flash.bad ++ [e], bpBusy := rest } } }

/-- With no retirement under way, that of the oldest bad-page entry begins. -/
theorem pageRetirement_begins (s : State) (e : Word) (rest : List Word) (fresh : Nat) (hr : s.dev.mm.retire = none)
    (hb : s.dev.flash.bpBusy = e :: rest) :
    exec (.pageRetirement (bits e 51 16) fresh) s = s.event ((badListed s e rest).beginRetire (bits e 51 16) fresh) := by
  show execPageRetirement (bits e 51 16) fresh s = _
  unfold execPageRetirement
  rw [hr, hb]
  exact congrArg s.event (if_pos (beq_self_eq_true _))

theorem putLeaf_flash (s : State) (m : Mapping) (pte : Word) : (s.putLeaf m pte).dev.flash = s.dev.flash := by
  obtain ⟨d, f, h, e⟩ := agentPut_spec s agMemory (s.dev.leafAddr m.blk m.va) (toBytes pte.toNat 8)
  exact (congrArg (fun t : State => t.dev.flash) e).trans (written_flash h)

theorem foldl_putLeaf_flash (f : Mapping → Word) (ms : List Mapping) (s : State) :
    (ms.foldl (fun t m => t.putLeaf m (f m)) s).dev.flash = s.dev.flash := by
  induction ms generalizing s with
  | nil => rfl
  | cons m r ih => exact (ih _).trans (putLeaf_flash ..)

/-- The retirement of a mapped page begins where a fresh page can take its place, and no block that maps it is MIGRATING. -/
theorem beginMapped_spec (s : State) (g fresh : Nat) (ms : List Mapping) (m : Mapping)
    (hf : s.dev.freshPage fresh (ptePa m.pte) (2 ^ winShift m.sz) (2 ^ winShift m.sz) = true)
    (hm : ∀ x ∈ ms, s.dev.mstate x.blk ≠ sMigrating) :
    ∃ t r, s.beginMapped g fresh ms m = some t ∧ t.dev.flash = s.dev.flash ∧ t.dev.mm.retire = some r ∧
      r.gran = g ∧ r.fresh = fresh ∧ r.maps = ms := by
  have hok : (ms.any fun m => s.dev.mstate m.blk == sMigrating) = false :=
    List.any_eq_false.2 fun x hx => by simpa using hm x hx
  have hstored (x : Device) (owners : List Nat) : Stored x ((ms.foldl Device.shootMapping x).holdOwners owners) :=
    (Stored.foldl _ stored_shootMapping _ _).trans (stored_holdOwners ..)
  refine ⟨_, _, if_pos (by rw [hf, hok]; rfl), ?_, rfl, rfl, rfl, rfl⟩
  exact (hstored _ _).2.trans (foldl_putLeaf_flash (fun m => setBits m.pte 9 9 1) ms s)

/-- A bad-page entry that has reached flash begins a retirement, or ends it at once where nothing uses its granule. -/
theorem pageRetirement_events (s : State) (e : Word) (rest : List Word) (fresh : Nat) (hr : s.dev.mm.retire = none)
    (hb : s.dev.flash.bpBusy = e :: rest) :
    let d := s.dev
    let g := bits e 51 16
    let s1 := badListed s e rest
    (∀ u, s1.beginRetire g fresh = some u → exec (.pageRetirement g fresh) s = .next { u with last := .done }) ∧
    (∀ m ms, s1.dev.mappings g = m :: ms →
      s1.dev.freshPage fresh (ptePa m.pte) (2 ^ winShift m.sz) (2 ^ winShift m.sz) = true →
      (∀ x ∈ m :: ms, d.mstate x.blk ≠ sMigrating) →
      Happens (.pageRetirement g fresh) s fun t => t.dev.flash.bad = d.flash.bad ++ [e] ∧ t.dev.flash.bpBusy = rest ∧
        ∃ r : Retire, t.dev.mm.retire = some r ∧ r.gran = g ∧ r.fresh = fresh ∧ r.maps = m :: ms) ∧
    (d.mappings g = [] → (∀ b ∈ d.liveBlocks, d.tablesIn b g = false ∧ (d.block b).ownsIn (g * 65536) 65536 = false) →
      Happens (.pageRetirement g fresh) s fun t => t.dev.flash.bad = d.flash.bad ++ [e] ∧
        t.dev.flash.bpBusy = rest ∧ Apart s t) := by
  intro d g s1
  have hx := pageRetirement_begins s e rest fresh hr hb
  refine ⟨fun u hu => hx.trans (by rw [show (badListed s e rest).beginRetire _ _ = _ from hu]; rfl), fun m ms hms hf hm => ?_,
    fun hms hfree => ?_⟩
  · obtain ⟨t, r, ht, hflash, hret, hg, hfr, hmaps⟩ := beginMapped_spec s1 g fresh (m :: ms) m hf hm
    have hbegin : s1.beginRetire g fresh = some t := by
      unfold State.beginRetire
      rw [hms]; exact ht
    refine happens_event hx hbegin ⟨congrArg Flash.bad hflash, congrArg Flash.bpBusy hflash, r, hret, hg, hfr, hmaps⟩
  · have htabled : s1.dev.liveBlocks.filter (fun b => s1.dev.tablesIn b g) = [] :=
      List.filter_eq_nil_iff.2 fun b hb' h => Bool.false_ne_true ((hfree b hb').1.symm.trans h)
    have howners : s1.dev.ownersIn (g * 65536) 65536 = [] :=
      List.filter_eq_nil_iff.2 fun b hb' h => Bool.false_ne_true ((hfree b hb').2.symm.trans h)
    let r : ErrRec := { cls := 7, agent := BitVec.ofNat 16 agMemory, pa := some (BitVec.ofNat 52 (g * 65536)),
                        aux := word (if s1.dev.mm.heapHolds g then 1 else 4) }
    obtain ⟨er, hpost⟩ := post_spec s1.dev r
    have hbegin : s1.beginRetire g fresh = some { s1 with dev := { s1.dev with err := er } } := by
      unfold State.beginRetire
      rw [show s1.dev.mappings g = [] from hms]
      simp only [htabled, howners]
      rw [← hpost]
      rfl
    exact happens_event hx hbegin ⟨rfl, rfl, apart_of rfl rfl⟩

/-- Settles O46: each event of pages by the lemma above about it. -/
theorem pageEventsHappen : Obligations.PageEventsHappen := by
  unfold Obligations.PageEventsHappen
  intro s blk va pa v
  extract_lets d near runs
  refine ⟨fun f sz pte res => ?_, fun hl ha => ⟨?_, ?_⟩, ?_, ?_, ?_, ?_, ?_, ?_, ?_, ?_, ?_, ?_, ?_, ?_, ?_⟩
  · exact fun hfind hw hr hf => pilotFetchComplete_events s blk va f sz pte res hfind hw hr hf
  · exact fun hw => firmwareLeafAnswer_written s blk va pa v hl ha hw
  · exact fun sz p hw hi => firmwareLeafAnswer_installs s blk va pa v hl ha hw hi
  · exact fun hw hb => firmwareLeafAnswer_none s blk va hw hb
  · exact fun p hp h => shootdownAck_happens s blk p hp h
  · exact fun k h hh hk hp ht hd => shootdownTimeout_happens s blk k h hh hk hp ht hd
  · exact qqfsWrite_happens s v
  · intro page st w rest hr
    refine ⟨fun hq hw x us hu hl => quarantineRelease_pushes s page st w rest hr hq hw hu hl,
      fun hq hw hu => quarantineRelease_clears s page st w rest hr hq hw hu, ?_⟩
    rintro t0 rfl ht
    exact quarantineHeadTimeout_happens s page st t0 rest hr ht
  · exact fun page sz h => pendingClearDone_happens s page sz h
  · exact fun agent bytes h1 h2 hne hr => ⟨fun hl hl' => firmwareMemoryWrite_happens s agent pa bytes h1 h2 hne hr hl hl',
      fun hl => firmwareMemoryWrite_stops s agent pa bytes h1 h2 hne hr hl⟩
  · exact fun page size mask => weightSramPlacement_happens s page size mask
  · exact fun line h hw => dredgeReclaim_happens s line h hw
  · exact fun k p rest hk hp ht hb hq => vheapParkRelease_happens s blk k p rest hk hp ht hb hq
  · intro h hh
    refine ⟨fun m hb => ⟨?_, fun hn hp he => ?_⟩, fun why h1 h2 => drainFail_happens s blk h why hh h1 h2⟩
    · rintro rfl hp
      exact drainCommit_device s h m hh hb hp
    · exact happens_event (drainCommit_block s blk h m hh hb hn hp he) rfl (commitDrain_spec s blk h m)
  · exact fun r hr => pageRetirement_ends s r hr
  · exact fun e rest fresh hr hb => pageRetirement_events s e rest fresh hr hb

end Sys2Proof.Proofs

/-! PROOF. The issue of a bundle (O54): a step with nothing scheduled opens the fetched bundle, runs its slots and ends it. -/

namespace Sys2Proof.Proofs

open Sys2Proof Sys2Proof.Machine Sys2Proof.Safety Sys2Proof.Laws

/-! ## Which context issues (R50, R51) -/

/-- Which context issues depends on the contexts' run states alone. -/
theorem issuer_congr {d e : Device} (h : ∀ a, (e.ctx a).run = (d.ctx a).run) (core : Nat) : e.issuer core = d.issuer core := by
  simp only [Device.issuer, h]

theorem run_updCtx (d : Device) (a b : Nat) (f : Ctx → Ctx) (h : ∀ c, (f c).run = c.run) :
    ((d.updCtx a f).ctx b).run = (d.ctx b).run := by
  by_cases e : b = a
  · subst e; simp [h]
  · rw [Device.ctx_updCtx_other _ _ _ _ e]

theorem issuer_updCtx (d : Device) (a core : Nat) (f : Ctx → Ctx) (h : ∀ c, (f c).run = c.run) :
    (d.updCtx a f).issuer core = d.issuer core := issuer_congr (fun b => run_updCtx d a b f h) core

theorem run_rotate (c : Ctx) : c.rotate.run = c.run := by
  unfold Ctx.rotate
  split <;> rfl

theorem run_rotations (n : Nat) (c : Ctx) : (c.rotations n).run = c.run := by
  induction n generalizing c with
  | zero => rfl
  | succ n ih => 
    unfold Ctx.rotations
    rw [ih]; exact run_rotate c

theorem issuer_rotateDue (d : Device) (a core : Nat) : (d.rotateDue a).issuer core = d.issuer core := by
  unfold Device.rotateDue
  split
  · exact issuer_updCtx _ _ _ _ fun c => run_rotations _ c
  · rfl

theorem issuer_settleStores (d : Device) (a core : Nat) : (d.settleStores a).issuer core = d.issuer core := by
  unfold Device.settleStores
  split
  · rfl
  · split
    · split
      · exact issuer_updCtx _ _ _ _ fun _ => rfl
      · rfl
    · rfl

/-! ## Slots whose effect comes last -/

/-- Where no taken slot is of the kind `k` of last effect, none of that kind runs. -/
theorem runLast_none (ex : Meaning) (ds : List Dec) (leaf : Nat) (k : Last) (l : List (Dec × Nat)) (s : State)
    (h : ∀ x ∈ l, x.1.taken leaf = true → ∀ j, x.1.instr = some j → lastOf j ≠ some k) :
    runLast ex ds leaf k l s = .next s := by
  induction l with
  | nil => rfl
  | cons x r ih =>
    have hr := ih fun y hy => h y (List.mem_cons_of_mem _ hy)
    obtain ⟨d, i⟩ := x
    unfold runLast
    cases ht : d.taken leaf with
    | false => exact hr
    | true =>
      cases hi : d.instr with
      | none => simpa [hi] using hr
      | some j => simpa [hi, h (d, i) List.mem_cons_self ht j hi] using hr

/-- A slot that stops ends its bundle where no lower slot is a gather or scatter. -/
theorem lowestStop_next (ex : Meaning) (ds : List Dec) (leaf : Nat) (lower : List (Dec × Nat)) (s t : State)
    (hs : s.bundle.isSome = true)
    (h : ∀ x ∈ lower, x.1.taken leaf = true → ∀ j, x.1.instr = some j → lastOf j ≠ some .gather) :
    lowestStop ex ds leaf lower s t = .next t := by
  obtain ⟨b, hb⟩ := Option.isSome_iff_exists.mp hs
  simp [lowestStop, runLast_none ex ds leaf .gather lower s h, hb]

theorem andThen_open {t : State} {f : State → Host.Outcome State Fault Refusal} (h : t.bundle.isSome = true) :
    andThen (.next t) f = f t := by
  obtain ⟨b, hb⟩ := Option.isSome_iff_exists.mp h
  simp [andThen, hb]

/-! ## Slots in order (R174 to R178, R422) -/

theorem runSlots_skip (ex : Meaning) (ds : List Dec) (leaf : Nat) (lower r : List (Dec × Nat)) (d : Dec) (n : Nat) (s : State)
    (h : d.taken leaf = false) : runSlots ex ds leaf lower ((d, n) :: r) s = runSlots ex ds leaf lower r s := by
  simp [runSlots, h]

/-- A taken slot with an effect of its own runs by the meaning of its instruction. -/
theorem runSlots_taken (ex : Meaning) (ds : List Dec) (leaf : Nat) (lower r : List (Dec × Nat)) (d : Dec) (n : Nat) (s : State)
    {i : Instr} (ht : d.taken leaf = true) (hi : d.instr = some i) (hl : lastOf i = none) :
    runSlots ex ds leaf lower ((d, n) :: r) s =
      match ex i (s.atSlot ds n d) with
      | .next t => if t.bundle.isNone then lowestStop ex ds leaf lower s t else runSlots ex ds leaf (lower ++ [(d, n)]) r t
      | o => o := by
  simp only [runSlots, ht, hi, hl, if_true] <;> rfl

/-- A bundle of one slot is that slot's instruction and then the bundle's end. -/
theorem runSlots_one (ex : Meaning) (ds : List Dec) (leaf n : Nat) (d : Dec) (s : State) (hs : s.bundle.isSome = true)
    (f : State → Host.Outcome State Fault Refusal)
    {i : Instr} (ht : d.taken leaf = true) (hi : d.instr = some i) (hl : lastOf i = none) :
    andThen (runSlots ex ds leaf [] [(d, n)] s) f = andThen (ex i (s.atSlot ds n d)) f := by
  rw [runSlots_taken ex ds leaf [] [] d n s ht hi hl]
  cases ex i (s.atSlot ds n d) with
  | next t =>
    dsimp only
    split
    · rw [lowestStop_next ex ds leaf [] s t hs (by simp)]
    · rfl
  | fault r => rfl
  | refused r => rfl

/-! ## The end of a bundle (R217, R230, R422, R423) -/

theorem noteDue_bundle (s : State) (ds : List Dec) (leaf : Nat) : (s.noteDue ds leaf).bundle = s.bundle := by
  unfold State.noteDue
  dsimp only
  split <;> rfl

theorem noteDue_none (s : State) (ds : List Dec) (leaf : Nat) (hr : resultsDue s.dev.cycle leaf ds = []) (hd : s.ctx.due = []) :
    s.noteDue ds leaf = s := by
  simp [State.noteDue, hr, hd]

/-- The end of a bundle of slots that none come last, neither blocked nor over its segment's length, is its commit. -/
theorem finish_commits (ex : Meaning) (ds : List Dec) (leaf : Nat) (s : State) (hs : s.bundle.isSome = true)
    (hb : s.bun.blockedBy = none) (hg : ¬(s.ctx0.segOpen = true ∧ s.binding.prot = true ∧ 1024 ≤ s.ctx0.seg.bundles))
    (h : ∀ d ∈ ds, d.taken leaf = true → ∀ i, d.instr = some i → lastOf i = none) :
    finish ex ds leaf s = .next (s.noteDue ds leaf).commit := by
  have none_last (k : Last) : ∀ x ∈ ds.zipIdx, x.1.taken leaf = true → ∀ j, x.1.instr = some j → lastOf j ≠ some k := by
    intro x hx ht j hj
    have hx' : x.1 ∈ ds := (List.mem_zipIdx hx).2.2 ▸ List.getElem_mem _
    simp [h x.1 hx' ht j hj]
  unfold finish
  rw [runLast_none ex ds leaf .gather _ s (none_last .gather), andThen_open hs, if_neg hg, hb,
    runLast_none ex ds leaf .ending _ _ (none_last .ending)]
  exact andThen_open (by rw [noteDue_bundle]; exact hs)

/-! ## A bundle's issue -/

/-- The core at focus issues the bundle that waits for nothing and passes its checks. -/
theorem issueAt_runs (ex : Meaning) (u : State) (a b : Nat) (ws : List Word32) 
    (hf : u.fetch b (u.dev.ctx a).regs.pc = .ok ws)
    (hi : (u.dev.ctx a).interlocked u.dev.cycle (openBundle u a b ws).bun.leaf (ws.map decWord) = false)
    (hh : State.farHeld { u with bundle := some (shutBundle u a ws) } (openBundle u a b ws).bun.leaf (ws.map decWord) = false)
    (hz : (u.dev.core (coreOf a)).freezes (bundleWeight (openBundle u a b ws).bun.leaf (ws.map decWord)) = false) :
    u.issueAt ex a b = (openBundle u a b ws).runBundle ex (ws.map decWord) (openBundle u a b ws).bun.leaf := by
  unfold openBundle shutBundle at hi
  unfold openBundle shutBundle at hh
  unfold openBundle shutBundle at hz
  simp only [State.bun] at hi hh hz
  simp only [State.issueAt, hf, hi, hh, hz, Bool.or_false, Bool.false_eq_true, if_false]
  rfl

/-- The issue of a bundle that passes its checks runs its slots in order and then ends it. -/
theorem runBundle_runs (ex : Meaning) (v : State) (ds : List Dec) (leaf : Nat)
    (he : encodingFault (!isUpper (coreOf v.me)) ds = none)
    (ho : operandFault (v.before.core (coreOf v.me)).vlimit (fun r => (mget {} v.ctx0.v r.toNat).tag) ds = none)
    (hm : modeFault v.ctx0.trap.mode leaf ds = none) :
    v.runBundle ex ds leaf = andThen (runSlots ex ds leaf [] ds.zipIdx v) (finish ex ds leaf) := by
  simp only [State.runBundle, he, ho, hm]

/-- A context that has a next bundle holds a task, is issuing, and has nothing that holds it. -/
theorem nextBundle_some {u : State} {core a b : Nat} {r : Except Stop (List Word32)} (h : u.nextBundle core = some (a, b, r)) :
    a = u.dev.issuer core ∧ r = u.fetch b (u.dev.ctx a).regs.pc ∧ (u.dev.ctx a).pend = none ∧
      ¬((u.dev.ctx a).run ≠ .issuing ∨ ((u.dev.ctx a).segOpen = true ∧ (u.dev.ctx a).seg.stopped.isSome = true)) ∧
      ∃ t, (u.dev.ctx a).task = some t ∧ t.blk = b := by
  unfold State.nextBundle at h
  dsimp only at h
  split at h
  · contradiction
  · rename_i t ht
    split at h
    · contradiction
    · rename_i hc
      simp only [Option.some.injEq, Prod.mk.injEq] at h
      obtain ⟨rfl, rfl, rfl⟩ := h
      rw [not_or, not_or] at hc
      obtain ⟨h1, h2, h3⟩ := hc
      exact ⟨rfl, rfl, by simpa using h3, not_or.mpr ⟨h1, h2⟩, t, ht, rfl⟩

/-- A core whose context has a next bundle issues it, and stops the context where a pre-emption is under way. -/
theorem issue_runs (ex : Meaning) (s : State) (core a b : Nat) (r : Except Stop (List Word32))
    (h : (s.issuePoint core).nextBundle core = some (a, b, r)) :
    s.issue ex core = match (s.issuePoint core).issueAt ex a b with
      | .next u => .next { u with dev := u.dev.stopIfDue a }
      | o => o := by
  obtain ⟨ha, -, hp, hr, t, ht, hb⟩ := nextBundle_some h
  have hi : (s.issuePoint core).dev.issuer core =
      ((if (s.dev.core core).issued then s.dev.tick else s.dev).passIssue (4 * core + 3)).issuer core := by
    unfold State.issuePoint
    dsimp only
    rw [issuer_settleStores, issuer_rotateDue]
  rw [hi] at ha
  subst ha
  unfold State.issuePoint at hp hr ht
  dsimp only at hp hr ht
  unfold State.issue
  simp only [ht, hp, if_neg hr, hb]
  rfl

/-- A step with nothing scheduled is the issue of the core at focus, and what follows the bundle. -/
theorem step_issues (s : State) (a b : Nat) (r : Except Stop (List Word32)) (ha : s.agenda = []) (hp : s.dev.power = .on)
    (h : (s.issuePoint s.focus).nextBundle s.focus = some (a, b, r)) :
    step s = afterIssue a ((s.issuePoint s.focus).issueAt exec a b) := by
  unfold step State.turn
  rw [ha]
  dsimp only
  unfold State.issueNext
  rw [if_neg (by simp [hp]), issue_runs exec s s.focus a b r h]
  cases (s.issuePoint s.focus).issueAt exec a b with
  | next t =>
    dsimp only [afterIssue]
    by_cases hl : t.last = .idle <;> simp only [hl, if_true, if_false]
  | fault r => rfl
  | refused r => rfl

/-- Settles O54: the turn of the core at focus, its slots one by one, the bundle's end, and the turn of an event. -/
theorem stepRunsTheDecodedInstruction : Obligations.StepRunsTheDecodedInstruction := by
  unfold Obligations.StepRunsTheDecodedInstruction
  intro s
  refine ⟨fun a b ws => ?_, fun ds leaf lower d n r => ⟨runSlots_skip exec ds leaf lower r d n s, fun i ht hi hl => ⟨?_, ?_⟩⟩,
    fun ds leaf hs hb hg h => ⟨finish_commits exec ds leaf s hs hb hg h, noteDue_none s ds leaf⟩, fun e r ha hl => ?_⟩
  · intro u ds v leaf ha hp hn hi hh hz he ho hm
    obtain ⟨-, hf, -⟩ := nextBundle_some hn
    have hstep : step s = afterIssue a (andThen (runSlots exec ds leaf [] ds.zipIdx v) (finish exec ds leaf)) := by
      rw [step_issues s a b _ ha hp hn, issueAt_runs exec u a b ws hf.symm hi hh hz]
      exact congrArg _ (runBundle_runs exec v ds leaf he ho hm)
    refine ⟨hstep, fun w i hw hwi ht hl => ?_⟩
    subst hw
    rw [hstep]
    exact congrArg _ (runSlots_one exec ds leaf 0 (decWord w) v rfl _ ht hwi hl)
  · intro t ht' hb
    obtain ⟨x, hx⟩ := Option.isSome_iff_exists.mp hb
    simp [runSlots_taken exec ds leaf lower r d n s ht hi hl, ht', hx]
  · intro t ht' hb hs hlow
    simp [runSlots_taken exec ds leaf lower r d n s ht hi hl, ht', hb, lowestStop_next exec ds leaf lower s t hs hlow]
  · simp only [step, State.turn, ha, State.happen, hl, if_true]

end Sys2Proof.Proofs

/-! PROOF. Stores outside and inside a protected segment (O16, O17): the pieces of a store buffered or held one by one. -/

namespace Sys2Proof.Proofs

open Sys2Proof Sys2Proof.Machine Sys2Proof.Safety Sys2Proof.Laws

/-! ## Effective addresses (R179, R240) -/

theorem immS_eq {w : Nat} (s : State) (x : BitVec w) : s.immS x = wordI (signedImm s.bun.wide x) := by
  unfold State.immS signedImm wordI
  split
  · rfl
  · rw [BitVec.signExtend, BitVec.toInt_append]
    simp [Int.mul_comm]

theorem ea_eq {w : Nat} (s : State) (base : BitVec 6) (off : BitVec w) (n : Nat) :
    s.ea base off n = s.sreg base + wordI (signedImm s.bun.wide off * n) := by
  have h : word n = wordI n := rfl
  rw [State.ea, immS_eq, h]
  exact congrArg _ (BitVec.ofInt_mul _ _).symm

/-! ## States that differ in the context at hand alone -/

/-- Nothing has changed but the context at hand, which is `c`. -/
def OnlyCtx (s u : State) (c : Ctx) : Prop :=
  CtxsOnly s u ∧ (∀ a, a ≠ s.me → u.dev.ctx a = s.dev.ctx a) ∧ u.dev.ctx s.me = c

theorem OnlyCtx.refl (s : State) : OnlyCtx s s s.ctx := ⟨.refl s, fun _ _ => rfl, rfl⟩

theorem OnlyCtx.onlyMe {s u : State} {c : Ctx} (h : OnlyCtx s u c) : OnlyMe s u := by
  obtain ⟨⟨m, rfl⟩, ha, -⟩ := h
  exact ⟨ha, rfl, fun _ => rfl, rfl⟩

theorem blockOf_eq (d : Device) (a : Nat) : d.blockOf a = ((d.ctx a).task.map (·.blk)).or (d.holder (coreOf a)) := by
  unfold Device.blockOf
  cases (d.ctx a).task <;> rfl

section
variable {s u : State} {c : Ctx} (h : OnlyCtx s u c) (hr : c.run = s.ctx.run)
include h hr

theorem OnlyCtx.me : u.me = s.me := by
  have run (a : Nat) : (u.dev.ctx a).run = (s.dev.ctx a).run := by
    by_cases e : a = s.me
    · rw [e, h.2.2, hr]; rfl
    · rw [h.2.1 a e]
  have hi := issuer_congr run s.focus
  obtain ⟨⟨m, rfl⟩, -, -⟩ := h
  unfold State.me
  cases s.bundle with
  | none => exact hi
  | some b => rfl

theorem OnlyCtx.ctx : u.ctx = c := by
  unfold State.ctx
  rw [h.me hr, h.2.2]

theorem OnlyCtx.binding (hb : c.task.map (·.blk) = s.ctx.task.map (·.blk)) : u.binding = s.binding := by
  have hme := h.me hr
  have hblk : u.before.blockOf u.me = s.before.blockOf s.me := by
    rw [hme]
    have hc : (u.dev.ctx s.me).task.map (·.blk) = (s.dev.ctx s.me).task.map (·.blk) := by rw [h.2.2, hb]; rfl
    obtain ⟨⟨m, rfl⟩, -, -⟩ := h
    unfold State.before
    cases s.bundle with
    | none => 
      dsimp only at hc ⊢
      rw [blockOf_eq, blockOf_eq, hc]
      rfl
    | some b => rfl
  unfold State.binding State.blk
  rw [hblk]
  obtain ⟨⟨m, rfl⟩, -, -⟩ := h
  rfl

theorem OnlyCtx.holding (hb : c.task.map (·.blk) = s.ctx.task.map (·.blk)) (ho : c.segOpen = s.ctx.segOpen) :
    u.holding = s.holding := by
  unfold State.holding
  rw [h.binding hr hb, h.ctx hr, ho]
  obtain ⟨⟨m, rfl⟩, -, -⟩ := h
  unfold State.bun
  cases s.bundle <;> rfl

theorem OnlyCtx.updMe (f : Ctx → Ctx) : OnlyCtx s (u.updMe f) (f c) := by
  have hme := h.me hr
  refine ⟨h.1.trans (ctxsOnly_updMe u f), fun a ha => ?_, ?_⟩
  · rw [State.updMe_dev, Device.ctx_updCtx_other _ _ _ _ (by rw [hme]; exact ha), h.2.1 a ha]
  · rw [State.updMe_dev, hme, Device.ctx_updCtx_same, h.2.2]

end

/-! ## A task's store buffer (R52, R55, R138) -/

@[simp] theorem bufferOf_withBuffer (k : Task) (buf : List BufOp) : bufferOf (withBuffer k buf) = buf := by
  unfold withBuffer
  split
  · rfl
  · rename_i h
    simp [bufferOf, h]

@[simp] theorem withBuffer_withBuffer (k : Task) (buf buf' : List BufOp) :
    withBuffer (withBuffer k buf) buf' = withBuffer k buf' := by
  cases h : k.span <;> simp [withBuffer, h]

/-- Replacing what a task holds buffered leaves its block, its pin, its snapshot and whether it has a span open. -/
theorem withBuffer_keeps (k : Task) (buf : List BufOp) : (withBuffer k buf).blk = k.blk ∧ (withBuffer k buf).pin = k.pin ∧
    (withBuffer k buf).sel = k.sel ∧ (withBuffer k buf).span.isSome = k.span.isSome := by
  cases h : k.span <;> simp [withBuffer, h]

theorem withBuffer_bufferOf (k : Task) : withBuffer k (bufferOf k) = k := by
  cases hk : k.span with
  | none => simp only [withBuffer, bufferOf, hk]; rw [← hk]
  | some q => simp only [withBuffer, bufferOf, hk]; rw [← hk]

/-- A store added to operations is the newest at the bytes it covers. -/
theorem bufByte_concat (l : List BufOp) (o : BufOp) (a : Nat) : bufByte (l ++ [o]) a = (bufByte [o] a).or (bufByte l a) := by
  unfold bufByte
  rw [List.foldl_concat]
  cases hk : o.kind with
  | store bs => by_cases hc : o.covers a = true <;> simp [hk, hc]
  | _ => simp [hk]

theorem bufByte_append (l r : List BufOp) (a : Nat) : bufByte (l ++ r) a = (bufByte r a).or (bufByte l a) := by
  induction r using List.reverseRecOn with
  | nil => simp [bufByte]
  | append_singleton r o ih => rw [← List.append_assoc, bufByte_concat, ih, bufByte_concat r, Option.or_assoc]

/-- Only stores give bytes, so operations without some reductions give the same. -/
theorem bufByte_filter (p : BufOp → Bool) (ops : List BufOp) (a : Nat) (h : ∀ o ∈ ops, o.kind.isStore = true → p o = true) :
    bufByte (ops.filter p) a = bufByte ops a := by
  induction ops with
  | nil => rfl
  | cons o r ih =>
    have hr := ih fun x hx => h x (List.mem_cons_of_mem _ hx)
    have hc : bufByte (o :: r) a = (bufByte r a).or (bufByte [o] a) := bufByte_append [o] r a
    cases hp : p o with
    | true => 
      have hf : bufByte (o :: r.filter p) a = (bufByte (r.filter p) a).or (bufByte [o] a) := bufByte_append [o] _ a
      rw [List.filter_cons_of_pos hp, hf, hr, hc]
    | false => 
      have hn : bufByte [o] a = none := by
        cases hk : o.kind with
        | store bs => 
          have := h o List.mem_cons_self (by rw [hk]; rfl)
          simp [hp] at this
        | _ => simp [bufByte, hk]
      rw [List.filter_cons_of_neg (by simp [hp]), hr, hc, hn, Option.or_none]

theorem bufByte_bufferOp (ops : List BufOp) (o : BufOp) (a : Nat) (h : o.kind.isStore = true) :
    bufByte (bufferOp ops o) a = (bufByte [o] a).or (bufByte ops a) := by
  unfold bufferOp
  rw [if_pos h, bufByte_append, bufByte_filter _ _ _ fun x _ hx => by simp [hx]]

/-- What a task reads of its buffer after stores: the newest of them, and what was buffered elsewhere. -/
theorem bufByte_foldl_bufferOp (ops buf : List BufOp) (a : Nat) (h : ∀ o ∈ ops, o.kind.isStore = true) :
    bufByte (ops.foldl bufferOp buf) a = (bufByte ops a).or (bufByte buf a) := by
  induction ops generalizing buf with
  | nil => rfl
  | cons o r ih =>
    have hc : bufByte (o :: r) a = (bufByte r a).or (bufByte [o] a) := bufByte_append [o] r a
    rw [List.foldl_cons, ih _ fun x hx => h x (List.mem_cons_of_mem _ hx), bufByte_bufferOp _ _ _ (h o List.mem_cons_self), hc,
      Option.or_assoc]

theorem storeOps_isStore (ps : List Piece) (bs : List Byte) : ∀ o ∈ storeOps ps bs, o.kind.isStore = true := by
  induction ps generalizing bs with
  | nil => simp [storeOps]
  | cons p r ih =>
    intro o ho
    rcases List.mem_cons.mp ho with rfl | ho
    · rfl
    · exact ih _ o ho

/-- A task's own loads find its newest stores, and elsewhere what they found before. -/
theorem ownByte_withBuffer (c : Ctx) (k : Task) (ops : List BufOp) (a : Nat) (hc : c.task = some k) (hh : c.seg.held = [])
    (ho : ∀ o ∈ ops, o.kind.isStore = true) :
    ({ c with task := some (withBuffer k (ops.foldl bufferOp (bufferOf k))) } : Ctx).ownByte a =
      (bufByte ops a).or (c.ownByte a) := by
  have hn : bufByte [] a = none := rfl
  cases hs : k.span with
  | none => simp [Ctx.ownByte, hc, hh, heldFor, withBuffer, bufferOf, hs, bufByte_foldl_bufferOp ops _ a ho, hn]
  | some q => simp [Ctx.ownByte, hc, hh, heldFor, withBuffer, bufferOf, hs, bufByte_foldl_bufferOp ops _ a ho, Option.or_assoc]

/-! ## The store path (R52, R62, R138, R240) -/

/-- A task may write versioned lines where its context is neither pinned nor on a snapshot, or a span is open (R139, R142). -/
def MayPut (k : Task) (kind : BitVec 2) : Prop := kind = 1 → k.span = none → k.pin = .none ∧ k.sel = none

/-- The store path checks a versioned line and then holds the operation in the segment or buffers it. -/
theorem putOp_eq (u : State) (k : Task) (kind : BitVec 2) (o : BufOp) (hk : u.ctx.task = some k) (hm : MayPut k kind) :
    u.putOp kind o = if u.holding then u.holdOp (.mem o k.span.isSome) else u.bufferAt o := by
  have hspan : u.spanOpen = k.span.isSome := by simp [State.spanOpen, hk]
  unfold State.putOp
  rw [hspan]
  cases hs : k.span with
  | some q => simp
  | none =>
    by_cases h1 : kind = 1
    · obtain ⟨hp, hl⟩ := hm h1 hs
      simp [State.selected, State.pinned, hk, hp, hl, h1]
      rfl
    · simp only [Option.isSome_none, Bool.not_false, and_true, if_neg h1]

/-- An operation whose lines fit is buffered in the open span or else in the task's store buffer. -/
theorem bufferAt_eq (u : State) (k : Task) (o : BufOp) (hk : u.ctx.task = some k)
    (hf : (withBuffer k (bufferOp (bufferOf k) o)).lines.length ≤ 1024) :
    u.bufferAt o = .ok (u.updTask fun _ => withBuffer k (bufferOp (bufferOf k) o)) := by
  unfold State.bufferAt
  rw [hk]
  cases hs : k.span with
  | some q =>
    simp only [withBuffer, bufferOf, hs] at hf ⊢
    exact if_neg (Nat.not_lt.mpr hf)
  | none =>
    simp only [withBuffer, bufferOf, hs] at hf ⊢
    exact if_neg (Nat.not_lt.mpr hf)

/-- The context with its segment's list of held operations replaced. -/
def withHeld (c : Ctx) (l : List HeldOp) : Ctx := { c with seg := { c.seg with held := l } }

theorem holdOp_eq (u : State) (h : HeldOp) (hf : (heldLines (u.ctx.seg.held ++ [h])).length ≤ 256) :
    u.holdOp h = .ok (u.updMe fun c => withHeld c (u.ctx.seg.held ++ [h])) :=
  if_neg (Nat.not_lt.mpr hf)

/-- The pieces of a store outside a protected segment are buffered in order, where their lines fit. -/
theorem putPieces_buffers (s : State) (k : Task) (hh : s.holding = false) (hk : s.ctx.task = some k) (ps : List Piece)
    (bs : List Byte) (u : State) (buf : List BufOp) (hm : ∀ p ∈ ps, MayPut k p.kind)
    (hu : OnlyCtx s u { s.ctx with task := some (withBuffer k buf) })
    (hf : ∀ j, j ≤ ps.length → (withBuffer k (((storeOps ps bs).take j).foldl bufferOp buf)).lines.length ≤ 1024) :
    ∃ t, u.putPieces ps bs = .ok t ∧
      OnlyCtx s t { s.ctx with task := some (withBuffer k ((storeOps ps bs).foldl bufferOp buf)) } := by
  induction ps generalizing bs u buf with
  | nil => exact ⟨u, rfl, hu⟩
  | cons p r ih =>
    obtain ⟨hblk, hpin, hsel, hspan⟩ := withBuffer_keeps k buf
    have hctx := hu.ctx rfl
    have hput : MayPut (withBuffer k buf) p.kind := fun h1 h2 => by
      rw [hpin, hsel]
      exact hm p List.mem_cons_self h1 (by simpa [h2] using hspan.symm)
    have hfit := hf 1 (by simp)
    have hold := hu.holding rfl (by simp [hk, hblk]) rfl
    unfold State.putPieces
    rw [putOp_eq u (withBuffer k buf) _ _ (by rw [hctx]) hput, hold, hh, if_neg (by simp),
      bufferAt_eq u (withBuffer k buf) _ (by rw [hctx]) (by simpa [storeOps] using hfit)]
    simp only [bufferOf_withBuffer, withBuffer_withBuffer]
    refine ih _ _ _ (fun q hq => hm q (List.mem_cons_of_mem _ hq)) (hu.updMe rfl _) fun j hj => ?_
    simpa [storeOps] using hf (j + 1) (by simpa using hj)

/-- The operation that a store of bytes makes of its first piece. -/
def pieceOp (p : Piece) (bs : List Byte) : BufOp :=
  { va := p.va.toNat, pa := p.pa, kind := .store (bs.take p.n), versioned := p.kind == 1, kid := p.kid }

theorem storeOps_cons (p : Piece) (r : List Piece) (bs : List Byte) :
    storeOps (p :: r) bs = pieceOp p bs :: storeOps r (bs.drop p.n) := rfl

/-- The pieces of a store inside a protected segment are held in order, where their lines fit. -/
theorem putPieces_holds (s : State) (k : Task) (hh : s.holding = true) (hk : s.ctx.task = some k) (ps : List Piece)
    (bs : List Byte) (u : State) (l : List HeldOp) (hm : ∀ p ∈ ps, MayPut k p.kind) (hu : OnlyCtx s u (withHeld s.ctx l))
    (hf : ∀ j, j ≤ ps.length → (heldLines (l ++ ((storeOps ps bs).take j).map fun o => .mem o k.span.isSome)).length ≤ 256) :
    ∃ t, u.putPieces ps bs = .ok t ∧
      OnlyCtx s t (withHeld s.ctx (l ++ (storeOps ps bs).map fun o => .mem o k.span.isSome)) := by
  induction ps generalizing bs u l with
  | nil => exact ⟨u, rfl, by simpa [storeOps] using hu⟩
  | cons p r ih =>
    have hctx := hu.ctx rfl
    have hold := hu.holding rfl rfl rfl
    have hfit := hf 1 (by simp)
    have hnew : OnlyCtx s (u.updMe fun c => withHeld c (l ++ [.mem (pieceOp p bs) k.span.isSome]))
        (withHeld s.ctx (l ++ [.mem (pieceOp p bs) k.span.isSome])) := hu.updMe rfl _
    obtain ⟨t, ht, hc⟩ := ih (bs.drop p.n) _ _ (fun q hq => hm q (List.mem_cons_of_mem _ hq)) hnew fun j hj => by
      rw [List.append_assoc]
      exact hf (j + 1) (by simpa using hj)
    refine ⟨t, ?_, by simpa [storeOps_cons] using hc⟩
    unfold State.putPieces
    rw [putOp_eq u k _ _ (by rw [hctx]; exact hk) (hm p List.mem_cons_self), hold, hh, if_pos rfl,
      holdOp_eq u _ (by rw [hctx]; exact hfit), hctx]
    exact ht

/-! ## Stores, reductions and scratchpad stores as instructions (R245, R246, R255) -/

theorem exec_scalarStores (s : State) (r base : BitVec 6) (off : BitVec 8) :
    exec (.stb r base off) s = scalarStore r base off 1 s ∧ exec (.sth r base off) s = scalarStore r base off 2 s ∧
    exec (.stw r base off) s = scalarStore r base off 4 s ∧ exec (.std r base off) s = scalarStore r base off 8 s :=
  ⟨rfl, rfl, rfl, rfl⟩

/-- A scalar store of aligned bytes that translate is the store of their pieces. -/
theorem scalarStore_eq (s : State) (r base : BitVec 6) (off : BitVec 8) (n : Nat) (ps : List Piece)
    (ha : (s.sreg base + wordI (signedImm s.bun.wide off * n)).toNat % n = 0)
    (ht : s.translate (s.sreg base + wordI (signedImm s.bun.wide off * n)) n .store = .ok ps) :
    scalarStore r base off n s = s.slot (s.putPieces ps (toBytes (s.sreg r).toNat n)) := by
  simp only [scalarStore, ea_eq, aligned, ha, State.store, length_toBytes, ht]
  rfl

theorem vst_eq (s : State) (r base : BitVec 6) (off : BitVec 4) (ps : List Piece)
    (ha : (s.sreg base + wordI (signedImm s.bun.wide off * 256)).toNat % 64 = 0)
    (ht : s.translate (s.sreg base + wordI (signedImm s.bun.wide off * 256)) 256 .store = .ok ps) :
    exec (.vst r base off) s = s.slot (s.putPieces ps (toBytes (s.vreg r).bits.toNat 256)) := by
  have he : s.ea base off 256 = s.sreg base + wordI (signedImm s.bun.wide off * 256) := ea_eq s base off 256
  show execVst r base off s = _
  simp only [execVst, he, aligned, ha, State.store, length_toBytes, ht]
  rfl

theorem vsts_eq (s : State) (r base : BitVec 6) (st : BitVec 4) (ps : List Piece)
    (ht : s.translateAll 32 .store ((List.range 8).map fun j => s.sreg base + word j * s.sreg (st.setWidth 6)) = .ok ps) :
    exec (.vsts r base st) s = s.slot (s.putPieces ps (toBytes (s.vreg r).bits.toNat 256)) := by
  show execVsts r base st s = _
  simp only [execVsts, State.rows, ht]
  rfl

/-- Settles O16: a store is the store of its pieces, and these are buffered one by one. -/
theorem storesAreBuffered : Obligations.StoresAreBuffered := by
  unfold Obligations.StoresAreBuffered
  intro s r base off voff st ps k hh hk hseg hm sva vva row fits held stores vbytes
  have put (bs : List Byte) (hf : fits bs) : Completes (s.slot (s.putPieces ps bs)) fun t => held t bs := by
    obtain ⟨t, ht, hc⟩ := putPieces_buffers s k hh hk ps bs s (bufferOf k) hm
      (by rw [withBuffer_bufferOf, ← hk]; exact .refl s) hf
    refine completes_slot ht ⟨hc.onlyMe, hc.2.2, fun a => ?_⟩
    rw [hc.2.2]
    exact ownByte_withBuffer _ k _ a hk hseg (storeOps_isStore ps bs)
  have scalar (n : Nat) (ha : (sva n).toNat % n = 0) (ht : s.translate (sva n) n .store = .ok ps)
      (hf : fits (toBytes (s.sreg r).toNat n)) :
      Completes (scalarStore r base off n s) fun t => held t (toBytes (s.sreg r).toNat n) := by
    rw [scalarStore_eq s r base off n ps ha ht]
    exact put _ hf
  obtain ⟨h1, h2, h4, h8⟩ := exec_scalarStores s r base off
  refine ⟨?_, ?_, ?_, ?_, fun ha ht hf => ?_, fun ht hf => ?_⟩
  · simpa only [stores, h1] using scalar 1
  · simpa only [stores, h2] using scalar 2
  · simpa only [stores, h4] using scalar 4
  · simpa only [stores, h8] using scalar 8
  · rw [vst_eq s r base voff ps ha ht]
    exact put _ hf
  · rw [vsts_eq s r base st ps ht]
    exact put _ hf

/-- A scratchpad store that names a byte of a scratchpad is held in a protected segment, where its lines fit. -/
theorem spWrite_holds (s : State) (x : Word) (ma : Bool) (align core : Nat) (bs : List Byte) (hh : s.holding = true)
    (hc : if x.getLsbD 26 then s.binding.spCore (coreOf s.me) (bits x 25 22) = some core else core = coreOf s.me)
    (hx : bits x 63 27 = 0 ∧ bits x 21 0 % align = 0 ∧ bits x 21 0 + bs.length ≤ (s.before.core core).spSize) :
    s.spWrite x ma align bs = s.holdOp (.sp core (bits x 21 0) bs) := by
  have ht : spTarget s.before s.binding (coreOf s.me) x bs.length align = .ok (core, bits x 21 0) := by
    unfold spTarget
    cases hf : x.getLsbD 26 with
    | true =>
      rw [hf, if_pos rfl] at hc
      simp [hc, hx]
    | false =>
      rw [hf, if_neg (by simp)] at hc
      subst hc
      simp [hx]
  unfold State.spWrite
  simp only [ht, hh]
  rfl

/-- An operation held in the segment changes nothing but the segment's list. -/
theorem completes_holdOp (s : State) (h : HeldOp) (hf : (heldLines (s.ctx.seg.held ++ [h])).length ≤ 256) :
    Completes (s.slot (s.holdOp h)) fun t => OnlyMe s t ∧
      t.dev.ctx s.me = { s.ctx with seg := { s.ctx.seg with held := s.ctx.seg.held ++ [h] } } := by
  have hu := (OnlyCtx.refl s).updMe rfl fun c => { c with seg := { c.seg with held := s.ctx.seg.held ++ [h] } }
  exact completes_slot (holdOp_eq s h hf) ⟨hu.onlyMe, hu.2.2⟩

/-- A reduction of one piece is the operation put where the page says. -/
theorem redOp_eq (s : State) (a b : BitVec 6) (n : Nat) (kind : Word → BufKind) (p : Piece) (ha : (s.sreg a).toNat % n = 0)
    (ht : s.translate (s.sreg a) n .store = .ok [p]) :
    redOp n kind a b s = s.slot (s.putOp p.kind
      { va := (s.sreg a).toNat, pa := p.pa, kind := kind (s.sreg b), versioned := p.kind == 1, kid := p.kid }) := by
  simp only [redOp, aligned, ha, ht]
  rfl

/-- Settles O17: pieces, reductions and scratchpad stores are held one by one. -/
theorem protectedStoresAreHeld : Obligations.ProtectedStoresAreHeld := by
  unfold Obligations.ProtectedStoresAreHeld
  intro s r base a b off voff st ma ps k core hh hk hm c ea row held holds put stores vbytes reduces names scratch
  have pieces (bs : List Byte)
      (hf : ∀ j, j ≤ ps.length → held (((storeOps ps bs).take j).map fun o => .mem o k.span.isSome)) :
      Completes (s.slot (s.putPieces ps bs)) fun t => OnlyMe s t ∧ t.dev.ctx s.me =
        { c with seg := { c.seg with held := c.seg.held ++ (storeOps ps bs).map fun o => .mem o k.span.isSome } } := by
    obtain ⟨t, ht, hc⟩ := putPieces_holds s k hh hk ps bs s c.seg.held hm (.refl s) hf
    exact completes_slot ht ⟨hc.onlyMe, hc.2.2⟩
  have scalar (n : Nat) (i : Instr) (hi : exec i s = scalarStore r base off n s) : stores i n := fun ha ht hf => by
    simp only [holds, hi, scalarStore_eq s r base off n ps ha ht]
    exact pieces _ hf
  have reduce (n : Nat) (i : Instr) (kind : Word → BufKind) (hi : exec i s = redOp n kind a b s) :
      reduces i n (kind (s.sreg b)) := by
    intro p hp ha ht l hf
    subst hp
    simp only [holds, hi, redOp_eq s a b n kind p ha ht, putOp_eq s k _ _ hk (hm p (by simp)), hh]
    exact completes_holdOp s _ hf
  have scratchpad (i : Instr) (x : Word) (align : Nat) (bs : List Byte) (hi : exec i s = s.slot (s.spWrite x ma align bs)) :
      scratch i x align bs := fun hn hf => by
    obtain ⟨hc, hx⟩ := hn
    simp only [holds, hi, spWrite_holds s x ma align core bs hh hc hx]
    exact completes_holdOp s _ hf
  obtain ⟨h1, h2, h4, h8⟩ := exec_scalarStores s r base off
  refine ⟨scalar 1 _ h1, scalar 2 _ h2, scalar 4 _ h4, scalar 8 _ h8, fun ha ht hf => ?_, fun ht hf => ?_,
    reduce 8 _ (.redAdd 8) rfl, reduce 8 _ (.redMin 8) rfl, reduce 8 _ (.redMax 8) rfl,
    reduce 4 _ (fun v => .redFadd [v.setWidth 32]) rfl, scratchpad _ _ 8 _ ?_, scratchpad _ _ 64 _ ?_⟩
  · simp only [holds, vst_eq s r base voff ps ha ht]
    exact pieces _ hf
  · simp only [holds, vsts_eq s r base st ps ht]
    exact pieces _ hf
  · exact congrArg (fun x => s.slot (s.spWrite x ma 8 (toBytes (s.sreg r).toNat 8))) (ea_eq s base off 8)
  · exact congrArg (fun x => s.slot (s.spWrite x ma 64 vbytes)) (ea_eq s base off 256)

end Sys2Proof.Proofs

/-! PROOF. Memory as a task's stores leave it (O31): lines under a new key, operations applied, and publication. -/

namespace Sys2Proof.Proofs

open Sys2Proof Sys2Proof.Machine Sys2Proof.Safety Sys2Proof.Laws

/-! ## An encrypted line has 64 bytes (R84) -/

theorem aesExpand_words (n i : Nat) (rcon : Byte) (w : List (List Byte)) (h4 : ∀ x ∈ w, x.length = 4) (h8 : 8 ≤ w.length) :
    (∀ x ∈ aesExpand n i rcon w, x.length = 4) ∧ (aesExpand n i rcon w).length = w.length + n := by
  induction n generalizing i rcon w with
  | zero => exact ⟨h4, rfl⟩
  | succ n ih =>
    have word4 (j : Nat) (hj : j < 8) : (w.getD j []).length = 4 := by
      rw [List.getD_eq_getElem _ _ (by omega)]
      exact h4 _ (List.getElem_mem _)
    have hp := word4 0 (by omega)
    have hq := word4 7 (by omega)
    unfold aesExpand
    extract_lets p q r t
    have hp : p.length = 4 := hp
    have hr : r.length = 4 := by
      simp only [r, List.length_map, List.length_append, List.length_drop, List.length_take]
      omega
    have ht : t.length = 4 := by
      unfold t
      split
      · clear_value r
        cases r <;> exact hr
      · split
        · rw [List.length_map, hp]
        · exact hp
    have hz : (List.zipWith (· ^^^ ·) q t).length = 4 := by
      rw [List.length_zipWith, ht, show q.length = 4 from hq]
      rfl
    obtain ⟨h1, h2⟩ := ih (i + 1) (if i % 8 = 0 then xtime rcon else rcon) (List.zipWith (· ^^^ ·) q t :: w)
      (by simpa [hz] using h4) (by simp; omega)
    exact ⟨h1, by rw [h2, List.length_cons]; omega⟩

theorem fourBytes_words (n : Nat) (bs : List Byte) (h : bs.length = 4 * n) :
    (∀ x ∈ fourBytes n bs, x.length = 4) ∧ (fourBytes n bs).length = n := by
  induction n generalizing bs with
  | zero => simp [fourBytes]
  | succ n ih =>
    obtain ⟨h1, h2⟩ := ih (bs.drop 4) (by simp; omega)
    refine ⟨fun x hx => ?_, by simp [fourBytes, h2]⟩
    rcases List.mem_cons.mp hx with rfl | hx
    · simp; omega
    · exact h1 x hx

/-- The round keys of a 32-byte key are fifteen of 16 bytes. -/
theorem aesKeys_lengths (key : List Byte) (h : key.length = 32) :
    (∀ k ∈ aesKeys key, k.length = 16) ∧ (aesKeys key).length = 15 := by
  obtain ⟨hf4, hf⟩ := fourBytes_words 8 key h
  obtain ⟨h4, hn⟩ := aesExpand_words 52 8 1 (fourBytes 8 key).reverse (by simpa using hf4) (by simp [hf])
  unfold aesKeys
  generalize aesExpand 52 8 1 (fourBytes 8 key).reverse = w at h4 hn
  rw [List.length_reverse, hf] at hn
  refine ⟨fun k hk => ?_, by simp⟩
  obtain ⟨r, hr, rfl⟩ := List.mem_map.mp hk
  have hr := List.mem_range.mp hr
  rw [List.length_flatten, List.map_congr_left (g := fun _ => 4) fun x hx =>
    h4 x (List.mem_reverse.mp (List.mem_of_mem_drop (List.mem_of_mem_take hx)))]
  rw [List.map_const', List.sum_replicate, List.length_take, List.length_drop, List.length_reverse, hn]
  simp only [smul_eq_mul]
  omega

theorem length_flatMap_fourBytes (f : List Byte → List Byte) (hf : ∀ c, (f c).length = 4) (s : List Byte) :
    ((fourBytes 4 s).flatMap f).length = 16 := by
  simp [fourBytes, hf]

theorem length_aesRounds (ks : List (List Byte)) (s : List Byte) (hs : s.length = 16) (hk : ∀ k ∈ ks, k.length = 16) :
    (aesRounds s ks).length = 16 := by
  induction ks generalizing s with
  | nil => exact hs
  | cons k r ih =>
    have h1 := hk k List.mem_cons_self
    cases r with
    | nil => simp [aesRounds, aesShift, h1]
    | cons k' r =>
      refine ih _ ?_ fun x hx => hk x (List.mem_cons_of_mem _ hx)
      rw [List.length_zipWith, length_flatMap_fourBytes aesMix fun c => rfl, h1]
      rfl

theorem length_aesUnrounds (ks : List (List Byte)) (s : List Byte) (hs : s.length = 16) (hk : ∀ k ∈ ks, k.length = 16) :
    (aesUnrounds s ks).length = 16 := by
  induction ks generalizing s with
  | nil => exact hs
  | cons k r ih =>
    cases r with
    | nil => simp [aesUnrounds, aesUnshift, hk k List.mem_cons_self]
    | cons k' r =>
      exact ih _ (length_flatMap_fourBytes aesUnmix (fun c => rfl) _) fun x hx => hk x (List.mem_cons_of_mem _ hx)

/-- A block cipher of AES-256, either way, gives 16 bytes for 16. -/
theorem length_aesCipher (enc : Bool) (key s : List Byte) (hk : key.length = 32) (hs : s.length = 16) :
    ((if enc then aesBlock (aesKeys key) else aesUnblock (aesKeys key)) s).length = 16 := by
  obtain ⟨h16, h15⟩ := aesKeys_lengths key hk
  have first (l : List (List Byte)) (h : ∀ k ∈ l, k.length = 16) (hl : l.length = 15) :
      (List.zipWith (· ^^^ ·) s (l.getD 0 [])).length = 16 := by
    have := h (l.getD 0 []) (by rw [List.getD_eq_getElem _ _ (by omega)]; exact List.getElem_mem _)
    simp only [List.length_zipWith]
    omega
  cases enc with
  | true => exact length_aesRounds _ _ (first _ h16 h15) fun k hk => h16 k (List.mem_of_mem_drop hk)
  | false =>
    have hr : ∀ k ∈ (aesKeys key).reverse, k.length = 16 := fun k hk => h16 k (List.mem_reverse.mp hk)
    exact length_aesUnrounds _ _ (first _ hr (by simpa using h15)) fun k hk => hr k (List.mem_of_mem_drop hk)

theorem length_xtsBlocks (cipher : List Byte → List Byte) (hc : ∀ s, s.length = 16 → (cipher s).length = 16) (n : Nat)
    (t bs : List Byte) (ht : t.length = 16) (hb : bs.length = 16 * n) : (xtsBlocks cipher n t bs).length = 16 * n := by
  induction n generalizing t bs with
  | zero => rfl
  | succ n ih =>
    have hd := ih (xtsDouble t) (bs.drop 16) (by simp [xtsDouble, length_toBytes]) (by simp; omega)
    have hx := hc (List.zipWith (· ^^^ ·) (bs.take 16) t) (by simp; omega)
    simp only [xtsBlocks, List.length_append, List.length_zipWith, hd, hx]
    omega

theorem length_xtsUnder (enc : Bool) (line : Nat) (c : Cipher) (bs : List Byte) (h : bs.length = 64) :
    (xtsUnder enc line c bs).length = 64 := by
  unfold xtsUnder
  split
  · refine length_xtsBlocks _ (fun s hs => length_aesCipher enc _ s (length_toBytes _ _) hs) 4 _ _ ?_ h
    exact length_aesCipher true _ _ (length_toBytes _ _) (length_toBytes _ _)
  · exact h

/-- A line reads as 64 bytes under any key. -/
theorem length_lineUnder (d : Device) (line kid : Nat) : (d.lineUnder line kid).length = 64 := by
  have h : (d.lineBytes line).length = 64 := length_rdBytes ..
  unfold Device.lineUnder
  extract_lets own c
  split
  · exact h
  · exact length_xtsUnder _ _ _ _ (length_xtsUnder _ _ _ _ h)

/-! ## Lines under a new key (R84) -/

/-- A line about to be written under a key first holds what it reads under that key. -/
theorem rdByte_rekey (d : Device) (line kid a : Nat) :
    rdByte (d.rekey line kid).mem a = if a / 64 = line then d.byteUnder kid a else rdByte d.mem a := by
  split
  · rename_i h
    subst h
    unfold Device.rekey Device.byteUnder
    extract_lets own c d1
    show rdByte d1.mem a = _
    unfold d1
    split
    · rfl
    · have := length_lineUnder d (a / 64) kid
      show rdByte (wrBytes _ _ _) _ = _
      rw [rdByte_wrBytes, if_pos (by omega)]
      congr 1
      omega
  · rename_i h
    exact rekey_out d line kid a h

theorem line_rekey (d : Device) (line kid n : Nat) (h : n ≠ line) : (d.rekey line kid).line n = d.line n := by
  unfold Device.rekey
  extract_lets own c d1
  rw [Device.line_updLine, if_neg h]
  unfold d1
  split <;> rfl

theorem rdBytes_congr (m m' : List Host.Cell) (a n : Nat) (h : ∀ i, i < n → rdByte m (a + i) = rdByte m' (a + i)) :
    rdBytes m a n = rdBytes m' a n := by
  induction n generalizing a with
  | zero => rfl
  | succ n ih =>
    have hr := ih (a + 1) fun i hi => by rw [Nat.add_assoc, Nat.add_comm 1]; exact h (i + 1) (by omega)
    simp only [rdBytes, hr, show rdByte m a = rdByte m' a from h 0 (by omega)]

/-- What a line reads under a key depends on its own bytes, its cipher and the loaded keys. -/
theorem lineUnder_congr {d e : Device} (line kid : Nat) (hc : (e.line line).cipher = (d.line line).cipher)
    (hk : e.tab.keys = d.tab.keys) (hm : ∀ a, a / 64 = line → rdByte e.mem a = rdByte d.mem a) :
    e.lineUnder line kid = d.lineUnder line kid := by
  have hb : e.lineBytes line = d.lineBytes line := rdBytes_congr _ _ _ _ fun i hi => hm _ (by omega)
  unfold Device.lineUnder Device.cipherOf
  rw [hc, hk, hb]

theorem byteUnder_congr {d e : Device} (kid a : Nat) (hc : (e.line (a / 64)).cipher = (d.line (a / 64)).cipher)
    (hk : e.tab.keys = d.tab.keys) (hm : ∀ x, x / 64 = a / 64 → rdByte e.mem x = rdByte d.mem x) :
    e.byteUnder kid a = d.byteUnder kid a := by
  have hl := lineUnder_congr (a / 64) kid hc hk hm
  unfold Device.byteUnder Device.cipherOf
  rw [hc, hk, hl, hm a rfl]

theorem byteUnder_rekey (d : Device) (line kid kid' a : Nat) (h : a / 64 ≠ line) :
    (d.rekey line kid').byteUnder kid a = d.byteUnder kid a := by
  obtain ⟨m, l, e⟩ := rekey_spec d line kid'
  exact byteUnder_congr kid a (by rw [line_rekey _ _ _ _ h]) (by rw [e]) fun x hx => rekey_out _ _ _ _ (by omega)

/-- Distinct lines put under new keys each hold what they read under theirs. -/
theorem rdByte_foldl_rekey (f : Nat → Nat) (ls : List Nat) (hn : ls.Nodup) (d : Device) (a : Nat) :
    rdByte (ls.foldl (fun x l => x.rekey l (f l)) d).mem a =
      if a / 64 ∈ ls then d.byteUnder (f (a / 64)) a else rdByte d.mem a := by
  induction ls generalizing d with
  | nil => simp
  | cons l r ih =>
    obtain ⟨hl, hr⟩ := List.nodup_cons.mp hn
    rw [List.foldl_cons, ih hr]
    by_cases ha : a / 64 = l
    · subst ha
      simp [hl, rdByte_rekey]
    · simp only [List.mem_cons, ha, false_or]
      rw [byteUnder_rekey _ _ _ _ _ ha, rdByte_rekey, if_neg ha]

/-! ## Buffered stores applied (R53, R55) -/

theorem mem_uniq (l : List Nat) (x : Nat) : x ∈ uniq l ↔ x ∈ l := by
  induction l with
  | nil => rfl
  | cons y r ih =>
    have hu : uniq (y :: r) = if (uniq r).contains y then uniq r else y :: uniq r := rfl
    rw [hu]
    by_cases h : y ∈ uniq r
    · rw [if_pos (by simpa using h), ih, List.mem_cons]
      exact ⟨.inr, fun g => g.elim (fun e => e ▸ ih.mp (e ▸ h)) id⟩
    · rw [if_neg (by simpa using h), List.mem_cons, List.mem_cons, ih]

theorem nodup_uniq (l : List Nat) : (uniq l).Nodup := by
  induction l with
  | nil => exact List.nodup_nil
  | cons y r ih =>
    have hu : uniq (y :: r) = if (uniq r).contains y then uniq r else y :: uniq r := rfl
    rw [hu]
    by_cases h : y ∈ uniq r
    · rwa [if_pos (by simpa using h)]
    · rw [if_neg (by simpa using h)]
      exact List.nodup_cons.mpr ⟨h, ih⟩

/-- Stores to local memory applied in order: each byte is the newest store's, or as before. -/
theorem rdByte_foldl_applyOp (ops : List BufOp) (d : Device) (a : Nat)
    (h : ∀ o ∈ ops, o.kind.isStore = true ∧ isLocal o.pa = true) :
    rdByte (ops.foldl (fun x o => x.applyOp o) d).mem a = (bufByte ops a).getD (rdByte d.mem a) := by
  induction ops using List.reverseRecOn with
  | nil => rfl
  | append_singleton r o ih =>
    obtain ⟨hs, hl⟩ := h o (by simp)
    have hr := ih fun x hx => h x (by simp [hx])
    have hloc : isRemote o.pa = false := by
      simp only [isLocal, isRemote, decide_eq_true_eq, decide_eq_false_iff_not] at hl ⊢
      omega
    rw [List.foldl_concat, bufByte_concat]
    cases hk : o.kind with
    | store bs =>
      have hone : bufByte [o] a = if o.pa ≤ a ∧ a < o.pa + bs.length then some (bs.getD (a - o.pa) 0) else none := by
        simp [bufByte, hk, BufOp.covers, BufKind.len]
      rw [hone, Device.applyOp, hloc, hk]
      show rdByte (wrBytes _ _ bs) _ = _
      rw [rdByte_wrBytes]
      split <;> simp [hr]
    | _ => simp [hk, BufKind.isStore] at hs

theorem mem_bufLines {ops : List BufOp} {l : Nat} : l ∈ bufLines ops ↔ ∃ o ∈ ops, l ∈ linesOf o.pa o.kind.len := by
  simp [bufLines, mem_uniq]

/-- The stores of a task applied to memory are what its claims call held there. -/
theorem memHolds_applied (s t : State) (ops : List BufOp) (h : t.dev.mem = (s.dev.applied ops).mem) : MemHolds s t ops := by
  intro ho a
  have hlines : (bufLines ops).filter (fun l => isLocal (l * 64)) = bufLines ops := by
    refine List.filter_eq_self.mpr fun l hl => ?_
    obtain ⟨o, hmem, hlo⟩ := mem_bufLines.mp hl
    obtain ⟨-, -, hend⟩ := ho o hmem
    obtain ⟨-, -, hle⟩ := mem_linesOf hlo
    simp only [isLocal, decide_eq_true_eq] at hend ⊢
    omega
  rw [h]
  unfold Device.applied
  extract_lets lines
  rw [show lines = bufLines ops from hlines, rdByte_foldl_applyOp _ _ _ fun o hmem => ⟨(ho o hmem).1, (ho o hmem).2.1⟩,
    rdByte_foldl_rekey (lineKid ops) (bufLines ops) (nodup_uniq _)]
  by_cases hc : a / 64 ∈ bufLines ops <;> simp [hc]

/-! ## Publication (R53, R121) -/

/-- Two devices with the same bytes, the same ciphers of lines and the same keys. -/
def SameBytes (d e : Device) : Prop :=
  e.mem = d.mem ∧ (∀ n, (e.line n).cipher = (d.line n).cipher) ∧ e.tab.keys = d.tab.keys

theorem SameBytes.refl (d : Device) : SameBytes d d := ⟨rfl, fun _ => rfl, rfl⟩

theorem SameBytes.trans {d e f : Device} (h : SameBytes d e) (g : SameBytes e f) : SameBytes d f :=
  ⟨g.1.trans h.1, fun n => (g.2.1 n).trans (h.2.1 n), g.2.2.trans h.2.2⟩

theorem sameBytes_updLine (d : Device) (n : Nat) (f : Line → Line) (h : (f (d.line n)).cipher = (d.line n).cipher) :
    SameBytes d (d.updLine n f) := by
  refine ⟨rfl, fun m => ?_, rfl⟩
  rw [Device.line_updLine]
  split
  · rename_i e; rw [e, h]
  · rfl

theorem sameBytes_reclaim (d : Device) (n : Nat) : SameBytes d (d.reclaim n) :=
  (sameBytes_updLine d n (fun _ => d.dredged (d.line n)) rfl).trans ⟨rfl, fun _ => rfl, rfl⟩

theorem sameBytes_post (d : Device) (r : ErrRec) : SameBytes d (d.post r) := by
  obtain ⟨e, h⟩ := post_spec d r
  rw [h]
  exact ⟨rfl, fun _ => rfl, rfl⟩

theorem sameBytes_breakGen (d : Device) (agent owner : Nat) (gen : BitVec 32) : SameBytes d (d.breakGen agent owner gen) := by
  unfold Device.breakGen
  extract_lets h
  split
  · exact .refl d
  · exact SameBytes.trans ⟨rfl, fun _ => rfl, rfl⟩ (sameBytes_post _ _)

theorem sameBytes_preImage (d : Device) (w : Writer) (line : Nat) (e : Nat × Snap) : SameBytes d (d.preImage w line e) := by
  unfold Device.preImage
  extract_lets d1 l t
  have h1 : SameBytes d d1 := by
    unfold d1
    split
    · exact sameBytes_reclaim ..
    · exact .refl d
  split
  · exact h1.trans (sameBytes_breakGen ..)
  · exact h1.trans (sameBytes_updLine d1 line _ rfl)

theorem SameBytes.foldl {α : Type} (f : Device → α → Device) (h : ∀ d x, SameBytes d (f d x)) (l : List α) (d : Device) :
    SameBytes d (l.foldl f d) := by
  induction l generalizing d with
  | nil => exact .refl d
  | cons x r ih => exact (h d x).trans (ih _)

/-- Equal bytes under equal ciphers stay equal when a line goes under a new key. -/
theorem SameBytes.rekey {d e : Device} (h : SameBytes d e) (line kid : Nat) : SameBytes (d.rekey line kid) (e.rekey line kid) := by
  obtain ⟨hm, hc, hk⟩ := h
  have hl : e.lineUnder line kid = d.lineUnder line kid := lineUnder_congr line kid (hc line) hk fun a _ => by rw [hm]
  have hciph : e.cipherOf kid = d.cipherOf kid := by unfold Device.cipherOf; rw [hk]
  refine ⟨?_, fun n => ?_, ?_⟩
  · unfold Device.rekey
    extract_lets own c d1 own' c' d1'
    show d1.mem = d1'.mem
    unfold d1 d1' own own' c c'
    rw [hc line, hciph, hl, hm]
    split <;> simp [hm]
  · by_cases e : n = line
    · subst e
      unfold Device.rekey
      simp only [Device.line_updLine, if_true, hciph]
    · rw [line_rekey _ _ _ _ e, line_rekey _ _ _ _ e, hc n]
  · obtain ⟨_, _, h1⟩ := rekey_spec d line kid
    obtain ⟨_, _, h2⟩ := rekey_spec e line kid
    rw [h1, h2]
    exact hk

/-- The record-keeping of a committed write leaves a line's bytes as its new key leaves them. -/
theorem sameBytes_touchLine (d : Device) (w : Writer) (line : Nat) (versioned whole : Bool) :
    SameBytes (d.rekey line w.kid) (d.touchLine w line versioned whole) := by
  unfold Device.touchLine
  extract_lets t d0 d1
  have h0 : SameBytes d d0 := by
    unfold d0
    split
    · exact sameBytes_reclaim ..
    · exact .refl d
  have h1 : SameBytes d d1 := by
    unfold d1
    split
    · exact sameBytes_updLine d line _ rfl
    · split
      · exact h0.trans (sameBytes_updLine d0 line _ rfl)
      · exact SameBytes.foldl _ (fun x e => sameBytes_preImage x w line e) _ _
  have h2 : SameBytes d { d1 with ops := d1.keepOlds w line } := h1
  have h3 := (h2.rekey line w.kid).trans (sameBytes_updLine _ line (fun l =>
    { l with wts := w.st, writer := w.agent, poison := if whole then false else l.poison }) rfl)
  obtain ⟨x, hx⟩ := lowWater_spec d (({ d1 with ops := d1.keepOlds w line }.rekey line w.kid).updLine line fun l =>
    { l with wts := w.st, writer := w.agent, poison := if whole then false else l.poison })
  rw [hx]
  exact h3

theorem SameBytes.applyOp {d e : Device} (h : SameBytes d e) (o : BufOp) : SameBytes (d.applyOp o) (e.applyOp o) := by
  unfold Device.applyOp
  split
  · exact h
  · exact ⟨by simp [Device.poke, h.1], h.2.1, h.2.2⟩

/-- What is sent to a peer leaves memory alone. -/
theorem sendFor_mem (d : Device) (blk : Option Nat) (x : PeerSend) : (d.sendFor blk x).mem = d.mem := by
  have hemit : (d.emit blk x).mem = d.mem := by
    unfold Device.emit Device.undelivered
    split
    · exact (sameBytes_post ..).1
    · split <;> rfl
  unfold Device.sendFor
  split
  · exact hemit
  · split
    · exact hemit
    · split
      · rfl
      · exact hemit

/-- Publication leaves in memory what the operations applied leave. -/
theorem publish_mem (d : Device) (w : Writer) (ops : List BufOp) : (d.publish w ops).mem = (d.applied ops).mem := by
  unfold Device.publish Device.applied
  extract_lets lines d1 d2
  have hlines (l : List Nat) (x y : Device) (h : SameBytes x y) :
      SameBytes (l.foldl (fun x l => x.rekey l (lineKid ops l)) x) (l.foldl (fun x l =>
        x.touchLine { w with kid := lineKid ops l } l (lineVersioned ops l) (coverLine ops l)) y) := by
    induction l generalizing x y with
    | nil => exact h
    | cons n r ih => exact ih _ _ ((h.rekey n _).trans (sameBytes_touchLine y { w with kid := lineKid ops n } n _ _))
  have hops (l : List BufOp) (x y : Device) (h : SameBytes x y) :
      SameBytes (l.foldl (fun x o => x.applyOp o) x) (l.foldl (fun x o => x.applyOp o) y) := by
    induction l generalizing x y with
    | nil => exact h
    | cons o r ih => exact ih _ _ (h.applyOp o)
  have hsend (l : List Nat) (x : Device) : (l.foldl (fun x p => x.sendPeer w.blk ops p) x).mem = x.mem := by
    induction l generalizing x with
    | nil => rfl
    | cons p r ih => exact (ih _).trans (sendFor_mem ..)
  rw [hsend]
  exact (hops ops _ _ (hlines lines d d (.refl d))).1

end Sys2Proof.Proofs

/-! PROOF. The commit of a task (O30, O31): what its publication and its decrements leave, and how its context goes on. -/

namespace Sys2Proof.Proofs

open Sys2Proof Sys2Proof.Machine Sys2Proof.Safety Sys2Proof.Laws

/-! ## What a publication leaves alone -/

/-- Two bindings with the same window and the same progress through their tiles. -/
def SameShape (k k' : Binding) : Prop := k'.win = k.win ∧ k'.tile = k.tile ∧ k'.tx = k.tx ∧ k'.ty = k.ty ∧ k'.tz = k.tz

/-- What a publication and its decrements leave alone: the contexts, the clock, the control blocks, and of every binding its
window and its tiles. -/
def Publishes (d e : Device) : Prop :=
  e.ctxs = d.ctxs ∧ e.cycle = d.cycle ∧ e.tab.blocks = d.tab.blocks ∧
    ∀ b k, d.binding b = some k → ∃ k', e.binding b = some k' ∧ SameShape k k'

theorem Publishes.refl (d : Device) : Publishes d d := ⟨rfl, rfl, rfl, fun _ k h => ⟨k, h, rfl, rfl, rfl, rfl, rfl⟩⟩

theorem Publishes.trans {d e f : Device} (h : Publishes d e) (g : Publishes e f) : Publishes d f := by
  obtain ⟨hc, hy, hb, hk⟩ := h
  obtain ⟨gc, gy, gb, gk⟩ := g
  refine ⟨gc.trans hc, gy.trans hy, gb.trans hb, fun b k h => ?_⟩
  obtain ⟨k1, h1, w1, t1, x1, y1, z1⟩ := hk b k h
  obtain ⟨k2, h2, w2, t2, x2, y2, z2⟩ := gk b k1 h1
  exact ⟨k2, h2, w2.trans w1, t2.trans t1, x2.trans x1, y2.trans y1, z2.trans z1⟩

theorem Publishes.foldl {α : Type} (f : Device → α → Device) (h : ∀ d x, Publishes d (f d x)) (l : List α) (d : Device) :
    Publishes d (l.foldl f d) := by
  induction l generalizing d with
  | nil => exact .refl d
  | cons x r ih => exact (h d x).trans (ih _)

theorem publishes_of_tables {d e : Device} (hc : e.ctxs = d.ctxs) (hy : e.cycle = d.cycle) (hb : e.tab.blocks = d.tab.blocks)
    (hk : e.tab.bindings = d.tab.bindings) : Publishes d e :=
  ⟨hc, hy, hb, fun b k h => ⟨k, by unfold Device.binding; rw [hk]; exact h, rfl, rfl, rfl, rfl, rfl⟩⟩

theorem publishes_kept {d e : Device} (h : Kept d e) : Publishes d e := by
  obtain ⟨_, _, _, _, _, _, rfl, -⟩ := h
  exact publishes_of_tables rfl rfl rfl rfl

theorem publishes_setBinding (d : Device) (b : Nat) (k k' : Binding) (h : d.binding b = some k) (hs : SameShape k k') :
    Publishes d (d.setBinding b k') := by
  refine ⟨rfl, rfl, rfl, fun n k1 h1 => ?_⟩
  rw [Device.binding_setBinding]
  split
  · rename_i e
    subst e
    obtain rfl : k = k1 := Option.some.inj (h.symm.trans h1)
    exact ⟨k', rfl, hs⟩
  · exact ⟨k1, h1, rfl, rfl, rfl, rfl, rfl⟩

theorem publishes_updBinding (d : Device) (b : Nat) (f : Binding → Binding) (hf : ∀ k, SameShape k (f k)) :
    Publishes d (d.updBinding b f) := by
  unfold Device.updBinding
  split
  · rename_i k hk
    exact publishes_setBinding d b k (f k) hk (hf k)
  · exact .refl d

theorem Publishes.updCtx {d e : Device} (h : Publishes d e) (a : Nat) (f : Ctx → Ctx) :
    Publishes (d.updCtx a f) (e.updCtx a f) := by
  obtain ⟨hc, hy, hb, hk⟩ := h
  have hx : (e.updCtx a f).ctxs = (d.updCtx a f).ctxs := by
    show mset e.ctxs a (f (mget {} e.ctxs a)) = mset d.ctxs a (f (mget {} d.ctxs a))
    rw [hc]
  exact ⟨hx, hy, hb, hk⟩

theorem publishes_post (d : Device) (r : ErrRec) : Publishes d (d.post r) := publishes_kept (kept_post d r)

theorem publishes_postBlock (d : Device) (cls rung b agent : Nat) (cause : BitVec 8) (aux : Word) :
    Publishes d (d.postBlock cls rung b agent cause aux) := publishes_post d _

theorem publishes_sendFor (d : Device) (blk : Option Nat) (x : PeerSend) : Publishes d (d.sendFor blk x) := by
  have hemit : Publishes d (d.emit blk x) := by
    unfold Device.emit Device.undelivered
    split
    · exact publishes_post ..
    · split <;> exact publishes_of_tables rfl rfl rfl rfl
  unfold Device.sendFor
  split
  · exact hemit
  · split
    · exact hemit
    · rename_i k hk
      split
      · exact publishes_setBinding d _ k _ hk ⟨rfl, rfl, rfl, rfl, rfl⟩
      · exact hemit

theorem publishes_applyOp (d : Device) (o : BufOp) : Publishes d (d.applyOp o) := by
  unfold Device.applyOp
  split
  · exact .refl d
  · exact publishes_of_tables rfl rfl rfl rfl

theorem publishes_publish (d : Device) (w : Writer) (ops : List BufOp) : Publishes d (d.publish w ops) := by
  unfold Device.publish
  extract_lets lines d1 d2
  have h1 : Publishes d d1 := Publishes.foldl _ (fun x l => publishes_kept (kept_touchLine ..)) _ _
  have h2 : Publishes d1 d2 := Publishes.foldl _ (fun x o => publishes_applyOp x o) _ _
  exact (h1.trans h2).trans (Publishes.foldl _ (fun x p => publishes_sendFor ..) _ _)

/-- A delivery to a block with a trap routine is queued at its binding (R427). -/
theorem publishes_kDeliver (d : Device) (cls b agent : Nat) (cause : BitVec 8) (val : Word) (ent : Option ReadyEnt)
    (h : (d.block b).get fTrapva ≠ 0) : Publishes d (d.kDeliver cls b agent cause val ent) := by
  have hp := publishes_postBlock d cls 3 b agent cause val
  have hb : (d.postBlock cls 3 b agent cause val).block b = d.block b := by
    unfold Device.block
    rw [hp.2.2.1]
  refine hp.trans ?_
  unfold Device.kDeliver Device.kQueue Device.kQueueFor
  rw [if_neg (by rw [hb]; exact h)]
  exact publishes_updBinding _ _ _ fun k => ⟨rfl, rfl, rfl, rfl, rfl⟩

theorem publishes_readyEnqueue (d : Device) (b va floor : Nat) (r : TaskRec) (h : (d.block b).get fTrapva ≠ 0) :
    Publishes d (d.readyEnqueue b va floor r) := by
  unfold Device.readyEnqueue
  split
  · exact .refl d
  · split
    · unfold Device.enqueue
      split
      · exact .refl d
      · rename_i k hk
        extract_lets c
        split
        · exact publishes_setBinding d _ k _ hk ⟨rfl, rfl, rfl, rfl, rfl⟩
        · exact publishes_of_tables rfl rfl rfl rfl
    · exact publishes_kDeliver _ _ _ _ _ _ _ h

theorem publishes_putCount (d : Device) (b : Nat) (w : Writer) (bseq : BitVec 31) (pa : Nat) (w0 w3 : Word) :
    Publishes d (d.putCount b w bseq pa w0 w3) := by
  unfold Device.putCount Device.writePred
  split
  · exact publishes_sendFor ..
  · exact (publishes_kept (kept_touchRange d w pa 64 false)).trans (publishes_of_tables rfl rfl rfl rfl)

/-! ## Which bytes a decrement changes (R44, R45) -/

theorem kDeliver_mem (d : Device) (cls b agent : Nat) (cause : BitVec 8) (val : Word) (ent : Option ReadyEnt) :
    (d.kDeliver cls b agent cause val ent).mem = d.mem :=
  ((stored_postBlock d cls 3 b agent cause val).trans (stored_kQueue _ b cause val ent)).1

theorem readyEnqueue_mem (d : Device) (b va floor : Nat) (r : TaskRec) : (d.readyEnqueue b va floor r).mem = d.mem := by
  unfold Device.readyEnqueue
  split
  · rfl
  · split
    · exact (stored_enqueue ..).1
    · exact kDeliver_mem ..

/-- A record's count is changed within the record's own line. -/
theorem putCount_out (d : Device) (b : Nat) (w : Writer) (bseq : BitVec 31) (pa : Nat) (w0 w3 : Word) (ha : pa % 64 = 0)
    (a : Nat) (h : a / 64 ≠ pa / 64) : rdByte (d.putCount b w bseq pa w0 w3).mem a = rdByte d.mem a := by
  unfold Device.putCount
  split
  · rw [sendFor_mem]
  · have hl : a / 64 ∉ linesOf pa 64 := fun hm => by
      obtain ⟨-, h1, h2⟩ := mem_linesOf hm
      omega
    show rdByte (wrBytes (wrBytes _ pa _) (pa + 24) _) a = _
    rw [rdByte_wrBytes_out _ _ _ _ (by rw [length_toBytes]; omega), rdByte_wrBytes_out _ _ _ _ (by rw [length_toBytes]; omega),
      touchRange_out _ _ _ _ _ _ hl]

/-- A window as a binding sees it holds an address where the window does, in the same page. -/
theorem findEnt_seen {k : Binding} {now : Nat} {va : Word} {e : WinEnt} (h : findEnt (k.seen now) va = some e)
    (ha : e.ab = false) : findEnt k.win va = some e := by
  unfold findEnt at h ⊢
  split at h
  · rename_i hc
    rw [if_pos hc]
    unfold Binding.seen at h
    have hh (x : WinEnt) : (if x.madeAt = some now then { x with ab := true } else x).holds va = x.holds va := by
      split <;> rfl
    rw [List.find?_map, Option.map_eq_some_iff] at h
    obtain ⟨x, hx, rfl⟩ := h
    rw [show (WinEnt.holds · va) ∘ (fun x : WinEnt => if x.madeAt = some now then { x with ab := true } else x) =
      (WinEnt.holds · va) from funext hh] at hx
    rw [hx]
    split at ha
    · simp at ha
    · rename_i hn
      rw [if_neg hn]
  · contradiction

/-- A window maps an aligned address to an aligned one. -/
theorem pa_mod_64 (e : WinEnt) (va : Word) (h : va.toNat % 64 = 0) : e.pa va % 64 = 0 := by
  have hs := winShift_ge e.sz
  have h64 : (64 : Nat) ∣ 2 ^ winShift e.sz := (Nat.pow_dvd_pow 2 (show 6 ≤ winShift e.sz by omega))
  have hm : va.toNat % 2 ^ winShift e.sz % 64 = va.toNat % 64 := Nat.mod_mod_of_dvd _ h64
  unfold WinEnt.pa
  omega

/-- A successor entry with bits 5:0 clear names an aligned address. -/
theorem va57_mod_64 (entry : Word) (h : bits entry 5 0 = 0) : (va57 (bits entry 56 0)).toNat % 64 = 0 := by
  have hlow : (va57 (bits entry 56 0)).setWidth 6 = entry.extractLsb' 0 6 := by
    apply BitVec.eq_of_getLsbD_eq
    intro i hi
    have h57 : i < 57 := by omega
    have h64 : i < 64 := by omega
    have hx : va57 (bits entry 56 0) = (entry.extractLsb' 0 57).signExtend 64 := by
      unfold va57 bits
      rw [BitVec.ofNat_toNat, BitVec.setWidth_eq]
    rw [hx, BitVec.getLsbD_setWidth, BitVec.getLsbD_signExtend, BitVec.getLsbD_extractLsb', BitVec.getLsbD_extractLsb']
    simp [hi, h57, h64]
  have := congrArg BitVec.toNat hlow
  rw [BitVec.toNat_setWidth] at this
  exact this.trans h

/-- One decrement changes no byte outside the line of the record it names. -/
theorem decrement_spec {d e : Device} {b : Nat} {w : Writer} {n i : Nat} {entry : Word} {k : Binding}
    (h : d.decrement b w n i entry = .ok e) (hk : d.binding b = some k) (hv : (d.block b).get fTrapva ≠ 0) :
    Publishes d e ∧ ∀ a, a / 64 ∉ recordLines k [entry] → rdByte e.mem a = rdByte d.mem a := by
  have delivered (cause : BitVec 8) (val : Word) : Publishes d (d.kDeliver 4 b w.agent cause val none) ∧
      ∀ a, a / 64 ∉ recordLines k [entry] → rdByte (d.kDeliver 4 b w.agent cause val none).mem a = rdByte d.mem a :=
    ⟨publishes_kDeliver _ _ _ _ _ _ _ hv, fun a _ => by rw [kDeliver_mem]⟩
  unfold Device.decrement at h
  rw [hk] at h
  dsimp only at h
  split at h
  · cases h; exact delivered ..
  · rename_i hz
    have h50 : bits entry 5 0 = 0 := by omega
    split at h
    · cases h; exact delivered ..
    · rename_i x hx
      split at h
      · contradiction
      · rename_i hab
        have hrec : recordLines k [entry] = [x.pa (va57 (bits entry 56 0)) / 64] := by
          simp [recordLines, findEnt_seen hx (by simpa using hab), hab]
        have counted (w' : Writer) (w0 w3 : Word) :
            Publishes d (d.putCount b w' k.bseq (x.pa (va57 (bits entry 56 0))) w0 w3) ∧ ∀ a, a / 64 ∉ recordLines k [entry] →
              rdByte (d.putCount b w' k.bseq (x.pa (va57 (bits entry 56 0))) w0 w3).mem a = rdByte d.mem a :=
          ⟨publishes_putCount .., fun a ha => putCount_out _ _ _ _ _ _ _ (pa_mod_64 _ _ (va57_mod_64 entry h50)) a
            (by simpa [hrec] using ha)⟩
        split at h
        · cases h; exact delivered ..
        · split at h
          · contradiction
          · split at h
            · cases h
              obtain ⟨hp, hm⟩ := counted { w with kid := x.kid.toNat } _ _
              exact ⟨hp.trans (publishes_postBlock ..), fun a ha => by rw [(stored_postBlock ..).1, hm a ha]⟩
            · cases h
              obtain ⟨hp, hm⟩ := counted { w with kid := x.kid.toNat } _ _
              split
              · refine ⟨hp.trans (publishes_readyEnqueue _ _ _ _ _ ?_), fun a ha => by rw [readyEnqueue_mem, hm a ha]⟩
                unfold Device.block at hv ⊢
                rwa [hp.2.2.1]
              · exact ⟨hp, hm⟩

theorem recordLines_cons (k : Binding) (x : Word) (l : List Word) :
    recordLines k (x :: l) = recordLines k [x] ++ recordLines k l := by simp [recordLines]

theorem recordLines_win {k k' : Binding} (h : k'.win = k.win) (l : List Word) : recordLines k' l = recordLines k l := by
  unfold recordLines; rw [h]

/-- The decrements of a list change no byte outside the lines of the records it names. -/
theorem decrements_spec (l : List Word) {d e : Device} {b : Nat} {w : Writer} {n i : Nat} {k : Binding}
    (h : d.decrements b w n i l = .ok e) (hk : d.binding b = some k) (hv : (d.block b).get fTrapva ≠ 0) :
    Publishes d e ∧ ∀ a, a / 64 ∉ recordLines k l → rdByte e.mem a = rdByte d.mem a := by
  induction l generalizing d i k with
  | nil => cases h; exact ⟨.refl _, fun _ _ => rfl⟩
  | cons x r ih =>
    unfold Device.decrements at h
    split at h
    · rename_i d1 h1
      obtain ⟨hp, hm⟩ := decrement_spec h1 hk hv
      obtain ⟨k1, hk1, hs⟩ := hp.2.2.2 b k hk
      obtain ⟨gp, gm⟩ := ih h hk1 (by unfold Device.block at hv ⊢; rwa [hp.2.2.1])
      refine ⟨hp.trans gp, fun a ha => ?_⟩
      rw [recordLines_cons, List.mem_append, not_or] at ha
      rw [gm a (by rw [recordLines_win hs.1]; exact ha.2), hm a ha.1]
    · contradiction

/-! ## The commit of a task (R53, R55, R136) -/

/-- What a commit that passes its checks leaves: the context with a new stamp, memory as the task's stores leave it but in
the lines of the records whose counts it decrements, and nothing else that a publication leaves alone. -/
theorem commitTask_spec {d e : Device} {a n st : Nat} {t : Task} {k : Binding} (h : d.commitTask a n t = .ok (e, st))
    (hk : d.binding t.blk = some k) (hv : (d.block t.blk).get fTrapva ≠ 0) :
    Publishes (d.updCtx a fun c => { c with stamp := st }) e ∧
    ∃ es, (d.applied t.buf).successors k n t = .ok es ∧
      let all := es ++ t.spawns.map fun v => word (v % 2 ^ 57)
      (∀ x, x / 64 ∉ recordLines k all → rdByte e.mem x = rdByte (d.applied t.buf).mem x) ∧
      (all = [] → e.mem = (d.applied t.buf).mem) := by
  unfold Device.commitTask at h
  dsimp only at h
  rw [hk, Option.getD_some] at h
  split at h
  · contradiction
  · split at h
    · contradiction
    · split at h
      · contradiction
      · split at h
        · contradiction
        · rename_i es hes
          split at h
          · contradiction
          · rename_i d2 h2
            simp only [Except.ok.injEq, Prod.mk.injEq] at h
            obtain ⟨rfl, rfl⟩ := h
            generalize stampAbove _ _ = st at h2 ⊢
            have hpub := publishes_publish d ⟨a, st, some t.blk, 0⟩ t.buf
            have hmem := publish_mem d ⟨a, st, some t.blk, 0⟩ t.buf
            generalize d.publish ⟨a, st, some t.blk, 0⟩ t.buf = p at h2 hpub hmem
            obtain ⟨k1, hk1, hs⟩ := hpub.2.2.2 _ k hk
            have hv1 : (p.block t.blk).get fTrapva ≠ 0 := by unfold Device.block at hv ⊢; rwa [hpub.2.2.1]
            obtain ⟨hdec, hout⟩ := decrements_spec _ h2 (k := k1) hk1 hv1
            have htop : Publishes p { p with top := Nat.max d.top st } := publishes_of_tables rfl rfl rfl rfl
            refine ⟨Publishes.updCtx ((hpub.trans htop).trans (hdec.trans ?_)) a _, es, hes, fun x hx => ?_, fun hall => ?_⟩
            · exact (publishes_of_tables rfl rfl rfl rfl).trans (publishes_updBinding _ _ _ fun k => ⟨rfl, rfl, rfl, rfl, rfl⟩)
            · rw [← hmem]
              refine Eq.trans ?_ (hout x (by rw [recordLines_win hs.1]; exact hx))
              exact congrArg (rdByte · x) (stored_updBinding _ _ _).1
            · rw [← hmem]
              rw [hall] at h2
              cases h2
              exact (stored_updBinding _ _ _).1

end Sys2Proof.Proofs

/-! PROOF. The ends of a task (O30, O31): its bundle commits with it, and its context leaves it or goes on with the next tile. -/

namespace Sys2Proof.Proofs

open Sys2Proof Sys2Proof.Machine Sys2Proof.Safety Sys2Proof.Laws

/-! ## Contexts beside memory -/

theorem rekey_known (d : Device) (line kid : Nat) (h : (d.line line).cipher = .blank ∨ (d.line line).cipher = d.cipherOf kid) :
    d.rekey line kid = d.updLine line fun l => { l with kid := kid, cipher := d.cipherOf kid } :=
  congrArg (fun x : Device => x.updLine line fun l => { l with kid := kid, cipher := d.cipherOf kid }) (if_pos h)

theorem rekey_new (d : Device) (line kid : Nat) (h : ¬((d.line line).cipher = .blank ∨ (d.line line).cipher = d.cipherOf kid)) :
    d.rekey line kid = ({ d with mem := wrBytes d.mem (line * 64) (d.lineUnder line kid) } : Device).updLine line fun l =>
      { l with kid := kid, cipher := d.cipherOf kid } :=
  congrArg (fun x : Device => x.updLine line fun l => { l with kid := kid, cipher := d.cipherOf kid }) (if_neg h)

theorem rekey_ctxs (d : Device) (c : Map Ctx) (line kid : Nat) :
    ({ d with ctxs := c } : Device).rekey line kid = { d.rekey line kid with ctxs := c } := by
  by_cases h : (d.line line).cipher = .blank ∨ (d.line line).cipher = d.cipherOf kid
  · rw [rekey_known d line kid h]
    exact rekey_known { d with ctxs := c } line kid h
  · rw [rekey_new d line kid h]
    exact rekey_new { d with ctxs := c } line kid h

theorem applyOp_ctxs (d : Device) (c : Map Ctx) (o : BufOp) :
    ({ d with ctxs := c } : Device).applyOp o = { d.applyOp o with ctxs := c } := by
  unfold Device.applyOp
  split <;> rfl

theorem foldl_ctxs {α : Type} (f : Device → α → Device) (c : Map Ctx)
    (h : ∀ d x, f { d with ctxs := c } x = { f d x with ctxs := c }) (l : List α) (d : Device) :
    l.foldl f { d with ctxs := c } = { l.foldl f d with ctxs := c } := by
  induction l generalizing d with
  | nil => rfl
  | cons x r ih => rw [List.foldl_cons, List.foldl_cons, h, ih]

/-- Buffered operations change memory alike whatever the contexts hold. -/
theorem applied_ctxs (d : Device) (c : Map Ctx) (ops : List BufOp) :
    ({ d with ctxs := c } : Device).applied ops = { d.applied ops with ctxs := c } := by
  unfold Device.applied
  extract_lets lines
  rw [foldl_ctxs _ c (fun d l => rekey_ctxs d c l _), foldl_ctxs _ c fun d o => applyOp_ctxs d c o]

theorem succList_ctxs (d : Device) (c : Map Ctx) (k : Binding) (x : Nat) (r : TaskRec) (n i : Nat) :
    ({ d with ctxs := c } : Device).succList k x r n i = d.succList k x r n i := by
  induction n generalizing i with
  | zero => rfl
  | succ n ih =>
    unfold Device.succList
    simp only [ih]
    rfl

theorem successors_ctxs (d : Device) (c : Map Ctx) (k : Binding) (n : Nat) (t : Task) :
    ({ d with ctxs := c } : Device).successors k n t = d.successors k n t := by
  unfold Device.successors
  simp only [succList_ctxs]
  rfl

/-! ## A context that leaves its run state (R50, R51) -/

theorem passIssue_ctx (d : Device) (a b : Nat) (h : (d.ctx b).run ≠ .ready) : (d.passIssue a).ctx b = d.ctx b := by
  unfold Device.passIssue
  extract_lets core order
  split
  · rfl
  · split
    · rename_i x hx
      have hr : (d.ctx x).run = .ready := by simpa using List.find?_some hx
      exact Device.ctx_updCtx_other _ _ _ _ fun e => h (e ▸ hr)
    · rfl

/-- A context left in a run state other than READY is in it, and otherwise as it was. -/
theorem leave_ctx (d : Device) (a : Nat) (r : RunState) (h : r ≠ .ready) : (d.leave a r).ctx a = { d.ctx a with run := r } := by
  unfold Device.leave
  extract_lets was d1
  have h1 : d1.ctx a = { d.ctx a with run := r } := Device.ctx_updCtx_same ..
  split
  · rw [passIssue_ctx _ _ _ (by rw [h1]; exact h), h1]
  · exact h1

/-! ## The commit of a bundle that ends its task (R53, R228) -/

/-- What the commit of task `k` of context `a`, bound as `b`, leaves of the device `d`: the context still holds it, its
binding has its window and tiles, and memory is as its stores leave it but in the lines of the records that it counts. -/
def Committed (d : Device) (a : Nat) (k : Task) (b : Binding) (e : Device) : Prop :=
  (e.ctx a).task = some k ∧ (∃ b', e.binding k.blk = some b' ∧ SameShape b b') ∧
  (∀ x, (∀ n es, (d.applied k.buf).successors b n k = .ok es →
      x / 64 ∉ recordLines b (es ++ k.spawns.map fun v => word (v % 2 ^ 57))) →
    rdByte e.mem x = rdByte (d.applied k.buf).mem x) ∧
  (k.tiled = true → k.spawns = [] → e.mem = (d.applied k.buf).mem)

theorem standing_eq (s : State) : ∃ c, s.standing = s.dev.setCtx s.me c ∧ c.task = s.ctx.task ∧ c.tls = s.ctx.tls :=
  ⟨_, rfl, rfl, rfl⟩

/-- A device without an unobserved fault of a context has none to deliver (R437). -/
theorem efaults_none (d : Device) (b a : Nat) (h : ∀ e ∈ (d.ctx a).tls, e.2.fault = []) :
    d.efaults b a = d.updCtx a fun c => { c with tls := c.tls.map fun e => (e.1, { e.2 with fault := [] }) } := by
  unfold Device.efaults
  rw [List.flatMap_eq_nil_iff.mpr h]
  rfl

theorem bun_agent (s : State) : s.bun.agent = s.me := by
  unfold State.bun State.me
  cases s.bundle <;> rfl

theorem updBun_me (s : State) (f : Bundle → Bundle) (h : (f s.bun).agent = s.bun.agent) : (s.updBun f).me = s.me :=
  h.trans (bun_agent s)

/-- A task whose commit passes its checks commits with its bundle. -/
theorem commitTask_commits (u : State) (k : Task) (b : Binding) (hk : u.ctx.task = some k) (hf : ∀ e ∈ u.ctx.tls, e.2.fault = [])
    (hb : u.dev.binding k.blk = some b) (hv : (u.dev.block k.blk).get fTrapva ≠ 0)
    (hr : ∃ r, (u.updBun fun b => { b with compared := true }).standing.commitTask u.me u.free k = .ok r) :
    ∃ e, u.commitTask = .ok (u.draw.1, e) ∧ Committed u.dev u.me k b e := by
  obtain ⟨⟨d, st⟩, hr⟩ := hr
  have hme := updBun_me u (fun b => { b with compared := true }) rfl
  obtain ⟨c, hs, hct, hcl⟩ := standing_eq (u.updBun fun b => { b with compared := true })
  have hdef : u.commitTask = match ((u.updBun fun b => { b with compared := true }).standing.ctx u.me).task with
      | none => .ok (u.draw.1, (u.updBun fun b => { b with compared := true }).standing)
      | some t => match (u.updBun fun b => { b with compared := true }).standing.commitTask u.me u.free t with
        | .error x => .error x
        | .ok (d, _) => .ok (u.draw.1, ((d.dropFlags u.me).updCtx u.me Ctx.dropPending).efaults t.blk u.me) := rfl
  have hx : (u.updBun fun b => { b with compared := true }).ctx = u.ctx := congrArg u.dev.ctx hme
  rw [hx, hk] at hct
  rw [hx] at hcl
  rw [hme] at hs
  rw [hdef]
  generalize (u.updBun fun b => { b with compared := true }).standing = s0 at hs hr ⊢
  subst hs
  have hctx : ((u.updBun fun b => { b with compared := true }).dev.setCtx u.me c).ctx u.me = c := Device.ctx_setCtx_same ..
  obtain ⟨⟨hctxs, -, hblocks, hbind⟩, es, hes, hmem, hnone⟩ := commitTask_spec hr (k := b) hb hv
  have hd : d.ctx u.me = { c with stamp := st } := by
    unfold Device.ctx
    rw [hctxs]
    exact (Device.ctx_updCtx_same ..).trans (by rw [hctx])
  have happ : (((u.updBun fun b => { b with compared := true }).dev.setCtx u.me c).applied k.buf).mem =
      (u.dev.applied k.buf).mem := by
    have h := congrArg Device.mem (applied_ctxs u.dev (mset u.dev.ctxs u.me c) k.buf)
    exact h
  have hes : (u.dev.applied k.buf).successors b u.free k = .ok es := by
    rw [← hes, ← successors_ctxs (u.dev.applied k.buf) (mset u.dev.ctxs u.me c), ← applied_ctxs]
    rfl
  have hq : ((d.dropFlags u.me).updCtx u.me Ctx.dropPending).ctx u.me =
      ({ d.ctx u.me with tls := (d.ctx u.me).tls.map fun e => (e.1, { e.2 with flags := [] }) } : Ctx).dropPending := by
    rw [Device.ctx_updCtx_same]
    exact congrArg _ (Device.ctx_updCtx_same d u.me fun c => { c with tls := c.tls.map fun e => (e.1, { e.2 with flags := [] }) })
  have hfaults : ∀ e ∈ (((d.dropFlags u.me).updCtx u.me Ctx.dropPending).ctx u.me).tls, e.2.fault = [] := by
    rw [hq, hd]
    simp only [Ctx.dropPending, hcl, List.map_map, List.mem_map]
    rintro e ⟨x, hx, rfl⟩
    exact hf x hx
  rw [hctx, hct]
  dsimp only
  rw [hr]
  dsimp only
  rw [efaults_none _ _ _ hfaults]
  refine ⟨_, rfl, ?_, hbind _ _ hb, fun x hx => ?_, fun ht hsp => ?_⟩
  · rw [Device.ctx_updCtx_same, hq, hd]
    exact hct
  · exact (hmem x (hx _ _ hes)).trans (by rw [happ])
  · refine (hnone ?_).trans happ
    have hnil : es = [] := by
      unfold Device.successors at hes
      rw [if_pos (.inr ht)] at hes
      exact (Except.ok.inj hes).symm
    rw [hnil, hsp]
    rfl

/-! ## How a context goes on after its task (R228, R239, R261) -/

theorem endCheck_ok (s : State) (k : Task) (hk : s.ctx0.task = some k) (hs : k.span = none) (ho : s.ctx0.segOpen = false) :
    s.endCheck = .ok () := by
  unfold State.endCheck
  simp [hk, hs, ho]
  rfl

/-- A task that commits with its bundle leaves its context without a task, in the run state that its instruction names. -/
theorem endTask_commits (s : State) (k : Task) (b : Binding) (hc : Commits s k) (hb : s.dev.binding k.blk = some b)
    (r : RunState) (hr : r ≠ .ready) : ∃ t e, s.endTask r = .ok t ∧ (t.dev.ctx s.me).task = none ∧ (t.dev.ctx s.me).run = r ∧
      Committed s.dev s.me k b e ∧ t.dev.mem = e.mem := by
  obtain ⟨hk, hk0, hspan, hseg, hf, hv, hall⟩ := hc
  have hme := updBun_me s (fun b => { b with ends := true }) rfl
  obtain ⟨e, he, hcom⟩ := commitTask_commits (s.updBun fun b => { b with ends := true }) k b
    ((congrArg (fun a => (s.dev.ctx a).task) hme).trans hk) (by rw [State.ctx, hme]; exact hf) hb hv
    (by rw [hme]; exact hall true s.free)
  rw [hme] at hcom
  unfold State.endTask
  rw [endCheck_ok s k hk0 hspan hseg]
  dsimp only [bind, Except.bind]
  rw [he]
  refine ⟨_, e, rfl, ?_⟩
  dsimp only
  rw [if_pos (by rw [hcom.1]; rfl)]
  have hl := leave_ctx (e.updCtx s.me fun c => { c.unload with vacantAt := e.cycle + 4 }) s.me r hr
  rw [Device.ctx_updCtx_same] at hl
  rw [hl]
  exact ⟨rfl, rfl, hcom, (stored_leave ..).1⟩

/-- A trap entered by a context with a task keeps its task and its loop levels, and memory (R205, R236, R424). -/
theorem trapEntry_keeps (d : Device) (a slot : Nat) (cause : BitVec 8) (val epc : Word) {k : Task}
    (hk : (d.ctx a).task = some k) :
    ((d.trapEntry a slot cause val epc).ctx a).task = some k ∧
      ((d.trapEntry a slot cause val epc).ctx a).regs.lpc0 = (d.ctx a).regs.lpc0 ∧
      ((d.trapEntry a slot cause val epc).ctx a).regs.lpc1 = (d.ctx a).regs.lpc1 ∧
      (d.trapEntry a slot cause val epc).mem = d.mem := by
  unfold Device.trapEntry
  extract_lets p
  rw [blockOf_eq, hk]
  dsimp only [Option.map_some, Option.some_or]
  split
  · rw [Device.ctx_updCtx_same]
    exact ⟨hk, rfl, rfl, rfl⟩
  · unfold Device.enterRoutine
    rw [Device.ctx_updCtx_same]
    exact ⟨hk, rfl, rfl, rfl⟩

/-- What follows a commit keeps a context's task and its loop levels, and memory (R51, R205, R262). -/
theorem follow_keeps (s : State) (d : Device) (cont : Word) {k : Task} (hk : (d.ctx s.me).task = some k) :
    ((s.follow d cont).dev.ctx s.me).task = some k ∧
      ((s.follow d cont).dev.ctx s.me).regs.lpc0 = (d.ctx s.me).regs.lpc0 ∧
      ((s.follow d cont).dev.ctx s.me).regs.lpc1 = (d.ctx s.me).regs.lpc1 ∧ (s.follow d cont).dev.mem = d.mem := by
  unfold State.follow
  extract_lets trapped held last
  have htrap : ((trapped d).ctx s.me).task = some k ∧ ((trapped d).ctx s.me).regs.lpc0 = (d.ctx s.me).regs.lpc0 ∧
      ((trapped d).ctx s.me).regs.lpc1 = (d.ctx s.me).regs.lpc1 ∧ (trapped d).mem = d.mem := by
    unfold trapped
    split
    · exact trapEntry_keeps _ _ _ _ _ _ hk
    · exact ⟨hk, rfl, rfl, rfl⟩
  obtain ⟨h1, h2, h3, h4⟩ := htrap
  show ((held (trapped d)).ctx s.me).task = some k ∧ ((held (trapped d)).ctx s.me).regs.lpc0 = _ ∧
    ((held (trapped d)).ctx s.me).regs.lpc1 = _ ∧ (held (trapped d)).mem = _
  generalize trapped d = x at h1 h2 h3 h4 ⊢
  unfold held
  split
  · rename_i w r _
    rw [if_pos (by rw [h1]; rfl), leave_ctx _ _ _ (by simp), Device.ctx_updCtx_same]
    exact ⟨h1, h2, h3, (stored_leave ..).1.trans h4⟩
  · exact ⟨h1, h2, h3, h4⟩

theorem ctx_updBinding (d : Device) (b a : Nat) (f : Binding → Binding) : (d.updBinding b f).ctx a = d.ctx a := by
  unfold Device.updBinding
  split <;> rfl

/-- The word of a binding's next tile, or the null tile (R56, R261). -/
theorem tileWord_nextTile (b b' : Binding) (h : SameShape b b') : tileWord b' b'.nextTile =
    if b.tile < b.tx * b.ty * b.tz then
      word (b.tile % b.tx + 2 ^ 16 * (b.tile / b.tx % b.ty) + 2 ^ 32 * (b.tile / (b.tx * b.ty)))
    else word (2 ^ 63) := by
  obtain ⟨-, ht, hx, hy, hz⟩ := h
  unfold Binding.nextTile
  rw [ht, hx, hy, hz]
  split
  · unfold tileWord
    rw [hx, hy]
  · rfl

/-- A task that commits at `NTR` leaves its context with a task on the next tile (R261). -/
theorem ntr_commits (s : State) (k : Task) (b : Binding) (hc : Commits s k) (hb : s.dev.binding k.blk = some b)
    (hm : s.mode ≠ 1) : ∃ t e k', exec .ntr s = .next t ∧ Committed s.dev s.me k b e ∧ t.dev.mem = e.mem ∧
      (t.dev.ctx s.me).regs.lpc0 = 0 ∧ (t.dev.ctx s.me).regs.lpc1 = 0 ∧ (t.dev.ctx s.me).task = some k' ∧ k'.blk = k.blk ∧
      k'.tiled = true ∧ k'.buf = [] ∧ k'.spawns = [] ∧ k'.pin = .none ∧
      k'.tile = if b.tile < b.tx * b.ty * b.tz then
          word (b.tile % b.tx + 2 ^ 16 * (b.tile / b.tx % b.ty) + 2 ^ 32 * (b.tile / (b.tx * b.ty)))
        else word (2 ^ 63) := by
  obtain ⟨hk, hk0, hspan, hseg, hf, hv, hall⟩ := hc
  obtain ⟨e, he, hcom⟩ := commitTask_commits s k b hk hf hb hv (hall s.bun.ends s.free)
  obtain ⟨b', hb', hs⟩ := hcom.2.1
  have hcheck : s.ntrCheck = .ok () := by
    unfold State.ntrCheck
    have h1 : (s.mode != 1) = true := by simpa using hm
    rw [h1, endCheck_ok s k hk0 hspan hseg]
    rfl
  let d1 := (e.updBinding k.blk fun b => { b with tile := if b'.nextTile.isSome then b.tile + 1 else b.tile }).updCtx s.me
    fun c => c.beginTiled k (s.dev.cycle + 24) (tileWord b' b'.nextTile)
  have hx : exec .ntr s = .next (s.draw.1.follow d1 (d1.ctx s.me).regs.pc) := by
    show execNtr s = _
    unfold execNtr
    rw [hcheck]
    dsimp only [bind, Except.bind]
    rw [he]
    dsimp only
    rw [hcom.1]
    dsimp only
    rw [hb']
    rfl
  have hd1 : d1.ctx s.me = (e.ctx s.me).beginTiled k (s.dev.cycle + 24) (tileWord b' b'.nextTile) := by
    unfold d1
    rw [Device.ctx_updCtx_same, ctx_updBinding]
  obtain ⟨h1, h2, h3, h4⟩ := follow_keeps s.draw.1 d1 (d1.ctx s.me).regs.pc (by rw [show s.draw.1.me = s.me from rfl, hd1]; rfl)
  rw [show s.draw.1.me = s.me from rfl] at h1 h2 h3
  refine ⟨_, e, _, hx, hcom, ?_, ?_, ?_, h1, rfl, rfl, rfl, rfl, rfl, tileWord_nextTile b b' hs⟩
  · exact h4.trans (stored_updBinding ..).1
  · rw [h2, hd1]; rfl
  · rw [h3, hd1]; rfl

theorem exec_halt (s : State) (hm : s.mode = 2) : exec .halt s = s.slot (s.endTask .halted) := by
  show execHalt s = _
  unfold execHalt
  rw [hm]
  rfl

/-- Settles O30: `END` and `HALT` unload the context, `NTR` begins the next tile. -/
theorem tasksCommitAndEnd : Obligations.TasksCommitAndEnd := by
  unfold Obligations.TasksCommitAndEnd
  intro s k b hc hb
  refine ⟨?_, fun hm => ?_, fun hm => ?_⟩
  · obtain ⟨t, e, ht, htask, hrun, -⟩ := endTask_commits s k b hc hb .vacant (by simp)
    exact completes_slot ht ⟨htask, hrun⟩
  · obtain ⟨t, e, ht, htask, hrun, -⟩ := endTask_commits s k b hc hb .halted (by simp)
    rw [exec_halt s hm]
    exact completes_slot ht ⟨htask, hrun⟩
  · obtain ⟨t, e, k', ht, -, -, h0, h1, hk, hrest⟩ := ntr_commits s k b hc hb hm
    exact ⟨t, ht, h0, h1, k', hk, hrest⟩

/-- Settles O31: each end of a task commits it, and what follows changes no byte. -/
theorem committedStoresReachMemory : Obligations.CommittedStoresReachMemory := by
  unfold Obligations.CommittedStoresReachMemory
  intro s k b hc hb published ends
  have reaches (t : State) (e : Device) (he : Committed s.dev s.me k b e) (hm : t.dev.mem = e.mem) :
      (∀ a, (∀ n es, (s.dev.applied k.buf).successors b n k = .ok es →
          a / 64 ∉ recordLines b (es ++ k.spawns.map fun v => word (v % 2 ^ 57))) →
        rdByte t.dev.mem a = rdByte published a) ∧
      (k.tiled = true → k.spawns = [] → t.dev.mem = published ∧ MemHolds s t k.buf) := by
    obtain ⟨-, -, hout, hall⟩ := he
    refine ⟨fun a ha => hm ▸ hout a ha, fun ht hs => ?_⟩
    have h := hm.trans (hall ht hs)
    exact ⟨h, memHolds_applied s t k.buf h⟩
  refine ⟨?_, fun hm => ?_, fun hm => ?_⟩
  · obtain ⟨t, e, ht, -, -, he, hmem⟩ := endTask_commits s k b hc hb .vacant (by simp)
    exact completes_slot ht (reaches t e he hmem)
  · obtain ⟨t, e, ht, -, -, he, hmem⟩ := endTask_commits s k b hc hb .halted (by simp)
    show Completes (exec .halt s) _
    rw [exec_halt s hm]
    exact completes_slot ht (reaches t e he hmem)
  · obtain ⟨t, e, k', ht, he, hmem, -⟩ := ntr_commits s k b hc hb hm
    exact ⟨t, ht, reaches t e he hmem⟩

end Sys2Proof.Proofs

/-! PROOF. Fields of control blocks (R34, R36): what a field reads after a write, and what the notes of the scheduler leave. -/

namespace Sys2Proof.Proofs

open Sys2Proof Sys2Proof.Machine Sys2Proof.Safety Sys2Proof.Laws

/-! ## Bit fields of a doubleword -/

theorem getLsbD_setBits {n : Nat} (x : BitVec n) (hi lo v i : Nat) (hl : lo ≤ hi) (hi' : i < n) :
    (setBits x hi lo v).getLsbD i = if lo ≤ i ∧ i ≤ hi then v.testBit (i - lo) else x.getLsbD i := by
  unfold setBits
  simp only [BitVec.getLsbD_or, BitVec.getLsbD_and, BitVec.getLsbD_not, BitVec.getLsbD_shiftLeft, BitVec.getLsbD_ofNat,
    Nat.testBit_two_pow_sub_one, Nat.testBit_mod_two_pow]
  by_cases h1 : lo ≤ i
  · by_cases h2 : i ≤ hi
    · simp [h1, h2, hi', show i - lo < n by omega, show i - lo < hi + 1 - lo by omega, show ¬ i < lo by omega]
    · simp [h1, h2, hi', show ¬ i - lo < hi + 1 - lo by omega]
  · simp [h1, hi', show i < lo by omega]

theorem bits_setBits_same (x : Word) (hi lo v : Nat) (h : hi < 64) (hl : lo ≤ hi) :
    bits (setBits x hi lo v) hi lo = v % 2 ^ (hi + 1 - lo) := by
  have he : (setBits x hi lo v).extractLsb' lo (hi + 1 - lo) = BitVec.ofNat (hi + 1 - lo) v := by
    apply BitVec.eq_of_getLsbD_eq
    intro i hi'
    rw [BitVec.getLsbD_extractLsb', getLsbD_setBits x hi lo v (lo + i) hl (by omega), BitVec.getLsbD_ofNat,
      if_pos (by omega), Nat.add_sub_cancel_left]
  unfold bits
  rw [he, BitVec.toNat_ofNat]

theorem bits_setBits_other (x : Word) (hi lo v hi' lo' : Nat) (hl : lo ≤ hi) (h' : hi' < 64)
    (hd : hi' < lo ∨ hi < lo') : bits (setBits x hi lo v) hi' lo' = bits x hi' lo' := by
  have he : (setBits x hi lo v).extractLsb' lo' (hi' + 1 - lo') = x.extractLsb' lo' (hi' + 1 - lo') := by
    apply BitVec.eq_of_getLsbD_eq
    intro i hi''
    rw [BitVec.getLsbD_extractLsb', BitVec.getLsbD_extractLsb', getLsbD_setBits x hi lo v (lo' + i) hl (by omega),
      if_neg (by omega)]
  unfold bits
  rw [he]

/-! ## Fields of a block -/

/-- A field lies within its doubleword. -/
def Fld.ok (f : Fld) : Bool := decide (f.hi < 64 ∧ f.lo ≤ f.hi)

/-- Two fields share no bit. -/
def Fld.apart (f g : Fld) : Bool := f.dw != g.dw || decide (g.hi < f.lo ∨ f.hi < g.lo)

theorem get_set_same (m : Block) (f : Fld) (v : Nat) (h : Fld.ok f = true) : (m.set f v).get f = v % 2 ^ (f.hi + 1 - f.lo) := by
  obtain ⟨h1, h2⟩ := of_decide_eq_true h
  have hd : (m.set f v).dw f.dw = setBits (m.dw f.dw) f.hi f.lo v := mget_mset_same ..
  unfold Block.get
  rw [hd, bits_setBits_same _ _ _ _ h1 h2]

theorem get_set_other (m : Block) (f g : Fld) (v : Nat) (hf : Fld.ok f = true) (hg : Fld.ok g = true) (h : Fld.apart f g = true) :
    (m.set f v).get g = m.get g := by
  obtain ⟨h1, h2⟩ := of_decide_eq_true hf
  obtain ⟨h3, -⟩ := of_decide_eq_true hg
  unfold Block.get
  by_cases e : g.dw = f.dw
  · have hd : (m.set f v).dw g.dw = setBits (m.dw g.dw) f.hi f.lo v := by
      rw [e]
      exact mget_mset_same ..
    have ha : g.hi < f.lo ∨ f.hi < g.lo := by simpa [Fld.apart, e] using h
    rw [hd, bits_setBits_other _ _ _ _ _ _ h2 h3 ha]
  · have hd : (m.set f v).dw g.dw = m.dw g.dw := mget_mset_other _ _ _ _ _ e
    rw [hd]

/-- A block reads alike where its doublewords do. -/
theorem get_congr {m m' : Block} (h : m'.words = m.words) (f : Fld) : m'.get f = m.get f := by
  unfold Block.get Block.dw
  rw [h]

/-! ## The state of a block (R36) -/

theorem mstate_setMstate (d : Device) (b st : Nat) (h : st < 16) : (d.setMstate b st).mstate b = st := by
  unfold Device.mstate Device.setMstate
  rw [Device.block_updBlock_same, get_set_same _ _ _ rfl]
  exact Nat.mod_eq_of_lt h

theorem block_setMstate_other (d : Device) (b n st : Nat) (h : n ≠ b) : (d.setMstate b st).block n = d.block n := by
  unfold Device.setMstate
  rw [Device.block_updBlock, if_neg h]

/-- A map's values rewritten under their keys. -/
theorem mget_map_or {α : Type} (z : α) (g : Nat × α → Nat × α) (hg : ∀ e, (g e).1 = e.1) (m : Map α) (k : Nat) :
    mget z (m.map g) k = mget z m k ∨ ∃ e, mget z m k = e.2 ∧ mget z (m.map g) k = (g e).2 := by
  induction m with
  | nil => exact .inl rfl
  | cons e r ih =>
    by_cases h : e.1 = k
    · exact .inr ⟨e, by simp [mget, h], by simp [mget, hg, h]⟩
    · simpa [mget, hg, h] using ih

/-- The scheduler's notes change of a block only its claim. -/
theorem noteCandidates_block (d : Device) (n : Nat) :
    ∃ c r, d.noteCandidates.block n = { d.block n with claim := c, recallAt := r } := by
  unfold Device.noteCandidates
  extract_lets cs has still least rs turn keep
  have hk (e : Nat × Block) : (keep e).1 = e.1 ∧ ∃ c r, (keep e).2 = { e.2 with claim := c, recallAt := r } := by
    unfold keep
    split
    · exact ⟨rfl, e.2.claim, e.2.recallAt, rfl⟩
    · exact ⟨rfl, none, none, rfl⟩
  show ∃ c r, mget {} (d.tab.blocks.map keep) n = _
  rcases mget_map_or {} keep (fun e => (hk e).1) d.tab.blocks n with h | ⟨e, h1, h2⟩
  · exact ⟨_, _, h⟩
  · obtain ⟨c, r, h⟩ := (hk e).2
    refine ⟨c, r, ?_⟩
    rw [h2, h, ← h1]
    rfl

theorem get_noteCandidates (d : Device) (n : Nat) (f : Fld) : (d.noteCandidates.block n).get f = (d.block n).get f := by
  obtain ⟨c, r, h⟩ := noteCandidates_block d n
  rw [h]
  exact get_congr rfl f

theorem mstate_noteCandidates (d : Device) (n : Nat) : d.noteCandidates.mstate n = d.mstate n := get_noteCandidates d n fState

theorem mstate_killBlock (d : Device) (b : Nat) : (d.killBlock b).mstate b = sDead := by
  unfold Device.killBlock
  extract_lets recs bound d1 replies
  rw [mstate_noteCandidates, mstate_setMstate _ _ _ (by decide)]

theorem mstate_kill (d : Device) (b : Nat) (cause : BitVec 8) : (d.kill b cause).mstate b = sDead := mstate_killBlock _ _

end Sys2Proof.Proofs

/-! PROOF. Events of tasks and contexts (O43): what each event of `Machine/TaskEvents` makes of the device. -/

namespace Sys2Proof.Proofs

open Sys2Proof Sys2Proof.Machine Sys2Proof.Safety Sys2Proof.Laws

/-! ## Ends of events -/

/-- An event that draws free values and happens. -/
theorem happens_draw {i : Instr} {s : State} {f : Nat → Option Device} {d : Device} {P : State → Prop}
    (x : exec i s = s.drawEvent f) (e : f s.free = some d)
    (h : P { s with dev := d, free := s.free + 1, last := .done }) : Happens i s P :=
  happens_event (m := (f s.free).map fun d => { s with dev := d, free := s.free + 1 }) x (by rw [e]; rfl) h

/-- A delivery to a block with a trap address waits in its binding. -/
theorem kDeliver_appends {d : Device} {b : Nat} {k : Binding} (cls agent : Nat) (cause : BitVec 8) (val : Word)
    (ent : Option ReadyEnt) (hk : d.binding b = some k) (ht : (d.block b).get fTrapva ≠ 0) :
    (d.kDeliver cls b agent cause val ent).binding b =
        some { k with kdel := k.kdel ++ [{ cause := cause, val := val, since := d.cycle, ent := ent }] } ∧
      (d.kDeliver cls b agent cause val ent).ctxs = d.ctxs := by
  obtain ⟨e, he⟩ := postBlock_spec d cls 3 b agent cause val
  unfold Device.kDeliver Device.kQueue Device.kQueueFor
  rw [he, if_neg (show ¬ (Device.block { d with err := e } b).get fTrapva = 0 from ht)]
  unfold Device.updBinding
  rw [show Device.binding { d with err := e } b = some k from hk]
  exact ⟨Device.binding_setBinding_same _ _ _, rfl⟩

/-! ## Taking a task (R46, R47) -/

/-- What a take makes of the device, given what becomes of the entry. -/
theorem taskTake_happens {s : State} {agent blk : Nat} {b : Binding} {e : ReadyEnt} {rest : List ReadyEnt} {P : State → Prop}
    (hh : s.dev.holder (coreOf agent) = some blk) (hb : s.dev.binding blk = some b) (hm : s.dev.mayTake b agent = true)
    (ht : takeFirst (fun e => e.fits blk b agent) (s.dev.readyQ (b.cluster (b.lcell (cellOf (coreOf agent)) / 8))) = some (e, rest))
    (hf : s.dev.firstFor b (b.cluster (b.lcell (cellOf (coreOf agent)) / 8)) e agent = true)
    (h : P { s with dev := (s.dev.setReady (b.cluster (b.lcell (cellOf (coreOf agent)) / 8)) rest).take b agent s.free e,
                    free := s.free + 1, last := .done }) : Happens (.taskTake agent) s P := by
  refine happens_draw (show exec (.taskTake agent) s = execTaskTake agent s from rfl) ?_ h
  simp [hh, hb, hm, ht, hf, guardOpt]

/-- A map written out over its keys. -/
theorem mget_keys {α : Type} (z : α) (f : Nat → α) (l : List Nat) (m : Map α) (k : Nat) :
    mget z (l.map (fun a => (a, f a)) ++ m) k = if k ∈ l then f k else mget z m k := by
  induction l with
  | nil => rfl
  | cons a r ih =>
    by_cases h : a = k
    · subst h
      simp [mget]
    · simp [mget, h, Ne.symm h, ih]

/-- Contexts written out over their numbers. -/
theorem ctx_keys (d : Device) (f : Nat → Ctx) (l : List Nat) (a : Nat) :
    ({ d with ctxs := l.map fun a => (a, f a) } : Device).ctx a = if a ∈ l then f a else {} := by
  have h := mget_keys ({} : Ctx) f l [] a
  rw [List.append_nil] at h
  exact h

/-- The registers that a record's task starts with (R47). -/
theorem startRegs_sreg (bs : List Byte) (old : Regs) (va fcsr : Word) (i : BitVec 6) :
    (startRegs bs old va fcsr).sreg i =
      if 1 ≤ i.toNat ∧ i.toNat ≤ 8 then
        (if i.toNat ≤ bits (dwAt bs 0) 35 32 then word (ofBytes ((bs.drop (28 + 4 * i.toNat)).take 4)) else 0)
      else if i.toNat = 9 then va else 0 := by
  let arg (i : Nat) : Word :=
    if i ≤ bits (dwAt bs 0) 35 32 then word (ofBytes ((bs.drop (28 + 4 * i)).take 4)) else 0
  have hs : (startRegs bs old va fcsr).s = [1, 2, 3, 4, 5, 6, 7, 8].map (fun a => (a, arg a)) ++ [(9, va)] := rfl
  unfold Regs.sreg
  rw [hs, mget_keys]
  by_cases h0 : i = 0
  · simp [h0]
  · have hi : i.toNat ≠ 0 := fun h => h0 (BitVec.eq_of_toNat_eq h)
    have hm : i.toNat ∈ [1, 2, 3, 4, 5, 6, 7, 8] ↔ 1 ≤ i.toNat ∧ i.toNat ≤ 8 := by simp; omega
    simp only [h0, hm, mget, arg, if_false, eq_comm]

theorem startRegs_kreg (bs : List Byte) (old : Regs) (va fcsr : Word) (i : BitVec 3) :
    (startRegs bs old va fcsr).kreg i = BitVec.allOnes 64 := by
  have h : ∀ i : BitVec 3,
      (if i = 0 then BitVec.allOnes 64 else mget 0 ((List.range 7).map fun j => (j + 1, BitVec.allOnes 64)) i.toNat) =
        BitVec.allOnes 64 := by decide
  exact h i

theorem startRegs_preg (bs : List Byte) (old : Regs) (va fcsr : Word) (i : BitVec 3) (h : i ≠ 0) :
    (startRegs bs old va fcsr).preg i = false := by
  have hp : ∀ i : BitVec 3, i ≠ 0 → (i == 0 || (1 : BitVec 8).getLsbD i.toNat) = false := by decide
  exact hp i h

/-- An entry whose record stands in local memory without poison is loaded from it (R47). -/
theorem take_record {d : Device} {k : Binding} {e : ReadyEnt} {w : WinEnt} (a n : Nat) (hr : e.resume = none)
    (hw : findEnt (k.seen d.cycle) (va57 e.recVa) = some w) (ha : w.ab = false) (hk : w.kind = 0)
    (hm : isRemote (w.pa (va57 e.recVa)) = false) (hp : (d.line (w.pa (va57 e.recVa) / 64)).poison = false) :
    d.take k a n e = d.loadTask a e
      { regs := startRegs (d.lineUnder (w.pa (va57 e.recVa) / 64) w.kid.toNat) (d.ctx a).regs (va57 e.recVa) (d.imageFcsr e.blk),
        trap := { mode := k.startMode } } := by
  have hask : d.askRecord k e = d := by
    unfold Device.askRecord
    rw [hw]
    simp [hr, ha, Device.askPeer, hm]
  unfold Device.take
  simp only [hr, hask]
  unfold Device.readRecord
  simp only [hw, ha, hk, Device.seeLine, hm, hp, Bool.false_eq_true, if_false, ne_eq, not_true]

/-! ## Unblocking and the return of `SNAP` (R51, R142, R262) -/

/-- Where a context goes when its wait is over. -/
theorem resume_run (c : Ctx) : c.resume.run = match c.thenWaits with | [] => .ready | w :: _ => .blocked w := by
  unfold Ctx.resume
  cases c.thenWaits with
  | nil => rfl
  | cons w r => rfl

theorem resume_regs (c : Ctx) : c.resume.regs = c.regs := by
  unfold Ctx.resume
  split <;> rfl

/-- A context after its wait is over: it goes on with the waits that its bundle left, but an absence's end lets the whole
bundle issue again. -/
theorem unblock_spec (d : Device) (k : Binding) (a : Nat) (w : Wait) (h : (d.ctx a).run = .blocked w) :
    ((d.unblock k a).ctx a).regs = (d.ctx a).regs ∧
      (∀ va, w = .absent va → ((d.unblock k a).ctx a).run = .ready) ∧
      ((∀ va, w ≠ .absent va) → ((d.unblock k a).ctx a).run = (d.ctx a).resume.run) ∧
      ∀ n i, w = .barrierThen n i → (mget {} ((d.unblock k a).ctx a).bars n).owed = false := by
  have hu : (d.unblock k a).ctx a = _ := Device.ctx_updCtx_same _ _ _
  rw [hu, h]
  cases w with
  | absent va => exact ⟨rfl, fun _ _ => rfl, fun h => absurd rfl (h va), nofun⟩
  | barrierThen n i =>
    refine ⟨resume_regs _, nofun, fun _ => rfl, fun n' i' hn => ?_⟩
    obtain ⟨rfl, rfl⟩ := Wait.barrierThen.inj hn
    exact congrArg Mine.owed (mget_mset_same ..)
  | _ => exact ⟨resume_regs _, nofun, fun _ => rfl, nofun⟩

/-! ## Deliveries (R427) -/

/-- The device after the oldest delivery of a block has started on a context of logical cell 0. -/
theorem kDeliveryTaskStart_happens {s : State} {blk a : Nat} {b : Binding} {x : KDel} {rest : List KDel} {P : State → Prop}
    (hb : s.dev.binding blk = some b) (hk : b.kdel = x :: rest)
    (hn : ∀ y ∈ b.kdel, y.ctx = none ∧ y.ent = none ∧ y.pinned = none) (hp : b.preempt = none) (hr : b.running = true)
    (ha : s.dev.kContext b = some a) (hc : s.dev.cycle ≤ x.since + 64)
    (h : P { s with dev := (s.dev.setBinding blk { b with kdel := rest }).kStart blk b x a s.free, free := s.free + 1,
                    last := .done }) : Happens (.kDeliveryTaskStart blk) s P := by
  obtain ⟨hx, he, hi⟩ := hn x (by rw [hk]; exact List.mem_cons_self)
  have hlive : b.kdel.filter (fun x => s.dev.inRoutine x) = [] := by
    rw [List.filter_eq_nil_iff]
    intro y hy
    simp [Device.inRoutine, (hn y hy).1]
  have htake : takeFirst (fun x : KDel => x.ctx.isNone) b.kdel = some (x, rest) := by
    rw [hk]
    simp [takeFirst, hx]
  have hrest : rest.filter (fun x => x.ctx.isNone) = rest := by
    rw [List.filter_eq_self]
    intro y hy
    simp [(hn y (by rw [hk]; exact List.mem_cons_of_mem _ hy)).1]
  have hplace : s.dev.kPlace blk b x = some a := by
    unfold Device.kPlace
    rw [hi, he]
    exact ha
  refine happens_draw (show exec (.kDeliveryTaskStart blk) s = execKDeliveryTaskStart blk s from rfl) ?_ h
  simp only [hb, htake, Option.bind_eq_bind, Option.bind_some, hplace, hlive, hrest, he, hi, hp, hr, List.any_nil]
  simp [hc, guardOpt]

theorem tcauseOf_zero (c : BitVec 8) : tcauseOf 0 c = word c.toNat := congrArg word (Nat.zero_add _)

/-- What a block's delivery without a task starts on a context (R427). -/
theorem kStart_fresh (d : Device) (blk : Nat) (b : Binding) (x : KDel) (a n : Nat) (he : x.ent = none) (hi : x.pinned = none) :
    ∃ e : ReadyEnt, d.kStart blk b x a n = d.updCtx a fun c => c.load e
      { regs := kRegs (d.ctx a).regs (va57 ((d.block blk).get fTrapva * 32)) (d.imageFcsr blk),
        trap := { mode := 1, tcause := tcauseOf 0 x.cause, tval := x.val } } := by
  unfold Device.kStart
  rw [he, hi]
  exact ⟨_, rfl⟩

/-! ## Queues of a binding (R60) -/

/-- The least queue of some queues is there. -/
theorem leastQueue_isSome (qs : Map StreamQ) (h : qs ≠ []) : (leastQueue qs).isSome = true := by
  have keeps (l : Map StreamQ) (e : Nat × StreamQ) :
      (l.foldl (fun best e => match best with
        | some b => if e.2.cap < b.2.cap then some e else best
        | none => some e) (some e)).isSome = true := by
    induction l generalizing e with
    | nil => rfl
    | cons x r ih =>
      simp only [List.foldl_cons]
      split
      · exact ih x
      · exact ih e
  cases qs with
  | nil => exact absurd rfl h
  | cons e r => exact keeps r e

/-- An enlargement's condition, and what it makes of the device. -/
theorem queueEnlarge_happens {s : State} {blk : Nat} {b : Binding} {q : Nat × StreamQ} {d : Device} {P : State → Prop}
    (hb : s.dev.binding blk = some b) (h64 : 64 ≤ b.stuck) (hs : s.dev.stuck b = true)
    (hr : (s.dev.ready.all fun e => e.2.all fun x => x.blk != blk) = true) (hk : ∀ x ∈ b.kdel, x.ctx.isSome = true)
    (hq : leastQueue b.fullQueues = some q)
    (hd : (match leastQueue (b.fullQueues.filter fun e => s.dev.canDouble b e.2) with
      | some e => s.dev.setBinding blk { b with stuck := 0, queues := mset b.queues e.1 { e.2 with cap := 2 * e.2.cap } }
      | none => s.dev.kDeliver 5 blk 0 cQPOOL (word q.1) none) = d)
    (h : P { s with dev := d, last := .done }) : Happens (.queueEnlarge blk) s P := by
  have hr' : (s.dev.ready.any fun e => e.2.any fun x => x.blk == blk) = false := by
    rw [List.any_eq_false]
    intro e he
    rw [List.all_eq_true] at hr
    have := hr e he
    rw [List.all_eq_true] at this
    rw [Bool.not_eq_true, List.any_eq_false]
    intro x hx
    simpa using this x hx
  refine happens_dev (show exec (.queueEnlarge blk) s = execQueueEnlarge blk s from rfl) ?_ h
  simp only [hb, hq, Option.bind_eq_bind, Option.bind_some, hs, hr', h64, List.all_eq_true.mpr hk, guardOpt, decide_true,
    Bool.not_false, Bool.and_true, if_true]
  exact congrArg some hd

/-! ## The obligation -/

/-- Settles O43: each event's conditions make its definition take the branch that its clause describes. -/
theorem taskEventsHappen : Obligations.TaskEventsHappen := by
  intro s agent blk cl b hb go
  refine ⟨?_, ?_, ?_, ?_, ?_, ?_, ?_, ?_, ?_, ?_, ?_, ?_⟩
  · intro e rest hh q hm ht hf loads
    refine ⟨fun r hr => ?_, fun w hr hw ha hk hl hp => ?_⟩
    · refine taskTake_happens hh hb hm ht hf ?_
      show (s.dev.setReady q rest).take b agent s.free e = _
      unfold Device.take
      rw [hr]
      rfl
    · intro bs dw
      refine taskTake_happens hh hb hm ht hf ?_
      refine ⟨_, take_record (d := s.dev.setReady q rest) agent s.free hr hw ha hk hl hp, rfl, ?_, rfl, rfl, ?_,
        startRegs_preg _ _ _ _, startRegs_kreg _ _ _ _, rfl, rfl⟩
      · exact congrArg (fun n => va57 n) (Nat.mul_comm _ _)
      · exact startRegs_sreg _ _ _ _
  · intro w ho hr hw
    refine happens_dev (d := s.dev.unblock b agent)
      (show exec (.contextUnblock agent) s = execContextUnblock agent s from rfl) ?_ ?_
    · simp [ho, hb, hr, hw, guardOpt]
    · obtain ⟨hregs, hready, hrun, howed⟩ := unblock_spec s.dev b agent w hr
      refine ⟨⟨fun _ hx => Device.ctx_updCtx_other _ _ _ _ hx, fun _ => rfl⟩, hregs, ?_, howed⟩
      cases w with
      | absent va => exact hready va rfl
      | _ => exact (hrun nofun).trans (resume_run _)
  · intro x rest hx
    refine happens_dev (show exec (.taskPublicationComplete blk) s = execTaskPublicationComplete blk s from rfl)
      (d := (s.dev.noteQsc.published x.st).setBinding blk { b with committing := rest }) ?_ ?_
    · simp [hb, hx]
    · exact ⟨Device.binding_setBinding_same _ _ _, rfl, apart_of rfl rfl⟩
  · intro f rest hd hf hl
    refine happens_dev (show exec (.deferredEnqueue cl) s = execDeferredEnqueue cl s from rfl)
      (d := (s.dev.setBinding blk { b with deferred := rest }).setReady cl (s.dev.readyQ cl ++ [f.ent])) ?_ ?_
    · simp [hd, hb, hf, hl, guardOpt]
    · exact ⟨mget_mset_same .., Device.binding_setBinding_same _ _ _, apart_of rfl rfl⟩
  · intro f hf hs ht
    obtain ⟨hk, hc⟩ := kDeliver_appends (d := s.dev.setBinding blk { b with deferred := [] }) 5 0 cRQFULL 0 none
      (Device.binding_setBinding_same _ _ _) ht
    refine happens_dev (show exec (.rqfullTimeout blk) s = execRqfullTimeout blk s from rfl)
      (d := (s.dev.setBinding blk { b with deferred := [] }).kDeliver 5 blk 0 cRQFULL 0 none) ?_ ?_
    · have ha : (b.deferred.any fun f => decide (f.since + cyclesMs 1 ≤ s.dev.cycle)) = true :=
        List.any_eq_true.mpr ⟨f, hf, decide_eq_true hs⟩
      simp only [hb, Option.bind_eq_bind, Option.bind_some, ha]
      rfl
    · exact ⟨apart_of hc (kDeliver_mem ..), hk⟩
  · intro x rest hx hc
    refine happens_dev (show exec (.ntRotation agent) s = execNtRotation agent s from rfl) (d := s.dev.updCtx agent Ctx.rotate) ?_ ?_
    · simp [hx, hc, guardOpt]
    · have hr : ((s.dev.updCtx agent Ctx.rotate).ctx agent) = (s.dev.ctx agent).rotate := Device.ctx_updCtx_same _ _ _
      refine ⟨⟨fun _ hx => Device.ctx_updCtx_other _ _ _ _ hx, fun _ => rfl⟩, ?_, ?_⟩
      · show ((s.dev.updCtx agent Ctx.rotate).ctx agent).ntDue = rest
        rw [hr, Ctx.rotate, hx]
      · show ((s.dev.updCtx agent Ctx.rotate).ctx agent).regs = _
        rw [hr, Ctx.rotate, hx]
        rfl
  · intro h64 hs hr hk
    refine ⟨fun q hq => ?_, fun q hq hn ht => ?_⟩
    · obtain ⟨q', hq'⟩ := Option.isSome_iff_exists.mp (leastQueue_isSome b.fullQueues (by
        intro h
        rw [h] at hq
        exact absurd hq (by simp [leastQueue])))
      refine queueEnlarge_happens hb h64 hs hr hk hq' (by rw [hq]) ?_
      exact ⟨apart_of rfl rfl, Device.binding_setBinding_same _ _ _⟩
    · have hno : b.fullQueues.filter (fun e => s.dev.canDouble b e.2) = [] := by
        rw [List.filter_eq_nil_iff]
        intro e he
        simp [hn e he]
      obtain ⟨hk', hc⟩ := kDeliver_appends 5 0 cQPOOL (word q.1) none hb ht
      refine queueEnlarge_happens hb h64 hs hr hk hq (by rw [hno, show leastQueue [] = none from rfl]) ?_
      exact ⟨apart_of hc (kDeliver_mem ..), hk'⟩
  · intro core page hp
    refine happens_dev (show exec (.poolPageZeroed core page) s = execPoolPageZeroed core page s from rfl)
      (d := s.dev.updCore core fun k => { k with unzeroed := k.unzeroed.filter (· != page) }) ?_ ?_
    · simp [hp, guardOpt]
    · have hu : (s.dev.updCore core fun k => { k with unzeroed := k.unzeroed.filter (· != page) }).core core = _ :=
        mget_mset_same ..
      refine ⟨apart_of rfl rfl, ?_, ?_⟩
      · dsimp only
        rw [hu]
        simp
      · exact congrArg (·.scratch) hu
  · intro x rest a hk hn hp hr ha hc
    obtain ⟨-, he, hi⟩ := hn x (by rw [hk]; exact List.mem_cons_self)
    obtain ⟨e, h⟩ := kStart_fresh (s.dev.setBinding blk { b with kdel := rest }) blk b x a s.free he hi
    refine kDeliveryTaskStart_happens hb hk hn hp hr ha hc ?_
    rw [h]
    refine ⟨⟨fun _ hx => Device.ctx_updCtx_other _ _ _ _ hx, fun _ => rfl⟩, Device.binding_setBinding_same _ _ _, ?_⟩
    dsimp only
    rw [Device.ctx_updCtx_same]
    refine ⟨rfl, congrArg (fun n => va57 n) (Nat.mul_comm _ _), rfl, tcauseOf_zero _, rfl⟩
  · intro x hx h1 h2 h3 hs hn
    have hf : (b.kdel.find? fun x =>
        x.ctx.isNone && x.ent.isNone && x.pinned.isNone && decide (x.since + 64 ≤ s.dev.cycle)).isSome = true := by
      rw [List.find?_isSome]
      exact ⟨x, hx, by simp [h1, h2, h3, hs]⟩
    obtain ⟨y, hy⟩ := Option.isSome_iff_exists.mp hf
    refine happens_dev (show exec (.kDeliveryTimeout blk) s = execKDeliveryTimeout blk s from rfl) (d := s.dev.kill blk y.cause) ?_ ?_
    · simp only [hb, Option.bind_eq_bind, Option.bind_some, hy, hn]
      rfl
    · exact mstate_kill _ _ _
  · refine happens_dev (show exec .stampRaise s = execStampRaise s from rfl)
      (d := { s.dev with ctxs := (List.range 2048).map fun a => (a, (s.dev.ctx a).raised s.dev.pub) }) rfl
      ⟨fun _ => rfl, fun a ha => ?_⟩
    rw [ctx_keys, if_pos (List.mem_range.mpr ha)]
    rfl
  · intro hr hc
    have hno : (s.dev.tab.bindings.any fun e => e.2.committing.any fun x => decide (x.st < (s.dev.ctx agent).stamp)) = false := by
      rw [List.any_eq_false]
      intro e he
      rw [Bool.not_eq_true, List.any_eq_false]
      intro x hx
      simpa using hc e he x hx
    refine happens_dev (show exec (.snapReturn agent) s = execSnapReturn agent s from rfl)
      (d := s.dev.updCtx agent Ctx.resume) ?_ ⟨?_, ⟨fun _ hx => Device.ctx_updCtx_other _ _ _ _ hx, fun _ => rfl⟩⟩
    · simp [hr, hno, guardOpt]
    · show ((s.dev.updCtx agent Ctx.resume).ctx agent).run = _
      rw [Device.ctx_updCtx_same]
      exact resume_run _

end Sys2Proof.Proofs

/-! PROOF. The bound of a pre-emption at a DEAD block (O44): its clause on pinned tasks asks of a block that was DEAD before,
and still holds a binding, that it stays so; the completed pre-emption makes it PREEMPTED. -/

namespace Sys2Proof.Proofs

open Sys2Proof Sys2Proof.Machine Sys2Proof.Safety Sys2Proof.Laws

/-- Nothing more is discarded of a DEAD block (R464). -/
theorem discardCtx_dead {d : Device} {b : Nat} (a : Nat) (h : d.mstate b = sDead) : d.discardCtx b a = d := by
  unfold Device.discardCtx
  split
  · rfl
  · rw [if_pos (.inr h)]

theorem discard_dead {d : Device} {b : Nat} (lost : Nat → Bool) (h : d.mstate b = sDead) (l : List Nat) :
    l.foldl (fun y a => if lost a then y.discardCtx b a else y) d = d := by
  induction l with
  | nil => rfl
  | cons a r ih =>
    rw [List.foldl_cons, discardCtx_dead a h, ite_self]
    exact ih

/-- A completed pre-emption that no suspend asked for leaves its block PREEMPTED (R65). -/
theorem mstate_preempted {s : State} {b : Nat} {k : Binding} {p : Preempt} (hp : k.preempt = some p) (hs : p.suspend = false)
    (hr : (s.dev.block b).retire = false) : (s.preempted b k).dev.mstate b = sPreempted := by
  unfold State.preempted
  rw [hp]
  dsimp only
  rw [hs, hr]
  have hm (d : Device) : ((d.setMstate b (if (false || false) = true then sSuspended else sPreempted)).noteCandidates).mstate b =
      sPreempted := by
    rw [mstate_noteCandidates]
    exact mstate_setMstate _ _ _ (by decide)
  unfold State.suspended
  rw [if_neg (by rw [hm]; decide)]
  exact hm _

/-- The bound of a pre-emption at a block that is DEAD, and bound all the same: nothing is discarded, so the pre-emption
completes. -/
theorem preemptionTimeout_dead {s : State} {b : Nat} {k : Binding} {p : Preempt} (hb : s.dev.binding b = some k)
    (hp : k.preempt = some p) (hm : s.dev.mstate b = sDead) (hd : p.since + s.dev.preemptBound b ≤ s.dev.cycle)
    (hg : s.dev.drainedGroup k = true) (hs : p.suspend = false) (hr : (s.dev.block b).retire = false) :
    ∃ t, exec (.preemptionTimeout b) s = .next t ∧ t.dev.mstate b = sPreempted := by
  let d := s.dev.postDev 7 0 agHarbour (word (s.dev.cycle - (p.since + s.dev.preemptBound b)))
  obtain ⟨e, he⟩ := postDev_spec s.dev 7 0 agHarbour (word (s.dev.cycle - (p.since + s.dev.preemptBound b)))
  have hdb : d.binding b = some k := by
    show Device.binding (s.dev.postDev ..) b = _
    rw [he]
    exact hb
  have hdr : (d.block b).retire = false := by
    show (Device.block (s.dev.postDev ..) b).retire = _
    rw [he]
    exact hr
  let u : State := { s.draw.1 with dev := d }
  have hu : (u.preempted b k).dev.mstate b = sPreempted := mstate_preempted hp hs hdr
  generalize hv : u.preempted b k = v at hu
  refine ⟨{ v with last := .done }, ?_, hu⟩
  show execPreemptionTimeout b s = _
  unfold execPreemptionTimeout
  simp only [hb, Option.bind_eq_bind, Option.bind_some, hp]
  rw [discard_dead _ (show s.draw.1.dev.mstate b = sDead from hm)]
  rw [show (s.draw.1.dev.postDev 7 0 agHarbour (word (s.dev.cycle - (p.since + s.dev.preemptBound b)))).binding b = some k from hdb]
  rw [show (decide (p.since + s.dev.preemptBound b ≤ s.dev.cycle) && s.dev.drainedGroup k) = true by rw [hg, decide_eq_true hd]; rfl]
  rw [← hv]
  rfl

/-- Block 0 DEAD and bound on cell 0, under a pre-emption whose bound has passed; its context 0 holds a pinned task. -/
def deadBound : State :=
  { dev := { cycle := 10 ^ 12
             ctxs := [(0, { task := some { blk := 0, pin := .firm } })]
             tab := { blocks := [(0, ({} : Block).set fState sDead)]
                      bindings := [(0, { gbase := 0, running := true, preempt := some { save := true, since := 0 } })] } } }

/-- Refutes O44: at `PREEMPTION_TIMEOUT` a pinned task kills its block, but not one that is DEAD already; one that was DEAD
and bound completes its pre-emption instead and is PREEMPTED, where the clause on pinned tasks says DEAD. -/
theorem not_harbourmasterEventsHappen : ¬ Obligations.HarbourmasterEventsHappen := by
  intro h
  let k : Binding := { gbase := 0, running := true, preempt := some { save := true, since := 0 } }
  let x : Task := { blk := 0, pin := .firm }
  obtain ⟨-, -, -, -, -, -, hp⟩ := h deadBound 0
  have hdue : 0 + deadBound.dev.preemptBound 0 ≤ deadBound.dev.cycle := by decide
  have hdrained : deadBound.dev.drainedGroup k = true := by decide
  obtain ⟨-, -, hpinned⟩ := (hp k { save := true, since := 0 } rfl rfl).2 hdue hdrained
  obtain ⟨t, ht, -, hdead⟩ := hpinned 0 x (by decide) (by decide) rfl rfl (by decide)
  obtain ⟨u, hu, hpre⟩ := preemptionTimeout_dead (s := deadBound) (b := 0) (k := k) rfl rfl (by decide) hdue hdrained rfl rfl
  rw [hu] at ht
  cases ht
  rw [hpre] at hdead
  exact absurd hdead (by decide)

end Sys2Proof.Proofs

/-! PROOF. `INDIRECT` whose completion record cannot be written (O50): the queue stops (R467), and a stopped queue has no
levels, where the clause on `INDIRECT` says that the pushed buffer is its innermost level. -/

namespace Sys2Proof.Proofs

open Sys2Proof Sys2Proof.Machine Sys2Proof.Safety Sys2Proof.Laws

/-- The host driver's queue 0 runs, and its next completion record cannot be written (R467). -/
def losing : State :=
  { dev := { out := { bootOk := true, hostq := [(0, { d0 := setBits 0 63 63 1, lose := true })], firm := [(0, { up := true })] } } }

/-- An `INDIRECT` on queue 0 to a buffer of one word, with a completion record. -/
def indirectOne : Cmd := { who := 0, q := 0, level := 0, cpl := true, arg := 0, words := [0, 0, 1] }

theorem losing_takes : Taken losing indirectOne 0x01 whoOMT := by
  constructor <;> decide

/-- The buffer is pushed, and the stop that follows drops it. -/
theorem losing_indirect : ∃ t, exec (.indirect indirectOne) losing = .next t ∧ (t.dev.hq 0).levels = [] := by
  refine ⟨_, rfl, ?_⟩
  decide

/-- Refutes O50: `INDIRECT` on a queue whose next completion record cannot be written pushes its buffer and completes, and
the queue stops (R467), which drops every level. -/
theorem not_controlBlockCommands : ¬ Obligations.ControlBlockCommands := by
  intro h
  obtain ⟨-, hindirect, -⟩ := h losing indirectOne 0
  obtain ⟨t, ht, -, -, hlevels⟩ := hindirect losing_takes (by decide) (by decide) (by decide) (by decide)
  obtain ⟨u, hu, hnone⟩ := losing_indirect
  rw [hu] at ht
  cases ht
  rw [show indirectOne.q = 0 from rfl, hnone] at hlevels
  exact absurd hlevels (by simp)

end Sys2Proof.Proofs

/-! PROOF. The fabric's numbers and links, and remote accesses at this device (O52; R81, R126, R347, R368, R369, R470, R471). -/

namespace Sys2Proof.Proofs

open Sys2Proof Sys2Proof.Machine Sys2Proof.Safety Sys2Proof.Laws

/-- An event whose one condition holds. -/
theorem happens_guard {i : Instr} {s t : State} {b : Bool} {P : State → Prop} (x : exec i s = s.event (guardOpt b t))
    (hb : b = true) (h : P { t with last := .done }) : Happens i s P :=
  happens_event x (by rw [hb]; rfl) h

theorem happens_guard_dev {i : Instr} {s : State} {d : Device} {b : Bool} {P : State → Prop}
    (x : exec i s = s.devEvent (guardOpt b d)) (hb : b = true) (h : P { s with dev := d, last := .done }) : Happens i s P :=
  happens_dev x (by rw [hb]; rfl) h

theorem memSame_of {s t : State} (h : t.dev.mem = s.dev.mem) : MemSame s t := fun a => congrArg (fun m => rdByte m a) h

/-- A map's values changed alike, where the default stays as it is. -/
theorem mget_map {α : Type} (z : α) (f : α → α) (hz : f z = z) (m : Map α) (k : Nat) :
    mget z (m.map fun e => (e.1, f e.2)) k = f (mget z m k) := by
  induction m with
  | nil => exact hz.symm
  | cons e r ih =>
    by_cases h : e.1 = k
    · simp [mget, h]
    · simpa [mget, h] using ih

/-! ## Numbers and links (R368, R470) -/

/-- With no launch and no migration under way, a change of links or routes ends nothing. -/
theorem failUnreachable_none {s : State} (hl : s.dev.out.launches = []) (hm : s.dev.out.migs = []) : s.failUnreachable = s := by
  have h : s.failLaunches = s := by
    unfold State.failLaunches
    dsimp only
    rw [hl]
    rfl
  unfold State.failUnreachable State.failMigrations
  rw [h, hm]
  rfl

theorem deviceNumbering_happens (s : State) (devno : BitVec 9) (routes : List (Nat × List Nat))
    (hr : ∀ r ∈ routes, r.1 < 512 ∧ ∀ p ∈ r.2, p < 24) :
    Happens (.deviceNumbering devno routes) s fun t => s.dev.out.launches = [] → s.dev.out.migs = [] → Apart s t ∧
      t.dev.out.devno = devno ∧ t.dev.out.routes = routes.foldl (fun m r => mset m r.1 r.2) [] := by
  have hall : (routes.all fun r => decide (r.1 < 512) && r.2.all fun p => decide (p < linkPorts)) = true := by
    rw [List.all_eq_true]
    intro r h
    obtain ⟨h1, h2⟩ := hr r h
    rw [Bool.and_eq_true, decide_eq_true_eq, List.all_eq_true]
    exact ⟨h1, fun p hp => decide_eq_true (h2 p hp)⟩
  let u : State := { s with dev := s.dev.updOut fun o =>
    { o with devno := devno, routes := routes.foldl (fun m r => mset m r.1 r.2) [] } }
  refine happens_guard (t := u.failUnreachable) (show exec (.deviceNumbering devno routes) s = s.event _ from rfl) hall
    fun hl hm => ?_
  rw [failUnreachable_none (s := u) hl hm]
  exact ⟨apart_of rfl rfl, rfl, rfl⟩

theorem linkTraining_happens (s : State) (port : Nat) (hp : port < 24) :
    Happens (.linkTraining port) s fun t => Apart s t ∧ t.dev.out.linkUp.getLsbD port = true ∧
      (mfind t.dev.out.linkKeys port).isSome = true ∧
      ∃ own, t.dev.out.outbox = s.dev.out.outbox ++ [.linkOffer port own (signWith s.dev.cdi2 labelAttest own)] := by
  refine happens_guard (show exec (.linkTraining port) s = s.event _ from rfl) (decide_eq_true hp)
    ⟨apart_of rfl rfl, ?_, ?_, _, rfl⟩
  · refine (getLsbD_setBits s.dev.out.linkUp port port 1 port (Nat.le_refl _) hp).trans ?_
    rw [if_pos ⟨Nat.le_refl _, Nat.le_refl _⟩, Nat.sub_self]
    rfl
  · exact congrArg Option.isSome (mfind_mset_same ..)

/-- What the loss of a link leaves, where nothing needs the way it was. -/
theorem linkLost_spec (s : State) (port : Nat) (hp : port < 24) (hl : s.dev.out.launches = []) (hm : s.dev.out.migs = []) :
    Apart s (s.linkLost port) ∧ (s.linkLost port).dev.out.linkUp.getLsbD port = false ∧
      ∀ p, port ∉ mget [] (s.linkLost port).dev.out.routes p := by
  obtain ⟨e, he⟩ := postDev_spec (s.dev.dropPort port) 6 0 (0x0A00 + port) 0
  have h : s.linkLost port = { s with dev := { s.dev.dropPort port with err := e } } := by
    unfold State.linkLost
    rw [he]
    exact failUnreachable_none hl hm
  rw [h]
  refine ⟨apart_of rfl rfl, ?_, fun p => ?_⟩
  · refine (getLsbD_setBits s.dev.out.linkUp port port 0 port (Nat.le_refl _) hp).trans ?_
    rw [if_pos ⟨Nat.le_refl _, Nat.le_refl _⟩, Nat.zero_testBit]
  · show port ∉ mget [] (s.dev.out.routes.map fun r => (r.1, r.2.filter (· != port))) p
    rw [mget_map [] (fun l : List Nat => l.filter (· != port)) rfl]
    simp

/-- The conditions of a flit's error or a lost lock. -/
theorem link_guard {s : State} {port : Nat} (hp : port < 24) (hu : s.dev.out.linkUp.getLsbD port = true) :
    (decide (port < linkPorts) && s.dev.out.linkUp.getLsbD port) = true := by
  rw [hu, decide_eq_true (show port < linkPorts from hp)]
  rfl

theorem flitError_retries (s : State) (port : Nat) (hp : port < 24) (hu : s.dev.out.linkUp.getLsbD port = true)
    (ht : mget 0 s.dev.out.flitTries port < 16) :
    Happens (.flitError port) s fun t => Apart s t ∧ mget 0 t.dev.out.flitTries port = mget 0 s.dev.out.flitTries port + 1 ∧
      t.dev.out.linkUp = s.dev.out.linkUp ∧ t.dev.out.routes = s.dev.out.routes := by
  refine happens_guard (show exec (.flitError port) s = s.event _ from rfl) (link_guard hp hu) ?_
  rw [if_neg (by omega)]
  exact ⟨apart_of rfl rfl, mget_mset_same .., rfl, rfl⟩

theorem flitError_down (s : State) (port : Nat) (hp : port < 24) (hu : s.dev.out.linkUp.getLsbD port = true)
    (ht : 16 ≤ mget 0 s.dev.out.flitTries port) :
    Happens (.flitError port) s fun t => s.dev.out.launches = [] → s.dev.out.migs = [] → Apart s t ∧
      t.dev.out.linkUp.getLsbD port = false ∧ ∀ p, port ∉ mget [] t.dev.out.routes p := by
  refine happens_guard (show exec (.flitError port) s = s.event _ from rfl) (link_guard hp hu) ?_
  rw [if_pos (by omega)]
  exact linkLost_spec s port hp

theorem linkDown_happens (s : State) (port : Nat) (hp : port < 24) (hu : s.dev.out.linkUp.getLsbD port = true) :
    Happens (.linkDown port) s fun t => s.dev.out.launches = [] → s.dev.out.migs = [] → Apart s t ∧
      t.dev.out.linkUp.getLsbD port = false ∧ ∀ p, port ∉ mget [] t.dev.out.routes p :=
  happens_guard (show exec (.linkDown port) s = s.event _ from rfl) (link_guard hp hu) (linkLost_spec s port hp)

/-! ## Remote accesses at this device (R81, R126, R347, R369, R471) -/

/-- What leaves contexts and messages as they are. -/
def Quiet (d e : Device) : Prop := e.ctxs = d.ctxs ∧ e.out = d.out

theorem Quiet.refl (d : Device) : Quiet d d := ⟨rfl, rfl⟩

theorem Quiet.trans {d e f : Device} (h : Quiet d e) (g : Quiet e f) : Quiet d f := ⟨g.1.trans h.1, g.2.trans h.2⟩

theorem quiet_kept {d e : Device} (h : Kept d e) : Quiet d e := by
  obtain ⟨_, _, _, _, _, _, rfl, _⟩ := h
  exact ⟨rfl, rfl⟩

theorem quiet_touchRange (d : Device) (w : Writer) (pa n : Nat) (versioned : Bool) : Quiet d (d.touchRange w pa n versioned) :=
  quiet_kept (kept_touchRange ..)

/-- Leases change lines alone. -/
theorem leaseTo_spec (d : Device) (ls : List Nat) (st : Nat) : ∃ l, d.leaseTo ls st = { d with lines := l } := by
  induction ls generalizing d with
  | nil => exact ⟨d.lines, rfl⟩
  | cons a r ih =>
    obtain ⟨l, h⟩ := ih (d.updLine a fun e => { e with lease := Nat.max e.lease st })
    exact ⟨l, h⟩

/-- The poisoned lines that a peer reads reach the fault-address queue alone. -/
theorem peerMet_spec (d : Device) (ls : List Nat) : ∃ m, d.peerMet ls = { d with mm := m } := by
  unfold Device.peerMet
  induction ls.filter (fun l => (d.line l).poison) generalizing d with
  | nil => exact ⟨d.mm, rfl⟩
  | cons a r ih =>
    obtain ⟨m, h⟩ := faqPush_spec d 3 2 a
    obtain ⟨m', h'⟩ := ih (d.faqPush 3 2 a)
    exact ⟨m', by rw [List.foldl_cons, h', h]⟩

theorem refuseRemote_spec (s : State) (r : RemoteAccess) :
    ∃ e, s.refuseRemote r = { s with dev := ({ s.dev with err := e } : Device).send (.remoteDenied r.sdev.toNat) } := by
  obtain ⟨e, h⟩ := postDev_spec s.dev 4 0 0x0915 (word r.sdev.toNat)
  exact ⟨e, by unfold State.refuseRemote Device.denied; rw [h]⟩

theorem remoteLoad_spec (s : State) (r : RemoteAccess) (kid n : Nat) :
    ∃ l m top free, s.remoteLoad r kid n = { s with
      dev := ({ s.dev with lines := l, mm := m, top := top } : Device).send (.remoteData r.sdev.toNat
        (s.dev.bytesUnder kid r.pa n) ((linesOf r.pa n).any fun l => (s.dev.line l).poison)), free := free } := by
  unfold State.remoteLoad
  obtain ⟨l, hl⟩ := leaseTo_spec s.masterStamp.1.dev (linesOf r.pa n) s.masterStamp.2
  obtain ⟨m, hm⟩ := peerMet_spec (s.masterStamp.1.dev.leaseTo (linesOf r.pa n) s.masterStamp.2) (linesOf r.pa n)
  exact ⟨l, m, s.masterStamp.2, s.free + 1, by dsimp only; rw [hm, hl]; rfl⟩

/-- An atomic that meets poison returns it. -/
theorem remoteAtomic_poisoned (s : State) (r : RemoteAccess) (kid n op : Nat) (v w : Word)
    (hp : (s.dev.line (r.pa / 64)).poison = true) :
    ∃ m free, s.remoteAtomic r kid n op v w =
      { s with dev := ({ s.dev with mm := m } : Device).send (.remoteData r.sdev.toNat [] true), free := free } := by
  obtain ⟨m, hm⟩ := peerMet_spec s.dev [r.pa / 64]
  refine ⟨m, s.free + 1, ?_⟩
  unfold State.remoteAtomic
  dsimp only
  rw [if_pos hp, show s.draw.1.dev.peerMet [r.pa / 64] = _ from hm]
  rfl

/-- What an atomic's operation makes of the device, with the bytes that it answers. -/
def remoteDone (s : State) (r : RemoteAccess) (kid n op : Nat) (v w : Word) : Device × List Byte :=
  let lines := linesOf r.pa n
  let wr : Writer := ⟨0x0A00 + r.port, stampAbove s.free (s.dev.writeFloor lines), none, kid⟩
  let old := s.dev.bytesUnder kid r.pa n
  if op = 9 then s.dev.remoteCount wr r.pa v w
  else match amoNew op n (ofBytes old) v.toNat w.toNat with
    | some z => (((s.dev.touchRange wr r.pa n false).poke r.pa (toBytes z n)).published wr.st, old)
    | none => ((s.dev.leaseTo lines wr.st).published wr.st, old)

theorem remoteAtomic_eq (s : State) (r : RemoteAccess) (kid n op : Nat) (v w : Word)
    (hp : (s.dev.line (r.pa / 64)).poison = false) :
    s.remoteAtomic r kid n op v w = { s with
      dev := (remoteDone s r kid n op v w).1.send (.remoteData r.sdev.toNat (remoteDone s r kid n op v w).2 false),
      free := s.free + 1 } := by
  unfold State.remoteAtomic
  dsimp only
  rw [if_neg (by rw [hp]; exact Bool.false_ne_true)]
  rfl

theorem quiet_writePred (d : Device) (w : Writer) (pa : Nat) (w0 w3 : Word) : Quiet d (d.writePred w pa w0 w3) :=
  quiet_touchRange d w pa 64 false

theorem quiet_remoteDone (s : State) (r : RemoteAccess) (kid n op : Nat) (v w : Word) :
    Quiet s.dev (remoteDone s r kid n op v w).1 := by
  unfold remoteDone
  extract_lets lines wr old
  split
  · unfold Device.remoteCount
    dsimp only
    split
    · exact quiet_writePred ..
    · split
      · exact quiet_writePred ..
      · exact ⟨rfl, rfl⟩
  · split
    · exact quiet_touchRange ..
    · obtain ⟨l, h⟩ := leaseTo_spec s.dev lines wr.st
      rw [h]
      exact ⟨rfl, rfl⟩

/-! ### Publications -/

theorem remoteOps_pas {d : Device} {r : RemoteAccess} {ops : List (Nat × RemoteOp)} {l : List BufOp}
    (h : d.remoteOps r ops = some l) : l.map (·.pa) = ops.map (·.1) := by
  induction ops generalizing l with
  | nil =>
    cases h
    rfl
  | cons x rest ih =>
    unfold Device.remoteOps at h
    split at h
    · next kid l' hk hl =>
      cases h
      simp [ih hl]
    · contradiction

/-- What a publication's addresses have of each operation, they have of each address. -/
theorem remoteOps_mem {d : Device} {r : RemoteAccess} {ops : List (Nat × RemoteOp)} {l : List BufOp}
    (h : d.remoteOps r ops = some l) {o : BufOp} (ho : o ∈ l) : ∃ x ∈ ops, x.1 = o.pa := by
  have hm : o.pa ∈ ops.map (·.1) := by
    rw [← remoteOps_pas h]
    exact List.mem_map_of_mem ho
  exact List.mem_map.mp hm

theorem forwardWrites_none {d : Device} (r : RemoteAccess) {ops : List (Nat × RemoteOp)} (h : ∀ o ∈ ops, d.buoyAt o.1 = none) :
    d.forwardWrites r ops = d := by
  have hn : ops.filterMap (fun o => d.buoyAt o.1) = [] := List.filterMap_eq_nil_iff.mpr h
  unfold Device.forwardWrites
  rw [hn]
  rfl

/-- Equal numbers are one number. -/
theorem uniq_replicate (n x : Nat) : uniq (List.replicate (n + 1) x) = [x] := by
  induction n with
  | zero => rfl
  | succ n ih =>
    have hc : uniq (x :: List.replicate (n + 1) x) =
        if (uniq (List.replicate (n + 1) x)).contains x then uniq (List.replicate (n + 1) x)
        else x :: uniq (List.replicate (n + 1) x) := rfl
    rw [List.replicate_succ, hc, ih]
    simp

theorem forwardWrites_all {d : Device} (r : RemoteAccess) {ops : List (Nat × RemoteOp)} {dev : Nat} (hne : ops ≠ [])
    (h : ∀ o ∈ ops, d.buoyAt o.1 = some dev) (hr : d.reachable dev = true) :
    d.forwardWrites r ops = d.send (.forwardAccess dev { r with kind := .publish ops }) := by
  have hmap : ops.filterMap (fun o => d.buoyAt o.1) = List.replicate ops.length dev := by
    rw [← List.map_const', ← List.filterMap_eq_map]
    exact List.filterMap_congr h
  obtain ⟨n, hn⟩ := Nat.exists_eq_succ_of_ne_zero (fun e => hne (List.length_eq_zero_iff.mp e))
  have hmine : ops.filter (fun o => d.buoyAt o.1 == some dev) = ops := by
    rw [List.filter_eq_self]
    intro o ho
    simp [h o ho]
  unfold Device.forwardWrites
  rw [hmap, hn, Nat.succ_eq_add_one, uniq_replicate]
  simp only [List.foldl_cons, List.foldl_nil, hmine, hr, if_true]

theorem forwardWrites_ctxs (d : Device) (r : RemoteAccess) (ops : List (Nat × RemoteOp)) :
    (d.forwardWrites r ops).ctxs = d.ctxs := by
  unfold Device.forwardWrites
  suffices h : ∀ (l : List Nat) (x : Device), (l.foldl (fun x dev =>
      if d.reachable dev then x.send (.forwardAccess dev { r with kind := .publish (ops.filter fun o => d.buoyAt o.1 == some dev) })
      else x.postDev 6 0 (0x0A00 + r.port) 0) x).ctxs = x.ctxs from h _ d
  intro l
  induction l with
  | nil => exact fun _ => rfl
  | cons dev rest ih =>
    intro x
    refine (ih _).trans ?_
    dsimp only
    split
    · rfl
    · obtain ⟨e, h⟩ := postDev_spec x 6 0 (0x0A00 + r.port) 0
      rw [h]

/-- A publication that no buoy forwards is published here. -/
theorem remote_publish_here {s : State} {r : RemoteAccess} {ops : List (Nat × RemoteOp)} {l : List BufOp}
    (hk : r.kind = .publish ops) (hl : s.dev.remoteOps r ops = some l) (h : ∀ o ∈ ops, s.dev.buoyAt o.1 = none) :
    s.remote r = s.remotePublish r l := by
  have hhere : l.filter (fun o => (s.dev.buoyAt o.pa).isNone) = l := by
    rw [List.filter_eq_self]
    intro o ho
    obtain ⟨x, hx, e⟩ := remoteOps_mem hl ho
    rw [← e, h x hx]
    rfl
  unfold State.remote
  rw [hk]
  dsimp only
  rw [hl]
  dsimp only
  rw [hhere, forwardWrites_none r h, if_neg (by cases l <;> simp)]

/-- A publication that one buoy forwards leaves for its device. -/
theorem remote_publish_away {s : State} {r : RemoteAccess} {ops : List (Nat × RemoteOp)} {l : List BufOp} {dev : Nat}
    (hk : r.kind = .publish ops) (hl : s.dev.remoteOps r ops = some l) (hne : ops ≠ [])
    (h : ∀ o ∈ ops, s.dev.buoyAt o.1 = some dev) (hr : s.dev.reachable dev = true) :
    s.remote r = { s with dev := s.dev.send (.forwardAccess dev { r with kind := .publish ops }) } := by
  have hhere : l.filter (fun o => (s.dev.buoyAt o.pa).isNone) = [] := by
    rw [List.filter_eq_nil_iff]
    intro o ho
    obtain ⟨x, hx, e⟩ := remoteOps_mem hl ho
    rw [← e, h x hx]
    exact Bool.false_ne_true
  have hll : l ≠ [] := by
    rintro rfl
    exact hne (List.map_eq_nil_iff.mp (remoteOps_pas hl).symm)
  unfold State.remote
  rw [hk]
  dsimp only
  rw [hl]
  dsimp only
  rw [hhere, forwardWrites_all r hne h hr, if_pos (by cases l <;> simp_all)]

/-- A remote access changes no context. -/
theorem remote_ctxs (s : State) (r : RemoteAccess) : (s.remote r).dev.ctxs = s.dev.ctxs := by
  have hrefuse : (s.refuseRemote r).dev.ctxs = s.dev.ctxs := by
    obtain ⟨e, h⟩ := refuseRemote_spec s r
    rw [h]
    rfl
  unfold State.remote
  cases r.kind with
  | load n =>
    dsimp only
    split
    · next kid _ =>
      obtain ⟨l, m, top, free, h⟩ := remoteLoad_spec s r kid n
      rw [h]
      rfl
    · exact hrefuse
  | atomic n op v w =>
    dsimp only
    split
    · next kid _ =>
      cases hp : (s.dev.line (r.pa / 64)).poison
      · rw [remoteAtomic_eq s r kid n _ v w hp]
        exact (quiet_remoteDone s r kid n _ v w).1
      · obtain ⟨m, free, h⟩ := remoteAtomic_poisoned s r kid n op.toNat v w hp
        rw [h]
        rfl
    · exact hrefuse
  | publish ops =>
    have hf := forwardWrites_ctxs s.dev r ops
    dsimp only
    split
    · exact hrefuse
    · split
      · exact hf
      · exact (publishes_publish ..).1.trans hf

/-! ### The clauses on remote accesses -/

/-- What a refused access leaves. -/
theorem refuseRemote_refused (s : State) (r : RemoteAccess) :
    (s.refuseRemote r).dev.out.outbox = s.dev.out.outbox ++ [.remoteDenied r.sdev.toNat] ∧ (s.refuseRemote r).dev.mem = s.dev.mem := by
  obtain ⟨e, h⟩ := refuseRemote_spec s r
  rw [h]
  exact ⟨rfl, rfl⟩

/-- A load that access control denies is refused; another answers what stands in memory under its key. -/
theorem remote_load_clause {s : State} {r : RemoteAccess} {n : Nat} (hk : r.kind = .load n) :
    (s.remote r).dev.mem = s.dev.mem ∧
      (s.dev.remoteKid r 0 r.pa n = none →
        (s.remote r).dev.out.outbox = s.dev.out.outbox ++ [.remoteDenied r.sdev.toNat]) ∧
      ∀ kid, s.dev.remoteKid r 0 r.pa n = some kid →
        (s.remote r).dev.out.outbox = s.dev.out.outbox ++ [.remoteData r.sdev.toNat (s.dev.bytesUnder kid r.pa n)
          ((linesOf r.pa n).any fun l => (s.dev.line l).poison)] := by
  cases hn : s.dev.remoteKid r 0 r.pa n with
  | none =>
    have h : s.remote r = s.refuseRemote r := by simp only [State.remote, hk, hn]
    obtain ⟨ho, hm⟩ := refuseRemote_refused s r
    rw [h]
    exact ⟨hm, fun _ => ho, nofun⟩
  | some kid =>
    have h : s.remote r = s.remoteLoad r kid n := by simp only [State.remote, hk, hn]
    obtain ⟨l, m, top, free, h'⟩ := remoteLoad_spec s r kid n
    rw [h, h']
    refine ⟨rfl, nofun, ?_⟩
    rintro _ ⟨⟩
    rfl

/-- A denied atomic is refused. -/
theorem remote_atomic_denied {s : State} {r : RemoteAccess} {n : Nat} {op : BitVec 4} {v w : Word} (hk : r.kind = .atomic n op v w)
    (hn : s.dev.remoteKid r 2 r.pa n = none) : s.remote r = s.refuseRemote r := by
  simp only [State.remote, hk, hn]

theorem remote_atomic_served {s : State} {r : RemoteAccess} {n kid : Nat} {op : BitVec 4} {v w : Word}
    (hk : r.kind = .atomic n op v w) (hn : s.dev.remoteKid r 2 r.pa n = some kid) :
    s.remote r = s.remoteAtomic r kid n op.toNat v w := by
  simp only [State.remote, hk, hn]

/-- An atomic of the table: it answers the old bytes, and what it has to write stands in memory. -/
theorem remoteDone_table {s : State} {r : RemoteAccess} {kid n op : Nat} {v w : Word} (ho : op ≠ 9) :
    (remoteDone s r kid n op v w).2 = s.dev.bytesUnder kid r.pa n ∧
      (∀ z, amoNew op n (ofBytes (s.dev.bytesUnder kid r.pa n)) v.toNat w.toNat = some z →
        rdBytes (remoteDone s r kid n op v w).1.mem r.pa n = toBytes z n) ∧
      (amoNew op n (ofBytes (s.dev.bytesUnder kid r.pa n)) v.toNat w.toNat = none →
        (remoteDone s r kid n op v w).1.mem = s.dev.mem) := by
  unfold remoteDone
  dsimp only
  rw [if_neg ho]
  cases amoNew op n (ofBytes (s.dev.bytesUnder kid r.pa n)) v.toNat w.toNat with
  | none =>
    refine ⟨rfl, nofun, fun _ => ?_⟩
    obtain ⟨l, h⟩ := leaseTo_spec s.dev (linesOf r.pa n) (stampAbove s.free (s.dev.writeFloor (linesOf r.pa n)))
    dsimp only
    rw [h]
    rfl
  | some z =>
    refine ⟨rfl, ?_, nofun⟩
    rintro _ ⟨⟩
    have h := rdBytes_wrBytes (s.dev.touchRange ⟨0x0A00 + r.port, stampAbove s.free (s.dev.writeFloor (linesOf r.pa n)), none, kid⟩
      r.pa n false).mem r.pa (toBytes z n)
    rw [length_toBytes] at h
    exact h

/-- A change of a record's count by a peer, within its range: the record's first doubleword holds the new count. -/
theorem remoteDone_count {s : State} {r : RemoteAccess} {kid n : Nat} {v w : Word} {x : Word × Word}
    (hx : rearm (w.extractLsb' 0 31) (recOf (s.dev.lineUnder (r.pa / 64) kid)) = x) (h0 : 0 ≤ (bits x.1 15 0 : Int) + v.toInt)
    (h1 : (bits x.1 15 0 : Int) + v.toInt ≤ 65535) :
    rdBytes (remoteDone s r kid n 9 v w).1.mem r.pa 8 =
      toBytes (setBits x.1 15 0 ((bits x.1 15 0 : Int) + v.toInt).toNat).toNat 8 := by
  unfold remoteDone Device.remoteCount
  dsimp only
  rw [if_pos rfl, hx]
  dsimp only
  rw [if_pos ⟨h0, h1⟩]
  generalize setBits x.1 15 0 ((bits x.1 15 0 : Int) + v.toInt).toNat = y
  unfold Device.writePred Device.poke Device.published
  dsimp only
  generalize (s.dev.touchRange _ r.pa 64 false).mem = m
  have h := rdBytes_wrBytes m r.pa (toBytes y.toNat 8)
  rw [length_toBytes] at h
  refine Eq.trans (rdBytes_congr _ _ _ _ fun i hi => ?_) h
  exact rdByte_wrBytes_out _ _ _ _ (.inl (by omega))

/-- An atomic: refused, answered as poisoned, or done. -/
theorem remote_atomic_clause {s : State} {r : RemoteAccess} {n : Nat} {op : BitVec 4} {v w : Word}
    (hk : r.kind = .atomic n op v w) :
    let refused : Prop := (s.remote r).dev.out.outbox = s.dev.out.outbox ++ [.remoteDenied r.sdev.toNat] ∧
      (s.remote r).dev.mem = s.dev.mem
    let answered (bs : List Byte) (bad : Bool) : Prop :=
      (s.remote r).dev.out.outbox = s.dev.out.outbox ++ [.remoteData r.sdev.toNat bs bad]
    (s.dev.remoteKid r 2 r.pa n = none → refused) ∧
      ∀ kid, s.dev.remoteKid r 2 r.pa n = some kid →
        ((s.dev.line (r.pa / 64)).poison = true → answered [] true ∧ (s.remote r).dev.mem = s.dev.mem) ∧
        ((s.dev.line (r.pa / 64)).poison = false →
          let old := s.dev.bytesUnder kid r.pa n
          let x := rearm (w.extractLsb' 0 31) (recOf (s.dev.lineUnder (r.pa / 64) kid))
          let new : Int := bits x.1 15 0 + v.toInt
          (op.toNat ≠ 9 → answered old false ∧
            (∀ z, amoNew op.toNat n (ofBytes old) v.toNat w.toNat = some z → rdBytes (s.remote r).dev.mem r.pa n = toBytes z n) ∧
            (amoNew op.toNat n (ofBytes old) v.toNat w.toNat = none → (s.remote r).dev.mem = s.dev.mem)) ∧
          (op.toNat = 9 → 0 ≤ new → new ≤ 65535 →
            rdBytes (s.remote r).dev.mem r.pa 8 = toBytes (setBits x.1 15 0 new.toNat).toNat 8)) := by
  intro refused answered
  refine ⟨fun hn => ?_, fun kid hn => ?_⟩
  · have h := refuseRemote_refused s r
    rw [← remote_atomic_denied hk hn] at h
    exact h
  · have hr := remote_atomic_served hk hn
    refine ⟨fun hp => ?_, fun hp => ?_⟩
    · obtain ⟨m, free, h⟩ := remoteAtomic_poisoned s r kid n op.toNat v w hp
      rw [h] at hr
      exact ⟨by show (s.remote r).dev.out.outbox = _; rw [hr]; rfl, by rw [hr]; rfl⟩
    · rw [remoteAtomic_eq s r kid n op.toNat v w hp] at hr
      have hout : answered (remoteDone s r kid n op.toNat v w).2 false := by
        show (s.remote r).dev.out.outbox = _
        rw [hr, ← (quiet_remoteDone s r kid n op.toNat v w).2]
        rfl
      have hmem : (s.remote r).dev.mem = (remoteDone s r kid n op.toNat v w).1.mem := by
        rw [hr]
        rfl
      refine ⟨fun ho => ?_, fun ho h0 h1 => ?_⟩
      · obtain ⟨hb, hz, hnone⟩ := remoteDone_table (s := s) (r := r) (kid := kid) (n := n) (v := v) (w := w) ho
        exact ⟨hb ▸ hout, fun z h => by rw [hmem, hz z h], fun h => by rw [hmem, hnone h]⟩
      · rw [hmem, ho]
        exact remoteDone_count rfl h0 h1

/-- A publication: refused, published here, or forwarded by a buoy. -/
theorem remote_publish_clause {s : State} {r : RemoteAccess} {ops : List (Nat × RemoteOp)} (hk : r.kind = .publish ops) :
    (s.dev.remoteOps r ops = none → (s.remote r).dev.out.outbox = s.dev.out.outbox ++ [.remoteDenied r.sdev.toNat] ∧
        (s.remote r).dev.mem = s.dev.mem) ∧
      ∀ l, s.dev.remoteOps r ops = some l →
        ((∀ o ∈ ops, s.dev.buoyAt o.1 = none) →
          ∃ st, (s.remote r).dev.mem = (s.dev.publish ⟨0x0A00 + r.port, st, none, 0⟩ l).mem) ∧
        (∀ dev, ops ≠ [] → (∀ o ∈ ops, s.dev.buoyAt o.1 = some dev) → s.dev.reachable dev = true →
          (s.remote r).dev.out.outbox = s.dev.out.outbox ++ [.forwardAccess dev { r with kind := .publish ops }] ∧
            (s.remote r).dev.mem = s.dev.mem) := by
  refine ⟨fun hn => ?_, fun l hl => ⟨fun hb => ?_, fun dev hne hb hr => ?_⟩⟩
  · have h : s.remote r = s.refuseRemote r := by simp only [State.remote, hk, hn]
    rw [h]
    exact refuseRemote_refused s r
  · rw [remote_publish_here hk hl hb]
    exact ⟨_, rfl⟩
  · rw [remote_publish_away hk hl hne hb hr]
    exact ⟨rfl, rfl⟩

end Sys2Proof.Proofs

/-! PROOF. Launches and gangs (O52; R347, R370 to R372, R472, R473). -/

namespace Sys2Proof.Proofs

open Sys2Proof Sys2Proof.Machine Sys2Proof.Safety Sys2Proof.Laws

/-! ## What the completion of commands leaves alone (R355, R356) -/

/-- Contexts, control blocks, launches, migrations and buoys as they were. -/
def Answers (d e : Device) : Prop :=
  e.ctxs = d.ctxs ∧ e.tab.blocks = d.tab.blocks ∧ e.out.launches = d.out.launches ∧ e.out.migs = d.out.migs ∧
    e.out.buoys = d.out.buoys

theorem Answers.refl (d : Device) : Answers d d := ⟨rfl, rfl, rfl, rfl, rfl⟩

theorem Answers.trans {d e f : Device} (h : Answers d e) (g : Answers e f) : Answers d f := by
  obtain ⟨h1, h2, h3, h4, h5⟩ := h
  obtain ⟨g1, g2, g3, g4, g5⟩ := g
  exact ⟨g1.trans h1, g2.trans h2, g3.trans h3, g4.trans h4, g5.trans h5⟩

theorem answers_written {d e : Device} (h : Written d e) : Answers d e := by
  obtain ⟨_, _, _, _, _, _, _, _, rfl, _⟩ := h
  exact .refl d

theorem answers_cmdPut (s : State) (q : Nat) (dev : Bool) (addr : Nat) (bs : List Byte) :
    Answers s.dev (s.cmdPut q dev addr bs).dev := by
  unfold State.cmdPut
  extract_lets h
  split
  · obtain ⟨d, f, hd, e⟩ := agentPut_spec s agCommand addr bs
    rw [e]
    exact answers_written hd
  · split <;> exact .refl _

theorem answers_interrupt (d : Device) (fn vec : Nat) : Answers d (d.interrupt fn vec) := by
  unfold Device.interrupt
  dsimp only
  split
  · exact .refl d
  · split <;> exact .refl d

theorem answers_complete (s : State) (q : Nat) (seq : Word32) (type : Nat) (cpl : Bool) (status : Nat) (result : Word) :
    Answers s.dev (s.complete q seq type cpl status result).dev := by
  unfold State.complete
  extract_lets h bits128 s1 d
  split
  · exact .refl _
  · split
    · exact .refl _
    · split
      · exact .refl _
      · split
        · obtain ⟨e, he⟩ := postDev_spec (s.dev.updHq q HostQ.stop) 6 0 agCommand 0
          rw [he]
          exact .refl _
        · have h1 : Answers s.dev d := answers_cmdPut s q h.dev _ _
          show Answers s.dev (if _ then _ else _ : Device)
          split
          · exact h1.trans (answers_interrupt ..)
          · exact h1

theorem answers_finishPend (s : State) (p : Pending) (status : Nat) (result : Word) :
    Answers s.dev (s.finishPend p status result).dev :=
  have h : Answers s.dev (s.dev.updOut fun o => { o with pend := o.pend.filter fun x => !decide (x = p) }) :=
    ⟨rfl, rfl, rfl, rfl, rfl⟩
  h.trans (answers_complete _ _ _ _ _ _ _)

theorem answers_finishKind (s : State) (p : PendKind → Bool) (status : Nat) (result : Word) :
    Answers s.dev (s.finishKind p status result).dev := by
  unfold State.finishKind
  generalize s.dev.out.pend.filter (fun x => p x.kind) = l
  induction l generalizing s with
  | nil => exact .refl _
  | cons x r ih => exact (answers_finishPend s x status result).trans (ih (s.finishPend x status result))

/-! ## Replies (R370, R472) -/

theorem launchOf_endLaunch (s : State) (id st : Nat) (v : Word) : (s.endLaunch id st v).dev.launchOf id = none := by
  obtain ⟨-, -, hl, -, -⟩ := answers_finishKind
    { s with dev := s.dev.updOut fun o => { o with launches := mdel o.launches id } } (· == .launch id) st v
  unfold Device.launchOf State.endLaunch
  rw [hl]
  exact (mfind_mdel ..).trans (if_pos rfl)

/-- A reply's bytes reach no context and no memory of the device. -/
theorem replyBytes_spec (s : State) (x : Launch) (payload : List Byte) :
    ∃ o, s.replyBytes x payload = { s with dev := { s.dev with out := o } } := by
  unfold State.replyBytes
  split
  · exact cmdPut_host ..
  · exact ⟨s.dev.out, rfl⟩

theorem launchReply_refused {s : State} {id : Nat} {x : Launch} (payload : List Byte) (r : BitVec 16)
    (hx : s.dev.launchOf id = some x) (hg : x.gang = false) :
    Happens (.launchReplyReceive id payload true (some r)) s fun t => t.dev.launchOf id = none := by
  refine happens_event (t := if r = 15 then s.endLaunch id 15 0 else s.endLaunch id 8 (r.zeroExtend 64))
    (show exec (.launchReplyReceive id payload true (some r)) s = execLaunchReplyReceive id payload true (some r) s from rfl) ?_ ?_
  · simp [hx, hg, guardOpt]
  · dsimp only
    split <;> exact launchOf_endLaunch ..

theorem launchReply_final {s : State} {id : Nat} {x : Launch} (payload : List Byte)
    (hx : s.dev.launchOf id = some x) (hg : x.gang = false) :
    Happens (.launchReplyReceive id payload true none) s fun t => t.dev.launchOf id = none := by
  refine happens_event (t := (s.replyBytes x payload).endLaunch id 0 (word payload.length))
    (show exec (.launchReplyReceive id payload true none) s = execLaunchReplyReceive id payload true none s from rfl) ?_
    (launchOf_endLaunch ..)
  simp [hx, hg]

theorem launchReply_part {s : State} {id : Nat} {x : Launch} (payload : List Byte) (hx : s.dev.launchOf id = some x) :
    Happens (.launchReplyReceive id payload false none) s fun t => Apart s t ∧
      ∃ y, t.dev.launchOf id = some y ∧ y.bytes = x.bytes + payload.length := by
  obtain ⟨o, ho⟩ := replyBytes_spec s x payload
  let y : Launch := { x with bytes := x.bytes + payload.length, final := none }
  refine happens_event (t := { s.replyBytes x payload with dev := (s.replyBytes x payload).dev.setLaunch id y })
    (show exec (.launchReplyReceive id payload false none) s = execLaunchReplyReceive id payload false none s from rfl) ?_ ?_
  · simp [hx, y]
  · rw [ho]
    exact ⟨apart_of rfl rfl, y, mfind_mset_same .., rfl⟩

/-! ## Gangs (R371, R473) -/

theorem gangAckTimeout_happens {s : State} {id : Nat} {x : Launch} {e : (Nat × Nat) × Nat} (hx : s.dev.launchOf id = some x)
    (hg : x.gang = true) (he : x.members.zipIdx.find? (fun e => !x.acks.contains e.2) = some e)
    (hc : x.since + 36000 < s.dev.cycle) :
    Happens (.gangAckTimeout id) s fun t => t.dev.launchOf id = none := by
  refine happens_event
    (t := State.endLaunch { s with dev := s.dev.toMembers x fun a b => .gangAbort a b } id 8 (word e.1.1))
    (show exec (.gangAckTimeout id) s = execGangAckTimeout id s from rfl) ?_ (launchOf_endLaunch ..)
  have hd : x.since + cyclesUs 20 < s.dev.cycle := hc
  simp only [hx, Option.bind_eq_bind, Option.bind_some, he, hg, hd, guardOpt, decide_true, Bool.and_true, if_true]

theorem gangAckReceive_happens {s : State} {id base i : Nat} {x : Launch} {m : Nat × Nat}
    (hg : s.dev.gangOf id = some (base, x, i)) (hm : x.members[i]? = some m) (hc : s.dev.cycle ≤ x.since + 36000) :
    Happens (.gangAckReceive id m.1) s fun t => x.acks.contains i = false → x.acks.length + 1 < x.members.length →
      Apart s t ∧ t.dev.launchOf base = some { x with acks := i :: x.acks } := by
  have hd : s.dev.cycle ≤ x.since + cyclesUs 20 := hc
  unfold Happens
  show Completes (execGangAckReceive id m.1 s) _
  unfold execGangAckReceive
  simp only [hg, Option.bind_eq_bind, Option.bind_some, hm, hd, guardOpt, decide_true, Bool.and_true, beq_self_eq_true, if_true]
  refine completes_event rfl fun hi hl => ?_
  have hn : ¬ (i :: x.acks).length = x.members.length := by
    rw [List.length_cons]
    omega
  simp only [hi, Bool.false_eq_true, if_false, decide_eq_false hn]
  exact ⟨apart_of rfl rfl, mfind_mset_same ..⟩

/-! ### A member's held traffic -/

theorem emit_spec (d : Device) (blk : Option Nat) (x : PeerSend) :
    ∃ e o, d.emit blk x = { d with err := e, out := { d.out with outbox := o } } := by
  unfold Device.emit
  split
  · obtain ⟨e, h⟩ := post_spec d { cls := 6, agent := 0x0915, mctx := match blk with | some b => d.who b | none => none }
    exact ⟨e, d.out.outbox, h⟩
  · split <;> exact ⟨d.err, _, rfl⟩

theorem emits_spec (l : List PeerSend) (d : Device) (blk : Option Nat) :
    ∃ e o, l.foldl (fun x y => x.emit blk y) d = { d with err := e, out := { d.out with outbox := o } } := by
  induction l generalizing d with
  | nil => exact ⟨d.err, d.out.outbox, rfl⟩
  | cons x r ih =>
    obtain ⟨e, o, h⟩ := emit_spec d blk x
    obtain ⟨e', o', h'⟩ := ih (d.emit blk x)
    exact ⟨e', o', by rw [List.foldl_cons, h', h]⟩

/-- Devices from which the traffic of a block leaves alike. -/
def SendsAlike (b : Nat) (d e : Device) : Prop := e.out = d.out ∧ (e.block b).get fTenant = (d.block b).get fTenant

theorem sendsAlike_emit {b : Nat} {d e : Device} (h : SendsAlike b d e) (x : PeerSend) :
    SendsAlike b (d.emit (some b) x) (e.emit (some b) x) := by
  obtain ⟨ho, ht⟩ := h
  have hblk (y : Device) : ((y.emit (some b) x).block b).get fTenant = (y.block b).get fTenant := by
    obtain ⟨_, _, hy⟩ := emit_spec y (some b) x
    rw [hy]
    rfl
  have hpost (y : Device) : (y.undelivered (some b)).out = y.out := by
    obtain ⟨_, hy⟩ := post_spec y { cls := 6, agent := 0x0915, mctx := y.who b }
    show (y.post { cls := 6, agent := 0x0915, mctx := y.who b }).out = _
    rw [hy]
  refine ⟨?_, by rw [hblk, hblk, ht]⟩
  have hreach : e.reachable x.peer = d.reachable x.peer := by unfold Device.reachable; rw [ho]
  have hport (pa : Nat) : e.portTo x.peer pa = d.portTo x.peer pa := by unfold Device.portTo; rw [ho]
  have hsource : e.source (some b) = d.source (some b) := by unfold Device.source; dsimp only; rw [ho, ht]
  unfold Device.emit
  rw [hreach, ho]
  split
  · rw [hpost, hpost, ho]
  · simp only [hport, hsource, Device.send, Device.updOut]
    split <;> simp only [ho]

theorem emits_out (l : List PeerSend) {b : Nat} {d e : Device} (h : SendsAlike b d e) :
    (l.foldl (fun x y => x.emit (some b) y) e).out = (l.foldl (fun x y => x.emit (some b) y) d).out := by
  induction l generalizing d e with
  | nil => exact h.1
  | cons x r ih => exact ih (sendsAlike_emit h x)

/-- The head record of a block no longer a gang's. -/
def unganged (d : Device) (b : Nat) : Device :=
  d.updBlock b fun m => { m with recs := match m.recs with | r :: l => { r with gang := false } :: l | [] => [] }

theorem gangConfirm_exec {s : State} {blk : Nat} {g : GangHold} {P : State → Prop} (hg : s.dev.gangHold blk = some g)
    (h : P { s with dev := g.sends.foldl (fun x y => x.emit (some blk) y) (unganged (s.dev.endHold blk) blk), last := .done }) :
    Happens (.gangConfirmReceive blk) s P := by
  refine happens_dev (show exec (.gangConfirmReceive blk) s = execGangConfirmReceive blk s from rfl) ?_ h
  simp only [hg, Option.bind_eq_bind, Option.bind_some]
  rfl

theorem gangConfirm_bound {s : State} {blk : Nat} {k : Binding} {g : GangHold} (hk : s.dev.binding blk = some k)
    (hg : k.gang = some g) :
    Happens (.gangConfirmReceive blk) s fun t => Apart s t ∧ t.dev.binding blk = some { k with gang := none } ∧
      t.dev.out.outbox = (g.sends.foldl (fun x y => x.emit (some blk) y) s.dev).out.outbox := by
  have hold : s.dev.gangHold blk = some g := by
    unfold Device.gangHold
    rw [hk]
    exact hg
  have hend : s.dev.endHold blk = s.dev.setBinding blk { k with gang := none } := by
    unfold Device.endHold
    rw [hk]
  have hd : SendsAlike blk s.dev (unganged (s.dev.setBinding blk { k with gang := none }) blk) :=
    ⟨rfl, by unfold unganged; rw [Device.block_updBlock_same]; rfl⟩
  refine gangConfirm_exec hold ?_
  rw [hend]
  obtain ⟨e, o, h⟩ := emits_spec g.sends (unganged (s.dev.setBinding blk { k with gang := none }) blk) (some blk)
  refine ⟨apart_of (by rw [h]; rfl) (by rw [h]; rfl), ?_, congrArg Outside.outbox (emits_out g.sends hd)⟩
  dsimp only
  rw [h]
  exact Device.binding_setBinding_same _ _ _

theorem gangConfirm_saved {s : State} {blk : Nat} {v : Saved} {g : GangHold} (hb : s.dev.binding blk = none)
    (hv : (s.dev.block blk).saved = some v) (hg : v.group.gang = some g) :
    Happens (.gangConfirmReceive blk) s fun t => Apart s t ∧
      (t.dev.block blk).saved = some { v with group := { v.group with gang := none } } := by
  have hold : s.dev.gangHold blk = some g := by
    unfold Device.gangHold
    rw [hb]
    dsimp only
    rw [hv]
    exact hg
  refine gangConfirm_exec hold ?_
  obtain ⟨e, o, h⟩ := emits_spec g.sends (unganged (s.dev.endHold blk) blk) (some blk)
  have hend : s.dev.endHold blk = s.dev.updBlock blk fun m =>
      { m with saved := m.saved.map fun v => { v with group := { v.group with gang := none } } } := by
    unfold Device.endHold
    rw [hb]
  refine ⟨apart_of (by rw [h, hend]; rfl) (by rw [h, hend]; rfl), ?_⟩
  dsimp only
  rw [h]
  show ((unganged (s.dev.endHold blk) blk).block blk).saved = _
  unfold unganged
  rw [Device.block_updBlock_same, hend, Device.block_updBlock_same]
  dsimp only
  rw [hv]
  rfl

/-! ### A member's hold that ends (R473) -/

/-- Contexts, memory and bindings as they were. -/
def SameGroups (d e : Device) : Prop := e.ctxs = d.ctxs ∧ e.mem = d.mem ∧ e.tab.bindings = d.tab.bindings

theorem SameGroups.refl (d : Device) : SameGroups d d := ⟨rfl, rfl, rfl⟩

theorem SameGroups.trans {d e f : Device} (h : SameGroups d e) (g : SameGroups e f) : SameGroups d f :=
  ⟨g.1.trans h.1, g.2.1.trans h.2.1, g.2.2.trans h.2.2⟩

theorem sameGroups_popHead (d : Device) (b : Nat) : SameGroups d (d.popHead b) := ⟨rfl, rfl, rfl⟩

theorem sameGroups_skipAbandoned (d : Device) (b : Nat) : SameGroups d (d.skipAbandoned b) := by
  unfold Device.skipAbandoned
  induction (d.block b).recs.takeWhile (·.abandoned) generalizing d with
  | nil => exact .refl d
  | cons x r ih => exact (sameGroups_popHead d b).trans (ih (d.popHead b))

theorem sameGroups_settle (d : Device) (b : Nat) (susp : Bool) : SameGroups d (d.settle b susp) :=
  (sameGroups_skipAbandoned d b).trans ⟨rfl, rfl, rfl⟩

/-- Dropped launch packets change queues alone. -/
theorem dropLaunches_spec (q n : Nat) (d : Device) : ∃ o, Device.dropLaunches q n d = { d with out := o } := by
  induction n generalizing d with
  | zero => exact ⟨d.out, rfl⟩
  | succ n ih =>
    unfold Device.dropLaunches
    split
    · split
      · obtain ⟨o, h⟩ := ih (d.updHq q _)
        exact ⟨o, h⟩
      · exact ⟨d.out, rfl⟩
    · exact ⟨d.out, rfl⟩

theorem dropHeld_spec (d : Device) (b : Nat) : ∃ o, d.dropHeld b = { d with out := o } := by
  unfold Device.dropHeld
  induction d.waitingRings ((d.block b).get fTenant) generalizing d with
  | nil => exact ⟨d.out, rfl⟩
  | cons q r ih =>
    obtain ⟨o, h⟩ := dropLaunches_spec q 1024 d
    obtain ⟨o', h'⟩ := ih (Device.dropLaunches q 1024 d)
    exact ⟨o', by rw [List.foldl_cons, h', h]⟩

theorem sameGroups_dropHeld (d : Device) (b : Nat) : SameGroups d (d.dropHeld b) := by
  obtain ⟨o, h⟩ := dropHeld_spec d b
  rw [h]
  exact .refl d

theorem release_binding (d : Device) (b : Nat) : (d.release b).binding b = none := by
  unfold Device.release
  split
  · assumption
  · exact (mfind_mdel ..).trans (if_pos rfl)

/-- A task of a member whose launch is undone. -/
def gangTask (b origin : Nat) (x : Device) (a : Nat) : Device :=
  match (x.ctx a).task with
  | some t => if t.blk = b ∧ t.pin ≠ .firm then x.abortTask a cGANG (word origin) else x
  | none => x

theorem gangAbort_eq {d : Device} {b : Nat} (origin : Nat) {k : Binding} (hk : d.binding b = some k) :
    d.gangAbort b origin =
      (((k.agents.foldl (gangTask b origin) ((d.setBinding b { k with gang := none }).dropHeld b)).release b).popHead b).settle b
        false := by
  unfold Device.gangAbort
  simp only [hk]
  rfl

theorem gangTasks_idle {d : Device} (b origin : Nat) (l : List Nat) (h : ∀ a ∈ l, (d.ctx a).task = none) :
    l.foldl (gangTask b origin) d = d := by
  induction l with
  | nil => rfl
  | cons a r ih =>
    have ha : gangTask b origin d a = d := by
      unfold gangTask
      rw [h a List.mem_cons_self]
    rw [List.foldl_cons, ha]
    exact ih fun x hx => h x (List.mem_cons_of_mem _ hx)

/-- A member with no task whose launch is undone: its binding ends. -/
theorem gangAbort_idle {d : Device} {b origin : Nat} {k : Binding} (hk : d.binding b = some k)
    (hn : ∀ a ∈ k.agents, (d.ctx a).task = none) :
    (d.gangAbort b origin).binding b = none ∧ (d.gangAbort b origin).mem = d.mem := by
  obtain ⟨hctx, hm, -⟩ := sameGroups_dropHeld (d.setBinding b { k with gang := none }) b
  generalize hd1 : (d.setBinding b { k with gang := none }).dropHeld b = d1 at hctx hm
  have hc : ∀ a ∈ k.agents, (d1.ctx a).task = none := by
    unfold Device.ctx
    rw [hctx]
    exact hn
  rw [gangAbort_eq origin hk, hd1, gangTasks_idle b origin k.agents hc]
  obtain ⟨-, hmem, hbind⟩ := (sameGroups_popHead (d1.release b) b).trans (sameGroups_settle ((d1.release b).popHead b) b false)
  refine ⟨?_, ?_⟩
  · unfold Device.binding
    rw [hbind]
    exact release_binding d1 b
  · rw [hmem]
    exact (stored_release d1 b).1.trans hm

/-- What the timeout of a bound member's hold makes of the device, whatever its length. -/
theorem gangMember_next {d : Device} {blk : Nat} {g : GangHold} (n : Nat) (hold : d.gangHold blk = some g)
    (hs : (d.binding blk).isSome = true) (hc : g.since + n ≤ d.cycle) : (do
      let g ← d.gangHold blk
      let x ← if (d.binding blk).isSome then some (d.gangAbort blk g.origin) else d.dropGangRecord blk g.origin
      guardOpt (decide (g.since + n ≤ d.cycle)) x) = some (d.gangAbort blk g.origin) := by
  rw [hold]
  exact (if_pos hs).trans (if_pos (decide_eq_true hc))

theorem gangMemberTimeout_happens {s : State} {blk : Nat} {k : Binding} {g : GangHold} (hk : s.dev.binding blk = some k)
    (hg : k.gang = some g) (hc : g.since + 1800000 ≤ s.dev.cycle) :
    Happens (.gangMemberTimeout blk) s fun t =>
      (∀ a ∈ k.agents, (s.dev.ctx a).task = none) → t.dev.binding blk = none ∧ MemSame s t := by
  have hold : s.dev.gangHold blk = some g := by
    unfold Device.gangHold
    rw [hk]
    exact hg
  have hs : (s.dev.binding blk).isSome = true := by
    rw [hk]
    rfl
  refine happens_dev (show exec (.gangMemberTimeout blk) s = s.devEvent _ from rfl)
    (gangMember_next (cyclesMs 1) hold hs hc) fun hn => ?_
  obtain ⟨h1, h2⟩ := gangAbort_idle (origin := g.origin) hk hn
  exact ⟨h1, memSame_of h2⟩

theorem skipAbandoned_recs (d : Device) (b : Nat) {x : Rec} (h : x ∈ ((d.skipAbandoned b).block b).recs) :
    x ∈ (d.block b).recs := by
  unfold Device.skipAbandoned at h
  generalize (d.block b).recs.takeWhile (·.abandoned) = l at h
  induction l generalizing d with
  | nil => exact h
  | cons y r ih =>
    have hp := ih (d.popHead b) h
    unfold Device.popHead at hp
    rw [Device.block_updBlock_same] at hp
    split at hp
    · exact hp
    · next h' =>
      rw [h']
      exact List.mem_cons_of_mem _ hp

theorem recs_noteCandidates (d : Device) (n : Nat) : (d.noteCandidates.block n).recs = (d.block n).recs := by
  obtain ⟨c, r, h⟩ := noteCandidates_block d n
  rw [h]

theorem recs_setMstate (d : Device) (b st : Nat) : ((d.setMstate b st).block b).recs = (d.block b).recs := by
  unfold Device.setMstate
  rw [Device.block_updBlock_same]
  rfl

/-- A record that a queue not bound drops for a gang's abort is abandoned. -/
theorem dropGangRecord_spec {d : Device} {b origin : Nat} {r : Rec} (hs : d.mstate b ≠ sPreempted)
    (hr : (d.block b).recs.find? (fun r => r.gang && (match r.origin with | some o => o.1 == origin | none => false)) = some r) :
    ∃ e, d.dropGangRecord b origin = some e ∧ SameGroups d e ∧
      ∀ x ∈ (e.block b).recs, x.unit = r.unit → x.abandoned = true := by
  unfold Device.dropGangRecord
  extract_lets mine
  have hr' : (d.block b).recs.find? mine = some r := hr
  rw [hr']
  dsimp -zeta only
  extract_lets recs atHead d1 d2 d3
  rw [if_neg fun h => hs h.2]
  have h1 : SameGroups d d1 := by
    unfold d1
    split
    · exact sameGroups_dropHeld d b
    · exact .refl d
  have h3 : SameGroups d d3 := h1.trans (SameGroups.trans ⟨rfl, rfl, rfl⟩ (sameGroups_skipAbandoned d2 b))
  have hrecs : ∀ x ∈ (d3.block b).recs, x ∈ recs := by
    intro x hx
    have h := skipAbandoned_recs d2 b hx
    unfold d2 at h
    rwa [Device.block_updBlock_same] at h
  clear_value d3
  refine ⟨_, rfl, ?_, fun x hx hu => ?_⟩
  · split
    · exact h3.trans ⟨rfl, rfl, rfl⟩
    · exact h3.trans ⟨rfl, rfl, rfl⟩
  · have hx3 : x ∈ (d3.block b).recs := by
      rw [recs_noteCandidates] at hx
      split at hx
      · rwa [recs_setMstate] at hx
      · exact hx
    obtain ⟨y, -, hy⟩ := List.mem_map.mp (hrecs x hx3)
    split at hy
    · rw [← hy]
    · next hne =>
      rw [← hy] at hu
      exact absurd hu hne

theorem gangAbortReceive_happens {s : State} {blk origin : Nat} {r : Rec} (hb : s.dev.binding blk = none)
    (hs : s.dev.mstate blk ≠ sPreempted)
    (hr : (s.dev.block blk).recs.find? (fun r => r.gang && (match r.origin with | some o => o.1 == origin | none => false)) = some r) :
    Happens (.gangAbortReceive blk origin) s fun t => Apart s t ∧
      ∀ x ∈ (t.dev.block blk).recs, x.unit = r.unit → x.abandoned = true := by
  obtain ⟨e, he, ⟨hc, hm, -⟩, hx⟩ := dropGangRecord_spec hs hr
  refine happens_dev (d := e) (show exec (.gangAbortReceive blk origin) s = execGangAbortReceive blk origin s from rfl) ?_
    ⟨apart_of hc hm, hx⟩
  rw [hb]
  exact he

end Sys2Proof.Proofs

/-! PROOF. Launch packets as they arrive (O52; R347, R369, R370, R472). -/

namespace Sys2Proof.Proofs

open Sys2Proof Sys2Proof.Machine Sys2Proof.Safety Sys2Proof.Laws

theorem answers_queuePut (s : State) (b agent pa : Nat) (bs : List Byte) : Answers s.dev (s.queuePut b agent pa bs).dev := by
  obtain ⟨d, f, h, e⟩ := linePut_spec agent (some ((s.dev.block b).get fDkid)) (bs.length / 64 + 2) pa bs s
  unfold State.queuePut
  rw [e]
  exact answers_written h

theorem answers_queuePuts {α : Type} (b agent : Nat) (pa : α → Nat) (bytes : α → List Byte) (l : List α) (s : State) :
    Answers s.dev (l.foldl (fun t e => t.queuePut b agent (pa e) (bytes e)) s).dev := by
  induction l generalizing s with
  | nil => exact .refl _
  | cons x r ih => exact (answers_queuePut s b agent (pa x) (bytes x)).trans (ih (s.queuePut b agent (pa x) (bytes x)))

/-- Copies of changed records only leave. -/
theorem answers_copyChanges (before after : Device) : Answers after (before.copyChanges after) := by
  have step (d : Device) (e : Nat × Migration) : Answers d
      (if (before.block e.1).recs = (after.block e.1).recs then d else d.send (after.copyOf e.1 e.2.dev e.2.susp)) := by
    split <;> exact .refl d
  unfold Device.copyChanges
  suffices h : ∀ (l : Map Migration) (d : Device), Answers d (l.foldl (fun d e =>
      if (before.block e.1).recs = (after.block e.1).recs then d else d.send (after.copyOf e.1 e.2.dev e.2.susp)) d) from h _ _
  intro l
  induction l with
  | nil => exact fun d => .refl d
  | cons e r ih => exact fun d => (step d e).trans (ih _)

/-- A record appended to a block's queue stands last in it (R327). -/
theorem appendRec_spec (s : State) (b : Nat) (r : Rec) :
    (s.appendRec b r).dev.ctxs = s.dev.ctxs ∧ ∃ r1 : Rec, ((s.appendRec b r).dev.block b).recs = (s.dev.block b).recs ++ [r1] ∧
      r1.done = r.done ∧ r1.origin = r.origin ∧ r1.gang = r.gang := by
  unfold State.appendRec
  dsimp -zeta only [State.draw]
  extract_lets m unit st r1 src s2 s3 d
  obtain ⟨hc, hb, -, -, -⟩ : Answers s2.dev s3.dev := answers_queuePut s2 ..
  clear_value s3
  have hd : d.ctxs = s.dev.ctxs := hc
  have hrecs : (d.block b).recs = (s.dev.block b).recs ++ [r1] := by
    unfold d
    rw [Device.block_updBlock_same]
    show (s3.dev.block b).recs ++ [r1] = _
    unfold Device.block
    rw [hb]
  clear_value d
  refine ⟨?_, r1, ?_, rfl, rfl, rfl⟩
  · show Device.ctxs (if _ then _ else _ : Device).noteCandidates = _
    split <;> exact hd
  · rw [recs_noteCandidates]
    split
    · rw [recs_setMstate]
      exact hrecs
    · exact hrecs

/-- A launched request stands last in its block's queue, done (R370). -/
theorem appendLaunch_spec (s : State) (b : Nat) (l : LaunchPacket) :
    (s.appendLaunch b l).dev.ctxs = s.dev.ctxs ∧ ∃ r : Rec, ((s.appendLaunch b l).dev.block b).recs = (s.dev.block b).recs ++ [r] ∧
      r.done = true ∧ r.origin = some (l.sdev.toNat, l.id) ∧ r.gang = l.gang := by
  unfold State.appendLaunch
  dsimp -zeta only [State.draw]
  extract_lets m r s2 first s3 d
  obtain ⟨hc2, r1, hr1, hd, ho, hg⟩ := appendRec_spec { s with free := s.free + 1 } b r
  have hq : Answers s2.dev s3.dev := answers_queuePuts b agHarbour (fun e : List Byte × Nat => m.unitPa (first + e.2))
    (fun e => e.1) _ s2
  have h3 : Answers s3.dev d := ⟨rfl, rfl, rfl, rfl, rfl⟩
  obtain ⟨hc, hb, -, -, -⟩ := (hq.trans h3).trans (answers_copyChanges s.dev d)
  refine ⟨hc.trans hc2, r1, ?_, hd, ho, hg⟩
  dsimp only
  unfold Device.block
  rw [hb]
  exact hr1

/-- A launch packet changes no context. -/
theorem takeLaunch_ctxs (s t : State) (l : LaunchPacket) (h : s.takeLaunch l = .taken t ∨ s.takeLaunch l = .sent t) :
    t.dev.ctxs = s.dev.ctxs := by
  unfold State.takeLaunch at h
  dsimp only at h
  split at h
  · split at h
    · rcases h with h | h
      · cases h
        exact (appendLaunch_spec s l.blk l).1
      · cases h
    · rcases h with h | h <;> cases h
  · split at h
    · split at h
      · rcases h with h | h <;> cases h
        rfl
      · rcases h with h | h <;> cases h
    · rcases h with h | h <;> cases h

theorem launchArrives_ctxs (s : State) (l : LaunchPacket) : (s.launchArrives l).dev.ctxs = s.dev.ctxs := by
  unfold State.launchArrives
  dsimp only
  split
  · obtain ⟨e, h⟩ := postDev_spec s.dev 4 0 0x0915 (word l.sdev.toNat)
    show (s.dev.postDev 4 0 0x0915 (word l.sdev.toNat)).ctxs = _
    rw [h]
  · split
    · next t h => exact takeLaunch_ctxs s t l (.inl h)
    · next t h => exact takeLaunch_ctxs s t l (.inr h)
    · rfl
    · rfl

theorem launchArrives_denied {s : State} {l : LaunchPacket} (h : s.dev.mayLaunch l.sdev.toNat l.ten.toNat l.blk = false) :
    ∃ e, s.launchArrives l =
      { s with dev := ({ s.dev with err := e } : Device).send (.launchFail l.sdev.toNat l.id 0xFFFF) } := by
  obtain ⟨e, he⟩ := postDev_spec s.dev 4 0 0x0915 (word l.sdev.toNat)
  refine ⟨e, ?_⟩
  unfold State.launchArrives Device.denied
  dsimp only
  rw [if_pos (by rw [h]; rfl), he]
  rfl

theorem launchArrives_taken {s : State} {l : LaunchPacket} (h : s.dev.mayLaunch l.sdev.toNat l.ten.toNat l.blk = true)
    (hb : l.blk < 32768) (hf : s.dev.mstate l.blk ≠ sFree) (hg : (s.dev.block l.blk).get fGen = l.gen.toNat)
    (ha : s.dev.appendStatus l.blk (unitsOf l.payload.length) = 0) : s.launchArrives l = s.appendLaunch l.blk l := by
  have ht : s.takeLaunch l = .taken (s.appendLaunch l.blk l) := by
    unfold State.takeLaunch
    dsimp only
    rw [if_pos ⟨hb, hf, hg⟩, ha]
    rfl
  unfold State.launchArrives
  dsimp only
  rw [if_neg (by rw [h]; decide), ht]

theorem launchPacketReceive_happens (s : State) (l : LaunchPacket) :
    Happens (.launchPacketReceive l) s fun t => t.dev.ctxs = s.dev.ctxs ∧
      (s.dev.mayLaunch l.sdev.toNat l.ten.toNat l.blk = false →
        Apart s t ∧ t.dev.out.outbox = s.dev.out.outbox ++ [.launchFail l.sdev.toNat l.id 0xFFFF]) ∧
      (s.dev.mayLaunch l.sdev.toNat l.ten.toNat l.blk = true → l.blk < 32768 → s.dev.mstate l.blk ≠ sFree →
        (s.dev.block l.blk).get fGen = l.gen.toNat → s.dev.appendStatus l.blk (unitsOf l.payload.length) = 0 →
        ∃ r : Rec, (t.dev.block l.blk).recs = (s.dev.block l.blk).recs ++ [r] ∧ r.done = true ∧
          r.origin = some (l.sdev.toNat, l.id) ∧ r.gang = l.gang) := by
  refine happens_event (show exec (.launchPacketReceive l) s = s.event _ from rfl) rfl
    ⟨launchArrives_ctxs s l, fun h => ?_, fun h hb hf hg ha => ?_⟩
  · obtain ⟨e, he⟩ := launchArrives_denied h
    rw [he]
    exact ⟨apart_of rfl rfl, rfl⟩
  · rw [launchArrives_taken h hb hf hg ha]
    exact (appendLaunch_spec s l.blk l).2

end Sys2Proof.Proofs

/-! PROOF. Migration and buoys (O52; R346, R347, R465), and the obligation. -/

namespace Sys2Proof.Proofs

open Sys2Proof Sys2Proof.Machine Sys2Proof.Safety Sys2Proof.Laws

/-! ## Blocks that become FREE (R37, R85) -/

theorem answers_quarantine (d : Device) (page fs : Word) : Answers d (d.quarantine page fs) := by
  rcases Nat.lt_or_ge d.mm.ring.length 16384 with h | h
  · obtain ⟨w, hw⟩ := quarantine_room d page fs h
    obtain ⟨m, l, hr⟩ := ringWrite_spec d page (word (max fs.toNat d.mm.lastAck))
    rw [hw, hr]
    exact .refl d
  · obtain ⟨e, he⟩ := quarantine_full d page fs h
    rw [he]
    exact .refl d

theorem answers_purge (d : Device) : Answers d d.purge := by
  unfold Device.purge
  generalize d.tab.copies.filter (fun e => e.2.maps.isEmpty) = dead
  have h (x : Device) : Answers x (dead.foldl (fun x e =>
      (x.unplaced (e.1 * 65536) (2 ^ winShift e.2.sz)).quarantine (word (e.1 * 65536 + e.2.sz.toNat)) 0) x) := by
    induction dead generalizing x with
    | nil => exact .refl x
    | cons e r ih =>
      have hu : Answers x (x.unplaced (e.1 * 65536) (2 ^ winShift e.2.sz)) := .refl x
      exact (hu.trans (answers_quarantine _ _ _)).trans (ih _)
  exact Answers.trans (.refl d) (h _)

/-- With no shared page placed, nothing is purged. -/
theorem purge_mem {d : Device} (h : d.tab.copies = []) : d.purge.mem = d.mem := by
  unfold Device.purge
  rw [h]
  rfl

/-- A block FREE: no context has changed, nor memory where no shared page is placed. -/
theorem freeBlock_spec (d : Device) (b : Nat) :
    (d.freeBlock b).mstate b = sFree ∧ (d.freeBlock b).ctxs = d.ctxs ∧
      (d.tab.copies = [] → (d.freeBlock b).mem = d.mem) := by
  unfold Device.freeBlock
  extract_lets d1 d2
  let x : Device := ({ d1 with flash := d1.flash.forget b } : Device).unmap fun x => x.1 == b
  obtain ⟨hc, hb, -, -, -⟩ : Answers x d2 := answers_purge x
  refine ⟨?_, hc, fun h => ?_⟩
  · rw [mstate_noteCandidates]
    unfold Device.mstate Device.block
    rw [hb]
    exact mstate_setMstate _ b sFree (by decide)
  · have hx : x.tab.copies = [] := by
      show d.tab.copies.map _ = []
      rw [h]
      rfl
    exact purge_mem hx

/-! ## The source (R346, R347, R465) -/

theorem migration_state {d : Device} {b : Nat} {g : Migration} (h : d.migration b = some g) : mfind d.out.migs b = some g := by
  unfold Device.migration at h
  split at h
  · exact h
  · contradiction

/-- The messages for held shoot-downs change neither blocks nor buoys. -/
theorem forwardShoots_answers (d : Device) (b dev dst : Nat) : Answers d (d.forwardShoots b dev dst) := by
  unfold Device.forwardShoots
  extract_lets sent mark
  generalize d.out.pend.filterMap (fun p => sent p.kind) = l
  have h (x : Device) : Answers x (l.foldl Device.send x) := by
    induction l generalizing x with
    | nil => exact .refl x
    | cons o r ih => exact ih (x.send o)
  exact Answers.trans (.refl d) (h _)

theorem migrationCutover_happens {s : State} {blk : Nat} {g : Migration} (dst : Nat) (hg : s.dev.migration blk = some g) :
    Happens (.migrationCutover blk dst) s fun t => t.dev.mstate blk = sFree ∧
      ∃ u, mfind t.dev.out.buoys (blk * 256 + (s.dev.block blk).get fGen) = some u ∧ u.dev = g.dev ∧ u.blk = dst ∧
        u.since = s.dev.cycle ∧ u.pages = s.dev.ownPages blk := by
  let u : Buoy := { dev := g.dev, blk := dst, since := s.dev.cycle, pages := s.dev.ownPages blk,
                    pair := hashKey ((s.dev.block blk).get fRkid) ((s.dev.block blk).get fFnid) }
  let d0 : Device := ((s.dev.endMigration blk).dropPairs blk).freeBlock blk
  let d1 : Device := d0.updOut fun o => { o with buoys := mset o.buoys (blk * 256 + (s.dev.block blk).get fGen) u }
  let d2 : Device := (d1.send (.migrateConfirm g.dev dst)).forwardShoots blk g.dev dst
  refine happens_event (t := State.finishKind { s with dev := d2 } (· == .migrate blk) 0 0)
    (show exec (.migrationCutover blk dst) s = s.event _ from rfl) (by rw [hg]; rfl) ?_
  have h2 : Answers (d1.send (.migrateConfirm g.dev dst)) d2 := forwardShoots_answers ..
  obtain ⟨-, hb, -, -, hu⟩ := h2.trans (answers_finishKind { s with dev := d2 } (· == .migrate blk) 0 0)
  refine ⟨?_, u, ?_, rfl, rfl, rfl, rfl⟩
  · unfold Device.mstate Device.block
    rw [hb]
    exact (freeBlock_spec _ blk).1
  · rw [hu]
    exact mfind_mset_same ..

theorem migration_abortMigration (s : State) (b : Nat) (g : Migration) : (s.abortMigration b g).dev.migration b = none := by
  unfold State.abortMigration
  extract_lets done st d
  obtain ⟨-, -, -, hm, -⟩ := answers_finishKind { s with dev := d } (· == .migrate b) 10 0
  unfold Device.migration
  rw [hm]
  have hd : mfind d.out.migs b = none := (mfind_mdel ..).trans (if_pos rfl)
  split
  · exact hd
  · rfl

theorem migrationAbort_happens {s : State} {blk : Nat} {g : Migration} (hg : s.dev.migration blk = some g) :
    Happens (.migrationAbort blk) s fun t => t.dev.migration blk = none :=
  happens_event (show exec (.migrationAbort blk) s = s.event _ from rfl) (by rw [hg]; rfl) (migration_abortMigration s blk g)

/-- What a timeout of the acknowledgement does, whatever its lengths. -/
theorem migrationAckTimeout_next {s : State} {blk : Nat} {g : Migration} (hg : s.dev.migration blk = some g) (n m : Nat) : (do
      let g ← s.dev.migration blk
      if g.since + n ≤ s.dev.cycle then some (s.abortMigration blk g)
      else guardOpt (decide (g.asked.getD g.since + m ≤ s.dev.cycle)) { s with dev := s.dev.queryCopy blk g }) =
    if g.since + n ≤ s.dev.cycle then some (s.abortMigration blk g)
    else guardOpt (decide (g.asked.getD g.since + m ≤ s.dev.cycle)) { s with dev := s.dev.queryCopy blk g } := by
  rw [hg]
  rfl

theorem migrationAckTimeout_aborts {s : State} {blk : Nat} {g : Migration} (hg : s.dev.migration blk = some g)
    (hc : g.since + 18000000000 ≤ s.dev.cycle) :
    Happens (.migrationAckTimeout blk) s fun t => t.dev.migration blk = none :=
  happens_event (t := s.abortMigration blk g) (show exec (.migrationAckTimeout blk) s = s.event _ from rfl)
    ((migrationAckTimeout_next hg (cyclesMs 10000) (cyclesMs 100)).trans (if_pos hc)) (migration_abortMigration s blk g)

theorem migrationAckTimeout_queries {s : State} {blk : Nat} {g : Migration} (hg : s.dev.migration blk = some g)
    (hc : s.dev.cycle < g.since + 18000000000) (ha : g.asked.getD g.since + 180000000 ≤ s.dev.cycle) :
    Becomes (.migrationAckTimeout blk) s (s.dev.queryCopy blk g) := by
  have hn : ¬ g.since + cyclesMs 10000 ≤ s.dev.cycle := Nat.not_le.mpr hc
  have e := (migrationAckTimeout_next hg (cyclesMs 10000) (cyclesMs 100)).trans
    ((if_neg hn).trans (if_pos (decide_eq_true ha)))
  unfold Becomes
  rw [show exec (.migrationAckTimeout blk) s = s.event _ from rfl, e]
  rfl

theorem buoyExpiry_happens {s : State} {blk : Nat} {e : Nat × Buoy} (he : e ∈ s.dev.out.buoys) (hb : e.1 / 256 = blk)
    (hc : e.2.since + 180000000 ≤ s.dev.cycle) :
    Happens (.buoyExpiry blk) s fun t => e ∉ t.dev.out.buoys ∧ Apart s t := by
  let old (e : Nat × Buoy) : Bool := e.1 / 256 == blk && decide (e.2.since + cyclesMs 100 ≤ s.dev.cycle)
  have hold : old e = true := by
    unfold old
    rw [hb, decide_eq_true (show e.2.since + cyclesMs 100 ≤ s.dev.cycle from hc), beq_self_eq_true]
    rfl
  refine happens_guard_dev (d := s.dev.updOut fun o => { o with buoys := o.buoys.filter fun e => !old e })
    (show exec (.buoyExpiry blk) s = s.devEvent _ from rfl) (List.any_eq_true.mpr ⟨e, he, hold⟩) ⟨fun h => ?_, apart_of rfl rfl⟩
  have hf := (List.mem_filter.mp h).2
  rw [hold] at hf
  exact Bool.false_ne_true hf

/-! ## The destination (R346, R465) -/

/-- Contexts, messages and the cycle as they were. -/
def Lays (d e : Device) : Prop := e.ctxs = d.ctxs ∧ e.out = d.out ∧ e.cycle = d.cycle

theorem Lays.refl (d : Device) : Lays d d := ⟨rfl, rfl, rfl⟩

theorem Lays.trans {d e f : Device} (h : Lays d e) (g : Lays e f) : Lays d f :=
  ⟨g.1.trans h.1, g.2.1.trans h.2.1, g.2.2.trans h.2.2⟩

theorem Lays.foldl {α : Type} (f : State → α → State) (h : ∀ s x, Lays s.dev (f s x).dev) (l : List α) (s : State) :
    Lays s.dev (l.foldl f s).dev := by
  induction l generalizing s with
  | nil => exact .refl _
  | cons x r ih => exact (h s x).trans (ih (f s x))

theorem lays_agentPut (s : State) (agent pa : Nat) (bs : List Byte) : Lays s.dev (s.agentPut agent pa bs).dev := by
  obtain ⟨d, f, h, e⟩ := agentPut_spec s agent pa bs
  obtain ⟨_, _, _, _, _, _, _, _, rfl, _⟩ := h
  rw [e]
  exact .refl _

theorem lays_updSnaps (b : Nat) (l : List (BitVec 128 × Nat)) (d : Device) :
    Lays d (l.foldl (fun x e => x.updSnap b (e.2 + 1) fun _ => snapOf e.1) d) := by
  induction l generalizing d with
  | nil => exact .refl d
  | cons x r ih => exact ih (d.updSnap b (x.2 + 1) fun _ => snapOf x.1)

theorem lays_layCopy (s : State) (m : MigrationCopy) : Lays s.dev (s.layCopy m).dev := by
  unfold State.layCopy
  extract_lets stale s1 words d0 d
  have h1 : Lays s.dev s1.dev := .foldl _ (fun t (e : Nat × Byte) => lays_agentPut t 0x0915 e.1 [e.2]) _ s
  have h2 : Lays s1.dev d := by
    unfold d
    split <;> exact .refl s1.dev
  clear_value s1 d
  exact (h1.trans h2).trans (lays_updSnaps m.blk m.snaps.zipIdx d)

/-- A whole copy waits for its confirmation, and its acknowledgement leaves. -/
theorem wholeCopy_spec (s : State) (m : MigrationCopy) :
    (s.wholeCopy m).dev.ctxs = s.dev.ctxs ∧ ((s.wholeCopy m).dev.block m.blk).unconfirmed = some s.dev.cycle ∧
      (s.wholeCopy m).dev.out.outbox = s.dev.out.outbox ++ [.migrateAck m.sdev.toNat m.srcBlk] := by
  unfold State.wholeCopy
  dsimp -zeta only [State.draw]
  extract_lets d k recs area saved asked st d1 d2
  clear_value k recs area saved asked st
  have hk : (d2.block m.blk).unconfirmed = some s.dev.cycle := by
    show (d1.block m.blk).unconfirmed = _
    unfold d1 Device.setMstate
    rw [Device.block_updBlock_same, Device.block_updBlock_same]
    rfl
  have hd : d2.ctxs = s.dev.ctxs ∧ d2.out = s.dev.out := ⟨rfl, rfl⟩
  clear_value d2
  refine ⟨hd.1, ?_, congrArg (fun o => o.outbox ++ _) hd.2⟩
  obtain ⟨c, r, h⟩ := noteCandidates_block (d2.send (.migrateAck m.sdev.toNat m.srcBlk)) m.blk
  dsimp only
  rw [h]
  exact hk

theorem migrationCopyReceive_happens {s : State} {m : MigrationCopy} (hb : m.blk < 32768) (ht : s.dev.takesCopy m.blk = true)
    (hl : ∀ e ∈ m.bytes, isLocal e.1 = true) (hr : ∀ r ∈ m.cover, isLocal r.1 = true ∧ isLocal (r.1 + r.2) = true) :
    Happens (.migrationCopyReceive m) s fun t => t.dev.ctxs = s.dev.ctxs ∧ (m.last = true →
      (t.dev.block m.blk).unconfirmed = some s.dev.cycle ∧
        t.dev.out.outbox = s.dev.out.outbox ++ [.migrateAck m.sdev.toNat m.srcBlk]) := by
  obtain ⟨hctx, hout, hcyc⟩ := lays_layCopy s m
  obtain ⟨wctx, wunc, wout⟩ := wholeCopy_spec (s.layCopy m) m
  have hg : (decide (m.blk < 32768) && s.dev.takesCopy m.blk && (m.bytes.all fun e => isLocal e.1) &&
      m.cover.all fun r => isLocal r.1 && isLocal (r.1 + r.2)) = true := by
    rw [decide_eq_true hb, ht, List.all_eq_true.mpr hl, List.all_eq_true.mpr fun r h => by rw [(hr r h).1, (hr r h).2]; rfl]
    rfl
  refine happens_guard (show exec (.migrationCopyReceive m) s = s.event _ from rfl) hg ?_
  cases m.last with
  | true => exact ⟨wctx.trans hctx, fun _ => ⟨wunc.trans (congrArg some hcyc), wout.trans (by rw [hout])⟩⟩
  | false => exact ⟨hctx, nofun⟩

theorem cutoverConfirm_happens {s : State} {blk t0 : Nat} (h : (s.dev.block blk).unconfirmed = some t0) :
    Happens (.cutoverConfirmReceive blk) s fun t => (t.dev.block blk).unconfirmed = none ∧ Apart s t := by
  refine happens_dev (d := (s.dev.updBlock blk fun m => { m with unconfirmed := none, copyFrom := none }).noteCandidates)
    (show exec (.cutoverConfirmReceive blk) s = s.devEvent _ from rfl) (by rw [h]; rfl) ⟨?_, apart_of rfl rfl⟩
  obtain ⟨c, r, hn⟩ := noteCandidates_block (s.dev.updBlock blk fun m => { m with unconfirmed := none, copyFrom := none }) blk
  dsimp only
  rw [hn, Device.block_updBlock_same]

/-- What a copy that was never confirmed does, whatever the time it has. -/
theorem unconfirmedCopyDrop_next {d : Device} {blk t0 : Nat} (h : (d.block blk).unconfirmed = some t0) (n : Nat) : (do
      let t ← (d.block blk).unconfirmed
      guardOpt (decide (t + n ≤ d.cycle)) ((d.freeBlock blk).dropPairs blk)) =
    guardOpt (decide (t0 + n ≤ d.cycle)) ((d.freeBlock blk).dropPairs blk) := by
  rw [h]
  rfl

theorem unconfirmedCopyDrop_happens {s : State} {blk t0 : Nat} (h : (s.dev.block blk).unconfirmed = some t0)
    (hc : t0 + 18000000000 ≤ s.dev.cycle) :
    Happens (.unconfirmedCopyDrop blk) s fun t => t.dev.mstate blk = sFree ∧ t.dev.ctxs = s.dev.ctxs ∧
      (s.dev.tab.copies = [] → MemSame s t) := by
  obtain ⟨hfree, hctx, hmem⟩ := freeBlock_spec s.dev blk
  exact happens_dev (show exec (.unconfirmedCopyDrop blk) s = s.devEvent _ from rfl)
    ((unconfirmedCopyDrop_next h (cyclesMs 10000)).trans (if_pos (decide_eq_true hc)))
    ⟨hfree, hctx, fun hn => memSame_of (hmem hn)⟩

/-! ## The obligation -/

theorem remoteAccessReceive_happens {s : State} {r : RemoteAccess} (hp : r.port < 24) (hu : s.dev.out.linkUp.getLsbD r.port = true)
    {P : State → Prop} (h : P { s.remote r with last := .done }) : Happens (.remoteAccessReceive r) s P :=
  happens_guard (show exec (.remoteAccessReceive r) s = s.event _ from rfl) (link_guard hp hu) h

theorem remoteAccessTimeout_becomes {s : State} {agent : Nat} {k : Task} (hk : (s.dev.ctx agent).task = some k) :
    Becomes (.remoteAccessTimeout agent) s ((s.dev.postBlock 6 0 k.blk agent cPOISON 0).abortOr agent cPOISON 0) :=
  becomes_dev (show exec (.remoteAccessTimeout agent) s = s.devEvent _ from rfl) (by rw [hk])

/-- Settles O52: each event by the lemma that says what it makes of the device. -/
theorem fabricAndMigrationEventsHappen : Obligations.FabricAndMigrationEventsHappen := by
  intro s blk id port d
  refine ⟨?_, ?_, ?_, ?_, ?_, ?_, ?_, ?_, ?_, ?_, ?_, ?_, ?_, ?_, ?_⟩
  · exact deviceNumbering_happens s
  · exact linkTraining_happens s port
  · exact fun hp hu => ⟨flitError_retries s port hp hu, flitError_down s port hp hu, linkDown_happens s port hp hu⟩
  · intro r hp hu
    refine remoteAccessReceive_happens hp hu ⟨remote_ctxs s r, fun n hk => memSame_of (remote_load_clause hk).1, ?_⟩
    · intro answered refused
      refine ⟨fun n hk => ?_, fun n op v w hk => ?_, fun ops hk => ?_⟩
      · obtain ⟨hmem, hdenied, hserved⟩ := remote_load_clause (s := s) hk
        exact ⟨fun hn => ⟨hdenied hn, memSame_of hmem⟩, hserved⟩
      · obtain ⟨hdenied, hserved⟩ := remote_atomic_clause (s := s) hk
        refine ⟨fun hn => ⟨(hdenied hn).1, memSame_of (hdenied hn).2⟩, fun kid hn => ⟨fun hp => ?_, fun hp => ?_⟩⟩
        · obtain ⟨hout, hmem⟩ := (hserved kid hn).1 hp
          exact ⟨hout, memSame_of hmem⟩
        · obtain ⟨htable, hcount⟩ := (hserved kid hn).2 hp
          refine ⟨fun ho => ?_, hcount⟩
          obtain ⟨hout, hwritten, hkept⟩ := htable ho
          exact ⟨hout, hwritten, fun h => memSame_of (hkept h)⟩
      · obtain ⟨hdenied, hserved⟩ := remote_publish_clause (s := s) hk
        refine ⟨fun hn => ⟨(hdenied hn).1, memSame_of (hdenied hn).2⟩, fun l hl => ?_⟩
        obtain ⟨hhere, haway⟩ := hserved l hl
        refine ⟨hhere, fun dev hne hb hr => ?_⟩
        obtain ⟨hout, hmem⟩ := haway dev hne hb hr
        exact ⟨hout, memSame_of hmem⟩
  · exact fun agent k hk => remoteAccessTimeout_becomes hk
  · exact launchPacketReceive_happens s
  · exact fun x payload hx => ⟨fun hg => ⟨fun r => launchReply_refused payload r hx hg, launchReply_final payload hx hg⟩,
      launchReply_part payload hx, fun e hg he hc => gangAckTimeout_happens hx hg he hc⟩
  · exact fun base x i m hg hm hc => gangAckReceive_happens hg hm hc
  · exact fun k g hk hg => ⟨gangConfirm_bound hk hg, gangMemberTimeout_happens hk hg⟩
  · exact fun v g hb hv hg => gangConfirm_saved hb hv hg
  · exact fun r origin hb hs hr => gangAbortReceive_happens hb hs hr
  · exact fun g hg => ⟨fun dst => migrationCutover_happens dst hg, migrationAbort_happens hg, migrationAckTimeout_aborts hg,
      migrationAckTimeout_queries hg⟩
  · exact fun e he hb hc => buoyExpiry_happens he hb hc
  · exact fun m hb ht hl hr => migrationCopyReceive_happens hb ht hl hr
  · exact fun t0 h => ⟨cutoverConfirm_happens h, unconfirmedCopyDrop_happens h⟩

end Sys2Proof.Proofs

/-! PROOF. Translation, `TRANS`, `PREF`, `FENCE` and the scratchpad (O13, O18, O19; R74 to R76, R91 to R96, R246, R250 to R252,
R443). -/

namespace Sys2Proof.Proofs

open Sys2Proof Sys2Proof.Machine Sys2Proof.Safety Sys2Proof.Laws

/-! ## What the window says of an access (R91, R92, R96, R443) -/

section
variable {win : List WinEnt} {acc : Acc} {va : Word} {e : WinEnt} (fuel n : Nat)

theorem translateIn_nomap (h : findEnt win va = none) : translateIn win acc (fuel + 1) va n = .error (cNOMAP, va) := by
  rw [translateIn, h]

theorem translateIn_absent (h : findEnt win va = some e) (ha : e.ab = true) :
    translateIn win acc (fuel + 1) va n = .error (cABSENT, va) := by
  rw [translateIn, h]
  exact if_pos ha

theorem translateIn_rights (h : findEnt win va = some e) (ha : e.ab = false) (hr : e.allows acc = false) :
    translateIn win acc (fuel + 1) va n = .error (cRIGHTS, va) := by
  rw [translateIn, h]
  simp [ha, hr]

theorem translateIn_within (h : findEnt win va = some e) (ha : e.ab = false) (hr : e.allows acc = true)
    (hn : va.toNat % 2 ^ winShift e.sz + n ≤ 2 ^ winShift e.sz) :
    translateIn win acc (fuel + 1) va n = .ok [⟨va, e.pa va, n, e.kind, e.kid.toNat⟩] := by
  have room : n ≤ 2 ^ winShift e.sz - va.toNat % 2 ^ winShift e.sz := Nat.le_sub_of_add_le' hn
  rw [translateIn, h]
  simp [ha, hr, room]

end

/-- Settles O13: the entry of the lowest byte decides. -/
theorem translationChecks : Obligations.TranslationChecks := by
  intro s va n acc _ win
  refine ⟨fun h => ?_, fun e h => ⟨fun ha => ?_, fun ha hr => ?_, fun ha hr hn => ?_⟩⟩
  · rw [State.translate, translateIn_nomap _ _ h]
    rfl
  · rw [State.translate, translateIn_absent _ _ h ha]
    rfl
  · rw [State.translate, translateIn_rights _ _ h ha hr]
    rfl
  · rw [State.translate, translateIn_within _ _ h ha hr hn]
    rfl

/-! ## The fields of what `TRANS` writes (R94) -/

theorem toNat_extract (v : Word) (lo n : Nat) : (v.extractLsb' lo n).toNat = v.toNat / 2 ^ lo % 2 ^ n := by
  rw [BitVec.extractLsb'_toNat, Nat.shiftRight_eq_div_pow]

theorem getLsbD_of_extract {v : Word} {i : Nat} {b : Bool} (h : (v.extractLsb' i 1).toNat = b2n b) : v.getLsbD i = b := by
  rw [toNat_extract] at h
  rw [BitVec.getLsbD, Nat.testBit_eq_decide_div_mod_eq]
  cases b <;> simp_all [b2n]

/-- The seven fields of the result of `TRANS` stand side by side. -/
theorem trans_fields {sz slot pch line : Nat} {o w r : Bool} (hs : sz < 4) (ho : slot < 16) (hp : pch < 512) (hl : line < 2 ^ 46) :
    let v : Word := word (sz * 2 ^ 62 + slot * 2 ^ 58 + pch * 2 ^ 49 + b2n o * 2 ^ 48 + b2n w * 2 ^ 47 + b2n r * 2 ^ 46 + line)
    (v.extractLsb' 62 2).toNat = sz ∧ (v.extractLsb' 58 4).toNat = slot ∧ (v.extractLsb' 49 9).toNat = pch ∧
      (v.extractLsb' 48 1).toNat = b2n o ∧ (v.extractLsb' 47 1).toNat = b2n w ∧ (v.extractLsb' 46 1).toNat = b2n r ∧
      (v.extractLsb' 0 46).toNat = line ∧ (v.extractLsb' 48 14).toNat = slot * 2 ^ 10 + pch * 2 + b2n o := by
  have one (b : Bool) : b2n b < 2 := by cases b <;> decide
  have h1 := one o
  have h2 := one w
  have h3 := one r
  generalize b2n o = o at *
  generalize b2n w = w at *
  generalize b2n r = r at *
  intro v
  have hv : v.toNat = sz * 2 ^ 62 + slot * 2 ^ 58 + pch * 2 ^ 49 + o * 2 ^ 48 + w * 2 ^ 47 + r * 2 ^ 46 + line := by
    simp only [v, word]
    rw [BitVec.toNat_ofNat, Nat.mod_eq_of_lt (by omega)]
  simp only [toNat_extract, hv]
  refine ⟨?_, ?_, ?_, ?_, ?_, ?_, ?_, ?_⟩ <;> omega

theorem ownedSlot_none {plan : Map (BitVec 16)} {c core : Nat} (h : ∀ j, j < 16 → entryOwns (planEntry plan c j) core = false) :
    ownedSlot plan c core = none := by
  unfold ownedSlot slotsOf
  rw [List.head?_filter, List.find?_eq_none]
  intro j hj
  simp [h j (List.mem_range.mp hj)]

theorem ownedSlot_lowest {plan : Map (BitVec 16)} {c core j : Nat} (hj : j < 16) (h : entryOwns (planEntry plan c j) core = true)
    (hlow : ∀ i, i < j → entryOwns (planEntry plan c i) core = false) : ownedSlot plan c core = some j := by
  unfold ownedSlot slotsOf
  rw [List.head?_filter, List.find?_range_eq_some]
  simpa [h, hj] using hlow

theorem ownedSlot_lt {plan : Map (BitVec 16)} {c core j : Nat} (h : ownedSlot plan c core = some j) : j < 16 := by
  have hm := List.mem_of_mem_head? (Option.mem_def.mpr h)
  exact List.mem_range.mp (List.mem_filter.mp hm).1

/-- The slot that `TRANS` finds: none where no channel of this device serves the address (R94). -/
def slotFor (d : Device) (core : Nat) (e : WinEnt) (pa : Nat) : Option Nat :=
  if (isRemote pa || (!isRemote pa && d.fromWeightSram core pa e.kind)) = true then none
  else ownedSlot (d.hbm (hbmOf pa)).plan (pchOf pa) core

theorem transWord_fields (d : Device) (core : Nat) (e : WinEnt) (pa : Nat) :
    let v := d.transWord core e pa
    let far := isRemote pa
    let near := !far && d.fromWeightSram core pa e.kind
    let pch := if (far || near) = true then 0 else pchOf pa
    (v.extractLsb' 62 2).toNat = e.sz.toNat ∧ v.getLsbD 46 = far ∧ v.getLsbD 47 = near ∧
      (v.extractLsb' 0 46).toNat = pa / 64 % 2 ^ 46 ∧ (v.extractLsb' 58 4).toNat = (slotFor d core e pa).getD 0 ∧
      (v.extractLsb' 49 9).toNat = pch ∧ v.getLsbD 48 = (slotFor d core e pa).isSome ∧
      (v.extractLsb' 48 14).toNat = (slotFor d core e pa).getD 0 * 2 ^ 10 + pch * 2 + b2n (slotFor d core e pa).isSome := by
  intro v far near pch
  have hp : pch < 512 := by
    simp only [pch]
    split
    · decide
    · exact Nat.mod_lt _ (by decide)
  have ho : (slotFor d core e pa).getD 0 < 16 := by
    unfold slotFor
    split
    · decide
    · cases h : ownedSlot (d.hbm (hbmOf pa)).plan (pchOf pa) core with
      | none => decide
      | some j => exact ownedSlot_lt h
  obtain ⟨h62, h58, h49, h48, h47, h46, h0, hall⟩ := trans_fields (o := (slotFor d core e pa).isSome) (w := near) (r := far)
    e.sz.isLt ho hp (Nat.mod_lt (pa / 64) (Nat.two_pow_pos 46))
  exact ⟨h62, getLsbD_of_extract h46, getLsbD_of_extract h47, h0, h58, h49, getLsbD_of_extract h48, hall⟩

/-- `TRANS` of a present entry writes its word. -/
theorem trans_writes (s : State) (d a b : BitVec 6) {e : WinEnt}
    (h : findEnt (s.binding.seen s.dev.cycle) (s.sreg a + s.sreg b) = some e) (ha : e.ab = false) :
    exec (.trans d a b) s = .next (s.setS d (s.dev.transWord (coreOf s.me) e (e.pa (s.sreg a + s.sreg b)))) := by
  have room : (s.sreg a + s.sreg b).toNat % 2 ^ winShift e.sz + 1 ≤ 2 ^ winShift e.sz := Nat.mod_lt _ (Nat.two_pow_pos _)
  have ht : s.translate (s.sreg a + s.sreg b) 1 .trans =
      .ok [⟨s.sreg a + s.sreg b, e.pa (s.sreg a + s.sreg b), 1, e.kind, e.kid.toNat⟩] := by
    rw [State.translate, translateIn_within _ _ h ha rfl room]
  show execTrans d a b s = _
  simp only [execTrans, ht, h]
  rfl

/-! ## What `PREF` leaves alone (R251) -/

theorem repair_ctxs (d : Device) (b : Nat) (va : Word) : (repairDev (d.repair b va)).ctxs = d.ctxs := by
  have fetches (x : Device) : (x.startFetches 64).ctxs = x.ctxs := by
    obtain ⟨fs, h⟩ := startFetches_spec x 64
    rw [h]
  unfold Device.repair
  split
  · rfl
  · dsimp only
    split
    · have hb : ∀ f, (d.updBinding b f).ctxs = d.ctxs := fun f => by
        obtain ⟨t, ht⟩ := Device.updBinding_tab d b f
        rw [ht]
      exact hb _
    · split
      · unfold repairDev Device.requestFetch
        dsimp only
        split
        · exact fetches d
        · exact (fetches _).trans (fetches d)
      · rfl

theorem prefetch_spec (d : Device) (core kid line : Nat) : ∃ c, d.prefetch core kid line = { d with cores := c } := by
  unfold Device.prefetch
  split
  · exact ⟨_, rfl⟩
  · exact ⟨d.cores, rfl⟩

theorem pref_keeps (s : State) (a b : BitVec 6) : ∃ d, exec (.pref a b) s = .next { s with dev := d } ∧
    d.mem = s.dev.mem ∧ d.ctxs = s.dev.ctxs := by
  refine ⟨_, rfl, ?_⟩
  split
  · exact ⟨rfl, rfl⟩
  · split
    · obtain ⟨hm, -⟩ := stored_repair s.dev s.blk (s.sreg a + s.sreg b)
      have hc := repair_ctxs s.dev s.blk (s.sreg a + s.sreg b)
      generalize s.dev.repair s.blk (s.sreg a + s.sreg b) = r at hm hc ⊢
      cases r <;> exact ⟨hm, hc⟩
    · split
      · exact ⟨rfl, rfl⟩
      · obtain ⟨c, h⟩ := prefetch_spec s.dev (coreOf s.me) (WinEnt.kid ‹_›).toNat (WinEnt.pa ‹_› (s.sreg a + s.sreg b) / 64)
        rw [h]
        exact ⟨rfl, rfl⟩

/-- Settles O19: `TRANS` by the fields of its word, `PREF` and `FENCE` by what they leave alone. -/
theorem transPrefFence : Obligations.TransPrefFence := by
  intro s d a b va
  refine ⟨fun e h ha => ?_, ?_, ?_⟩
  · refine ⟨_, trans_writes s d a b h ha, _, writesScalar_setS .., ?_⟩
    intro pa far near owns
    obtain ⟨hsz, hfar, hnear, hline, hslot, hpch, hown, hall⟩ := transWord_fields s.dev (coreOf s.me) e pa
    refine ⟨BitVec.eq_of_toNat_eq hsz, hfar, hnear, hline, fun h => ?_, fun h => ⟨?_, fun hn => ?_, fun j hj hy hlow => ?_⟩⟩
    · refine BitVec.eq_of_toNat_eq (hall.trans ?_)
      have none : slotFor s.dev (coreOf s.me) e pa = none := if_pos h
      rw [none]
      exact (congrArg (fun n => 0 * 2 ^ 10 + n * 2 + 0) (if_pos h)).trans rfl
    · exact hpch.trans (if_neg (ne_true_of_eq_false h))
    · have none : slotFor s.dev (coreOf s.me) e pa = none := (if_neg (ne_true_of_eq_false h)).trans (ownedSlot_none hn)
      rw [none] at hslot hown
      exact ⟨hown, BitVec.eq_of_toNat_eq hslot⟩
    · have some : slotFor s.dev (coreOf s.me) e pa = some j := (if_neg (ne_true_of_eq_false h)).trans (ownedSlot_lowest hj hy hlow)
      rw [some] at hslot hown
      exact ⟨hown, hslot⟩
  · obtain ⟨x, hx, hm, hc⟩ := pref_keeps s a b
    exact ⟨_, hx, memSame_of hm, hc, rfl⟩
  · have hu := (OnlyCtx.refl s).updMe rfl fun c => { c with far := [] }
    exact ⟨_, rfl, hu.onlyMe, hu.2.2⟩

/-! ## Scratchpad bytes (R73, R76) -/

theorem spByte_spWrite (k : Core) (off o : Nat) (bs : List Byte) :
    (k.spWrite off bs).spByte o = if off ≤ o ∧ o < off + bs.length then bs.getD (o - off) 0 else k.spByte o := by
  induction bs generalizing k off with
  | nil => simp [Core.spWrite, show ¬(off ≤ o ∧ o < off) by omega]
  | cons b r ih =>
    rw [Core.spWrite, ih, List.length_cons]
    by_cases h : o = off
    · subst h
      simp [Core.spByte, mget_mput, show ¬(o + 1 ≤ o) by omega]
    · have hb : ({ k with scratch := mput 0 k.scratch off b } : Core).spByte o = k.spByte o := by
        simp [Core.spByte, mget_mput, h]
      rw [hb]
      by_cases hr : off + 1 ≤ o ∧ o < off + 1 + r.length
      · rw [if_pos hr, if_pos (by omega), show o - off = o - (off + 1) + 1 by omega, List.getD_cons_succ]
      · rw [if_neg hr, if_neg (by omega)]

theorem spStore_spec (d : Device) (prot : Bool) (core off : Nat) (bs : List Byte) :
    ∃ c, d.spStore prot core off bs = { d with cores := c } := by
  unfold Device.spStore
  cases prot <;> exact ⟨_, rfl⟩

theorem spByte_spStore (d : Device) (prot : Bool) (core off c o : Nat) (bs : List Byte) :
    ((d.spStore prot core off bs).core c).spByte o =
      if (c = core ∨ (prot = true ∧ c = core + 2)) ∧ off ≤ o ∧ o < off + bs.length then bs.getD (o - off) 0
      else (d.core c).spByte o := by
  have one (d : Device) (n : Nat) : ((d.updCore n fun k => k.spWrite off bs).core c).spByte o =
      if c = n ∧ off ≤ o ∧ o < off + bs.length then bs.getD (o - off) 0 else (d.core c).spByte o := by
    rw [Device.core_updCore]
    by_cases h : c = n
    · subst h
      simp [spByte_spWrite]
    · simp [h]
  unfold Device.spStore
  cases prot with
  | false => simpa using one d core
  | true =>
    simp only [if_true, one, true_and]
    by_cases h : c = core <;> simp [h]

/-! ## What a closed segment has still to drain (R62, R132) -/

theorem heldSpByte_foldl (l : List HeldOp) (core o : Nat) (acc : Option Byte)
    (h : ∀ x ∈ l, ∀ c p bs, x = .sp c p bs → ¬(c = core ∧ p ≤ o ∧ o < p + bs.length)) :
    l.foldl (fun acc h =>
      match h with
      | .sp c p bs => if c = core ∧ p ≤ o ∧ o < p + bs.length then some (bs.getD (o - p) 0) else acc
      | .mem _ _ => acc) acc = acc := by
  induction l generalizing acc with
  | nil => rfl
  | cons x r ih =>
    rw [List.foldl_cons, ih _ fun y hy => h y (List.mem_cons_of_mem _ hy)]
    cases x with
    | mem => rfl
    | sp c p bs => exact if_neg (h _ List.mem_cons_self c p bs rfl)

/-- No held store without some bytes of a scratchpad covers one of them. -/
theorem without_apart {core off n o : Nat} (hlo : off ≤ o) (hhi : o < off + n) {x y : HeldOp} (hy : y ∈ x.without core off n)
    {c p : Nat} {bs : List Byte} (hsp : y = .sp c p bs) : ¬(c = core ∧ p ≤ o ∧ o < p + bs.length) := by
  rintro ⟨rfl, hp, hb⟩
  subst hsp
  cases x with
  | mem => simp [HeldOp.without] at hy
  | sp k q l =>
    simp only [HeldOp.without] at hy
    split at hy
    · have hm := (List.mem_filter.mp hy).1
      simp only [List.mem_cons, HeldOp.sp.injEq, List.not_mem_nil, or_false] at hm
      obtain ⟨-, rfl, rfl⟩ | ⟨-, rfl, rfl⟩ := hm
      · rw [List.length_take] at hb
        omega
      · have := Nat.le_max_right q (off + n)
        change off + n ≤ Nat.max q (off + n) at this
        omega
    · simp only [List.mem_singleton, HeldOp.sp.injEq] at hy
      exact absurd hy.1.symm ‹_›

theorem heldSpByte_overtake (c : Ctx) (core off n o : Nat) (hlo : off ≤ o) (hhi : o < off + n) :
    heldSpByte ((c.overtake core off n).drains.flatMap (·.2)) core o = none := by
  unfold Ctx.overtake
  split
  · have hd : c.drains = [] := by simpa using ‹c.drains.isEmpty = true›
    rw [hd]
    rfl
  · refine heldSpByte_foldl _ core o none fun y hy c' p bs hsp => ?_
    obtain ⟨e, he, hy⟩ := List.mem_flatMap.mp hy
    obtain ⟨d, -, rfl⟩ := List.mem_map.mp he
    obtain ⟨x, -, hx⟩ := List.mem_flatMap.mp hy
    exact without_apart hlo hhi hx hsp

/-! ## Scratchpad accesses (R74 to R76, R132, R246) -/

/-- The scratchpad that an address names: the core's own, or another of the shape in the far form (R74, R75). -/
def NamesSp (s : State) (core : Nat) (a : Word) (n align : Nat) : Prop :=
  (if a.getLsbD 26 then s.binding.spCore (coreOf s.me) (bits a 25 22) = some core else core = coreOf s.me) ∧
  bits a 63 27 = 0 ∧ bits a 21 0 % align = 0 ∧ bits a 21 0 + n ≤ (s.before.core core).spSize

theorem spTarget_names {s : State} {core n align : Nat} {a : Word} (h : NamesSp s core a n align) :
    spTarget s.before s.binding (coreOf s.me) a n align = .ok (core, bits a 21 0) := by
  obtain ⟨hc, hx⟩ := h
  unfold spTarget
  cases hf : a.getLsbD 26 with
  | true =>
    rw [hf, if_pos rfl] at hc
    simp [hc, hx]
  | false =>
    rw [hf, if_neg (by simp)] at hc
    subst hc
    simp [hx]

/-- The bytes that a scratchpad load reads where no far access is under way. -/
def spBytes (s : State) (core : Nat) (a : Word) (n : Nat) : List Byte :=
  (List.range n).map fun i => (heldSpByte (s.ctx0.drains.flatMap (·.2) ++ s.ctx0.seg.held) core (bits a 21 0 + i)).getD
    ((s.before.core core).spByte (bits a 21 0 + i))

theorem spRead_reads {s : State} {core n align : Nat} {a : Word} (ma : Bool) (h : NamesSp s core a n align)
    (hf : a.getLsbD 26 = true → s.ctx.far = [] ∧ s.dev.core core = s.before.core core) :
    ∃ u, s.spRead a ma n align = .ok (u, spBytes s core a n) ∧ OnlyCtx s u s.ctx := by
  have ht := spTarget_names h
  unfold State.spRead
  cases ha : a.getLsbD 26 with
  | false =>
    simp only [ht]
    exact ⟨s, rfl, .refl s⟩
  | true =>
    obtain ⟨hfar, hcore⟩ := hf ha
    have same : ({ s.ctx with far := [] } : Ctx) = s.ctx := by rw [← hfar]
    refine ⟨if (true && ma) = true then s.updMe fun c => { c with far := [] } else s, ?_, ?_⟩
    · simp only [ht, hfar, List.any_nil, Bool.and_false, bind, Except.bind, hcore]
      rfl
    · cases ma with
      | false => exact .refl s
      | true =>
        have hu := (OnlyCtx.refl s).updMe rfl fun c => { c with far := [] }
        rwa [same] at hu

/-- Where the context at hand is as it was, so are all. -/
theorem OnlyCtx.ctx_same {s u : State} (h : OnlyCtx s u s.ctx) (a : Nat) : u.dev.ctx a = s.dev.ctx a := by
  obtain ⟨-, ho, hc⟩ := h
  by_cases e : a = s.me
  · rw [e, hc]
    rfl
  · exact ho a e

theorem onlyMe_of_onlyCtx {s u t : State} (h : OnlyCtx s u s.ctx) (w : OnlyMe u t) : OnlyMe s t := by
  have hme := h.me rfl
  have hsame := h.ctx_same
  obtain ⟨⟨m, rfl⟩, -, -⟩ := h
  obtain ⟨ho, hd, hm, hs⟩ := w
  refine ⟨fun a ha => (ho a (by rwa [hme])).trans (hsame a), ?_, hm, ?_⟩
  · exact congrArg (fun d : Device => { d with ctxs := s.dev.ctxs }) hd
  · exact congrArg (fun x : State => { x with dev := s.dev }) hs

theorem writesScalar_of_onlyCtx {s u t : State} {d : BitVec 6} {v : Word} (h : OnlyCtx s u s.ctx) (w : WritesScalar u t d v) :
    WritesScalar s t d v := by
  obtain ⟨ho, hr, hc⟩ := w
  rw [h.me rfl, h.ctx_same] at hr hc
  exact ⟨onlyMe_of_onlyCtx h ho, hr, hc⟩

/-- What a scratchpad store outside a protected segment leaves (R132, R246): the bytes, and a context that no longer drains
over them, with its far stores under way. -/
theorem spWrite_writes {s : State} {core align : Nat} {a : Word} {bs : List Byte} (ma : Bool) (h : NamesSp s core a bs.length align)
    (hh : s.holding = false) : ∃ t far, s.spWrite a ma align bs = .ok t ∧ t.dev.mem = s.dev.mem ∧
      t.dev.cores = (s.dev.spStore s.binding.prot core (bits a 21 0) bs).cores ∧ (∀ x, x ≠ s.me → t.dev.ctx x = s.dev.ctx x) ∧
      t.dev.ctx s.me = { s.ctx.overtake core (bits a 21 0) bs.length with far := far } := by
  have ht := spTarget_names h
  have run (c : Ctx) (core off n : Nat) : (c.overtake core off n).run = c.run := by
    unfold Ctx.overtake
    split <;> rfl
  obtain ⟨k, hk⟩ := spStore_spec s.dev s.binding.prot core (bits a 21 0) bs
  have hu := (OnlyCtx.refl { s with dev := s.dev.spStore s.binding.prot core (bits a 21 0) bs }).updMe rfl fun c =>
    c.overtake core (bits a 21 0) bs.length
  have facts {t : State} {c : Ctx} (hc : OnlyCtx { s with dev := s.dev.spStore s.binding.prot core (bits a 21 0) bs } t c) :
      t.dev.mem = s.dev.mem ∧ t.dev.cores = (s.dev.spStore s.binding.prot core (bits a 21 0) bs).cores ∧
        (∀ x, x ≠ s.me → t.dev.ctx x = s.dev.ctx x) ∧ t.dev.ctx s.me = c := by
    obtain ⟨⟨m, hm⟩, ho, hx⟩ := hc
    rw [hk] at hm ho hx ⊢
    exact ⟨by rw [hm], by rw [hm], ho, hx⟩
  have hctx : (State.ctx { s with dev := s.dev.spStore s.binding.prot core (bits a 21 0) bs }) = s.ctx := by
    rw [hk]
    rfl
  rw [hctx] at hu
  unfold State.spWrite
  simp only [ht, hh]
  cases a.getLsbD 26 with
  | false => exact ⟨_, (s.ctx.overtake core (bits a 21 0) bs.length).far, rfl, facts hu⟩
  | true => exact ⟨_, _, rfl, facts (hu.updMe ((run ..).trans (congrArg Ctx.run hctx.symm)) _)⟩

/-- A slot that ends in what it makes of an answer. -/
theorem slot_bind (s : State) {α : Type} {m : Except Stop α} {x : α} (h : m = .ok x) (f : α → State) :
    s.slot (do
      let r ← m
      return f r) = s.slot (.ok (f x)) := by
  rw [h]
  rfl

theorem overtake_regs (c : Ctx) (core off n : Nat) : (c.overtake core off n).regs = c.regs := by
  unfold Ctx.overtake
  split <;> rfl

/-- Settles O18: a load by what it reads, a store by its bytes and by what no longer drains over them. -/
theorem scratchpadAccesses : Obligations.ScratchpadAccesses := by
  intro s r base off tag voff ma core own sa va names bytes loads stored
  have store (i : Instr) (x : Word) (align : Nat) (bs : List Byte) (hi : exec i s = s.slot (s.spWrite x ma align bs))
      (hn : names x bs.length align) (hh : s.holding = false) : Completes (exec i s) fun t => stored t x bs := by
    obtain ⟨t, far, ht, hmem, hcores, hother, hctx⟩ := spWrite_writes ma hn hh
    rw [hi]
    refine completes_slot ht ⟨memSame_of hmem, ?_, hother, fun o hlo hhi => ?_, fun c o => ?_⟩
    · exact (congrArg Ctx.regs hctx).trans (overtake_regs ..)
    · rw [hctx]
      exact heldSpByte_overtake _ _ _ _ _ hlo hhi
    · have hcore : t.dev.core c = (s.dev.spStore s.binding.prot core (bits x 21 0) bs).core c := by
        rw [Device.core, hcores]
        rfl
      rw [hcore]
      exact spByte_spStore ..
  refine ⟨fun h => ?_, fun h => ?_, fun hn hh => ?_, fun hn hh => ?_⟩
  · obtain ⟨u, hu, hc⟩ := spRead_reads ma h.1 h.2
    have hx : exec (.spl r base off ma) s = s.slot (.ok (u.setS r (word (ofBytes (bytes sa 8))))) := by
      show execSpl r base off ma s = _
      rw [execSpl, ea_eq]
      exact slot_bind s hu fun x => x.1.setS r (word (ofBytes x.2))
    rw [hx]
    exact completes_slot rfl (writesScalar_of_onlyCtx hc (writesScalar_setS ..))
  · obtain ⟨u, hu, hc⟩ := spRead_reads ma h.1 h.2
    have hx : exec (.vldp r base tag voff ma) s = s.slot (.ok (u.setV r ⟨vecOf (bytes (va 4 voff) 256), tag⟩)) := by
      show execVldp r base tag voff ma s = _
      rw [execVldp, ea_eq]
      exact slot_bind s hu fun x => x.1.setV r ⟨vecOf x.2, tag⟩
    have hw := hc.updMe rfl fun c => c.setV r ⟨vecOf (bytes (va 4 voff) 256), tag⟩
    rw [hx]
    refine completes_slot rfl ⟨fun q => ?_, hw.onlyMe, ?_⟩
    · rw [State.setV, hw.2.2]
      exact Ctx.vreg_setV ..
    · exact (congrArg Ctx.regs hw.2.2).trans rfl
  · exact store _ _ 8 _ (congrArg (fun x => s.slot (s.spWrite x ma 8 (toBytes (s.sreg r).toNat 8))) (ea_eq s base off 8))
      (by rwa [length_toBytes]) hh
  · exact store _ _ 64 _ (congrArg (fun x => s.slot (s.spWrite x ma 64 (toBytes (s.vreg r).bits.toNat 256))) (ea_eq s base off 256))
      (by rwa [length_toBytes]) hh

end Sys2Proof.Proofs

/-! PROOF. The other commands (O51; R97, R145 to R147, R186, R204, R330, R335, R340, R341, R343, R344, R349, R350, R357, R360,
R361, R364, R369 to R371, R407, R469): what taking and completing a command leave, and each command from that. -/

namespace Sys2Proof.Proofs

open Sys2Proof Sys2Proof.Machine Sys2Proof.Safety Sys2Proof.Laws

/-! ## What a completion leaves (R355, R356) -/

/-- Snapshot handles in the states and of the generations they had. -/
def SnapsAlike (d e : Device) : Prop :=
  ∀ b h, (e.snap b h).state = (d.snap b h).state ∧ (e.snap b h).gen = (d.snap b h).gen

theorem SnapsAlike.refl (d : Device) : SnapsAlike d d := fun _ _ => ⟨rfl, rfl⟩

theorem SnapsAlike.trans {d e f : Device} (h : SnapsAlike d e) (g : SnapsAlike e f) : SnapsAlike d f := fun b n =>
  ⟨(g b n).1.trans (h b n).1, (g b n).2.trans (h b n).2⟩

theorem snapsAlike_of {d e : Device} (h : e.tab = d.tab) : SnapsAlike d e := fun b n => by
  unfold Device.snap
  rw [h]
  exact ⟨rfl, rfl⟩

theorem SnapsAlike.foldl {α : Type} (f : Device → α → Device) (h : ∀ d x, SnapsAlike d (f d x)) (l : List α) (d : Device) :
    SnapsAlike d (l.foldl f d) := by
  induction l generalizing d with
  | nil => exact .refl d
  | cons x r ih => exact (h d x).trans (ih _)

theorem snapsAlike_post (d : Device) (r : ErrRec) : SnapsAlike d (d.post r) := by
  obtain ⟨e, h⟩ := post_spec d r
  rw [h]
  exact snapsAlike_of rfl

theorem snapsAlike_breakGen (d : Device) (agent owner : Nat) (gen : BitVec 32) : SnapsAlike d (d.breakGen agent owner gen) := by
  unfold Device.breakGen
  dsimp only
  split
  · exact .refl d
  · refine SnapsAlike.trans (fun b n => ?_) (snapsAlike_post _ _)
    rw [Device.snap_updSnap]
    split
    · rename_i hb
      have : d.snap b n = d.snap (owner / 16) (owner % 16) := by
        unfold Device.snap
        rw [hb]
      rw [this]
      exact ⟨rfl, rfl⟩
    · exact ⟨rfl, rfl⟩

theorem snapsAlike_preImage (d : Device) (w : Writer) (line : Nat) (e : Nat × Snap) : SnapsAlike d (d.preImage w line e) := by
  unfold Device.preImage
  extract_lets d1 l t
  have hr : SnapsAlike d d1 := by
    unfold d1
    split <;> exact fun _ _ => ⟨rfl, rfl⟩
  split
  · exact hr.trans (snapsAlike_breakGen _ _ _ _)
  · exact hr

theorem snapsAlike_touchLine (d : Device) (w : Writer) (line : Nat) (versioned whole : Bool) :
    SnapsAlike d (d.touchLine w line versioned whole) := by
  unfold Device.touchLine
  extract_lets t d0 d1
  have h1 : SnapsAlike d d1 := by
    unfold d1
    split
    · exact snapsAlike_of rfl
    · split
      · unfold d0
        split <;> exact snapsAlike_of rfl
      · exact .foldl _ (fun d x => snapsAlike_preImage d w line x) _ _
  obtain ⟨m, l, hk⟩ := rekey_spec { d1 with ops := d1.keepOlds w line } line w.kid
  refine h1.trans (.trans ?_ (snapsAlike_of (congrArg Device.tab (lowWater_spec _ _).choose_spec)))
  rw [hk]
  exact snapsAlike_of rfl

/-- What the writes of a completion record can change beside memory and its lines: snapshot handles broken, and the writes that
wait with what the Dredge has reclaimed. -/
def Noticed (d e : Device) : Prop := Written d e ∧ SnapsAlike d e ∧ ∃ w z, e.mm = { d.mm with waiting := w, horizon := z }

theorem Noticed.refl (d : Device) : Noticed d d := ⟨.refl d, .refl d, _, _, rfl⟩

theorem Noticed.trans {d e f : Device} (h : Noticed d e) (g : Noticed e f) : Noticed d f := by
  obtain ⟨h1, h2, w, z, h3⟩ := h
  obtain ⟨g1, g2, w', z', g3⟩ := g
  exact ⟨h1.trans g1, h2.trans g2, w', z', by rw [g3, h3]⟩

theorem noticed_agentWrite (d : Device) (agent n least : Nat) (blk : Option Nat) (kid pa : Nat) (bs : List Byte) :
    Noticed d (d.agentWrite agent n least blk kid pa bs) := by
  refine ⟨written_agentWrite .., ?_, ?_⟩
  · exact SnapsAlike.foldl _ (fun d l => snapsAlike_touchLine d _ l _ _) _ _
  · obtain ⟨_, _, _, z, _, _, h, _⟩ := kept_touchRange d
      ⟨agent, stampAbove n (Nat.max least (d.writeFloor (linesOf pa bs.length))), blk, kid⟩ pa bs.length (d.versionedLine (pa / 64))
    exact ⟨_, z, congrArg Device.mm h⟩

theorem noticed_agentStore (d : Device) (n : Nat) (w : HeldWrite) : Noticed d (d.agentStore n w) := by
  have hw := written_agentStore d n w
  unfold Device.agentStore at hw ⊢
  split
  · rename_i h
    rw [if_pos h] at hw
    exact ⟨hw, snapsAlike_of rfl, _, _, rfl⟩
  · exact noticed_agentWrite ..

theorem noticed_linePut (agent : Nat) (kid : Option Nat) (n pa : Nat) (bs : List Byte) (s : State) :
    Noticed s.dev (State.linePut agent kid n pa bs s).dev := by
  induction n generalizing pa bs s with
  | zero => exact .refl _
  | succ n ih =>
    unfold State.linePut
    split
    · exact .refl _
    · exact (noticed_agentStore ..).trans (ih _ _ _)

theorem noticed_storeAll (l : List HeldWrite) (s : State) : Noticed s.dev (s.storeAll l).dev := by
  induction l generalizing s with
  | nil => exact .refl _
  | cons w r ih => exact (noticed_agentStore ..).trans (ih _)

/-- What the completion of a command leaves of the device. -/
structure Answered (d e : Device) : Prop where
  cycle : e.cycle = d.cycle
  ctxs : e.ctxs = d.ctxs
  dice : e.dice = d.dice
  tab : ∃ x, e.tab = { d.tab with snaps := x }
  snaps : SnapsAlike d e
  mm : ∃ w z, e.mm = { d.mm with waiting := w, horizon := z }
  out : ∃ box mem hq pcie, e.out = { d.out with outbox := box, hostMem := mem, hostq := hq, pcie := pcie }

theorem Answered.refl (d : Device) : Answered d d := ⟨rfl, rfl, rfl, ⟨_, rfl⟩, .refl d, ⟨_, _, rfl⟩, _, _, _, _, rfl⟩

theorem Answered.trans {d e f : Device} (h : Answered d e) (g : Answered e f) : Answered d f := by
  obtain ⟨h1, h2, h3, ⟨x, h4⟩, h5, ⟨w, z, h6⟩, b, m, q, p, h7⟩ := h
  obtain ⟨g1, g2, g3, ⟨x', g4⟩, g5, ⟨w', z', g6⟩, b', m', q', p', g7⟩ := g
  exact ⟨g1.trans h1, g2.trans h2, g3.trans h3, ⟨x', by rw [g4, h4]⟩, h5.trans g5, ⟨w', z', by rw [g6, h6]⟩, b', m', q', p',
    by rw [g7, h7]⟩

theorem answered_noticed {d e : Device} (h : Noticed d e) : Answered d e := by
  obtain ⟨hw, hs, hm⟩ := h
  have ho := written_out hw
  obtain ⟨_, x, _, _, _, _, _, _, rfl, -⟩ := hw
  exact ⟨rfl, rfl, rfl, ⟨x, rfl⟩, hs, hm, _, _, _, _, ho⟩

/-- Where only what leaves the device, host memory, the queues and the error state change, a completion is answered. -/
theorem answered_out (d : Device) (box : List Out) (mem : List Host.Cell) (hq : Map HostQ) (pcie : Pcie) (e : Err) :
    Answered d { d with out := { d.out with outbox := box, hostMem := mem, hostq := hq, pcie := pcie }, err := e } :=
  ⟨rfl, rfl, rfl, ⟨_, rfl⟩, .refl d, ⟨_, _, rfl⟩, _, _, _, _, rfl⟩

theorem answered_interrupt (d : Device) (fn vec : Nat) : Answered d (d.interrupt fn vec) := by
  unfold Device.interrupt
  dsimp only
  split
  · exact .refl d
  · split <;> exact answered_out d _ _ _ _ d.err

theorem answered_cmdPut (s : State) (q : Nat) (dev : Bool) (addr : Nat) (bs : List Byte) :
    Answered s.dev (s.cmdPut q dev addr bs).dev := by
  unfold State.cmdPut
  extract_lets h
  split
  · exact answered_noticed (noticed_linePut ..)
  · split
    · exact answered_out s.dev _ _ _ _ s.dev.err
    · exact .refl _

theorem answered_complete (s : State) (q : Nat) (seq : Word32) (type : Nat) (cpl : Bool) (status : Nat) (result : Word) :
    Answered s.dev (s.complete q seq type cpl status result).dev := by
  unfold State.complete
  extract_lets h bits128 s1 d
  split
  · exact .refl _
  · split
    · exact answered_out s.dev _ _ _ _ s.dev.err
    · split
      · exact .refl _
      · split
        · obtain ⟨e, he⟩ := postDev_spec (s.dev.updHq q HostQ.stop) 6 0 agCommand 0
          rw [he]
          exact answered_out s.dev _ _ _ _ e
        · have h1 : Answered s.dev d := (answered_cmdPut s q h.dev _ _).trans (answered_out s1.dev _ _ _ _ s1.dev.err)
          show Answered s.dev (if _ then _ else _ : Device)
          split
          · exact h1.trans (answered_interrupt ..)
          · exact h1

theorem cmdPut_last (s : State) (q : Nat) (dev : Bool) (addr : Nat) (bs : List Byte) : (s.cmdPut q dev addr bs).last = s.last := by
  unfold State.cmdPut
  extract_lets h
  split
  · obtain ⟨d, f, -, e⟩ := agentPut_spec s agCommand addr bs
    rw [e]
  · split <;> rfl

theorem complete_last (s : State) (q : Nat) (seq : Word32) (type : Nat) (cpl : Bool) (status : Nat) (result : Word) :
    (s.complete q seq type cpl status result).last = s.last := by
  unfold State.complete
  extract_lets h bits128 s1 d
  split
  · rfl
  · split
    · rfl
    · split
      · rfl
      · split
        · rfl
        · exact cmdPut_last ..

/-! ## The course of a command (R353 to R357) -/

/-- A state in which a command has been taken in its queue's order and numbered. -/
def begun (s : State) (c : Cmd) : State :=
  { s with
    dev := { s.dev with out := { s.dev.out with
      lastFirst := if s.dev.comesFirst c.q then c.q else s.dev.out.lastFirst
      lastQ := if s.dev.comesFirst c.q then s.dev.out.lastQ else c.q
      hostq := mset s.dev.out.hostq c.q { s.dev.hq c.q with seq := (s.dev.hq c.q).seq + 1 } } }
    last := .done }

theorem served_updHq (d : Device) (q : Nat) (f : HostQ → HostQ) :
    (d.served q).updHq q f = { d with out := { d.out with
      lastFirst := if d.comesFirst q then q else d.out.lastFirst
      lastQ := if d.comesFirst q then d.out.lastQ else q
      hostq := mset d.out.hostq q (f (d.hq q)) } } := by
  unfold Device.served Device.updHq Device.updOut Device.hq
  split <;> rfl

@[simp] theorem begun_hq (s : State) (c : Cmd) :
    (begun s c).dev.hq c.q = { s.dev.hq c.q with seq := (s.dev.hq c.q).seq + 1 } := mget_mset_same ..

/-- Where the queues are those that the command's start leaves, its own is past the command. -/
theorem hq_of_begun {s : State} {c : Cmd} {d : Device} (h : d.out.hostq = (begun s c).dev.out.hostq) :
    d.hq c.q = { s.dev.hq c.q with seq := (s.dev.hq c.q).seq + 1 } := by
  unfold Device.hq
  rw [h]
  exact begun_hq s c

/-- A command that the processor takes, and whose fields are in range, does what its type does. -/
theorem command_taken {s : State} {c : Cmd} {type : Nat} {fields : Bool} {w : Who} {perform : State → CmdEnd}
    (ht : Taken s c type w) (hf : fields = true) :
    s.command c type fields w perform = .next (match perform (begun s c) with
      | .done t st v => t.complete c.q (s.dev.hq c.q).seq type c.cpl st v
      | .under t k => { t with dev := t.dev.updOut fun o =>
          { o with pend := o.pend ++ [⟨c.q, (s.dev.hq c.q).seq, BitVec.ofNat 6 type, c.cpl, k⟩] } }) := by
  obtain ⟨ht, ha⟩ := ht
  unfold State.command
  rw [served_updHq]
  simp only [ht, hf, ha, Bool.not_true, Bool.false_eq_true, if_false]
  rfl

theorem en_of_takes {d : Device} {c : Cmd} {type : Nat} (h : d.takes c type = true) (hc : isChannel c.q = false) :
    (d.hq c.q).en = true := by
  unfold Device.takes at h
  simp only [hc, Bool.and_eq_true, Bool.false_eq_true, if_false] at h
  exact h.1.1.1.1

theorem hostRead_interrupt (d : Device) (f v fn pasid a n : Nat) :
    (d.interrupt f v).hostRead fn pasid a n = d.hostRead fn pasid a n := by
  unfold Device.interrupt
  dsimp only
  split
  · rfl
  · split <;> rfl

theorem hostRead_updHq (d : Device) (q : Nat) (f : HostQ → HostQ) (fn pasid a n : Nat) :
    (d.updHq q f).hostRead fn pasid a n = d.hostRead fn pasid a n := rfl

theorem hostRead_hostWrite (d : Device) (fn pasid a : Nat) (bs : List Byte) :
    (d.hostWrite fn pasid a bs).hostRead fn pasid a bs.length = bs := rdBytes_wrBytes ..

theorem hq_postDev (d : Device) (cls rung agent : Nat) (aux : Word) (q : Nat) :
    (d.postDev cls rung agent aux).hq q = d.hq q := by
  obtain ⟨e, h⟩ := postDev_spec d cls rung agent aux
  rw [h]
  rfl

theorem en_stop (h : HostQ) : h.stop.en = false := by
  show (setBits h.d0 63 63 0).getLsbD 63 = false
  unfold setBits
  simp

theorem complete_channel {u : State} {q : Nat} (hch : isChannel q = true) (seq : Word32) (type status : Nat) (result : Word) :
    (u.complete q seq type true status result).dev.out.outbox.getLast? =
      some (.completion (q - 16384) (completionRecord seq type (u.dev.hq q).ph status result)) := by
  unfold State.complete
  dsimp only
  generalize completionRecord _ _ _ _ _ = x
  simp only [hch, Bool.not_true, Bool.false_eq_true, if_false, if_true]
  exact List.getLast?_concat

theorem complete_lost {u : State} {q : Nat} (hch : isChannel q = false) (hen : (u.dev.hq q).en = true)
    (hl : (u.dev.hq q).lose = true) (seq : Word32) (type status : Nat) (result : Word) :
    ((u.complete q seq type true status result).dev.hq q).en = false := by
  unfold State.complete
  dsimp only
  generalize completionRecord _ _ _ _ _ = x
  simp only [hch, hen, hl, Bool.not_true, Bool.false_eq_true, if_false, if_true]
  rw [hq_postDev]
  unfold Device.updHq Device.updOut Device.hq
  rw [mget_mset_same]
  exact en_stop _

theorem complete_host {u : State} {q : Nat} (hch : isChannel q = false) (hen : (u.dev.hq q).en = true)
    (hl : (u.dev.hq q).lose = false) (hd : (u.dev.hq q).dev = false) (seq : Word32) (type status : Nat) (result : Word) :
    (u.complete q seq type true status result).dev.hostRead (u.dev.hq q).fn (u.dev.hq q).pasid
      ((u.dev.hq q).cbase + 16 * (u.dev.hq q).cidx) 16 =
    toBytes (completionRecord seq type (u.dev.hq q).ph status result).toNat 16 := by
  unfold State.complete
  dsimp only
  generalize completionRecord _ _ _ _ _ = x
  simp only [hch, hen, hl, hd, Bool.not_true, Bool.false_eq_true, if_false]
  have hput : ((u.dev.hostWrite (u.dev.hq q).fn (u.dev.hq q).pasid ((u.dev.hq q).cbase + 16 * (u.dev.hq q).cidx)
      (toBytes x.toNat 16)).updHq q HostQ.nextRecord).hostRead (u.dev.hq q).fn (u.dev.hq q).pasid
      ((u.dev.hq q).cbase + 16 * (u.dev.hq q).cidx) 16 = toBytes x.toNat 16 := by
    have h := hostRead_hostWrite u.dev (u.dev.hq q).fn (u.dev.hq q).pasid
      ((u.dev.hq q).cbase + 16 * (u.dev.hq q).cidx) (toBytes x.toNat 16)
    rwa [length_toBytes, ← hostRead_updHq _ q HostQ.nextRecord] at h
  have hcmd : (u.cmdPut q false ((u.dev.hq q).cbase + 16 * (u.dev.hq q).cidx) (toBytes x.toNat 16)).dev =
      u.dev.hostWrite (u.dev.hq q).fn (u.dev.hq q).pasid ((u.dev.hq q).cbase + 16 * (u.dev.hq q).cidx)
        (toBytes x.toNat 16) := by
    unfold State.cmdPut
    simp [hen]
  rw [hcmd]
  split
  · rw [hostRead_interrupt]
    exact hput
  · exact hput

/-- The record of a completed command stands where its queue has its next one. -/
theorem recorded_complete {s u : State} {c : Cmd} {type : Nat} (ht : s.dev.takes c type = true)
    (hq : u.dev.hq c.q = { s.dev.hq c.q with seq := (s.dev.hq c.q).seq + 1 }) (status : Nat) (result : Word) :
    Recorded c type s (u.complete c.q (s.dev.hq c.q).seq type c.cpl status result) status result := by
  have hen : (u.dev.hq c.q).en = (s.dev.hq c.q).en := by rw [hq]; rfl
  have hlose : (u.dev.hq c.q).lose = (s.dev.hq c.q).lose := by rw [hq]
  have hdev : (u.dev.hq c.q).dev = (s.dev.hq c.q).dev := by rw [hq]; rfl
  have hph : (u.dev.hq c.q).ph = (s.dev.hq c.q).ph := by rw [hq]
  unfold Recorded
  refine ⟨fun hc hch => ?_, fun hc hch he hl => ?_, fun hc hch hd hl => ?_⟩
  · rw [hc, complete_channel hch, hph]
  · rw [hc]
    exact complete_lost hch (hen.trans he) (hlose.trans hl) ..
  · have hfn : (u.dev.hq c.q).fn = (s.dev.hq c.q).fn := by rw [hq]; rfl
    have hpasid : (u.dev.hq c.q).pasid = (s.dev.hq c.q).pasid := by rw [hq]; rfl
    have hcb : (u.dev.hq c.q).cbase = (s.dev.hq c.q).cbase := by rw [hq]; rfl
    have hci : (u.dev.hq c.q).cidx = (s.dev.hq c.q).cidx := by rw [hq]
    have h := complete_host hch (hen.trans (en_of_takes ht hch)) (hlose.trans hl) (hdev.trans hd)
      (s.dev.hq c.q).seq type status result
    rw [hfn, hpasid, hcb, hci, hph] at h
    rw [hc]
    exact h

/-- What the completion of a command leaves: its record, and of the state that its effect gave all but what a completion
changes. -/
structure Finished (c : Cmd) (type : Nat) (s u : State) (status : Nat) (result : Word) (t : State) : Prop where
  recorded : Recorded c type s t status result
  answered : Answered u.dev t.dev
  mem : (s.dev.hq c.q).dev = false → t.dev.mem = u.dev.mem
  quietly : c.cpl = false → t = u

theorem finished_complete {s u : State} {c : Cmd} {type : Nat} (ht : s.dev.takes c type = true)
    (hq : u.dev.hq c.q = { s.dev.hq c.q with seq := (s.dev.hq c.q).seq + 1 }) (status : Nat) (result : Word) :
    Finished c type s u status result (u.complete c.q (s.dev.hq c.q).seq type c.cpl status result) where
  recorded := recorded_complete ht hq ..
  answered := answered_complete ..
  mem hd := by
    obtain ⟨o, e, h⟩ := complete_spec u c.q (s.dev.hq c.q).seq type c.cpl status result (by rw [hq]; exact hd)
    rw [h]
  quietly hc := by
    unfold State.complete
    simp [hc]

/-- A command whose effect completes it has its record and its effect. -/
theorem happens_done {i : Instr} {s u : State} {c : Cmd} {type : Nat} {fields : Bool} {w : Who} {perform : State → CmdEnd}
    {status : Nat} {result : Word} {P : State → Prop} (hx : exec i s = s.command c type fields w perform) (ht : Taken s c type w) (hf : fields = true)
    (hp : perform (begun s c) = .done u status result) (hl : u.last = .done)
    (hq : u.dev.hq c.q = { s.dev.hq c.q with seq := (s.dev.hq c.q).seq + 1 })
    (h : ∀ t, Finished c type s u status result t → P t) : Happens i s P := by
  unfold Happens
  rw [hx, command_taken ht hf, hp]
  exact completes_next ⟨(complete_last ..).trans hl, h _ (finished_complete ht.1 hq ..)⟩

theorem Finished.served {c : Cmd} {type : Nat} {s u t : State} {status : Nat} {result : Word}
    (h : Finished c type s u status result t) (hc : u.dev.ctxs = s.dev.ctxs) (hm : u.dev.mem = s.dev.mem) :
    Served c type s t status result :=
  ⟨h.recorded, h.answered.ctxs.trans hc, fun hd a => by rw [h.mem hd, hm]⟩

/-- A command that goes on after it was taken is under way. -/
theorem happens_under {i : Instr} {s u : State} {c : Cmd} {type : Nat} {fields : Bool} {w : Who} {perform : State → CmdEnd}
    {k : PendKind} {P : State → Prop} (hx : exec i s = s.command c type fields w perform) (ht : Taken s c type w) (hf : fields = true) (hp : perform (begun s c) = .under u k)
    (hl : u.last = .done)
    (h : ∀ l, UnderWay c type s { u with dev := u.dev.updOut fun o => { o with pend := l } } k →
      P { u with dev := u.dev.updOut fun o => { o with pend := l } }) : Happens i s P := by
  unfold Happens
  rw [hx, command_taken ht hf, hp]
  exact completes_next ⟨hl, h (u.dev.out.pend ++ [_]) List.getLast?_concat⟩

/-- A part of the tables that holds no snapshot stays in a completion. -/
theorem Answered.table {d e : Device} (h : Answered d e) {α : Type} (p : Tables → α) (hp : ∀ t x, p { t with snaps := x } = p t) :
    p e.tab = p d.tab := by
  obtain ⟨x, hx⟩ := h.tab
  rw [hx, hp]

theorem Answered.block {d e : Device} (h : Answered d e) (b : Nat) : e.block b = d.block b := by
  unfold Device.block
  rw [h.table (·.blocks) fun _ _ => rfl]

theorem Answered.mstate {d e : Device} (h : Answered d e) (b : Nat) : e.mstate b = d.mstate b := by
  unfold Device.mstate
  rw [h.block]

theorem Answered.outside {d e : Device} (h : Answered d e) {α : Type} (p : Outside → α)
    (hp : ∀ o box mem hq pcie, p { o with outbox := box, hostMem := mem, hostq := hq, pcie := pcie } = p o) :
    p e.out = p d.out := by
  obtain ⟨_, _, _, _, hx⟩ := h.out
  rw [hx, hp]

/-- What a command reads in memory is as it was before the command was taken. -/
theorem cmdGet_begun (s : State) (c : Cmd) (dev : Bool) (a n : Nat) :
    (begun s c).dev.cmdGet c.q dev a n = s.dev.cmdGet c.q dev a n := by
  unfold Device.cmdGet
  rw [begun_hq]
  rfl

/-- The bytes that a command puts into its issuer's memory are read there when no record follows them. -/
theorem hostRead_cmdPut {s u : State} {c : Cmd} {type : Nat} (ht : s.dev.takes c type = true)
    (hq : u.dev.hq c.q = { s.dev.hq c.q with seq := (s.dev.hq c.q).seq + 1 }) (a : Nat) (bs : List Byte) :
    (u.cmdPut c.q false a bs).dev.hostRead (s.dev.hq c.q).fn (s.dev.hq c.q).pasid a bs.length = bs := by
  have hfn : (u.dev.hq c.q).fn = (s.dev.hq c.q).fn := by rw [hq]; rfl
  have hpasid : (u.dev.hq c.q).pasid = (s.dev.hq c.q).pasid := by rw [hq]; rfl
  have hen : (u.dev.hq c.q).en = (s.dev.hq c.q).en := by rw [hq]; rfl
  have hput : isChannel c.q = true ∨ (u.dev.hq c.q).en = true := by
    cases hch : isChannel c.q
    · exact .inr (hen.trans (en_of_takes ht hch))
    · exact .inl rfl
  unfold State.cmdPut
  simp only [Bool.false_eq_true, if_false, if_pos hput, hfn, hpasid]
  exact hostRead_hostWrite ..

theorem hq_cmdPut (s : State) (q : Nat) (a : Nat) (bs : List Byte) (n : Nat) : (s.cmdPut q false a bs).dev.hq n = s.dev.hq n := by
  unfold State.cmdPut
  dsimp only
  split
  · contradiction
  · split <;> rfl

/-! ## Images, hashes and policy (R200 to R204, R335, R341, R407) -/

theorem domainKey_spec (s : State) (dom : Nat) :
    ∃ x n, s.domainKey dom = { s with dev := { s.dev with tab := { s.dev.tab with domains := x } }, free := n } := by
  unfold State.domainKey
  dsimp only
  split
  · exact ⟨_, _, rfl⟩
  · split <;> exact ⟨_, _, rfl⟩

theorem imgInstall_happens {s : State} {c : Cmd} (ht : Taken s c 0x10 whoO) (hf : plain c 5 1 = true) (h4 : pw c 4 < 4096)
    (hl : c.arg = 0 ∨ isLocal (pd c 0) = true ∧ isLocal (pd c 0 + pw c 2 - 1) = true) {id : Nat} {i : Image}
    (hi : loadImage (s.dev.cmdGet c.q (c.arg.getLsbD 0) (pd c 0) (pw c 2)) (BitVec.ofNat 32 (pw c 3))
      (BitVec.ofNat 32 (pw c 4)) = some (id, i)) :
    Happens (.imgInstall c) s fun t => Served c 0x10 s t 0 (word id) ∧ mfind t.dev.tab.images id = some i := by
  obtain ⟨x, n, hk⟩ := domainKey_spec (begun s c) (pw c 4)
  have hbad : ¬(4096 ≤ pw c 4 ∨ (c.arg ≠ 0 ∧ (!(isLocal (pd c 0) && isLocal (pd c 0 + pw c 2 - 1))) = true)) := by
    rintro (h | ⟨h, h'⟩)
    · omega
    · rcases hl with hl | ⟨h1, h2⟩
      · exact h hl
      · simp [h1, h2] at h'
  refine happens_done (u := { (begun s c).domainKey (pw c 4) with
    dev := (((begun s c).domainKey (pw c 4)).dev.updTab fun x => { x with images := mset x.images id i }).noteCandidates })
    (show exec (.imgInstall c) s = execImgInstall c s from rfl) ht hf ?_ ?_ ?_ fun t h => ⟨h.served ?_ ?_, ?_⟩
  · dsimp only
    rw [if_neg hbad, cmdGet_begun, hi]
    rfl
  · rw [hk]; rfl
  · rw [hk]; exact begun_hq s c
  · rw [hk]; rfl
  · rw [hk]; rfl
  · rw [h.answered.table (·.images) fun _ _ => rfl]
    exact mfind_mset_same ..

theorem ctxs_noteCandidates (d : Device) : d.noteCandidates.ctxs = d.ctxs := rfl

theorem mem_noteCandidates (d : Device) : d.noteCandidates.mem = d.mem := rfl

theorem out_noteCandidates (d : Device) : d.noteCandidates.out = d.out := rfl

theorem get_retired (m : Block) (h : m.get fState = sIdle ∨ m.get fState = sQueued ∨ m.get fState = sPreempted) :
    m.retired.get fState = sSuspended := by
  unfold Block.retired
  simp only [h, if_true]
  exact get_set_same _ _ _ rfl

/-- What the retirement of image generation `g` makes of a block and its index (R341). -/
def retireOf (d : Device) (g : Nat) (e : Nat × Block) : Nat × Block :=
  match mfind d.tab.images (e.2.get fImage) with
  | some i => if i.gen.toNat = g then (e.1, e.2.retired) else e
  | none => e

theorem retireOf_key (d : Device) (g : Nat) (e : Nat × Block) : (retireOf d g e).1 = e.1 := by
  unfold retireOf
  split
  · split <;> rfl
  · rfl

theorem mstate_retireOf {d : Device} {g b : Nat} {i : Image} (hi : mfind d.tab.images ((d.block b).get fImage) = some i)
    (hg : i.gen.toNat = g) (hst : d.mstate b = sIdle ∨ d.mstate b = sQueued ∨ d.mstate b = sPreempted) :
    (mget ({} : Block) (d.tab.blocks.map (retireOf d g)) b).get fState = sSuspended := by
  have hkept : ∀ m : Map Block, (mget {} m b).get fState ≠ sFree → (mget {} m b) = d.block b →
      mget {} (m.map (retireOf d g)) b = (retireOf d g (b, d.block b)).2 := by
    intro m
    induction m with
    | nil => exact fun h => absurd rfl h
    | cons e r ih =>
      intro h1 h2
      by_cases he : e.1 = b
      · have he2 : e = (b, d.block b) := Prod.ext he (by simpa [mget, he] using h2)
        simp [mget, retireOf_key, he2]
      · simp only [mget, he, if_false, List.map_cons, retireOf_key] at h1 h2 ⊢
        exact ih h1 h2
  have hfree : (d.block b).get fState ≠ sFree := by
    intro h
    unfold Device.mstate at hst
    rw [h] at hst
    exact absurd hst (by decide)
  have hre : (retireOf d g (b, d.block b)).2 = (d.block b).retired := by
    unfold retireOf
    simp only [hi, hg, if_true]
  rw [hkept d.tab.blocks hfree rfl, hre]
  exact get_retired _ hst

theorem imgRetire_happens {s : State} {c : Cmd} (ht : Taken s c 0x11 whoO) (hf : plain c 1 0 = true) :
    Happens (.imgRetire c) s fun t => Served c 0x11 s t 0 0 ∧ BitVec.ofNat 32 (pw c 0) ∈ t.dev.tab.retired ∧
      ∀ b i, mfind s.dev.tab.images ((s.dev.block b).get fImage) = some i → i.gen.toNat = pw c 0 →
        s.dev.mstate b = sIdle ∨ s.dev.mstate b = sQueued ∨ s.dev.mstate b = sPreempted → t.dev.mstate b = sSuspended := by
  refine happens_done (show exec (.imgRetire c) s = execImgRetire c s from rfl) ht hf rfl rfl (hq_of_begun rfl) fun t h =>
    ⟨h.served ((ctxs_noteCandidates _).trans rfl) ((mem_noteCandidates _).trans rfl), ?_, fun b i hi hg hst => ?_⟩
  · rw [h.answered.table (·.retired) fun _ _ => rfl]
    exact List.mem_cons_self
  · rw [h.answered.mstate]
    refine (mstate_noteCandidates _ b).trans ?_
    exact mstate_retireOf hi hg hst

theorem hashSet_happens {s : State} {c : Cmd} (ht : Taken s c 0x12 whoO) (hf : plain c 3 0 = true) (hd : pw c 0 < 4096) :
    (pw c 2 < 0x8000 → Happens (.hashSet c) s fun t => Served c 0x12 s t 0 0 ∧
      mfind t.dev.tab.hash (hashKey (pw c 0) (pw c 1)) = some (pw c 2)) ∧
    (pw c 2 = 0x8000 → Happens (.hashSet c) s fun t => Served c 0x12 s t 0 0 ∧
      mfind t.dev.tab.hash (hashKey (pw c 0) (pw c 1)) = none) := by
  constructor
  · intro hv
    refine happens_done (u := { begun s c with dev := (begun s c).dev.updTab fun x =>
      { x with hash := mset x.hash (hashKey (pw c 0) (pw c 1)) (pw c 2) } })
      (show exec (.hashSet c) s = execHashSet c s from rfl) ht hf ?_ rfl (hq_of_begun rfl) fun t h => ⟨h.served rfl rfl, ?_⟩
    · dsimp only
      rw [if_neg (by omega), if_neg (by omega)]
      rfl
    · rw [h.answered.table (·.hash) fun _ _ => rfl]
      exact mfind_mset_same ..
  · intro hv
    refine happens_done (u := { begun s c with dev := (begun s c).dev.updTab fun x =>
      { x with hash := mdel x.hash (hashKey (pw c 0) (pw c 1)) } })
      (show exec (.hashSet c) s = execHashSet c s from rfl) ht hf ?_ rfl (hq_of_begun rfl) fun t h => ⟨h.served rfl rfl, ?_⟩
    · dsimp only
      rw [if_neg (by omega), if_pos hv]
      rfl
    · rw [h.answered.table (·.hash) fun _ _ => rfl]
      exact (mfind_mdel ..).trans (if_pos rfl)

theorem policy_happens {s : State} {c : Cmd} (ht : Taken s c 0x15 whoO) (hf : plain c 3 0 = true) :
    (pw c 0 = 0 → pd c 1 ≤ 1789200 → Happens (.policyRgrace c) s fun t => Served c 0x15 s t 0 0 ∧
      t.dev.tab.rgrace = word (pd c 1)) ∧
    (pw c 0 = 1 → Happens (.policyWclk c) s fun t => Served c 0x15 s t 0 0 ∧
      t.dev.tab.wclk = some (word (pd c 1), s.dev.cycle)) := by
  constructor
  · intro h0 hr
    refine happens_done (u := { begun s c with dev := (begun s c).dev.updTab fun x => { x with rgrace := word (pd c 1) } })
      (show exec (.policyRgrace c) s = execPolicyRgrace c s from rfl) ht hf ?_ rfl (hq_of_begun rfl) fun t h =>
        ⟨h.served rfl rfl, h.answered.table (·.rgrace) fun _ _ => rfl⟩
    dsimp only
    rw [if_neg (by omega)]
    rfl
  · intro h1
    refine happens_done (u := { begun s c with dev := (begun s c).dev.updTab fun x =>
      { x with wclk := some (word (pd c 1), s.dev.cycle) } })
      (show exec (.policyWclk c) s = execPolicyWclk c s from rfl) ht hf ?_ rfl (hq_of_begun rfl) fun t h =>
        ⟨h.served rfl rfl, h.answered.table (·.wclk) fun _ _ => rfl⟩
    dsimp only
    rw [if_neg (by omega)]
    rfl

/-! ## Shoot-downs, diagnostics and system launches (R90, R97, R186, R445) -/

theorem onBlock_begun {s : State} {c : Cmd} {b : Nat} (hn : Names s c b) (f : Nat → CmdEnd) : onBlock c (begun s c) f = f b := by
  obtain ⟨rfl, hlt, hr⟩ := hn
  have hr' : (begun s c).dev.reaches c.who (((begun s c).dev.block (pw c 0)).get fTenant) = true := hr
  unfold onBlock
  simp only [hr', Bool.not_true, Bool.false_eq_true, if_false]
  rw [if_neg (by omega)]

theorem shootdown_happens {s : State} {c : Cmd} {b : Nat} (hn : Names s c b) (ht : Taken s c 0x18 whoO)
    (hf : plain c 4 0 = true) :
    (s.dev.binding b = none → s.dev.mstate b ≠ sMigrating → Happens (.shootdown c) s fun t => ∃ st, Served c 0x18 s t 0 st) ∧
    ((s.dev.binding b).isSome = true → Happens (.shootdown c) s fun t => UnderWay c 0x18 s t (.shoot b)) ∧
    (s.dev.binding b = none → s.dev.mstate b = sMigrating → Happens (.shootdown c) s fun t => Apart s t ∧
      UnderWay c 0x18 s t (.heldShoot b (bits (word (pd c 1)) 56 0) (pw c 3))) := by
  have hx : exec (.shootdown c) s = execShootdown c s := rfl
  have hbind : (begun s c).dev.binding b = s.dev.binding b := rfl
  have hst : (begun s c).dev.mstate b = s.dev.mstate b := rfl
  refine ⟨fun hb hm => ?_, fun hb => ?_, fun hb hm => ?_⟩
  · refine happens_done (u := (begun s c).ackStamp.1) (result := word (begun s c).ackStamp.2) hx ht hf ?_ rfl (hq_of_begun rfl) fun t h => ⟨_, h.served rfl rfl⟩
    rw [onBlock_begun hn]
    simp only [hbind, hb, hst, hm, Option.isSome_none, Bool.false_eq_true, if_false]
    rfl
  · refine happens_under (u := { begun s c with
      dev := (begun s c).dev.beginShoot b c.q (bits (word (pd c 1)) 56 0) (pw c 3) }) hx ht hf ?_ rfl fun l h => h
    rw [onBlock_begun hn]
    simp only [hbind, hb, if_true]
  · refine happens_under (u := begun s c) hx ht hf ?_ rfl fun l h => ⟨⟨rfl, fun a => rfl⟩, h⟩
    rw [onBlock_begun hn]
    simp only [hbind, hb, hst, hm, Option.isSome_none, Bool.false_eq_true, if_false, if_true]

/-- A command whose effect is bytes put into its issuer's memory is served, and the bytes stand there. -/
theorem happens_put {i : Instr} {s u : State} {c : Cmd} {type a : Nat} {fields : Bool} {w : Who} {perform : State → CmdEnd}
    {result : Word} {bs : List Byte} {P : State → Prop} (hx : exec i s = s.command c type fields w perform)
    (ht : Taken s c type w) (hf : fields = true) (hp : perform (begun s c) = .done (u.cmdPut c.q false a bs) 0 result)
    (hl : u.last = .done) (hq : u.dev.out.hostq = (begun s c).dev.out.hostq) (hc : u.dev.ctxs = s.dev.ctxs)
    (hm : u.dev.mem = s.dev.mem)
    (h : ∀ t, Answered u.dev t.dev →
      (c.cpl = false → t.dev.hostRead (s.dev.hq c.q).fn (s.dev.hq c.q).pasid a bs.length = bs) → P t) :
    Happens i s fun t => Served c type s t 0 result ∧ P t := by
  obtain ⟨o, ho⟩ := cmdPut_host u c.q a bs
  refine happens_done hx ht hf hp ((cmdPut_last ..).trans hl) ((hq_cmdPut ..).trans (hq_of_begun hq)) fun t g =>
    ⟨g.served ?_ ?_, h t ((answered_cmdPut ..).trans g.answered) fun hcpl => ?_⟩
  · rw [ho]
    exact hc
  · rw [ho]
    exact hm
  · rw [g.quietly hcpl]
    exact hostRead_cmdPut ht.1 (hq_of_begun hq) a bs

theorem diagRead_happens {s : State} {c : Cmd} {b : Nat} (hn : Names s c b) (ht : Taken s c 0x1F { m := true })
    (hf : plain c 4 0 = true) (h1 : pw c 1 ≤ 511) :
    Happens (.diagRead c) s fun t => Served c 0x1F s t 0 0 ∧ (c.cpl = false →
      t.dev.hostRead (s.dev.hq c.q).fn (s.dev.hq c.q).pasid (pd c 2) 16 =
        toBytes (match (s.dev.window b)[pw c 1]? with | some e => e.bits128.toNat | none => 0) 16) := by
  let v : BitVec 128 := match (s.dev.window b)[pw c 1]? with | some e => e.bits128 | none => 0
  have hv : v.toNat = (match (s.dev.window b)[pw c 1]? with | some e => e.bits128.toNat | none => 0) := by
    unfold v
    split <;> rfl
  rw [← hv]
  refine happens_put (u := begun s c) (a := pd c 2) (bs := toBytes v.toNat 16)
    (show exec (.diagRead c) s = execDiagRead c s from rfl) ht hf ?_ rfl rfl rfl rfl fun t _ h hc => ?_
  · rw [onBlock_begun hn, if_neg (by omega)]
    rfl
  · have := h hc
    rwa [length_toBytes] at this

theorem hostq_appendRec (s : State) (b : Nat) (r : Rec) : (s.appendRec b r).dev.out.hostq = s.dev.out.hostq ∧
    (s.appendRec b r).last = s.last := by
  unfold State.appendRec
  dsimp -zeta only [State.draw]
  extract_lets m unit st r1 src s2 s3 d
  obtain ⟨e, f, hw, he⟩ := linePut_spec agHarbour (some ((s2.dev.block b).get fDkid)) (r1.header.length / 64 + 2)
    (m.unitPa unit) r1.header s2
  have h3 : s3 = { s2 with dev := e, free := f } := he
  have ho : s3.dev.out = s.dev.out := by
    rw [h3]
    exact written_out hw
  have hl : s3.last = s.last := by
    rw [h3]
  have hd : d.out = s.dev.out := ho
  constructor
  · rw [out_noteCandidates]
    split <;> exact congrArg (·.hostq) hd
  · exact hl

/-- The record that a system launch appends has one unit and no more to come (R186). -/
theorem appendRec_units (s : State) (b : Nat) (r : Rec) : ∃ r1 : Rec, ((s.appendRec b r).dev.block b).recs =
    (s.dev.block b).recs ++ [r1] ∧ r1.done = r.done ∧ r1.units = r.units := by
  unfold State.appendRec
  dsimp -zeta only [State.draw]
  extract_lets m unit st r1 src s2 s3 d
  obtain ⟨-, hb, -, -, -⟩ : Answers s2.dev s3.dev := answers_queuePut s2 ..
  have hrecs : (d.block b).recs = (s.dev.block b).recs ++ [r1] := by
    unfold d
    rw [Device.block_updBlock_same]
    show (s3.dev.block b).recs ++ [r1] = _
    unfold Device.block
    rw [hb]
  refine ⟨r1, ?_, rfl, rfl⟩
  rw [recs_noteCandidates]
  split
  · rw [recs_setMstate]
    exact hrecs
  · exact hrecs

theorem sysLaunch_happens {s : State} {c : Cmd} {b : Nat} (hn : Names s c b) (ht : Taken s c 0x29 whoO)
    (hf : plain c 1 0 = true) (hs : (s.dev.imageOf b).sys = true) (h1 : s.dev.mstate b ≠ sFree) (h2 : s.dev.mstate b ≠ sDead)
    (h3 : s.dev.retiredImage b = false) (h4 : (s.dev.block b).hasUnits 1 = true) :
    Happens (.sysLaunch c) s fun t => Recorded c 0x29 s t 0 0 ∧ t.dev.ctxs = s.dev.ctxs ∧
      ∃ r : Rec, (t.dev.block b).recs = (s.dev.block b).recs ++ [r] ∧ r.done = true ∧ r.units = 1 := by
  let u : State := { begun s c with free := s.free + 1 }
  obtain ⟨hc, -⟩ := appendRec_spec u b (sysRec (s.dev.block b) s.free)
  obtain ⟨hq, hl⟩ := hostq_appendRec u b (sysRec (s.dev.block b) s.free)
  obtain ⟨r, hr, hd, hu⟩ := appendRec_units u b (sysRec (s.dev.block b) s.free)
  refine happens_done (u := u.appendRec b (sysRec (s.dev.block b) s.free))
    (show exec (.sysLaunch c) s = execSysLaunch c s from rfl) ht hf ?_ hl (hq_of_begun hq) fun t h =>
      ⟨h.recorded, h.answered.ctxs.trans hc, r, ?_, hd, hu⟩
  · have hs' : ((begun s c).dev.imageOf b).sys = true := hs
    have h1' : (begun s c).dev.mstate b ≠ sFree := h1
    have h2' : (begun s c).dev.mstate b ≠ sDead := h2
    have h3' : (begun s c).dev.retiredImage b = false := h3
    have h4' : ((begun s c).dev.block b).hasUnits 1 = true := h4
    rw [onBlock_begun hn]
    simp only [hs', h1', h2', h3', h4', Bool.not_true, Bool.false_eq_true, if_false, or_self]
    rfl
  · rw [h.answered.block]
    exact hr

/-! ## Snapshots of the device and drains (R142, R145 to R147) -/

theorem exec_devsnapTake {s : State} {c : Cmd} (h : s.dev.settled = true) : exec (.devsnapTake c) s =
    s.command c 0x1A (plain c 0 0) whoO fun t =>
      match t.dev.freeHandle devTable with
      | none => refuse t 6
      | some h =>
        let (t1, st) := t.masterStamp
        let (d, g) := t1.dev.takeSnap devTable h st
        doneOk { t1 with dev := d } (word (g.toNat * 2 ^ 32 + h)) := by
  show execDevsnapTake c s = _
  unfold execDevsnapTake
  rw [h]
  rfl

theorem devsnapTake_happens {s : State} {c : Cmd} {x : Nat} (ht : Taken s c 0x1A whoO) (hs : s.dev.settled = true)
    (hf : plain c 0 0 = true) (hx : s.dev.freeHandle devTable = some x) :
    Happens (.devsnapTake c) s fun t =>
      Served c 0x1A s t 0 (word ((mget 0 s.dev.tab.snapGen devTable + 1).toNat * 2 ^ 32 + x)) ∧
      (t.dev.snap devTable x).state = 1 ∧ (t.dev.snap devTable x).gen = mget 0 s.dev.tab.snapGen devTable + 1 := by
  let m : State × Nat := (begun s c).masterStamp
  have hu : ((m.1.dev.takeSnap devTable x m.2).1.snap devTable x) =
      { st := m.2, gen := mget 0 s.dev.tab.snapGen devTable + 1, state := 1 } := by
    unfold Device.takeSnap
    dsimp only
    rw [Device.snap_updSnap, if_pos rfl]
    rfl
  refine happens_done (u := { m.1 with dev := (m.1.dev.takeSnap devTable x m.2).1 }) (exec_devsnapTake hs) ht hf ?_ rfl
    (hq_of_begun rfl) fun t h => ⟨h.served rfl rfl, ?_⟩
  · have hx' : (begun s c).dev.freeHandle devTable = some x := hx
    rw [hx']
    rfl
  · obtain ⟨h1, h2⟩ := h.answered.snaps devTable x
    rw [h1, h2]
    exact ⟨congrArg Snap.state hu, congrArg Snap.gen hu⟩

theorem snap_releaseSnap (d : Device) (b h : Nat) : (d.releaseSnap b h).snap b h = { d.snap b h with
    state := if (d.snap b h).state = 1 then 0 else if (d.snap b h).state = 2 then 3 else (d.snap b h).state } := by
  show (d.updSnap b h fun e => { e with state := if e.state = 1 then 0 else if e.state = 2 then 3 else e.state }).snap b h = _
  rw [Device.snap_updSnap, if_pos rfl]

theorem devsnapRelease_happens {s : State} {c : Cmd} {x : Nat} (ht : Taken s c 0x1A whoO) (hx : x ≠ 0) (hw : c.words = [])
    (ha : c.arg.toNat < 256) (he : c.arg.toNat = 16 * x + 1) (hs : (s.dev.snap devTable x).state ≠ 0) :
    Happens (.devsnapRelease c) s fun t => Recorded c 0x1A s t 0 0 ∧
      ((s.dev.snap devTable x).state = 1 → (t.dev.snap devTable x).state = 0) ∧
      ((s.dev.snap devTable x).state = 2 → (t.dev.snap devTable x).state = 3) := by
  have hdiv : c.arg.toNat / 16 = x := by omega
  have hsnap : (begun s c).dev.snap devTable x = s.dev.snap devTable x := rfl
  refine happens_done (u := { begun s c with dev := (begun s c).dev.releaseSnap devTable x })
    (show exec (.devsnapRelease c) s = execDevsnapRelease c s from rfl) ht ?_ ?_ rfl (hq_of_begun rfl) fun t h =>
      ⟨h.recorded, ?_⟩
  · simp only [hw, List.length_nil, beq_self_eq_true, Bool.true_and, Bool.and_eq_true, decide_eq_true_eq]
    omega
  · dsimp only
    rw [hdiv, if_neg hx, hsnap, if_neg hs]
    rfl
  · obtain ⟨h1, -⟩ := h.answered.snaps devTable x
    rw [h1, snap_releaseSnap, hsnap]
    exact ⟨fun g => by simp [g], fun g => by simp [g]⟩

theorem startDrain_spec (d : Device) (b h : Nat) : ((d.startDrain b h).snap b h).state = 2 ∧
    ((d.startDrain b h).block b).drains = (d.block b).drains ++ [h] := by
  unfold Device.startDrain
  constructor
  · show ((d.updSnap b h fun x => { x with state := 2 }).snap b h).state = 2
    rw [Device.snap_updSnap, if_pos rfl]
  · rw [Device.block_updBlock_same]
    rfl

theorem checkpoint_happens {s : State} {c : Cmd} {b : Nat} (ht : Taken s c 0x1B whoO) (hf : plain c 2 0 = true)
    (h0 : pw c 0 = 0xFFFFFFFF ∨ pw c 0 < 32768) (h1 : 1 ≤ pw c 1) (h15 : pw c 1 ≤ 15)
    (hb : b = if pw c 0 = 0xFFFFFFFF then devTable else pw c 0) (hs : (s.dev.snap b (pw c 1)).state = 1) :
    Happens (.checkpoint c) s fun t => Served c 0x1B s t 0 0 ∧ (t.dev.snap b (pw c 1)).state = 2 ∧
      (t.dev.block b).drains = (s.dev.block b).drains ++ [pw c 1] := by
  obtain ⟨hst, hd⟩ := startDrain_spec (begun s c).dev b (pw c 1)
  refine happens_done (u := { begun s c with dev := (begun s c).dev.startDrain b (pw c 1) })
    (show exec (.checkpoint c) s = execCheckpoint c s from rfl) ht hf ?_ rfl (hq_of_begun rfl) fun t h =>
      ⟨h.served rfl rfl, (h.answered.snaps b (pw c 1)).1.trans hst, ?_⟩
  · have hs' : ((begun s c).dev.snap b (pw c 1)).state = 1 := hs
    dsimp only
    rw [← hb, if_neg, if_neg (not_not.mpr hs')]
    · rfl
    · rintro (⟨h, h'⟩ | h | h)
      · rw [if_neg h'] at hb
        omega
      · omega
      · omega
  · rw [h.answered.block]
    exact hd

/-! ## Meters (R343, R344) -/

theorem meterBytes_length (d : Device) (ten : Nat) : (d.meterBytes ten).length = 64 := by
  unfold Device.meterBytes
  simp only [List.flatMap_cons, List.flatMap_nil, List.length_append, length_toBytes, List.length_nil]

theorem meterRead_happens {s : State} {c : Cmd} (ht : Taken s c 0x1D whoMT) (hf : plain c 3 0 = true) (h0 : pw c 0 < 4096)
    (hr : s.dev.reaches c.who (pw c 0) = true) :
    Happens (.meterRead c) s fun t => Served c 0x1D s t 0 0 ∧ (c.cpl = false →
      t.dev.hostRead (s.dev.hq c.q).fn (s.dev.hq c.q).pasid (pd c 1) 64 = s.dev.meterBytes (pw c 0)) := by
  refine happens_put (u := begun s c) (a := pd c 1) (bs := s.dev.meterBytes (pw c 0))
    (show exec (.meterRead c) s = execMeterRead c s from rfl) ht hf ?_ rfl rfl rfl rfl fun t _ h hc => ?_
  · have hr' : (begun s c).dev.reaches c.who (pw c 0) = true := hr
    rw [if_neg (by omega), hr']
    rfl
  · have := h hc
    rwa [meterBytes_length] at this

theorem meterReport_happens {s : State} {c : Cmd} (ht : Taken s c 0x1E whoMT) (hf : plain c 4 0 = true) (h0 : 0 < pw c 1)
    (h1 : pw c 1 ≤ 4096) (h2 : pw c 0 + pw c 1 ≤ 4096) (hr : ∀ i, i < pw c 1 → s.dev.reaches c.who (pw c 0 + i) = true) :
    Happens (.meterReport c) s fun t => Served c 0x1E s t 0 (word (160 + 64 * pw c 1)) ∧
      t.dev.dice.reportSeq = s.dev.dice.reportSeq + 1 ∧ ∃ st, Above st s.dev.top ∧ (c.cpl = false →
        t.dev.hostRead (s.dev.hq c.q).fn (s.dev.hq c.q).pasid (pd c 2) (s.dev.meterReport (pw c 0) (pw c 1) st).length =
          s.dev.meterReport (pw c 0) (pw c 1) st) := by
  let m : State × Nat := (begun s c).masterStamp
  refine happens_put (u := { m.1 with dev := { m.1.dev with dice := { m.1.dev.dice with reportSeq := m.1.dev.dice.reportSeq + 1 } } })
    (a := pd c 2) (bs := s.dev.meterReport (pw c 0) (pw c 1) m.2)
    (show exec (.meterReport c) s = execMeterReport c s from rfl) ht hf ?_ rfl rfl rfl rfl fun t ha h =>
      ⟨?_, m.2, above_stampAbove _ _, h⟩
  · have hr' : ((List.range (pw c 1)).all fun i => (begun s c).dev.reaches c.who (pw c 0 + i)) = true :=
      List.all_eq_true.mpr fun i hi => hr i (List.mem_range.mp hi)
    dsimp only
    rw [if_neg (by omega), hr']
    rfl
  · rw [ha.dice]
    rfl

/-! ## Control ownership (R350, R360, R361, R469) -/

theorem ownerIs_agent {d : Device} {a : Nat} (ha : isAgent a = true) (h : d.out.owner = ownerIs a) :
    d.owner = some a ∧ d.handing = false := by
  have ha' : a < 4 := of_decide_eq_true ha
  unfold Device.owner Device.handing
  rw [h]
  match a, ha' with
  | 0, _ => exact ⟨rfl, rfl⟩
  | 1, _ => exact ⟨rfl, rfl⟩
  | 2, _ => exact ⟨rfl, rfl⟩
  | 3, _ => exact ⟨rfl, rfl⟩

theorem isAgent_of_allows {d : Device} {who : Nat} (h : d.allows { m := true } who = true) : isAgent who = true := by
  simpa [Device.allows] using h

theorem Answered.owner_out {d e : Device} (h : Answered d e) : e.out.owner = d.out.owner := h.outside (·.owner) fun _ _ _ _ _ => rfl

theorem Answered.owner {d e : Device} (h : Answered d e) : e.owner = d.owner := by
  unfold Device.owner
  rw [h.owner_out]

theorem Answered.handing {d e : Device} (h : Answered d e) : e.handing = d.handing := by
  unfold Device.handing
  rw [h.owner_out, h.cycle, h.outside (·.handover) fun _ _ _ _ _ => rfl]

theorem exec_ownerClaim {s : State} {c : Cmd} (h : s.dev.claimTurn c.who = true) : exec (.ownerClaim c) s =
    s.command c 0x20 (c.words.length == 1 && c.arg == 0 && pw c 0 == 0) { m := true } fun t =>
      let u : State := { t with dev := t.dev.updOut fun o => { o with claimed := some (t.dev.cycle, c.who) } }
      if u.dev.owner.isSome ∧ c.who ≠ 3 then refuse u 2
      else
        let d := u.dev.setOwner (ownerIs c.who)
        doneOk { u with dev := d } d.ownerReg := by
  show execOwnerClaim c s = _
  unfold execOwnerClaim
  rw [h]
  rfl

theorem ownerClaim_happens {s : State} {c : Cmd} (ht : Taken s c 0x20 { m := true }) (hw : c.words.length = 1) (h0 : pw c 0 = 0)
    (ha : c.arg = 0) (hturn : s.dev.claimTurn c.who = true) (ho : s.dev.owner = none ∨ c.who = 3) :
    Happens (.ownerClaim c) s fun t => Served c 0x20 s t 0 (t.dev.out.owner.zeroExtend 64) ∧ t.dev.owner = some c.who ∧
      t.dev.handing = false := by
  let u : State := { begun s c with
    dev := ((begun s c).dev.updOut fun o => { o with claimed := some (s.dev.cycle, c.who) }).setOwner (ownerIs c.who) }
  obtain ⟨hown, hh⟩ := ownerIs_agent (d := u.dev) (isAgent_of_allows ht.2) rfl
  refine happens_done (u := u) (status := 0) (result := (ownerIs c.who).zeroExtend 64) (exec_ownerClaim hturn) ht ?_ ?_ rfl
    (hq_of_begun rfl) fun t h => ?_
  · simp [hw, ha, h0]
  · have howner : ((begun s c).dev.updOut fun o => { o with claimed := some ((begun s c).dev.cycle, c.who) }).owner = s.dev.owner :=
      rfl
    dsimp only
    rw [howner, if_neg]
    · rfl
    · rintro ⟨h1, h2⟩
      rcases ho with ho | ho
      · rw [ho] at h1
        exact absurd h1 (by decide)
      · exact h2 ho
  · have hreg : t.dev.out.owner = ownerIs c.who := h.answered.owner_out
    exact ⟨hreg ▸ h.served rfl rfl, h.answered.owner.trans hown, h.answered.handing.trans hh⟩

theorem ownerAccept_happens {s : State} {c : Cmd} (ht : Taken s c 0x20 { m := true }) (hw : c.words.length = 1)
    (h0 : pw c 0 = 0) (ha : c.arg = 2) (hh : s.dev.handing = true) (hwho : bits s.dev.out.owner 5 4 = c.who) :
    Happens (.ownerAccept c) s fun t => Served c 0x20 s t 0 (t.dev.out.owner.zeroExtend 64) ∧ t.dev.owner = some c.who ∧
      t.dev.handing = false := by
  let u : State := { begun s c with dev := (begun s c).dev.setOwner (ownerIs c.who) }
  obtain ⟨hown, hend⟩ := ownerIs_agent (d := u.dev) (isAgent_of_allows ht.2) rfl
  refine happens_done (u := u) (status := 0) (result := (ownerIs c.who).zeroExtend 64)
    (show exec (.ownerAccept c) s = execOwnerAccept c s from rfl) ht ?_ ?_ rfl (hq_of_begun rfl) fun t h => ?_
  · simp [hw, ha, h0]
  · have hh' : (begun s c).dev.handing = true := hh
    have hwho' : bits (begun s c).dev.out.owner 5 4 = c.who := hwho
    dsimp only
    rw [hh', hwho', if_neg (by simp)]
    rfl
  · have hreg : t.dev.out.owner = ownerIs c.who := h.answered.owner_out
    exact ⟨hreg ▸ h.served rfl rfl, h.answered.owner.trans hown, h.answered.handing.trans hend⟩

/-- A field of the `owner` register written leaves the bits outside it. -/
theorem getLsbD_setBits_out {x : BitVec 8} {hi lo v i : Nat} (hl : lo ≤ hi) (hi' : i < 8) (h : i < lo ∨ hi < i) :
    (setBits x hi lo v).getLsbD i = x.getLsbD i := by
  rw [getLsbD_setBits x hi lo v i hl hi', if_neg (by omega)]

/-- Registers whose bits 2 to 0 agree elect the same agent. -/
theorem owner_congr {d e : Device} (h : ∀ i, i < 3 → e.out.owner.getLsbD i = d.out.owner.getLsbD i) : e.owner = d.owner := by
  have hb : e.out.owner.extractLsb' 0 2 = d.out.owner.extractLsb' 0 2 := by
    apply BitVec.eq_of_getLsbD_eq
    intro i hi
    rw [BitVec.getLsbD_extractLsb', BitVec.getLsbD_extractLsb', Nat.zero_add, h i (by omega)]
  unfold Device.owner bits
  rw [h 2 (by omega), hb]

/-- The `owner` register with a handover to `x` pending (R361). -/
def handedTo (o : BitVec 8) (x : Nat) : BitVec 8 := setBits (setBits o 5 4 x) 7 7 1

theorem handedTo_low (o : BitVec 8) (x i : Nat) (h : i < 3) : (handedTo o x).getLsbD i = o.getLsbD i := by
  unfold handedTo
  rw [getLsbD_setBits_out (by omega) (by omega) (by omega), getLsbD_setBits_out (by omega) (by omega) (by omega)]

theorem handedTo_pending (o : BitVec 8) (x : Nat) : (handedTo o x).getLsbD 7 = true := by
  unfold handedTo
  rw [getLsbD_setBits _ _ _ _ _ (by omega) (by omega)]
  simp

theorem handedTo_target (o : BitVec 8) {x : Nat} (h : x ≤ 3) : bits (handedTo o x) 5 4 = x := by
  have he : (handedTo o x).extractLsb' 4 2 = BitVec.ofNat 2 x := by
    apply BitVec.eq_of_getLsbD_eq
    intro i hi
    unfold handedTo
    rw [BitVec.getLsbD_extractLsb', getLsbD_setBits_out (by omega) (by omega) (by omega),
      getLsbD_setBits _ _ _ _ _ (by omega) (by omega), if_pos (by omega), Nat.add_sub_cancel_left, BitVec.getLsbD_ofNat]
  show ((handedTo o x).extractLsb' 4 2).toNat = x
  rw [he, BitVec.toNat_ofNat]
  omega

theorem ownerHandover_happens {s : State} {c : Cmd} (ht : Taken s c 0x20 whoO) (hw : c.words.length = 1) (ha : c.arg = 1)
    (h3 : pw c 0 ≤ 3) :
    Happens (.ownerHandover c) s fun t => Served c 0x20 s t 0 (t.dev.out.owner.zeroExtend 64) ∧ t.dev.owner = s.dev.owner ∧
      t.dev.handing = true ∧ bits t.dev.out.owner 5 4 = pw c 0 := by
  let u : State := { begun s c with dev := (begun s c).dev.updOut fun x =>
    { x with owner := handedTo s.dev.out.owner (pw c 0), handover := s.dev.cycle } }
  refine happens_done (u := u) (status := 0) (result := (handedTo s.dev.out.owner (pw c 0)).zeroExtend 64)
    (show exec (.ownerHandover c) s = execOwnerHandover c s from rfl) ht ?_ ?_ rfl (hq_of_begun rfl) fun t h => ?_
  · simp [hw, ha]
  · dsimp only
    rw [if_neg (by omega)]
    rfl
  · have hreg : t.dev.out.owner = handedTo s.dev.out.owner (pw c 0) := h.answered.owner_out
    refine ⟨hreg ▸ h.served rfl rfl, owner_congr fun i hi => ?_, h.answered.handing.trans ?_, ?_⟩
    · rw [hreg, handedTo_low _ _ _ hi]
    · show ((handedTo s.dev.out.owner (pw c 0)).getLsbD 7 && decide (s.dev.cycle ≤ s.dev.cycle + cyclesMs 1000)) = true
      rw [handedTo_pending]
      simp
    · rw [hreg, handedTo_target _ h3]

theorem cyclesMs_second : cyclesMs 1000 = 1800000000 := by decide

theorem handoverLapse_happens {s : State} (hp : s.dev.out.owner.getLsbD 7 = true)
    (hl : s.dev.out.handover + 1800000000 ≤ s.dev.cycle) :
    Happens .handoverLapse s fun t => Apart s t ∧ t.dev.handing = false ∧ t.dev.owner = s.dev.owner := by
  have hdue : (s.dev.out.owner.getLsbD 7 && decide (s.dev.out.handover + cyclesMs 1000 ≤ s.dev.cycle)) = true := by
    rw [hp, cyclesMs_second, Bool.true_and]
    exact decide_eq_true hl
  refine ⟨{ s with dev := s.dev.setOwner (setBits s.dev.out.owner 7 7 0), last := .done }, ?_, rfl, ⟨rfl, fun _ => rfl⟩, ?_, ?_⟩
  · show execHandoverLapse s = _
    unfold execHandoverLapse
    rw [hdue]
    rfl
  · show ((setBits s.dev.out.owner 7 7 0).getLsbD 7 && _) = false
    rw [getLsbD_setBits _ _ _ _ _ (by omega) (by omega)]
    simp
  · exact owner_congr fun i hi => getLsbD_setBits_out (by omega) (by omega) (by omega)

/-- The commands that an agent revokes wait on in their queues. -/
theorem revoke_spec (d : Device) (a : Nat) : ∃ q, d.revoke a = { d with out := { d.out with hostq := q } } := by
  unfold Device.revoke
  dsimp only
  generalize (d.out.hostq.map (·.1)).filter _ = l
  suffices h : ∀ e : Device, ∃ q, l.foldl (fun x q => x.updHq q fun h => { h with revoked := some (d.wptrOf q) }) e =
      { e with out := { e.out with hostq := q } } from h d
  induction l with
  | nil => exact fun e => ⟨e.out.hostq, rfl⟩
  | cons n r ih =>
    intro e
    obtain ⟨q, hq⟩ := ih (e.updHq n fun h => { h with revoked := some (d.wptrOf n) })
    exact ⟨q, hq⟩

theorem ownerChannelLost_happens {s : State} {a : Nat} (ha : s.dev.owner = some a) (hl : s.dev.channelLost a = true) :
    Happens .ownerChannelLost s fun t => Apart s t ∧ t.dev.owner = none ∧ t.dev.handing = false := by
  let o : BitVec 8 := setBits (setBits s.dev.out.owner 2 2 0) 7 7 0
  let d : Device := (s.dev.setOwner o).updPcie fun p => { p with reset0 := if a = 0 then false else p.reset0 }
  obtain ⟨q, hr⟩ := revoke_spec d a
  obtain ⟨e, he⟩ := postDev_spec (d.revoke a) 6 0 agCommand 0
  have hdev : (d.revoke a).postDev 6 0 agCommand 0 = { d with out := { d.out with hostq := q }, err := e } := by rw [he, hr]
  refine ⟨{ s with dev := { d with out := { d.out with hostq := q }, err := e }, last := .done }, ?_, rfl, ⟨rfl, fun _ => rfl⟩,
    ?_, ?_⟩
  · show execOwnerChannelLost s = _
    unfold execOwnerChannelLost
    simp only [ha, hl, guardOpt, Option.bind_eq_bind, Option.bind_some, if_true]
    rw [← hdev]
    rfl
  · show (if o.getLsbD 2 then some (bits o 1 0) else none) = none
    unfold o
    rw [getLsbD_setBits_out (by omega) (by omega) (by omega), getLsbD_setBits _ _ _ _ _ (by omega) (by omega)]
    simp
  · show (o.getLsbD 7 && _) = false
    unfold o
    rw [getLsbD_setBits _ _ _ _ _ (by omega) (by omega)]
    simp

/-! ## Registers and access control (R349, R350, R369, R410, R411) -/

theorem readReg_begun (s : State) (c : Cmd) (off : Nat) : (begun s c).dev.readReg off = s.dev.readReg off := by
  have hq : ∀ n i, ((begun s c).dev.hq n).read i = (s.dev.hq n).read i := by
    intro n i
    have h : (begun s c).dev.hq n = if n = c.q then { s.dev.hq c.q with seq := (s.dev.hq c.q).seq + 1 } else s.dev.hq n :=
      mget_mset ..
    rw [h]
    split
    · rename_i he
      rw [he]
      unfold HostQ.read
      split <;> rfl
    · rfl
  have hmanage : ∀ o, (begun s c).dev.readManagement o = s.dev.readManagement o := fun o => by
    unfold Device.readManagement
    rfl
  have hmemory : ∀ o, (begun s c).dev.readMemory o = s.dev.readMemory o := fun o => by
    unfold Device.readMemory
    split <;> rfl
  unfold Device.readReg
  rw [hq, hmanage, hmemory]
  rfl

theorem regRead_happens {s : State} {c : Cmd} (ht : Taken s c 0x24 { m := true }) (hf : plain c 1 0 = true)
    (ho : regOffset (pw c 0) = true) :
    Happens (.regRead c) s fun t => Served c 0x24 s t 0 (s.dev.readReg (pw c 0)) ∧
      (pw c 0 = 0x100058 → s.dev.owner = some c.who → t.dev.mm.faq = s.dev.mm.faq.drop 1) := by
  let u : State := ((begun s c).readReg (pw c 0) (s.dev.owner == some c.who)).1
  have hu : u = begun s c ∨ u = { begun s c with dev := (begun s c).dev.faqPop } := by
    unfold u State.readReg
    split
    · exact .inr rfl
    · exact .inl rfl
  obtain ⟨hlast, hq, hctxs, hmem⟩ : u.last = .done ∧ u.dev.out.hostq = (begun s c).dev.out.hostq ∧ u.dev.ctxs = s.dev.ctxs ∧
      u.dev.mem = s.dev.mem := by
    rcases hu with h | h
    · rw [h]
      exact ⟨rfl, rfl, rfl, rfl⟩
    · rw [h]
      exact ⟨rfl, rfl, rfl, rfl⟩
  refine happens_done (u := u) (status := 0) (result := s.dev.readReg (pw c 0))
    (show exec (.regRead c) s = execRegRead c s from rfl) ht hf ?_ ?_ (hq_of_begun ?_) fun t h => ⟨h.served ?_ ?_, fun he hown => ?_⟩
  · rw [ho]
    show CmdEnd.done u 0 ((begun s c).dev.readReg (pw c 0)) = _
    rw [readReg_begun]
  · exact hlast
  · exact hq
  · exact hctxs
  · exact hmem
  · obtain ⟨w, z, hm⟩ := h.answered.mm
    have hu' : u = { begun s c with dev := (begun s c).dev.faqPop } := by
      unfold u State.readReg
      rw [hown, if_pos (by simp [he])]
    rw [hm, hu']
    rfl

theorem out_foldl {α : Type} (f : Device → α → Device) (h : ∀ d x, (f d x).out = d.out) (l : List α) (d : Device) :
    (l.foldl f d).out = d.out := by
  induction l generalizing d with
  | nil => rfl
  | cons x r ih => exact (ih _).trans (h d x)

theorem out_writeManagement (d : Device) (off : Nat) (v : Word) : (d.writeManagement off v).out = d.out := by
  unfold Device.writeManagement
  extract_lets i
  split
  · unfold Device.writeUgreq
    refine out_foldl _ (fun x i => ?_) _ _
    rfl
  · split
    · unfold Device.writeCoff
      refine out_foldl _ (fun x i => ?_) _ _
      split <;> rfl
    · split
      · rfl
      · split <;> rfl

theorem out_quarantine (d : Device) (page fs : Word) : (d.quarantine page fs).out = d.out := by
  rcases Nat.lt_or_ge d.mm.ring.length 16384 with h | h
  · obtain ⟨w, hw⟩ := quarantine_room d page fs h
    obtain ⟨m, l, hr⟩ := ringWrite_spec d page (word (max fs.toNat d.mm.lastAck))
    rw [hw, hr]
  · obtain ⟨e, he⟩ := quarantine_full d page fs h
    rw [he]

theorem out_addBadPage (d : Device) (v : Word) : (d.addBadPage v).out = d.out := by
  unfold Device.addBadPage Device.retired
  split
  · rfl
  · split
    · obtain ⟨e, he⟩ := post_spec (d.postDev 5 0 agMemory 0)
        { cls := 7, agent := BitVec.ofNat 16 agMemory, pa := some (BitVec.ofNat 52 (bits v 51 16 * 65536)), aux := word 5 }
      obtain ⟨e', he'⟩ := postDev_spec d 5 0 agMemory 0
      rw [he, he']
    · rfl

theorem out_writeMemory (d : Device) (off : Nat) (v : Word) : (d.writeMemory off v).out = d.out := by
  have here : ∀ (b : Prop) [Decidable b] (x : Device), x.out = d.out → (if b then x else d).out = d.out := by
    intro b _ x hx
    split
    · exact hx
    · rfl
  unfold Device.writeMemory
  extract_lets m free
  split
  · exact here _ _ rfl
  · rfl
  · exact out_quarantine ..
  · rfl
  · exact here _ _ rfl
  · obtain ⟨e, he⟩ := lowWater_spec d { d with mm := { m with vhlen := v.extractLsb' 0 32 } }
    exact here _ _ (by rw [he])
  · exact here _ _ rfl
  · exact out_addBadPage ..
  · rfl
  · rfl
  · rfl
  · rfl

theorem write_enabled {h : HostQ} (he : h.en = true) (i : Nat) (v : Word) : h.write i v = h := by
  unfold HostQ.write
  rw [if_pos he]

/-- A register write leaves an agent's channel, and a queue that runs (R351). -/
theorem hq_writeReg {d : Device} {q : Nat} (h : isChannel q = true ∨ (d.hq q).en = true) (off : Nat) (v : Word) :
    (d.writeReg off v).hq q = d.hq q := by
  have of_out : ∀ x : Device, x.out = d.out → x.hq q = d.hq q := fun x hx => by
    unfold Device.hq
    rw [hx]
  unfold Device.writeReg
  split
  · exact of_out _ (out_writeManagement ..)
  · split
    · rfl
    · split
      · exact of_out _ (out_writeMemory ..)
      · split
        · unfold Device.writeController
          split
          · rfl
          · split <;> rfl
        · split
          · rename_i _ _ _ _ hoff
            have hset : (d.updHq ((off - 0x400000) / 32) fun k => k.write (off / 8 % 4) v).hq q =
                if q = (off - 0x400000) / 32 then (d.hq ((off - 0x400000) / 32)).write (off / 8 % 4) v else d.hq q := mget_mset ..
            rw [hset]
            split
            · rename_i hq
              rcases h with h | h
              · have : 16384 ≤ q := of_decide_eq_true h
                omega
              · rw [← hq]
                exact write_enabled h ..
            · rfl
          · rfl

theorem retried_spec (s : State) : Noticed { s.dev with mm := { s.dev.mm with waiting := [] } } s.retried.dev ∧
    s.retried.last = s.last := by
  obtain ⟨d, f, -, e⟩ := storeAll_spec s.dev.mm.waiting { s with dev := { s.dev with mm := { s.dev.mm with waiting := [] } } }
  constructor
  · exact noticed_storeAll ..
  · unfold State.retried
    rw [e]

theorem regWrite_happens {s : State} {c : Cmd} (ht : Taken s c 0x25 whoO) (hf : plain c 3 0 = true)
    (ho : regOffset (pw c 0) = true) :
    (Happens (.regWrite c) s fun t => Recorded c 0x25 s t 0 0 ∧ t.dev.ctxs = s.dev.ctxs ∧
      (pw c 0 = 0x100028 → t.dev.mm.vtsel = (word (pd c 1)).extractLsb' 0 12)) ∧
    (s.dev.mm.waiting = [] → c.cpl = false → Becomes (.regWrite c) s
      (((s.dev.served c.q).updHq c.q fun k => { k with seq := k.seq + 1 }).writeReg (pw c 0) (word (pd c 1)))) := by
  let d : Device := (begun s c).dev.writeReg (pw c 0) (word (pd c 1))
  let u : State := { begun s c with dev := d }
  have hx : exec (.regWrite c) s = execRegWrite c s := rfl
  obtain ⟨hkeep, hwait⟩ := keepsWaiting_writeReg (begun s c).dev (pw c 0) (word (pd c 1))
  constructor
  · obtain ⟨hn, hl⟩ := retried_spec u
    have hq : u.retried.dev.hq c.q = (begun s c).dev.hq c.q := by
      have h1 : u.retried.dev.hq c.q = d.hq c.q := by
        unfold Device.hq
        rw [written_out hn.1]
      rw [h1]
      refine hq_writeReg ?_ _ _
      cases hch : isChannel c.q
      · refine .inr ?_
        rw [begun_hq]
        exact en_of_takes ht.1 hch
      · exact .inl rfl
    refine happens_done (u := u.retried) (status := 0) (result := 0) hx ht hf ?_ hl (hq.trans (begun_hq s c)) fun t h =>
      ⟨h.recorded, h.answered.ctxs.trans ((retried_ctxs u).trans hkeep), fun he => ?_⟩
    · rw [ho]
      rfl
    · obtain ⟨w, z, hm⟩ := h.answered.mm
      obtain ⟨w', z', hm'⟩ := hn.2.2
      have hd : d.mm.vtsel = (word (pd c 1)).extractLsb' 0 12 := by
        unfold d
        rw [he]
        rfl
      rw [hm, hm']
      exact hd
  · intro hw hc
    have hu : u.retried = u := retried_none u (hwait.trans hw)
    unfold Becomes
    rw [hx]
    unfold execRegWrite
    rw [command_taken ht hf, ho]
    show Host.Outcome.next (u.retried.complete c.q _ _ c.cpl 0 0) = _
    rw [hu, served_updHq]
    unfold State.complete
    simp only [hc, Bool.not_false, if_true]
    rfl

theorem aclWrite_happens {s : State} {c : Cmd} (ht : Taken s c 0x28 whoO) (hf : plain c 9 0 = true) (h0 : pw c 0 < 8192) :
    Happens (.aclWrite c) s fun t => Served c 0x28 s t 0 0 ∧
      (mget ({} : Acl) t.dev.out.acl (pw c 0)).w0 = word (pd c 1) &&& 0xC0FFFFFFF00001FF ∧
      (mget ({} : Acl) t.dev.out.acl (pw c 0)).w1 = word (pd c 3) ∧ (mget ({} : Acl) t.dev.out.acl (pw c 0)).w2 = word (pd c 5) := by
  let e : Acl := { w0 := word (pd c 1) &&& 0xC0FFFFFFF00001FF, w1 := word (pd c 3), w2 := word (pd c 5) }
  refine happens_done (u := { begun s c with dev := (begun s c).dev.updOut fun o => { o with acl := mset o.acl (pw c 0) e } })
    (status := 0) (result := 0) (show exec (.aclWrite c) s = execAclWrite c s from rfl) ht hf ?_ rfl (hq_of_begun rfl) fun t h =>
      ⟨h.served rfl rfl, ?_⟩
  · dsimp only
    rw [if_neg (by omega)]
    rfl
  · have he : mget ({} : Acl) t.dev.out.acl (pw c 0) = e := by
      rw [h.answered.outside (·.acl) fun _ _ _ _ _ => rfl]
      exact mget_mset_same ..
    rw [he]
    exact ⟨rfl, rfl, rfl⟩

/-! ## Firmware images (R364, R365, R474) -/

theorem fw_updFw (d : Device) (f : Nat) (g : Firm → Firm) : (d.updFw f g).fw f = g (d.fw f) := mget_mset_same ..

theorem fill_spec (g : Firm) (b valid : Bool) (dig : Option (List Byte)) : (g.fill b valid dig).valid b = valid ∧
    (g.fill b valid dig).running = g.running ∧ (g.fill b valid dig).valid (!b) = g.valid (!b) := by
  unfold Firm.fill Firm.valid
  cases b <;> exact ⟨rfl, rfl, rfl⟩

theorem Answered.fw {d e : Device} (h : Answered d e) (f : Nat) : e.fw f = d.fw f := by
  unfold Device.fw
  rw [h.outside (·.firm) fun _ _ _ _ _ => rfl]

/-- The slot that function `f` does not run holds a passing image or none, and the slot that it runs is as before. -/
def StagedAs (s t : State) (f : Nat) (ok : Bool) : Prop :=
  (t.dev.fw f).valid (!(s.dev.fw f).running) = ok ∧ (t.dev.fw f).running = (s.dev.fw f).running ∧
    (t.dev.fw f).valid (s.dev.fw f).running = (s.dev.fw f).valid (s.dev.fw f).running

theorem fwStage_happens {s : State} {c : Cmd} (ht : Taken s c 0x22 { o := true }) (hw : c.words.length = 4) (ha : c.arg = 0)
    (h7 : pw c 0 ≤ 7) (hp : (s.dev.fw (pw c 0)).probation = none) {ok : Bool}
    (hpass : imagePasses (pw c 0) (s.dev.cmdGet c.q false (pd c 1) (pw c 3)) = ok) :
    Happens (.fwStage c) s fun t => Served c 0x22 s t (if ok then 0 else 14) 0 ∧ StagedAs s t (pw c 0) ok := by
  let dig : Option (List Byte) := if ok then some (sha384 (s.dev.cmdGet c.q false (pd c 1) (pw c 3))) else none
  let d : Device := (begun s c).dev.updFw (pw c 0) fun g => g.fill (!g.running) ok dig
  have hfw : d.fw (pw c 0) = (s.dev.fw (pw c 0)).fill (!(s.dev.fw (pw c 0)).running) ok dig := fw_updFw ..
  obtain ⟨h1, h2, h3⟩ := fill_spec (s.dev.fw (pw c 0)) (!(s.dev.fw (pw c 0)).running) ok dig
  refine happens_done (u := { begun s c with dev := d }) (result := 0) (show exec (.fwStage c) s = execFwStage c s from rfl)
    ht ?_ ?_ rfl (hq_of_begun rfl) fun t h => ⟨h.served rfl rfl, ?_⟩
  · simp [hw, ha]
  · have hp' : ((begun s c).dev.fw (pw c 0)).probation = none := hp
    dsimp only
    rw [if_neg (by omega), hp', cmdGet_begun, hpass]
    cases ok <;> rfl
  · unfold StagedAs
    rw [h.answered.fw]
    refine ⟨(congrArg (Firm.valid · _) hfw).trans h1, (congrArg Firm.running hfw).trans h2,
      (congrArg (Firm.valid · _) hfw).trans ?_⟩
    rwa [Bool.not_not] at h3

theorem fwStage_passing {s : State} {c : Cmd} (ht : Taken s c 0x22 { o := true }) (hw : c.words.length = 4) (ha : c.arg = 0)
    (h7 : pw c 0 ≤ 7) (hp : (s.dev.fw (pw c 0)).probation = none)
    (hpass : imagePasses (pw c 0) (s.dev.cmdGet c.q false (pd c 1) (pw c 3)) = true) :
    Happens (.fwStage c) s fun t => Served c 0x22 s t 0 0 ∧ StagedAs s t (pw c 0) true := by
  have h := fwStage_happens ht hw ha h7 hp hpass
  simpa only [Bool.false_eq_true, if_true, if_false] using h

theorem fwStage_failing {s : State} {c : Cmd} (ht : Taken s c 0x22 { o := true }) (hw : c.words.length = 4) (ha : c.arg = 0)
    (h7 : pw c 0 ≤ 7) (hp : (s.dev.fw (pw c 0)).probation = none)
    (hpass : imagePasses (pw c 0) (s.dev.cmdGet c.q false (pd c 1) (pw c 3)) = false) :
    Happens (.fwStage c) s fun t => Served c 0x22 s t 14 0 ∧ StagedAs s t (pw c 0) false := by
  have h := fwStage_happens ht hw ha h7 hp hpass
  simpa only [Bool.false_eq_true, if_true, if_false] using h

theorem fwActivate_happens {s : State} {c : Cmd} (ht : Taken s c 0x23 { o := true }) (hw : c.words.length = 1) (ha : c.arg = 0)
    (h7 : pw c 0 ≤ 7) (hp : (s.dev.fw (pw c 0)).probation = none)
    (hv : (s.dev.fw (pw c 0)).valid (!(s.dev.fw (pw c 0)).running) = true) :
    Happens (.fwActivate c) s fun t => Apart s t ∧ UnderWay c 0x23 s t (.activate (pw c 0)) ∧
      (t.dev.fw (pw c 0)).running = !(s.dev.fw (pw c 0)).running ∧ (t.dev.fw (pw c 0)).probation.isSome = true := by
  let g : Firm := s.dev.fw (pw c 0)
  let started : Firm := { g with
    running := !g.running, cnt := 0, last := s.dev.cycle, sends := [], held := none,
    probation := some { since := s.dev.cycle, slot := g.running, cnt := g.cnt, sends := g.sends } }
  have hfw : ((begun s c).dev.updFw (pw c 0) fun _ => started).fw (pw c 0) = started := fw_updFw ..
  obtain ⟨u, hu, hl, hc, hm, hf⟩ : ∃ u, u = { begun s c with
      dev := ((begun s c).dev.updFw (pw c 0) fun _ => started).logRunning (pw c 0) } ∧ u.last = .done ∧
      u.dev.ctxs = s.dev.ctxs ∧ u.dev.mem = s.dev.mem ∧ u.dev.fw (pw c 0) = started :=
    ⟨_, rfl, rfl, rfl, by simp only [Device.logRunning, Device.extendLog, Device.updFw, Device.updOut_mem]; rfl, hfw⟩
  refine happens_under (show exec (.fwActivate c) s = execFwActivate c s from rfl) ht ?_ ?_ hl fun l h =>
    ⟨apart_of hc hm, h, (congrArg Firm.running hf).trans rfl, (congrArg (Option.isSome ∘ Firm.probation) hf).trans rfl⟩
  · simp [hw, ha]
  · have hp' : ((begun s c).dev.fw (pw c 0)).probation = none := hp
    have hv' : ((begun s c).dev.fw (pw c 0)).valid (!((begun s c).dev.fw (pw c 0)).running) = true := hv
    dsimp only
    rw [if_neg (by omega), hp', hv', if_neg (by decide), hu]
    rfl

/-! ## Launches (R369 to R371, R472) -/

theorem exec_launch {s : State} {c : Cmd} (h : s.dev.launchHeld c.who = false) : exec (.launch c) s =
    s.command c 0x30 (decide (6 ≤ c.words.length) && c.words.length == 6 + pw c 5 && decide (c.arg.toNat < 8))
      { o := true, d := true } (launchPerform c) := by
  show execLaunch c s = _
  unfold execLaunch
  rw [h]
  rfl

theorem exec_gangLaunch {s : State} {c : Cmd} (h : s.dev.launchHeld c.who = false) : exec (.gangLaunch c) s =
    s.command c 0x31 (decide (4 ≤ c.words.length) && c.words.length == 4 + 3 * pw c 0 + pw c 3 && decide (c.arg.toNat < 8))
      { o := true, d := true } (gangPerform c) := by
  show execGangLaunch c s = _
  unfold execGangLaunch
  rw [h]
  rfl

theorem launch_happens {s : State} {c : Cmd} (hh : s.dev.launchHeld c.who = false) (ha : c.arg.toNat < 8)
    (ht : Taken s c 0x30 { o := true, d := true }) (hw : c.words.length = 6 + pw c 5) (hn : pw c 5 ≤ 1024)
    (h0 : pw c 0 < 512) (h1 : pw c 1 < 32768) (h2 : pw c 2 < 256) (hd : pw c 0 ≠ s.dev.out.devno.toNat)
    (hr : s.dev.reachable (pw c 0) = true) :
    Happens (.launch c) s fun t => Apart s t ∧ UnderWay c 0x30 s t (.launch s.dev.out.nextLaunch) ∧
      ∃ l : LaunchPacket, t.dev.out.outbox = s.dev.out.outbox ++ [.launch (pw c 0) l] ∧ l.id = s.dev.out.nextLaunch ∧
        l.blk = pw c 1 ∧ l.gen.toNat = pw c 2 ∧ l.payload = wordBytes (c.words.drop 6) ∧ l.gang = false := by
  let b : State := begun s c
  let l : LaunchPacket := {
    sdev := b.dev.out.devno, ten := b.dev.launchTenant c.who, id := b.dev.out.nextLaunch, blk := pw c 1,
    gen := BitVec.ofNat 8 (pw c 2), pcls := c.arg.extractLsb' 0 3, gang := false, payload := wordBytes (c.words.drop 6) }
  let x : Launch := { q := c.q, reply := replyAddr b.dev c.q (pd c 3), members := [(pw c 0, pw c 1)], since := b.dev.cycle }
  have hsend : b.sendLaunch (pw c 0) l = .sent { b with dev := b.dev.send (.launch (pw c 0) l) } := by
    have hd' : pw c 0 ≠ b.dev.out.devno.toNat := hd
    have hr' : b.dev.reachable (pw c 0) = true := hr
    unfold State.sendLaunch
    rw [if_neg hd', if_pos hr']
  obtain ⟨u, hu, hlast, hc, hm, hbox⟩ : ∃ u, u = { b with
      dev := (b.dev.send (.launch (pw c 0) l)).noteLaunch b.dev.out.nextLaunch 1 x } ∧ u.last = .done ∧
      u.dev.ctxs = s.dev.ctxs ∧ u.dev.mem = s.dev.mem ∧ u.dev.out.outbox = s.dev.out.outbox ++ [.launch (pw c 0) l] :=
    ⟨_, rfl, rfl, rfl, by simp only [Device.noteLaunch, Device.send, Device.updOut_mem]; rfl, rfl⟩
  have hgen : (BitVec.ofNat 8 (pw c 2)).toNat = pw c 2 := by
    rw [BitVec.toNat_ofNat]
    omega
  refine happens_under (exec_launch hh) ht ?_ ?_ hlast fun p h => ⟨apart_of hc hm, h, l, hbox, rfl, rfl, hgen, rfl, rfl⟩
  · simp only [hw, beq_self_eq_true, Bool.and_true, Bool.and_eq_true, decide_eq_true_eq]
    omega
  · unfold launchPerform
    dsimp only
    rw [if_neg (by omega)]
    show (match b.sendLaunch (pw c 0) l with
      | .taken t => CmdEnd.under { t with dev := t.dev.noteLaunch b.dev.out.nextLaunch 1 x } (.launch b.dev.out.nextLaunch)
      | .sent t => .under { t with dev := t.dev.noteLaunch b.dev.out.nextLaunch 1 x } (.launch b.dev.out.nextLaunch)
      | .refused r => .done b 8 (word r)
      | .lost => refuse b 15) = _
    rw [hsend, hu]
    rfl

theorem queuePut_last (s : State) (b agent pa : Nat) (bs : List Byte) : (s.queuePut b agent pa bs).last = s.last := by
  obtain ⟨d, f, -, h⟩ := linePut_spec agent (some ((s.dev.block b).get fDkid)) (bs.length / 64 + 2) pa bs s
  unfold State.queuePut
  rw [h]

theorem queuePuts_last {α : Type} (b agent : Nat) (pa : α → Nat) (bytes : α → List Byte) (l : List α) (s : State) :
    (l.foldl (fun t e => t.queuePut b agent (pa e) (bytes e)) s).last = s.last := by
  induction l generalizing s with
  | nil => rfl
  | cons x r ih => exact (ih _).trans (queuePut_last ..)

theorem appendLaunch_last (s : State) (b : Nat) (l : LaunchPacket) : (s.appendLaunch b l).last = s.last := by
  unfold State.appendLaunch
  dsimp -zeta only [State.draw]
  extract_lets m r s2 first s3 d
  have h3 : s3.last = s2.last := queuePuts_last b agHarbour (fun e : List Byte × Nat => m.unitPa (first + e.2)) (fun e => e.1) _ s2
  exact h3.trans (hostq_appendRec _ b r).2

theorem sendLaunch_last (s t : State) (dev : Nat) (l : LaunchPacket)
    (h : s.sendLaunch dev l = .taken t ∨ s.sendLaunch dev l = .sent t) : t.last = s.last := by
  unfold State.sendLaunch State.takeLaunch at h
  dsimp only at h
  split at h
  · split at h
    · split at h
      · rcases h with h | h
        · cases h
          exact appendLaunch_last ..
        · cases h
      · rcases h with h | h <;> cases h
    · split at h
      · split at h
        · rcases h with h | h
          · cases h
          · cases h
            rfl
        · rcases h with h | h <;> cases h
      · rcases h with h | h <;> cases h
  · split at h
    · rcases h with h | h
      · cases h
      · cases h
        rfl
    · rcases h with h | h <;> cases h

theorem gangLaunch_happens {s : State} {c : Cmd} (hh : s.dev.launchHeld c.who = false) (ha : c.arg.toNat < 8)
    (ht : Taken s c 0x31 { o := true, d := true }) (h4 : 4 ≤ c.words.length) (hw : c.words.length = 4 + 3 * pw c 0 + pw c 3)
    (h2 : 2 ≤ pw c 0) (h16 : pw c 0 ≤ 16) (hm : ∀ m ∈ gangMembers c, m.1 < 512 ∧ m.2.1 < 32768 ∧ m.2.2 < 256) :
    Happens (.gangLaunch c) s fun t => UnderWay c 0x31 s t (.launch s.dev.out.nextLaunch) ∧
      t.dev.out.nextLaunch = s.dev.out.nextLaunch + pw c 0 := by
  have hlen : (gangMembers c).length = pw c 0 := by simp [gangMembers]
  have hany : ((gangMembers c).any fun m => decide (512 ≤ m.1 ∨ 32768 ≤ m.2.1 ∨ 256 ≤ m.2.2)) = false := by
    rw [List.any_eq_false]
    intro m h
    have := hm m h
    simp only [decide_eq_true_eq]
    omega
  have hfold : ∀ (f : State → (Nat × Nat × Nat) × Nat → State) (l : List ((Nat × Nat × Nat) × Nat)),
      (∀ t e, (f t e).last = t.last) → ∀ t, (l.foldl f t).last = t.last := by
    intro f l hf
    induction l with
    | nil => exact fun _ => rfl
    | cons e r ih => exact fun t => (ih _).trans (hf t e)
  have hperform : ∃ u, gangPerform c (begun s c) = .under u (.launch s.dev.out.nextLaunch) ∧ u.last = .done ∧
      u.dev.out.nextLaunch = s.dev.out.nextLaunch + pw c 0 := by
    unfold gangPerform
    extract_lets ms id send x t
    refine ⟨{ t with dev := t.dev.noteLaunch id ms.length x }, ?_, ?_, ?_⟩
    · rw [if_neg]
      · rfl
      · rintro (h | h | h)
        · omega
        · omega
        · exact absurd h (by rw [show ms = gangMembers c from rfl, hany]; decide)
    · refine hfold send _ (fun t e => ?_) (begun s c)
      unfold send
      extract_lets l
      split
      · next u h => exact sendLaunch_last _ _ _ _ (.inl h)
      · next u h => exact sendLaunch_last _ _ _ _ (.inr h)
      · rfl
      · rfl
    · show id + ms.length = _
      rw [show ms = gangMembers c from rfl, hlen]
      rfl
  obtain ⟨u, hu, hl, hnext⟩ := hperform
  refine happens_under (exec_gangLaunch hh) ht ?_ hu hl fun p h => ⟨h, hnext⟩
  simp only [← hw, beq_self_eq_true, Bool.and_true, Bool.and_eq_true, decide_eq_true_eq]
  exact ⟨h4, ha⟩

/-! ## Reservations (R330, R340): what a pre-emption leaves of the queues and the reservations -/

/-- The host queues are as before, and each reservation has its cells, its weight and its lending. -/
def Calm (d e : Device) : Prop :=
  e.out.hostq = d.out.hostq ∧ ∀ r, (e.resvOf r).cells = (d.resvOf r).cells ∧ (e.resvOf r).wt = (d.resvOf r).wt ∧
    (e.resvOf r).lend = (d.resvOf r).lend

theorem calm_of {d e : Device} (h : e.out.hostq = d.out.hostq) (g : e.tab.resv = d.tab.resv) : Calm d e :=
  ⟨h, fun r => by unfold Device.resvOf; rw [g]; exact ⟨rfl, rfl, rfl⟩⟩

theorem Calm.refl (d : Device) : Calm d d := calm_of rfl rfl

theorem Calm.trans {d e f : Device} (h : Calm d e) (g : Calm e f) : Calm d f :=
  ⟨g.1.trans h.1, fun r => by
    obtain ⟨h1, h2, h3⟩ := h.2 r
    obtain ⟨g1, g2, g3⟩ := g.2 r
    exact ⟨g1.trans h1, g2.trans h2, g3.trans h3⟩⟩

theorem Calm.foldl {α : Type} (f : Device → α → Device) (h : ∀ d x, Calm d (f d x)) (l : List α) (d : Device) :
    Calm d (l.foldl f d) := by
  induction l generalizing d with
  | nil => exact .refl d
  | cons x r ih => exact (h d x).trans (ih _)

theorem Calm.ite {d x y : Device} {b : Prop} [Decidable b] (hx : Calm d x) (hy : Calm d y) : Calm d (if b then x else y) := by
  split
  · exact hx
  · exact hy

/-- A reservation rewritten with its cells, its weight and its lending. -/
theorem resvAlike_mset {m : Map Resv} {n : Nat} {e : Resv} (hc : e.cells = (mget {} m n).cells) (hw : e.wt = (mget {} m n).wt)
    (hl : e.lend = (mget {} m n).lend) (r : Nat) : (mget {} (mset m n e) r).cells = (mget {} m r).cells ∧
      (mget {} (mset m n e) r).wt = (mget {} m r).wt ∧ (mget {} (mset m n e) r).lend = (mget {} m r).lend := by
  rw [mget_mset]
  split
  · rename_i h
    rw [h]
    exact ⟨hc, hw, hl⟩
  · exact ⟨rfl, rfl, rfl⟩

theorem calm_charge (d : Device) (b n dt : Nat) : Calm d (d.charge b n dt) := by
  obtain ⟨e, hm, hc, hw, hl⟩ : ∃ e : Resv, (d.charge b n dt).tab.resv = mset d.tab.resv ((d.block b).get fResv) e ∧
      e.cells = (d.resvOf ((d.block b).get fResv)).cells ∧ e.wt = (d.resvOf ((d.block b).get fResv)).wt ∧
      e.lend = (d.resvOf ((d.block b).get fResv)).lend := ⟨_, rfl, rfl, rfl, rfl⟩
  refine ⟨rfl, fun r => ?_⟩
  unfold Device.resvOf at *
  rw [hm]
  exact resvAlike_mset hc hw hl r

theorem calm_noteCandidates (d : Device) : Calm d d.noteCandidates := by
  refine ⟨rfl, fun r => ?_⟩
  unfold Device.noteCandidates
  extract_lets cs has still least rs turn keep
  have hturn (m : Map Resv) (n r : Nat) : (mget {} (turn m n) r).cells = (mget {} m r).cells ∧
      (mget {} (turn m n) r).wt = (mget {} m r).wt ∧ (mget {} (turn m n) r).lend = (mget {} m r).lend := by
    unfold turn
    extract_lets e vt
    split
    · exact ⟨rfl, rfl, rfl⟩
    · exact resvAlike_mset (e := { e with backlogged := has n, vt := vt }) rfl rfl rfl r
  show (mget {} (rs.foldl turn d.tab.resv) r).cells = (mget {} d.tab.resv r).cells ∧
    (mget {} (rs.foldl turn d.tab.resv) r).wt = (mget {} d.tab.resv r).wt ∧
    (mget {} (rs.foldl turn d.tab.resv) r).lend = (mget {} d.tab.resv r).lend
  generalize d.tab.resv = m
  clear_value rs
  induction rs generalizing m with
  | nil => exact ⟨rfl, rfl, rfl⟩
  | cons n rest ih =>
    obtain ⟨h1, h2, h3⟩ := ih (turn m n)
    obtain ⟨g1, g2, g3⟩ := hturn m n r
    exact ⟨h1.trans g1, h2.trans g2, h3.trans g3⟩

theorem calm_updCtx (d : Device) (a : Nat) (f : Ctx → Ctx) : Calm d (d.updCtx a f) := (calm_of rfl rfl)

theorem calm_updCore (d : Device) (n : Nat) (f : Core → Core) : Calm d (d.updCore n f) := (calm_of rfl rfl)

theorem calm_updCell (d : Device) (n : Nat) (f : Cell → Cell) : Calm d (d.updCell n f) := (calm_of rfl rfl)

theorem calm_setCtx (d : Device) (a : Nat) (c : Ctx) : Calm d (d.setCtx a c) := (calm_of rfl rfl)

theorem calm_setMstate (d : Device) (b st : Nat) : Calm d (d.setMstate b st) := (calm_of rfl rfl)

theorem calm_noteAbort (d : Device) (b : Nat) (cause : BitVec 8) : Calm d (d.noteAbort b cause) := (calm_of rfl rfl)

theorem calm_updBinding (d : Device) (b : Nat) (f : Binding → Binding) : Calm d (d.updBinding b f) := by
  unfold Device.updBinding
  split
  · exact (calm_of rfl rfl)
  · exact .refl d

theorem calm_post (d : Device) (r : ErrRec) : Calm d (d.post r) := by
  obtain ⟨e, h⟩ := post_spec d r
  rw [h]; exact (calm_of rfl rfl)

theorem calm_postBlock (d : Device) (cls rung b agent : Nat) (cause : BitVec 8) (aux : Word) :
    Calm d (d.postBlock cls rung b agent cause aux) := calm_post ..

theorem calm_postDev (d : Device) (cls rung agent : Nat) (aux : Word) : Calm d (d.postDev cls rung agent aux) := by
  obtain ⟨e, h⟩ := postDev_spec d cls rung agent aux
  rw [h]; exact (calm_of rfl rfl)

theorem calm_freeCells (d : Device) (cells : List Nat) : Calm d (d.freeCells cells) := by
  unfold Device.freeCells
  extract_lets cores agents d1 d2
  have h1 : Calm d d1 := .foldl _ (fun _ _ => calm_updCell ..) _ _
  have h2 : Calm d1 d2 := .foldl _ (fun _ _ => calm_setCtx ..) _ _
  exact (h1.trans h2).trans (.foldl _ (fun _ _ => calm_updCore ..) _ _)

theorem calm_release (d : Device) (b : Nat) : Calm d (d.release b) := by
  unfold Device.release
  split
  · exact .refl d
  · extract_lets d1 mine d2
    have h1 : Calm d d1 := (calm_charge ..).trans (calm_freeCells ..)
    exact h1.trans (calm_of rfl rfl)

theorem calm_unbind (d : Device) (b : Nat) : Calm d (d.unbind b) :=
  ((calm_release d b).trans (calm_of rfl rfl)).trans (calm_noteCandidates _)

theorem calm_sendSegment (d : Device) (t : ReplyTo) (kind msg status tlen nseg seg : Nat) (body : List Byte) :
    Calm d (d.sendSegment t kind msg status tlen nseg seg body) := by
  unfold Device.sendSegment
  split
  · exact .refl d
  · extract_lets nonce hdr sealed d1
    have h1 : Calm d d1 := (calm_of rfl rfl)
    exact .ite (.refl d) (.ite h1 (h1.trans (calm_postDev ..)))

theorem calm_sendSegments (t : ReplyTo) (kind msg status tlen nseg n seg : Nat) (bs : List Byte) (d : Device) :
    Calm d (Device.sendSegments t kind msg status tlen nseg n seg bs d) := by
  induction n generalizing seg bs d with
  | zero => exact .refl d
  | succ n ih => exact (calm_sendSegment ..).trans (ih ..)

theorem calm_sendMessage (d : Device) (t : ReplyTo) (kind msg status : Nat) (payload : List Byte) :
    Calm d (d.sendMessage t kind msg status payload) := by
  unfold Device.sendMessage
  extract_lets nseg d1
  have h1 : Calm d d1 := calm_sendSegments ..
  split
  · exact .ite (h1.trans (calm_of rfl rfl)) h1
  · exact h1

theorem calm_errorReply (d : Device) (b : Nat) (r : Rec) (status : Nat) : Calm d (d.errorReply b r status) := by
  unfold Device.errorReply
  split
  · exact .ite (calm_of rfl rfl) (.refl d)
  · exact calm_sendMessage ..

theorem calm_killBlock (d : Device) (b : Nat) : Calm d (d.killBlock b) := by
  unfold Device.killBlock
  extract_lets recs bound d1 replies
  have h1 : Calm d d1 := calm_release ..
  have h2 : Calm d1 replies := .foldl _ (fun x e => .ite (calm_errorReply ..) (.refl x)) _ _
  exact ((h1.trans h2).trans (calm_of rfl rfl)).trans (calm_noteCandidates _)

theorem calm_kill (d : Device) (b : Nat) (cause : BitVec 8) : Calm d (d.kill b cause) :=
  (calm_noteAbort ..).trans (calm_killBlock ..)

theorem calm_kQueueFor (d : Device) (b : Nat) (cause : BitVec 8) (val : Word) (ent : Option ReadyEnt)
    (pinned : Option Nat) : Calm d (d.kQueueFor b cause val ent pinned) :=
  .ite (calm_kill ..) (calm_updBinding ..)

theorem calm_kQueue (d : Device) (b : Nat) (cause : BitVec 8) (val : Word) (ent : Option ReadyEnt) :
    Calm d (d.kQueue b cause val ent) := calm_kQueueFor ..

theorem calm_park (d : Device) (b : Nat) (va : Word) (ent : ReadyEnt) : Calm d (d.park b va ent) := by
  unfold Device.park
  split
  · exact calm_kQueue ..
  · exact calm_updBinding ..

theorem calm_enqueue (d : Device) (e : ReadyEnt) : Calm d (d.enqueue e) := by
  unfold Device.enqueue
  split
  · exact .refl d
  · exact .ite (calm_of rfl rfl) (calm_of rfl rfl)

theorem calm_startFetches (d : Device) (n : Nat) : Calm d (d.startFetches n) := by
  obtain ⟨fs, h⟩ := startFetches_spec d n
  rw [h]; exact (calm_of rfl rfl)

theorem calm_requestFetch (d : Device) (b va : Nat) : Calm d (d.requestFetch b va) := by
  unfold Device.requestFetch
  extract_lets d1
  have h1 : Calm d d1 := calm_startFetches ..
  exact .ite h1 ((h1.trans (calm_of rfl rfl)).trans (calm_startFetches ..))

theorem calm_repair (d : Device) (b : Nat) (va : Word) : Calm d (repairDev (d.repair b va)) := by
  unfold Device.repair
  split
  · exact .refl d
  · extract_lets base
    split
    · exact calm_updBinding ..
    · split
      · exact calm_requestFetch ..
      · exact (calm_of rfl rfl)

theorem calm_requeue (d : Device) (cause : BitVec 8) (val : Word) (e : ReadyEnt) : Calm d (d.requeue cause val e) := by
  have hr := calm_repair d e.blk val
  unfold Device.requeue
  split
  · split
    · next x h => rw [h] at hr; exact hr.trans (calm_enqueue ..)
    · next x h => rw [h] at hr; exact hr.trans (calm_park ..)
  · exact .ite (calm_updBinding ..) (calm_enqueue ..)

theorem calm_passIssue (d : Device) (a : Nat) : Calm d (d.passIssue a) := by
  unfold Device.passIssue
  extract_lets core order
  split
  · exact .refl d
  · split
    · exact calm_updCtx ..
    · exact .refl d

theorem calm_leave (d : Device) (a : Nat) (r : RunState) : Calm d (d.leave a r) :=
  .ite (.trans (calm_updCtx ..) (calm_passIssue ..)) (calm_updCtx ..)

theorem calm_cancelOps (d : Device) (a : Nat) (p : EngOp → Bool) : Calm d (d.cancelOps a p) :=
  .trans (e := { d with ops := d.ops.filter fun o => !(o.agent == a && p o) }) (calm_of rfl rfl)
    (.foldl _ (fun _ _ => calm_updCtx ..) _ _)

theorem calm_asyncTrap (d : Device) (a : Nat) (cause : BitVec 8) (val : Word) : Calm d (d.asyncTrap a cause val) := by
  unfold Device.asyncTrap
  split
  · exact .refl d
  · extract_lets tva
    exact .ite ((calm_post ..).trans (calm_kill ..)) (.ite (calm_kill ..) (calm_updCtx ..))

theorem calm_abortTask (d : Device) (a : Nat) (cause : BitVec 8) (val : Word) : Calm d (d.abortTask a cause val) := by
  unfold Device.abortTask
  split
  · exact calm_leave ..
  · extract_lets errs vh d1 d2 d3 seq d4 e
    have h1 : Calm d d1 := (calm_of rfl rfl)
    have h2 : Calm d1 d2 := .ite (calm_post ..) (.ite (calm_postBlock ..) (.ite (calm_postBlock ..) (.refl d1)))
    have h3 : Calm d2 d3 := (calm_cancelOps ..).trans (calm_of rfl rfl)
    have h4 : Calm d3 d4 := calm_postBlock ..
    have h5 := (h1.trans h2).trans h3
    exact .ite ((h5.trans h4).trans ((calm_updCtx ..).trans (calm_asyncTrap ..)))
      (h5.trans (((calm_updCtx ..).trans (calm_leave ..)).trans (calm_requeue ..)))

theorem calm_withdraw (d : Device) (a : Nat) : Calm d (d.withdraw a) :=
  .trans (calm_updCore ..) (.foldl _ (fun _ _ => calm_updCtx ..) _ _)

theorem calm_stopCtx (d : Device) (b a : Nat) : Calm d (d.stopCtx b a) := by
  unfold Device.stopCtx
  extract_lets c prot save
  split
  · exact .refl d
  · exact .ite (.refl d) (.ite ((calm_updCtx ..).trans (calm_abortTask ..))
      (.ite (.ite (((calm_withdraw ..).trans (calm_updCtx ..)).trans (calm_leave ..)) (.refl d))
        ((calm_updCtx ..).trans (calm_leave ..))))

theorem calm_requestPreempt (d : Device) (b : Nat) (save suspend : Bool) : Calm d (d.requestPreempt b save suspend) := by
  unfold Device.requestPreempt
  split
  · exact .refl d
  · split
    · exact calm_unbind ..
    · split
      · exact (calm_of rfl rfl)
      · next k _ _ _ =>
        extract_lets d1 d2
        have h1 : Calm d d1 := (calm_of rfl rfl)
        have h2 : Calm d1 d2 := .foldl _ (fun _ _ => calm_updCtx ..) _ _
        exact (h1.trans h2).trans (.foldl _ (fun _ _ => calm_stopCtx ..) _ _)

theorem calm_removeCells (d : Device) (r : Nat) (gone : BitVec 256) : Calm d (d.removeCells r gone) := by
  unfold Device.removeCells
  extract_lets hit mine
  exact (Calm.foldl _ (fun x b => calm_requestPreempt x b _ _) _ _).trans (calm_of rfl rfl)

/-- Where no cell goes, no binding holds one that does. -/
theorem removeCells_none (d : Device) (r : Nat) : ∃ x, d.removeCells r 0 = { d with tab := { d.tab with blocks := x } } := by
  have hnone : (d.tab.bindings.filter fun e => (d.block e.1).get fResv == r && e.2.cells.any fun c => (0 : BitVec 256).getLsbD c) =
      [] := by
    rw [List.filter_eq_nil_iff]
    intro e _
    simp
  unfold Device.removeCells
  dsimp only
  rw [hnone]
  exact ⟨_, rfl⟩

theorem resvWrite_happens {s : State} {c : Cmd} (ht : Taken s c 0x14 whoO) (hf : plain c 10 1 = true) (h0 : pw c 0 < 1024)
    {cells : BitVec 256} (hcells : cells = if c.arg = 0 then (s.dev.resvOf (pw c 0)).cells else cellWords c)
    (hfree : ∀ x ∈ s.dev.tab.resv, x.1 = pw c 0 ∨ x.2.cells &&& cells = 0) :
    Happens (.resvWrite c) s fun t => Recorded c 0x14 s t 0 0 ∧ (t.dev.resvOf (pw c 0)).cells = cells ∧
      (t.dev.resvOf (pw c 0)).wt = BitVec.ofNat 16 (pw c 1) ∧ (t.dev.resvOf (pw c 0)).lend = (pw c 1).testBit 16 ∧
      ((s.dev.resvOf (pw c 0)).cells &&& ~~~cells = 0 → Served c 0x14 s t 0 0) := by
  let old : Resv := s.dev.resvOf (pw c 0)
  let new : Resv := { old with lend := (pw c 1).testBit 16, wt := BitVec.ofNat 16 (pw c 1), cells := cells }
  let d : Device := (begun s c).dev.updTab fun x => { x with resv := mset x.resv (pw c 0) new }
  have hd : d.resvOf (pw c 0) = new := mget_mset_same ..
  have htaken : ((begun s c).dev.tab.resv.any fun x => x.1 != pw c 0 && x.2.cells &&& cells != 0) = false := by
    rw [List.any_eq_false]
    intro x hx
    rcases hfree x hx with h | h <;> simp [h]
  obtain ⟨hq, hresv⟩ := (calm_removeCells d (pw c 0) (old.cells &&& ~~~cells)).trans (calm_noteCandidates _)
  obtain ⟨e, he⟩ : ∃ e, e = (d.removeCells (pw c 0) (old.cells &&& ~~~cells)).noteCandidates := ⟨_, rfl⟩
  rw [← he] at hq hresv
  obtain ⟨h1, h2, h3⟩ := hresv (pw c 0)
  rw [hd] at h1 h2 h3
  refine happens_done (u := { begun s c with dev := e }) (status := 0) (result := 0)
    (show exec (.resvWrite c) s = execResvWrite c s from rfl) ht hf ?_ rfl (hq_of_begun hq) fun t h => ?_
  · dsimp only
    have hcells' : (if c.arg = 0 then ((begun s c).dev.resvOf (pw c 0)).cells else cellWords c) = cells := hcells.symm
    rw [hcells', htaken, if_neg (by simp; omega), he]
    rfl
  · have ht : t.dev.resvOf (pw c 0) = e.resvOf (pw c 0) := by
      unfold Device.resvOf
      rw [h.answered.table (·.resv) fun _ _ => rfl]
    rw [ht]
    refine ⟨h.recorded, h1, h2, h3, fun hnone => ?_⟩
    obtain ⟨x, hx⟩ := removeCells_none d (pw c 0)
    have hgone : old.cells &&& ~~~cells = 0 := hnone
    rw [hgone, hx] at he
    refine h.served ?_ ?_
    · rw [he]
      exact ctxs_noteCandidates _
    · rw [he]
      exact mem_noteCandidates _

/-! ## The obligation -/

/-- Settles O51: each command's clause is the theorem of that command above. -/
theorem otherCommands : Obligations.OtherCommands := by
  intro s c b
  dsimp only
  refine ⟨?_, ?_, ?_, ?_, ?_, ?_, ?_, ?_, ?_, ?_, ?_, ?_, ?_, ?_, ?_, ?_, ?_, ?_, ?_⟩
  · exact fun ht hf h4 hl id i hi => imgInstall_happens ht hf h4 hl hi
  · exact fun ht hf => imgRetire_happens ht hf
  · exact fun ht hf h0 => hashSet_happens ht hf h0
  · exact fun ht hf h0 hfree => resvWrite_happens ht hf h0 rfl hfree
  · exact fun ht hf => policy_happens ht hf
  · exact fun hn => ⟨fun ht hf => shootdown_happens hn ht hf, fun ht hf h1 => diagRead_happens hn ht hf h1,
      fun ht hf hs h1 h2 h3 h4 => sysLaunch_happens hn ht hf hs h1 h2 h3 h4⟩
  · exact fun ht => ⟨fun x hs hf hx => devsnapTake_happens ht hs hf hx,
      fun x hx hw ha he hs => devsnapRelease_happens ht hx hw ha he hs⟩
  · exact fun ht hf h0 h1 h15 hs => checkpoint_happens ht hf h0 h1 h15 rfl hs
  · exact fun ht hf h0 hr => meterRead_happens ht hf h0 hr
  · exact fun ht hf h0 h1 h2 hr => meterReport_happens ht hf h0 h1 h2 hr
  · exact fun hw => ⟨fun ht h0 => ⟨fun ha hturn ho => ownerClaim_happens ht hw h0 ha hturn ho,
      fun ha hh hwho => ownerAccept_happens ht hw h0 ha hh hwho⟩, fun ht ha h3 => ownerHandover_happens ht hw ha h3⟩
  · exact fun hp hl => handoverLapse_happens hp hl
  · exact fun a ha hl => ownerChannelLost_happens ha hl
  · exact fun ht hf ho => regRead_happens ht hf ho
  · exact fun ht hf ho => regWrite_happens ht hf ho
  · exact fun ht hf h0 => aclWrite_happens ht hf h0
  · exact fun ht hw ha h7 hp => ⟨fun hpass => fwStage_passing ht hw ha h7 hp hpass,
      fun hpass => fwStage_failing ht hw ha h7 hp hpass⟩
  · exact fun ht hw ha h7 hp hv => fwActivate_happens ht hw ha h7 hp hv
  · exact fun hh ha => ⟨fun ht hw hn h0 h1 h2 hd hr => launch_happens hh ha ht hw hn h0 h1 h2 hd hr,
      fun ht h4 hw h2 h16 hm => gangLaunch_happens hh ha ht h4 hw h2 h16 hm⟩

end Sys2Proof.Proofs

/-! PROOF. The canonical form of memory (O60; R84, R135, R245, R345, R416): what each function of the model leaves of memory,
then every instruction, every event and every step, and the bytes that each operation on memory leaves. -/

namespace Sys2Proof.Proofs

open Sys2Proof Sys2Proof.Machine Sys2Proof.Safety Sys2Proof.Laws

theorem foldl_mem {α : Type} (f : Device → α → Device) (h : ∀ d x, (f d x).mem = d.mem) (l : List α) (d : Device) :
    (l.foldl f d).mem = d.mem := by
  induction l generalizing d with
  | nil => rfl
  | cons x r ih => exact (ih _).trans (h d x)

@[simp] theorem updBinding_mem (d : Device) (n : Nat) (f : Binding → Binding) : (d.updBinding n f).mem = d.mem :=
  (stored_updBinding ..).1

@[simp] theorem updPcie_mem (d : Device) (f : Pcie → Pcie) : (d.updPcie f).mem = d.mem := rfl

@[simp] theorem interrupt_mem (d : Device) (fn vec : Nat) : (d.interrupt fn vec).mem = d.mem := by
  unfold Device.interrupt
  dsimp only
  repeat' split
  all_goals simp

@[simp] theorem setMstate_mem (d : Device) (n st : Nat) : (d.setMstate n st).mem = d.mem := (stored_setMstate ..).1

@[simp] theorem freezeCore_mem (d : Device) (core : Nat) : (d.freezeCore core).mem = d.mem := by
  unfold Device.freezeCore
  extract_lets late
  refine (foldl_mem late (fun x i => ?_) _ _).trans rfl
  unfold late
  split <;> rfl

@[simp] theorem spStore_mem (d : Device) (prot : Bool) (core off : Nat) (bs : List Byte) : (d.spStore prot core off bs).mem =
    d.mem := by
  unfold Device.spStore
  split <;> simp

@[simp] theorem drainOps_mem (d : Device) (l : List HeldOp) : (d.drainOps l).mem = d.mem := by
  induction l generalizing d with
  | nil => rfl
  | cons o r ih =>
    cases o with
    | sp core off bs => exact (ih _).trans (spStore_mem ..)
    | mem o b => exact ih d

@[simp] theorem episodeOver_mem (d : Device) (a : Nat) : (d.episodeOver a).mem = d.mem := by
  unfold Device.episodeOver
  split <;> simp

@[simp] theorem drainDue_mem (d : Device) (now a : Nat) : (d.drainDue now a).mem = d.mem := by
  unfold Device.drainDue
  dsimp only
  split <;> simp

@[simp] theorem drainAll_mem (d : Device) : d.drainAll.mem = d.mem := by
  unfold Device.drainAll
  refine foldl_mem _ (fun x e => ?_) _ _
  exact drainDue_mem ..

@[simp] theorem countStuck_mem (d : Device) (n : Nat) : (d.countStuck n).mem = d.mem := rfl

@[simp] theorem installLibraries_mem (d : Device) : (d.installLibraries).mem = d.mem := by
  unfold Device.installLibraries
  split <;> simp

@[simp] theorem tick_mem (d : Device) : d.tick.mem = d.mem := by
  unfold Device.tick
  extract_lets d1 d2
  have h1 : d1.mem = d.mem := (countStuck_mem ..).trans (foldl_mem _ freezeCore_mem _ _)
  exact (installLibraries_mem _).trans ((drainAll_mem d2).trans h1)

@[simp] theorem pass_mem (d : Device) (n : Nat) : (d.pass n).mem = d.mem := by
  induction n generalizing d with
  | zero => rfl
  | succ n ih =>
    unfold Device.pass
    split
    · exact (ih _).trans (tick_mem d)
    · exact countStuck_mem d (n + 1)

@[simp] theorem rotateDue_mem (d : Device) (a : Nat) : (d.rotateDue a).mem = d.mem := by
  unfold Device.rotateDue
  split <;> simp

@[simp] theorem post_mem (d : Device) (r : ErrRec) : (d.post r).mem = d.mem := (stored_post ..).1

@[simp] theorem postBlock_mem (d : Device) (cls rung b agent : Nat) (cause : BitVec 8) (aux : Word) : (d.postBlock cls rung b
    agent cause aux).mem = d.mem := (stored_postBlock ..).1

@[simp] theorem postDev_mem (d : Device) (cls rung agent : Nat) (aux : Word) : (d.postDev cls rung agent aux).mem = d.mem :=
  (stored_postDev ..).1

@[simp] theorem faqPush_mem (d : Device) (tier type line : Nat) : (d.faqPush tier type line).mem = d.mem := by
  unfold Device.faqPush
  dsimp only
  repeat' split
  all_goals simp

@[simp] theorem meetPoison_mem (d : Device) (line : Nat) : (d.meetPoison line).mem = d.mem := by
  unfold Device.meetPoison
  dsimp only
  split <;> simp

@[simp] theorem faqRaise_mem (d : Device) (line : Nat) : (d.faqRaise line).mem = d.mem := rfl

@[simp] theorem noteAbort_mem (d : Device) (b : Nat) (cause : BitVec 8) : (d.noteAbort b cause).mem = d.mem :=
  (stored_noteAbort ..).1

@[simp] theorem meterAbort_mem (d : Device) (b : Nat) : (d.meterAbort b).mem = d.mem := rfl

@[simp] theorem reclaim_mem (d : Device) (line : Nat) : (d.reclaim line).mem = d.mem := rfl

@[simp] theorem breakGen_mem (d : Device) (agent owner : Nat) (gen : BitVec 32) : (d.breakGen agent owner gen).mem = d.mem := by
  unfold Device.breakGen
  dsimp only
  split <;> simp

@[simp] theorem published_mem (d : Device) (st : Nat) : (d.published st).mem = d.mem := rfl

@[simp] theorem undelivered_mem (d : Device) (blk : Option Nat) : (d.undelivered blk).mem = d.mem := by
  unfold Device.undelivered
  simp

@[simp] theorem emit_mem (d : Device) (blk : Option Nat) (x : PeerSend) : (d.emit blk x).mem = d.mem := by
  obtain ⟨o, e, h⟩ := emit_spec d blk x
  rw [h]

@[simp] theorem askPeer_mem (d : Device) (blk : Option Nat) (pa n : Nat) : (d.askPeer blk pa n).mem = d.mem := by
  unfold Device.askPeer
  split <;> simp

@[simp] theorem mem_sendFor (d : Device) (blk : Option Nat) (x : PeerSend) : (d.sendFor blk x).mem = d.mem := (sendFor_mem ..)

@[simp] theorem poisonHeap_mem (d : Device) (line agent : Nat) : (d.poisonHeap line agent).mem = d.mem := by
  unfold Device.poisonHeap
  dsimp only
  repeat' split
  all_goals simp

@[simp] theorem poisonLine_mem (d : Device) (struct tier line agent : Nat) (synd : BitVec 32) : (d.poisonLine struct tier line
    agent synd).mem = d.mem := by
  unfold Device.poisonLine
  split <;> simp

@[simp] theorem startFetches_mem (d : Device) (n : Nat) : (d.startFetches n).mem = d.mem := (stored_startFetches d n).1

@[simp] theorem requestFetch_mem (d : Device) (b va : Nat) : (d.requestFetch b va).mem = d.mem := (stored_requestFetch ..).1

theorem repair_present {d x : Device} {b : Nat} {va : Word} (h : d.repair b va = .present x) : x.mem = d.mem := by
  have hs := (stored_repair d b va).1
  rwa [h] at hs

theorem repair_parked {d x : Device} {b : Nat} {va : Word} (h : d.repair b va = .parked x) : x.mem = d.mem := by
  have hs := (stored_repair d b va).1
  rwa [h] at hs

@[simp] theorem askPage_mem (d : Device) (b : Nat) (va : Word) : (d.askPage b va).mem = d.mem := by
  unfold Device.askPage
  split
  · next h => exact repair_present h
  · next h => exact repair_parked h

@[simp] theorem settleStores_mem (d : Device) (a : Nat) : (d.settleStores a).mem = d.mem := by
  unfold Device.settleStores
  split
  · rfl
  · split
    · split <;> rfl
    · rfl

@[simp] theorem noteQsc_mem (d : Device) : (d.noteQsc).mem = d.mem := rfl

@[simp] theorem countReply_mem (d : Device) (b : Nat) (partly : Bool) (len : Nat) : (d.countReply b partly len).mem = d.mem :=
  rfl

@[simp] theorem sendMessage_mem (d : Device) (t : ReplyTo) (kind msg status : Nat) (payload : List Byte) : (d.sendMessage t kind
    msg status payload).mem = d.mem := (stored_sendMessage ..).1

@[simp] theorem replyTo_mem (d : Device) (b dev : Nat) (partly : Bool) (len : Nat) (o : Out) : (d.replyTo b dev partly len
    o).mem = d.mem := by
  unfold Device.replyTo
  split <;> simp

@[simp] theorem errorReply_mem (d : Device) (b : Nat) (r : Rec) (status : Nat) : (d.errorReply b r status).mem = d.mem :=
  (stored_errorReply ..).1

@[simp] theorem noteCandidates_mem (d : Device) : (d.noteCandidates).mem = d.mem := (stored_noteCandidates ..).1

@[simp] theorem enterRunning_mem (d : Device) (b : Nat) : (d.enterRunning b).mem = d.mem := by
  unfold Device.enterRunning
  dsimp only
  repeat' split
  all_goals simp

@[simp] theorem charge_mem (d : Device) (b n dt : Nat) : (d.charge b n dt).mem = d.mem := rfl

@[simp] theorem freeCells_mem (d : Device) (cells : List Nat) : (d.freeCells cells).mem = d.mem := (stored_freeCells ..).1

@[simp] theorem release_mem (d : Device) (b : Nat) : (d.release b).mem = d.mem := (stored_release ..).1

@[simp] theorem popHead_mem (d : Device) (b : Nat) : (d.popHead b).mem = d.mem := rfl

@[simp] theorem skipAbandoned_mem (d : Device) (b : Nat) : (d.skipAbandoned b).mem = d.mem :=
  foldl_mem _ (fun x _ => popHead_mem x b) _ _

@[simp] theorem killBlock_mem (d : Device) (b : Nat) : (d.killBlock b).mem = d.mem := (stored_killBlock ..).1

@[simp] theorem kill_mem (d : Device) (b : Nat) (cause : BitVec 8) : (d.kill b cause).mem = d.mem := (stored_kill ..).1

@[simp] theorem kQueueFor_mem (d : Device) (b : Nat) (cause : BitVec 8) (val : Word) (ent : Option ReadyEnt) (pinned : Option
    Nat) : (d.kQueueFor b cause val ent pinned).mem = d.mem := (stored_kQueueFor ..).1

@[simp] theorem kQueue_mem (d : Device) (b : Nat) (cause : BitVec 8) (val : Word) (ent : Option ReadyEnt) : (d.kQueue b cause
    val ent).mem = d.mem := (stored_kQueue ..).1

@[simp] theorem mem_kDeliver (d : Device) (cls b agent : Nat) (cause : BitVec 8) (val : Word) (ent : Option ReadyEnt) :
    (d.kDeliver cls b agent cause val ent).mem = d.mem := (kDeliver_mem ..)

@[simp] theorem park_mem (d : Device) (b : Nat) (va : Word) (ent : ReadyEnt) : (d.park b va ent).mem = d.mem :=
  (stored_park ..).1

@[simp] theorem lateTouch_mem (d : Device) (b a : Nat) (va : Word) : (d.lateTouch b a va).mem = d.mem := by
  unfold Device.lateTouch
  split <;> simp

@[simp] theorem enqueue_mem (d : Device) (e : ReadyEnt) : (d.enqueue e).mem = d.mem := (stored_enqueue ..).1

@[simp] theorem remotePoison_mem (d : Device) (a pa : Nat) : (d.remotePoison a pa).mem = d.mem := by
  unfold Device.remotePoison
  repeat' split
  all_goals simp

@[simp] theorem mem_readyEnqueue (d : Device) (b va floor : Nat) (r : TaskRec) : (d.readyEnqueue b va floor r).mem = d.mem :=
  (readyEnqueue_mem ..)

@[simp] theorem passIssue_mem (d : Device) (a : Nat) : (d.passIssue a).mem = d.mem := (stored_passIssue ..).1

@[simp] theorem leave_mem (d : Device) (a : Nat) (r : RunState) : (d.leave a r).mem = d.mem := (stored_leave ..).1

@[simp] theorem trapRecord_mem (d : Device) (b a : Nat) (cause : BitVec 8) (pc aux : Word) : (d.trapRecord b a cause pc aux).mem
    = d.mem := by
  unfold Device.trapRecord
  simp

@[simp] theorem enterRoutine_mem (d : Device) (b a : Nat) (p : PendTrap) : (d.enterRoutine b a p).mem = d.mem := rfl

@[simp] theorem trapEntry_mem (d : Device) (a slot : Nat) (cause : BitVec 8) (val epc : Word) : (d.trapEntry a slot cause val
    epc).mem = d.mem := by
  unfold Device.trapEntry
  dsimp only
  repeat' split
  all_goals simp

@[simp] theorem trapDeliver_mem (d0 : Device) (a : Nat) (p : PendTrap) : (d0.trapDeliver a p).mem = d0.mem := by
  unfold Device.trapDeliver
  dsimp only
  repeat' split
  all_goals simp

@[simp] theorem asyncTrap_mem (d : Device) (a : Nat) (cause : BitVec 8) (val : Word) : (d.asyncTrap a cause val).mem = d.mem :=
  (stored_asyncTrap ..).1

@[simp] theorem cancelOps_mem (d : Device) (a : Nat) (p : EngOp → Bool) : (d.cancelOps a p).mem = d.mem :=
  (stored_cancelOps ..).1

@[simp] theorem dropFlags_mem (d : Device) (a : Nat) : (d.dropFlags a).mem = d.mem := rfl

@[simp] theorem efault_mem (d : Device) (b a n : Nat) (cause : BitVec 8) : (d.efault b a n cause).mem = d.mem := by
  unfold Device.efault
  dsimp only
  split <;> simp

@[simp] theorem efaults_mem (d : Device) (b a : Nat) : (d.efaults b a).mem = d.mem := by
  unfold Device.efaults
  refine (foldl_mem _ (fun x f => ?_) _ _).trans (Device.updCtx_mem ..)
  exact efault_mem ..

@[simp] theorem abortTask_mem (d : Device) (a : Nat) (cause : BitVec 8) (val : Word) : (d.abortTask a cause val).mem = d.mem :=
  (stored_abortTask ..).1

@[simp] theorem abortOr_mem (d : Device) (a : Nat) (cause : BitVec 8) (val : Word) : (d.abortOr a cause val).mem = d.mem := by
  unfold Device.abortOr
  extract_lets d1
  have h1 : d1.mem = d.mem := by
    unfold d1
    split <;> simp
  split
  · simp [h1]
  · split
    · simp [h1]
    · split
      · simp [h1]
      · split
        · split
          · next h => simp [repair_present h, h1]
          · next h => simp [repair_parked h, h1]
        · split
          · simp [h1]
          · split <;> simp [h1]

@[simp] theorem withdraw_mem (d : Device) (a : Nat) : (d.withdraw a).mem = d.mem := (stored_withdraw ..).1

@[simp] theorem failTask_mem (d : Device) (a : Nat) (seq : Word) : (d.failTask a seq).mem = d.mem := by
  unfold Device.failTask
  repeat' split
  all_goals simp

@[simp] theorem rewind_mem (d : Device) (a : Nat) (seq : Word) : (d.rewind a seq).mem = d.mem := by
  unfold Device.rewind
  dsimp only
  repeat' split
  all_goals simp

@[simp] theorem mismatchRecord_mem (d : Device) (a : Nat) (pc : Word) (synd : BitVec 32) : (d.mismatchRecord a pc synd).mem =
    d.mem := by
  unfold Device.mismatchRecord
  simp

@[simp] theorem moveSlds_mem (d : Device) (hb c i : Nat) (moved : List (Nat × PendSld)) :
    (d.moveSlds hb c i moved).mem = d.mem := by
  unfold Device.moveSlds
  exact (foldl_mem _ (fun x e => moveSld_mem x (18 * i) e) _ _).trans rfl

@[simp] theorem mem_replaceSlds (d : Device) (hb c i : Nat) : (d.replaceSlds hb c i).mem = d.mem := (replaceSlds_mem ..)

@[simp] theorem displace_mem (d : Device) (hb c i : Nat) : (d.displace hb c i).mem = d.mem := by
  unfold Device.displace
  split <;> simp

@[simp] theorem noteRefbal_mem (d : Device) (hb c i : Nat) : (d.noteRefbal hb c i).mem = d.mem := rfl

@[simp] theorem slotStart_mem (d : Device) (hb c i : Nat) (busy : Bool) : (d.slotStart hb c i busy).mem = d.mem := by
  unfold Device.slotStart
  dsimp only
  repeat' split
  all_goals simp

@[simp] theorem prefetch_mem (d : Device) (core kid line : Nat) : (d.prefetch core kid line).mem = d.mem := by
  unfold Device.prefetch
  split <;> simp

@[simp] theorem extendLog_mem (d : Device) (dig : List Byte) : (d.extendLog dig).mem = d.mem := rfl

@[simp] theorem arrive_mem (d : Device) (b h st : Nat) : (d.arrive b h st).mem = d.mem := by
  unfold Device.arrive
  dsimp only
  repeat' split
  all_goals simp

@[simp] theorem engLease_mem (d : Device) (st len : Nat) (lines : List Nat) : (d.engLease st len lines).mem = d.mem := by
  unfold Device.engLease
  refine foldl_mem _ (fun _ _ => ?_) _ _
  rfl

@[simp] theorem setOp_mem (d : Device) (o : EngOp) : (d.setOp o).mem = d.mem := rfl

@[simp] theorem dropOp_mem (d : Device) (o : EngOp) : (d.dropOp o).mem = d.mem := rfl

@[simp] theorem pinIssuer_mem (d : Device) (o : EngOp) : (d.pinIssuer o).mem = d.mem := by
  unfold Device.pinIssuer
  split <;> simp

@[simp] theorem sendReply_mem (d : Device) (o : EngOp) (k : Binding) : (d.sendReply o k).mem = d.mem := by
  unfold Device.sendReply
  dsimp only
  repeat' split
  all_goals simp

@[simp] theorem breakWaiter_mem (d0 : Device) (h st a : Nat) : (d0.breakWaiter h st a).mem = d0.mem := by
  unfold Device.breakWaiter
  dsimp only
  repeat' split
  all_goals simp

@[simp] theorem barrierFault_mem (d : Device) (b h st : Nat) : (d.barrierFault b h st).mem = d.mem := by
  unfold Device.barrierFault
  split
  · rfl
  · split
    · rfl
    · extract_lets set d1 d2 owing d3
      have hset : ∀ x y, (set x y).mem = x.mem := fun x y => updBinding_mem ..
      have h2 : d2.mem = d.mem := (foldl_mem _ (fun x a => cancelOps_mem x a _) _ _).trans (hset ..)
      have h3 : d3.mem = d2.mem := by
        refine foldl_mem _ (fun x a => ?_) _ _
        split
        · exact breakWaiter_mem ..
        · rfl
      exact (hset ..).trans (h3.trans h2)

@[simp] theorem updHq_mem (d : Device) (q : Nat) (f : HostQ → HostQ) : (d.updHq q f).mem = d.mem := rfl

@[simp] theorem hostWrite_mem (d : Device) (fn pasid addr : Nat) (bs : List Byte) :
    (d.hostWrite fn pasid addr bs).mem = d.mem := rfl

@[simp] theorem dropLaunches_mem (q n : Nat) (d : Device) : (Device.dropLaunches q n d).mem = d.mem := by
  induction n generalizing d with
  | zero => rfl
  | succ n ih =>
    unfold Device.dropLaunches
    split
    · split
      · exact ih _
      · rfl
    · rfl

@[simp] theorem updFw_mem (d : Device) (f : Nat) (g : Firm → Firm) : (d.updFw f g).mem = d.mem := rfl

@[simp] theorem served_mem (d : Device) (q : Nat) : (d.served q).mem = d.mem := rfl

@[simp] theorem stopCtx_mem (d : Device) (b a : Nat) : (d.stopCtx b a).mem = d.mem := (stored_stopCtx ..).1

@[simp] theorem stopIfDue_mem (d : Device) (a : Nat) : (d.stopIfDue a).mem = d.mem := by
  unfold Device.stopIfDue
  split
  · split
    · split <;> simp
    · rfl
  · rfl

@[simp] theorem loadTask_mem (d : Device) (a : Nat) (e : ReadyEnt) (r : Restart) : (d.loadTask a e r).mem = d.mem := rfl

@[simp] theorem poisonedTake_mem (d : Device) (a : Nat) (e : ReadyEnt) (pa : Nat) : (d.poisonedTake a e pa).mem = d.mem := by
  unfold Device.poisonedTake
  split <;> simp

theorem readRecord_error {d x : Device} {k : Binding} {a n : Nat} {e : ReadyEnt} (h : d.readRecord k a n e = .error x) :
    x.mem = d.mem := by
  unfold Device.readRecord at h
  dsimp only at h
  split at h
  · cases h
    simp
  · split at h
    · split at h
      · next hr => cases h; simp [repair_present hr]
      · next hr => cases h; simp [repair_parked hr]
    · split at h
      · cases h
        simp
      · split at h
        · cases h
          simp
        · cases h

@[simp] theorem askRecord_mem (d : Device) (k : Binding) (e : ReadyEnt) : (d.askRecord k e).mem = d.mem := by
  unfold Device.askRecord
  repeat' split
  all_goals simp

@[simp] theorem take_mem (d : Device) (k : Binding) (a n : Nat) (e : ReadyEnt) : (d.take k a n e).mem = d.mem := by
  unfold Device.take
  split
  · simp
  · split
    · simp
    · next h => simp [readRecord_error h]

@[simp] theorem unblock_mem (d : Device) (k : Binding) (a : Nat) : (d.unblock k a).mem = d.mem := rfl

@[simp] theorem kStart_mem (d : Device) (b : Nat) (k : Binding) (x : KDel) (a n : Nat) : (d.kStart b k x a n).mem = d.mem := by
  unfold Device.kStart
  dsimp only
  split
  · split <;> simp
  · simp
  · split
    · next h =>
      split at h
      · cases h
      · exact readRecord_error h
    · simp

@[simp] theorem unbind_mem (d : Device) (b : Nat) : (d.unbind b).mem = d.mem := (stored_unbind ..).1

@[simp] theorem requestPreempt_mem (d : Device) (b : Nat) (save suspend : Bool) :
    (d.requestPreempt b save suspend).mem = d.mem := (stored_requestPreempt ..).1

@[simp] theorem preemptBlock_mem (d : Device) (b : Nat) : (d.preemptBlock b).mem = d.mem := by
  unfold Device.preemptBlock
  simp

@[simp] theorem countFirsts_mem (d : Device) (firsts : List Nat) (bound : Option Nat) :
    (d.countFirsts firsts bound).mem = d.mem := rfl

@[simp] theorem keyMissing_mem (d : Device) (b : Nat) : (d.keyMissing b).mem = d.mem := by
  unfold Device.keyMissing
  simp

@[simp] theorem freshGroup_mem (d : Device) (k : Binding) (i : Image) : (d.freshGroup k i).mem = d.mem := by
  unfold Device.freshGroup
  exact (foldl_mem _ (fun x a => Device.updCtx_mem x a _) _ _).trans (foldl_mem _ (fun x n => Device.updCore_mem x n _) _ _)

@[simp] theorem restore_mem (d : Device) (b : Nat) (k : Binding) (v : Saved) : (d.restore b k v).mem = d.mem := by
  unfold Device.restore
  extract_lets mv core ctx cell d1 d2 held d3
  have hcore : ∀ x e, (core x e).mem = x.mem := fun x e => by
    unfold core
    dsimp only
    split <;> rfl
  have h1 : d1.mem = d.mem :=
    (foldl_mem cell (fun _ _ => rfl) _ _).trans ((foldl_mem ctx (fun _ _ => rfl) _ _).trans (foldl_mem core hcore _ _))
  have h3 : d3.mem = d.mem := (updBinding_mem ..).trans h1
  exact (foldl_mem _ (fun x e => enqueue_mem x e) _ _).trans h3

@[simp] theorem settle_mem (d : Device) (b : Nat) (susp : Bool) : (d.settle b susp).mem = d.mem := by
  unfold Device.settle
  simp

@[simp] theorem unanswered_mem (d : Device) (b : Nat) (k : Binding) : (d.unanswered b k).mem = d.mem := by
  unfold Device.unanswered
  repeat' split
  all_goals simp

@[simp] theorem discardCtx_mem (d : Device) (b a : Nat) : (d.discardCtx b a).mem = d.mem := by
  unfold Device.discardCtx
  repeat' split
  all_goals simp

@[simp] theorem dropFrame_mem (d : Device) : (d.dropFrame).mem = d.mem := rfl

@[simp] theorem toFirmware_mem (d : Device) (port : BitVec 1) : (d.toFirmware port).mem = d.mem := rfl

@[simp] theorem tagFailed_mem (d : Device) (g : Datagram) : (d.tagFailed g).mem = d.mem := by
  unfold Device.tagFailed
  dsimp only
  split <;> simp

@[simp] theorem recordDone_mem (d : Device) (b : Nat) (r : Rec) (i : Nat) : (d.recordDone b r i).mem = d.mem := by
  unfold Device.recordDone
  dsimp only
  split <;> simp

@[simp] theorem rereadEnts_mem (d : Device) (b va size : Nat) : (d.rereadEnts b va size).mem = d.mem := by
  unfold Device.rereadEnts
  simp

@[simp] theorem reported_mem (d : Device) (b va size : Nat) : (d.reported b va size).mem = d.mem := by
  unfold Device.reported
  extract_lets d1
  have h1 : d1.mem = d.mem := rereadEnts_mem ..
  split
  · exact h1
  · extract_lets there ready d2
    refine (foldl_mem _ (fun x p => ?_) _ _).trans h1
    exact enqueue_mem ..

@[simp] theorem dropFetch_mem (d : Device) (b va size : Nat) : (d.dropFetch b va size).mem = d.mem := rfl

@[simp] theorem unplaced_mem (d : Device) (pa size : Nat) : (d.unplaced pa size).mem = d.mem := rfl

@[simp] theorem updCopies_mem (d : Device) (f : Map SharedCopy → Map SharedCopy) : (d.updCopies f).mem = d.mem := rfl

@[simp] theorem unmap_mem (d : Device) (p : Nat × Nat → Bool) : (d.unmap p).mem = d.mem := rfl

@[simp] theorem mapCopy_mem (d : Device) (page : Nat) (sz : BitVec 2) (sdom : Nat) (ds : List (List Byte)) (x : Nat × Nat) (here
    : Bool) : (d.mapCopy page sz sdom ds x here).mem = d.mem := rfl

@[simp] theorem retired_mem (d : Device) (g out : Nat) : (d.retired g out).mem = d.mem := by
  unfold Device.retired
  simp

@[simp] theorem placePage_mem (d : Device) (page size : Nat) (mask : BitVec 4) : (d.placePage page size mask).mem = d.mem := rfl

@[simp] theorem losePages_mem (d : Device) (seq : Word) (l : List (Nat × Nat)) : (d.losePages seq l).1.mem = d.mem := by
  induction l generalizing d with
  | nil => rfl
  | cons p r ih => exact (ih _).trans ((stored_unpark ..).1.trans rfl)

@[simp] theorem fetchLost_mem (d : Device) (b va cls : Nat) : (d.fetchLost b va cls).mem = d.mem :=
  (losePages_mem ..).trans (postBlock_mem ..)

@[simp] theorem fetchMissed_mem (d : Device) (f : Fetch) (cls : Nat) : (d.fetchMissed f cls).mem = d.mem := by
  unfold Device.fetchMissed
  split <;> simp

@[simp] theorem unmappable_mem (d : Device) (b va : Nat) : (d.unmappable b va).mem = d.mem := by
  unfold Device.unmappable
  simp

@[simp] theorem shootWindow_mem (d : Device) (b : Nat) (hit : WinEnt → Bool) : (d.shootWindow b hit).mem = d.mem :=
  (stored_shootWindow ..).1

@[simp] theorem beginShoot_mem (d : Device) (b q va n : Nat) : (d.beginShoot b q va n).mem = d.mem := by
  unfold Device.beginShoot
  simp

@[simp] theorem farShootdown_mem (d : Device) (dev src b va n : Nat) : (d.farShootdown dev src b va n).mem = d.mem := by
  unfold Device.farShootdown
  split <;> simp

@[simp] theorem shootMapping_mem (d : Device) (m : Mapping) : (d.shootMapping m).mem = d.mem := (stored_shootMapping ..).1

@[simp] theorem endShoot_mem (d : Device) (m : Mapping) : (d.endShoot m).mem = d.mem := by
  unfold Device.endShoot
  simp

@[simp] theorem moveCopy_mem (d : Device) (g old fresh : Nat) : (d.moveCopy g old fresh).mem = d.mem := by
  unfold Device.moveCopy
  split <;> simp

@[simp] theorem suspendIdle_mem (d : Device) (b : Nat) : (d.suspendIdle b).mem = d.mem := (stored_suspendIdle ..).1

@[simp] theorem resumed_mem (d : Device) (b : Nat) : (d.resumed b).mem = d.mem := rfl

@[simp] theorem holdOwners_mem (d : Device) (owners : List Nat) : (d.holdOwners owners).mem = d.mem := (stored_holdOwners ..).1

@[simp] theorem freeOwners_mem (d : Device) : d.freeOwners.mem = d.mem := by
  unfold Device.freeOwners
  extract_lets back
  refine (mem_noteCandidates _).trans (foldl_mem back (fun x b => ?_) _ _)
  unfold back
  split <;> simp

@[simp] theorem endRetire_mem (d : Device) (r : Retire) : (d.endRetire r).mem = d.mem := by
  unfold Device.endRetire
  extract_lets d1
  exact (freeOwners_mem _).trans (foldl_mem _ endShoot_mem _ _)

@[simp] theorem readRoots_mem (d : Device) : d.readRoots.mem = d.mem := by
  unfold Device.readRoots
  exact foldl_mem _ (fun x _ => post_mem x _) _ _

@[simp] theorem endDrain_mem (d : Device) (b h : Nat) (res : BitVec 2) : (d.endDrain b h res).mem = d.mem := rfl

@[simp] theorem dropPairs_mem (d : Device) (b : Nat) : (d.dropPairs b).mem = d.mem := rfl

@[simp] theorem copyChanges_mem (before after : Device) : (before.copyChanges after).mem = after.mem := by
  unfold Device.copyChanges
  refine foldl_mem _ (fun x e => ?_) _ _
  split <;> rfl

@[simp] theorem endMigration_mem (d : Device) (b : Nat) : (d.endMigration b).mem = d.mem := rfl

@[simp] theorem forwardShoots_mem (d : Device) (b dev dst : Nat) : (d.forwardShoots b dev dst).mem = d.mem := by
  unfold Device.forwardShoots
  refine foldl_mem _ (fun _ _ => ?_) _ _
  rfl

@[simp] theorem queryCopy_mem (d : Device) (b : Nat) (g : Migration) : (d.queryCopy b g).mem = d.mem := rfl

@[simp] theorem replaceAll_mem (d : Device) (hbm i : Nat) : (d.replaceAll hbm i).mem = d.mem := by
  unfold Device.replaceAll
  exact foldl_mem _ (fun x c => replaceSlds_mem x hbm c i) _ _

@[simp] theorem chargeRead_mem (d : Device) (a : Nat) (p : PendSld) : (d.chargeRead a p).mem = d.mem := by
  unfold Device.chargeRead
  split <;> simp

@[simp] theorem returnSld_mem (d : Device) (a : Nat) (p : PendSld) : (d.returnSld a p).mem = d.mem := by
  unfold Device.returnSld
  split <;> simp

@[simp] theorem denied_mem (d : Device) (sdev : Nat) : (d.denied sdev).mem = d.mem := by
  unfold Device.denied
  simp

@[simp] theorem noteLaunch_mem (d : Device) (id n : Nat) (x : Launch) : (d.noteLaunch id n x).mem = d.mem := rfl

@[simp] theorem setLaunch_mem (d : Device) (id : Nat) (x : Launch) : (d.setLaunch id x).mem = d.mem := rfl

@[simp] theorem toMembers_mem (d : Device) (x : Launch) (msg : Nat → Nat → Out) : (d.toMembers x msg).mem = d.mem := by
  unfold Device.toMembers
  refine foldl_mem _ (fun _ _ => ?_) _ _
  rfl

@[simp] theorem endHold_mem (d : Device) (b : Nat) : (d.endHold b).mem = d.mem := by
  unfold Device.endHold
  split <;> simp

@[simp] theorem dropHeld_mem (d : Device) (b : Nat) : (d.dropHeld b).mem = d.mem :=
  foldl_mem _ (fun x q => dropLaunches_mem q 1024 x) _ _

@[simp] theorem gangAbort_mem (d : Device) (b origin : Nat) : (d.gangAbort b origin).mem = d.mem := by
  unfold Device.gangAbort
  split
  · rfl
  · next k _ =>
    extract_lets d1 abort d2
    have habort : ∀ x a, (abort x a).mem = x.mem := fun x a => by
      unfold abort
      split
      · split <;> simp
      · rfl
    have h2 : d2.mem = d.mem := by
      unfold d2 d1
      rw [popHead_mem, release_mem, foldl_mem _ habort, dropHeld_mem]
      rfl
    exact (settle_mem ..).trans h2

@[simp] theorem dropPort_mem (d : Device) (port : Nat) : (d.dropPort port).mem = d.mem := rfl

@[simp] theorem leaseTo_mem (d : Device) (lines : List Nat) (st : Nat) : (d.leaseTo lines st).mem = d.mem := by
  unfold Device.leaseTo
  refine foldl_mem _ (fun _ _ => ?_) _ _
  rfl

@[simp] theorem peerMet_mem (d : Device) (lines : List Nat) : (d.peerMet lines).mem = d.mem := by
  unfold Device.peerMet
  exact foldl_mem _ (fun x l => faqPush_mem x 3 2 l) _ _

@[simp] theorem forwardWrites_mem (d : Device) (r : RemoteAccess) (ops : List (Nat × RemoteOp)) :
    (d.forwardWrites r ops).mem = d.mem := by
  unfold Device.forwardWrites
  refine foldl_mem _ (fun x dev => ?_) _ _
  dsimp only
  split <;> simp

@[simp] theorem eccPost_mem (d : Device) (e : EccEvent) (cls rung : Nat) (cause : BitVec 8) : (d.eccPost e cls rung cause).mem =
    d.mem := by
  unfold Device.eccPost
  simp

@[simp] theorem mergeCorrected_mem (d : Device) (e : EccEvent) : (d.mergeCorrected e).mem = d.mem := rfl

@[simp] theorem corrected_mem (d : Device) (e : EccEvent) : (d.corrected e).mem = d.mem := by
  unfold Device.corrected
  dsimp only
  repeat' split
  all_goals simp

@[simp] theorem cellError_mem (d : Device) (core : Nat) : (d.cellError core).mem = d.mem := rfl

@[simp] theorem failBinding_mem (d : Device) (b : Option Nat) (a : Nat) (seq : Word) : (d.failBinding b a seq).mem = d.mem := by
  unfold Device.failBinding
  split
  · simp
  · split <;> simp

@[simp] theorem cancelEntry_mem (d : Device) (a e n : Nat) : (d.cancelEntry a e n).1.mem = d.mem := by
  unfold Device.cancelEntry
  dsimp only
  split <;> simp

@[simp] theorem unplace_mem (d : Device) (stack pa : Nat) : (d.unplace stack pa).mem = d.mem := rfl

@[simp] theorem saveError_mem (d : Device) (e : EccEvent) (a b : Nat) (pinned : Bool) :
    (d.saveError e a b pinned).mem = d.mem := by
  unfold Device.saveError
  split <;> simp

@[simp] theorem coreError_mem (d : Device) (e : EccEvent) : (d.coreError e).mem = d.mem := by
  unfold Device.coreError
  extract_lets a seq d0 rewinding task context zero
  have h0 : d0.mem = d.mem := cellError_mem ..
  have hrewinding : ∀ x, (rewinding x).mem = x.mem := fun x => (rewind_mem ..).trans (eccPost_mem ..)
  have htask : ∀ x a, (task x a).mem = x.mem := fun x a => (failTask_mem ..).trans (eccPost_mem ..)
  have hcontext : ∀ x, (context x).mem = x.mem := fun x => (failBinding_mem ..).trans (eccPost_mem ..)
  split
  · split <;> simp [h0]
  · split
    · simp [hrewinding, h0]
    · split <;> simp [hrewinding, h0]
    · split <;> simp [hcontext, h0]
    · simp
    · simp [hcontext, h0]
    · simp [hrewinding, h0]
    · simp [htask, h0]
    · simp
    · split
      · exact (htask _ _).trans h0
      · exact (eccPost_mem ..).trans h0
    · have hc := cancelEntry_mem d0 a (e.unit % 8) (e.unit / 8)
      split
      next d1 mine h =>
        rw [h] at hc
        have h1 : d1.mem = d.mem := hc.trans h0
        split
        · exact (htask _ _).trans h1
        · exact (eccPost_mem ..).trans h1

@[simp] theorem farError_mem (d : Device) (e : EccEvent) : (d.farError e).mem = d.mem := by
  unfold Device.farError
  dsimp only
  repeat' split
  all_goals simp

@[simp] theorem dropClaims_mem (d : Device) (p : Nat → Block → Bool) : (d.dropClaims p).mem = d.mem := rfl

@[simp] theorem offline_mem (d : Device) (c : Nat) : (d.offline c).mem = d.mem := by
  unfold Device.offline
  split <;> simp

@[simp] theorem resetBlock_mem (d : Device) (stack b : Nat) : (d.resetBlock stack b).mem = d.mem := by
  unfold Device.resetBlock
  dsimp only
  repeat' split
  all_goals simp

@[simp] theorem clearStack_mem (d : Device) (stack : Nat) : (d.clearStack stack).mem = d.mem := rfl

@[simp] theorem writeRecord_mem (d : Device) (r : ErrRec) : (d.writeRecord r).mem = d.mem := by
  unfold Device.writeRecord
  dsimp only
  repeat' split
  all_goals simp

@[simp] theorem keepRecord_mem (d : Device) (r : ErrRec) : (d.keepRecord r).mem = d.mem := by
  unfold Device.keepRecord
  simp

@[simp] theorem stackFailure_mem (d : Device) (stack : Nat) : (d.stackFailure stack).mem = d.mem := by
  unfold Device.stackFailure
  simp

@[simp] theorem writeUgreq_mem (d : Device) (w : Nat) (v : Word) : (d.writeUgreq w v).mem = d.mem := (writeUgreq_spec d w v).2.1

@[simp] theorem writeCoff_mem (d : Device) (w : Nat) (v : Word) : (d.writeCoff w v).mem = d.mem := (writeCoff_spec d w v).2.1

@[simp] theorem faqPop_mem (d : Device) : (d.faqPop).mem = d.mem := rfl

@[simp] theorem addBadPage_mem (d : Device) (v : Word) : (d.addBadPage v).mem = d.mem := by
  unfold Device.addBadPage
  dsimp only
  repeat' split
  all_goals simp

@[simp] theorem writeManagement_mem (d : Device) (off : Nat) (v : Word) : (d.writeManagement off v).mem = d.mem := by
  unfold Device.writeManagement
  dsimp only
  repeat' split
  all_goals simp

@[simp] theorem writeController_mem (d : Device) (h off : Nat) (v : Word) : (d.writeController h off v).mem = d.mem := by
  unfold Device.writeController
  dsimp only
  repeat' split
  all_goals simp

@[simp] theorem startDrain_mem (d : Device) (b h : Nat) : (d.startDrain b h).mem = d.mem := rfl

@[simp] theorem releaseSnap_mem (d : Device) (b h : Nat) : (d.releaseSnap b h).mem = d.mem := rfl

@[simp] theorem removeCells_mem (d : Device) (r : Nat) (gone : BitVec 256) : (d.removeCells r gone).mem = d.mem := by
  unfold Device.removeCells
  exact (dropClaims_mem ..).trans (foldl_mem _ (fun x b => preemptBlock_mem x b) _ _)

@[simp] theorem setOwner_mem (d : Device) (o : BitVec 8) : (d.setOwner o).mem = d.mem := rfl

@[simp] theorem revoke_mem (d : Device) (a : Nat) : (d.revoke a).mem = d.mem := by
  unfold Device.revoke
  refine foldl_mem _ (fun _ _ => ?_) _ _
  rfl

@[simp] theorem firstIssue_mem (d : Device) (b : Nat) : (d.firstIssue b).mem = d.mem := by
  unfold Device.firstIssue
  split <;> simp

@[simp] theorem startEntry_mem (d : Device) (core : Nat) (m : MEntry) (cap : List Byte) :
    (d.startEntry core m cap).mem = d.mem := by
  unfold Device.startEntry
  split <;> simp

@[simp] theorem endEntry_mem (d : Device) (core : Nat) (m : MEntry) (f : Flags) : (d.endEntry core m f).mem = d.mem := rfl

@[simp] theorem flush_mem (d : Device) (src : Nat) : (d.flush src).mem = d.mem := by
  unfold Device.flush
  dsimp only
  split <;> simp

@[simp] theorem firmWrite_mem (d : Device) (w : FirmWrite) : (d.firmWrite w).mem = d.mem := by
  cases w with
  | block b i v mask => simp [Device.firmWrite]
  | hash rkid fnid b => rfl
  | resv r lend wt cells => simp [Device.firmWrite]
  | rgrace v => rfl
  | wclk v => rfl
  | plan stack off v => exact writeController_mem ..

@[simp] theorem logRunning_mem (d : Device) (f : Nat) : (d.logRunning f).mem = d.mem := rfl

@[simp] theorem dropRead_mem (d : Device) (f : Nat) (read : Map Nat) : (d.dropRead f read).mem = d.mem := rfl

@[simp] theorem orphan_mem (d : Device) (q : Nat) : (d.orphan q).mem = d.mem := rfl

@[simp] theorem setVector_mem (d : Device) (fn vec : Nat) (v : Vector) : (d.setVector fn vec v).mem = d.mem := by
  unfold Device.setVector
  dsimp only
  split <;> simp

/-! ### Functions of the device whose answer may be missing, or stands beside another -/

theorem placeSld_mem (d : Device) (core from_ : Nat) (q : PendSld) : (d.placeSld core from_ q).1.mem = d.mem := by
  unfold Device.placeSld
  dsimp only
  split
  · rfl
  · split <;> rfl

theorem issueSld_mem (d : Device) (core pa : Nat) (kind : BitVec 2) (x : Nat) : (d.issueSld core pa kind x).1.mem = d.mem := by
  unfold Device.issueSld
  extract_lets l hb c q
  split
  · rfl
  · have h := placeSld_mem (d.updHbm hb fun h => h.updChan c fun ch => { ch with arrived := ch.arrived + 1 }) core d.cycle q
    split
    next d1 p he =>
      rw [he] at h
      dsimp only
      split <;> simpa using h

@[simp] theorem takeSnap_mem (d : Device) (b h st : Nat) : (d.takeSnap b h st).1.mem = d.mem := rfl

/-! ## What writes memory -/

theorem mwf_filter {α : Type} [DecidableEq α] (z : α) (p : Nat × α → Bool) (m : Map α) (h : mwf z m = true) :
    mwf z (m.filter p) = true := by
  induction m with
  | nil => rfl
  | cons e r ih =>
    obtain ⟨h1, h2, h3⟩ := (mwf_cons z e r).mp h
    simp only [List.filter]
    split
    · exact (mwf_cons _ _ _).mpr ⟨h1, fun x hx => h2 x (List.mem_filter.mp hx).1, ih h3⟩
    · exact ih h3

/-- A fold over the device keeps the canonical form where each of its steps does. -/
theorem foldl_wf {α : Type} (f : Device → α → Device) (hf : ∀ d x, Memory.wf d.mem = true → Memory.wf (f d x).mem = true)
    (l : List α) (d : Device) (h : Memory.wf d.mem = true) : Memory.wf (l.foldl f d).mem = true := by
  induction l generalizing d with
  | nil => exact h
  | cons x r ih => exact ih _ (hf d x h)

theorem poke_wf (d : Device) (pa : Nat) (bs : List Byte) (h : Memory.wf d.mem = true) : Memory.wf (d.poke pa bs).mem = true :=
  wrBytes_wf _ _ _ h

theorem rekey_wf (d : Device) (line kid : Nat) (h : Memory.wf d.mem = true) : Memory.wf (d.rekey line kid).mem = true := by
  unfold Device.rekey
  extract_lets own c d1
  show Memory.wf d1.mem = true
  unfold d1
  split
  · exact h
  · exact wrBytes_wf _ _ _ h

theorem wipe_wf (d : Device) (pa size : Nat) (keep : Nat → Bool) (h : Memory.wf d.mem = true) :
    Memory.wf (d.wipe pa size keep).mem = true := by
  unfold Device.wipe
  dsimp only
  rw [unplaced_mem]
  exact mwf_filter _ _ _ h

theorem foldl_mput_wf {α : Type} (k : α → Nat) (v : α → Byte) (l : List α) (m : List Host.Cell) (h : Memory.wf m = true) :
    Memory.wf (l.foldl (fun m c => mput 0 m (k c) (v c)) m) = true := by
  induction l generalizing m with
  | nil => exact h
  | cons x r ih => exact ih _ (mwf_mput 0 m _ _ h)

theorem copyPage_wf (d : Device) (old fresh size : Nat) (h : Memory.wf d.mem = true) :
    Memory.wf (d.copyPage old fresh size).mem = true :=
  foldl_mput_wf (fun c : Host.Cell => c.1 - old + fresh) (fun c => c.2) _ _ (wipe_wf d fresh size _ h)

theorem touchLine_wf (d : Device) (w : Writer) (line : Nat) (versioned whole : Bool) (h : Memory.wf d.mem = true) :
    Memory.wf (d.touchLine w line versioned whole).mem = true := by
  unfold Device.touchLine
  extract_lets t d0 d1
  have h1 : d1.mem = d.mem := by
    unfold d1
    split
    · rfl
    · split
      · unfold d0
        split <;> rfl
      · exact foldl_mem _ (fun x e => preImage_mem x w line e) _ _
  rw [lowWater_mem, Device.updLine_mem]
  exact rekey_wf _ _ _ (by rw [h1]; exact h)

theorem touchRange_wf (d : Device) (w : Writer) (pa n : Nat) (versioned : Bool) (h : Memory.wf d.mem = true) :
    Memory.wf (d.touchRange w pa n versioned).mem = true :=
  foldl_wf _ (fun d _ h => touchLine_wf d _ _ _ _ h) _ _ h

theorem agentStore_wf (d : Device) (n : Nat) (w : HeldWrite) (h : Memory.wf d.mem = true) :
    Memory.wf (d.agentStore n w).mem = true := by
  unfold Device.agentStore
  split
  · exact h
  · exact wf_agentWrite _ _ _ _ _ _ _ _ h

theorem writePred_wf (d : Device) (w : Writer) (pa : Nat) (w0 w3 : Word) (h : Memory.wf d.mem = true) :
    Memory.wf (d.writePred w pa w0 w3).mem = true := poke_wf _ _ _ (poke_wf _ _ _ (touchRange_wf _ _ _ _ _ h))

theorem changeCount_wf (d : Device) (b : Nat) (w : Writer) (prot : Bool) (bseq : BitVec 31) (delta : Int) (pa : Nat)
    (w0 w3 : Word) (h : Memory.wf d.mem = true) : Memory.wf (d.changeCount b w prot bseq delta pa w0 w3).mem = true := by
  unfold Device.changeCount
  split
  · exact h
  · exact writePred_wf _ _ _ _ _ h

theorem putCount_wf (d : Device) (b : Nat) (w : Writer) (bseq : BitVec 31) (pa : Nat) (w0 w3 : Word)
    (h : Memory.wf d.mem = true) : Memory.wf (d.putCount b w bseq pa w0 w3).mem = true := by
  unfold Device.putCount
  split
  · rw [sendFor_mem]
    exact h
  · exact writePred_wf _ _ _ _ _ h

theorem applyOp_wf (d : Device) (o : BufOp) (h : Memory.wf d.mem = true) : Memory.wf (d.applyOp o).mem = true := by
  unfold Device.applyOp
  split
  · exact h
  · exact poke_wf _ _ _ h

theorem applied_wf (d : Device) (ops : List BufOp) (h : Memory.wf d.mem = true) : Memory.wf (d.applied ops).mem = true :=
  foldl_wf _ applyOp_wf _ _ (foldl_wf _ (fun d _ h => rekey_wf d _ _ h) _ _ h)

theorem publish_wf (d : Device) (w : Writer) (ops : List BufOp) (h : Memory.wf d.mem = true) :
    Memory.wf (d.publish w ops).mem = true := by
  rw [publish_mem]
  exact applied_wf d ops h

theorem ringWrite_wf (d : Device) (page st : Word) (h : Memory.wf d.mem = true) :
    Memory.wf (d.ringWrite page st).mem = true := by
  unfold Device.ringWrite
  dsimp only
  split
  · exact poke_wf _ _ _ (rekey_wf _ _ _ h)
  · exact h

theorem quarantine_wf (d : Device) (page fs : Word) (h : Memory.wf d.mem = true) :
    Memory.wf (d.quarantine page fs).mem = true := by
  unfold Device.quarantine
  split
  · simpa using h
  · exact ringWrite_wf d page _ h

theorem purge_wf (d : Device) (h : Memory.wf d.mem = true) : Memory.wf d.purge.mem = true := by
  unfold Device.purge
  exact foldl_wf _ (fun x e h => quarantine_wf _ _ _ (by rw [unplaced_mem]; exact h)) _ _ (by rw [updCopies_mem]; exact h)

theorem pendingClear_wf (d : Device) (page : Word) (h : Memory.wf d.mem = true) :
    Memory.wf (d.pendingClear page).mem = true := by
  unfold Device.pendingClear
  dsimp only
  exact wipe_wf d _ _ _ h

theorem releaseHead_wf (d : Device) (page : Word) (rest : List (Word × Word × Option Nat)) (h : Memory.wf d.mem = true) :
    Memory.wf (d.releaseHead page rest).mem = true := by
  unfold Device.releaseHead
  dsimp only
  split
  · exact quarantine_wf _ _ _ (pendingClear_wf _ _ h)
  · exact pendingClear_wf _ _ h

theorem freeBlock_wf (d : Device) (b : Nat) (h : Memory.wf d.mem = true) : Memory.wf (d.freeBlock b).mem = true := by
  unfold Device.freeBlock
  dsimp only
  rw [mem_noteCandidates]
  exact purge_wf _ (by rw [unmap_mem]; exact h)

theorem dropCopy_wf {d x : Device} {dev src b : Nat} (h : Memory.wf d.mem = true) (hx : d.dropCopy dev src b = some x) :
    Memory.wf x.mem = true := by
  unfold Device.dropCopy guardOpt at hx
  split at hx
  · cases hx
    exact freeBlock_wf _ _ h
  · cases hx

theorem reset_wf (d : Device) : Memory.wf d.reset.mem = true := by
  unfold Device.reset
  dsimp only
  rw [readRoots_mem]
  rfl

theorem writeMemory_wf (d : Device) (off : Nat) (v : Word) (h : Memory.wf d.mem = true) :
    Memory.wf (d.writeMemory off v).mem = true := by
  have here : ∀ (b : Prop) [Decidable b] (x : Device), x.mem = d.mem → Memory.wf (if b then x else d).mem = true := by
    intro b _ x hx
    split
    · rw [hx]
      exact h
    · exact h
  unfold Device.writeMemory
  extract_lets m free
  split
  · exact here _ _ rfl
  · exact h
  · exact quarantine_wf _ _ _ h
  · exact h
  · exact here _ _ rfl
  · exact here _ _ (lowWater_mem ..)
  · exact here _ _ rfl
  · rw [addBadPage_mem]
    exact h
  · exact h
  · exact h
  · exact h
  · exact h

theorem writeReg_wf (d : Device) (off : Nat) (v : Word) (h : Memory.wf d.mem = true) :
    Memory.wf (d.writeReg off v).mem = true := by
  unfold Device.writeReg
  split
  · rw [writeManagement_mem]
    exact h
  · split
    · exact h
    · split
      · exact writeMemory_wf _ _ _ h
      · split
        · rw [writeController_mem]
          exact h
        · split <;> exact h

theorem decrement_wf {d x : Device} {b n i : Nat} {w : Writer} {entry : Word} (h : Memory.wf d.mem = true)
    (hx : d.decrement b w n i entry = .ok x) : Memory.wf x.mem = true := by
  have hk (p : Device) (hp : Memory.wf p.mem = true) (cause : BitVec 8) (val : Word) :
      Memory.wf (p.kDeliver 4 b w.agent cause val none).mem = true := by simpa using hp
  unfold Device.decrement at hx
  split at hx
  · cases hx
    exact h
  dsimp only at hx
  split at hx
  · cases hx
    exact hk d h _ _
  split at hx
  · cases hx
    exact hk d h _ _
  split at hx
  · cases hx
  split at hx
  · cases hx
    exact hk d h _ _
  split at hx
  · cases hx
  split at hx
  · cases hx
    simpa using putCount_wf _ _ _ _ _ _ _ h
  · cases hx
    split
    · rw [readyEnqueue_mem]
      exact putCount_wf _ _ _ _ _ _ _ h
    · exact putCount_wf _ _ _ _ _ _ _ h

theorem decrements_wf {d x : Device} {b n i : Nat} {w : Writer} {l : List Word} (h : Memory.wf d.mem = true)
    (hx : d.decrements b w n i l = .ok x) : Memory.wf x.mem = true := by
  induction l generalizing d i with
  | nil => cases hx; exact h
  | cons e r ih =>
    unfold Device.decrements at hx
    split at hx
    · next d1 h1 => exact ih (decrement_wf h h1) hx
    · cases hx

theorem remoteCount_wf (d : Device) (wr : Writer) (pa : Nat) (v w : Word) (h : Memory.wf d.mem = true) :
    Memory.wf (d.remoteCount wr pa v w).1.mem = true := by
  unfold Device.remoteCount
  dsimp only
  split
  · exact writePred_wf _ _ _ _ _ h
  · split
    · exact writePred_wf _ _ _ _ _ h
    · exact h

theorem commitTask_wf {d x : Device} {a n st : Nat} {t : Task} (h : Memory.wf d.mem = true)
    (hx : d.commitTask a n t = .ok (x, st)) : Memory.wf x.mem = true := by
  unfold Device.commitTask at hx
  dsimp only at hx
  split at hx
  · contradiction
  · split at hx
    · contradiction
    · split at hx
      · contradiction
      · split at hx
        · contradiction
        · split at hx
          · contradiction
          · next d2 h2 =>
            cases hx
            have h1 : Memory.wf d2.mem = true := decrements_wf (by exact publish_wf d _ _ h) h2
            simpa using h1

/-! ## What every answer of a computation satisfies -/

/-- Every value that an optional answer can be satisfies `P`. -/
def Gives {α : Type} (P : α → Prop) : Option α → Prop
  | none => True
  | some x => P x

@[simp] theorem gives_none {α : Type} (P : α → Prop) : Gives P none := trivial

@[simp] theorem gives_some {α : Type} (P : α → Prop) (x : α) : Gives P (some x) ↔ P x := Iff.rfl

theorem gives_iff {α : Type} {P : α → Prop} {o : Option α} : Gives P o ↔ ∀ x, o = some x → P x := by
  cases o <;> simp

theorem gives_of_forall {α : Type} {P : α → Prop} (h : ∀ x, P x) (o : Option α) : Gives P o :=
  gives_iff.mpr fun x _ => h x

theorem gives_mono {α : Type} {P Q : α → Prop} {o : Option α} (h : Gives Q o) (hq : ∀ x, Q x → P x) : Gives P o :=
  gives_iff.mpr fun x e => hq x (gives_iff.mp h x e)

@[simp] theorem gives_map {α β : Type} (P : β → Prop) (f : α → β) (o : Option α) :
    Gives P (o.map f) ↔ Gives (fun x => P (f x)) o := by
  cases o <;> simp

@[simp] theorem gives_bind {α β : Type} (P : β → Prop) (f : α → Option β) (o : Option α) :
    Gives P (o >>= f) ↔ Gives (fun x => Gives P (f x)) o := by
  cases o <;> simp

@[simp] theorem gives_guardOpt {α : Type} (P : α → Prop) (b : Bool) (x : α) :
    Gives P (guardOpt b x) ↔ (b = true → P x) := by
  cases b <;> simp

/-- Every value that a computation can end with satisfies `P`; one that stops satisfies it. -/
def Ends {ε α : Type} (P : α → Prop) : Except ε α → Prop
  | .ok x => P x
  | .error _ => True

@[simp] theorem ends_ok {ε α : Type} (P : α → Prop) (x : α) : Ends P (.ok x : Except ε α) ↔ P x := Iff.rfl

@[simp] theorem ends_pure {ε α : Type} (P : α → Prop) (x : α) : Ends P (pure x : Except ε α) ↔ P x := Iff.rfl

@[simp] theorem ends_error {ε α : Type} (P : α → Prop) (e : ε) : Ends P (.error e : Except ε α) := trivial

@[simp] theorem ends_trapWith {α : Type} (P : α → Prop) (c : BitVec 8) (v : Word) : Ends P (trapWith c v : Except Stop α) :=
  trivial

@[simp] theorem ends_blockOn {α : Type} (P : α → Prop) (w : Wait) : Ends P (blockOn w : Except Stop α) := trivial

theorem ends_iff {ε α : Type} {P : α → Prop} {m : Except ε α} : Ends P m ↔ ∀ x, m = .ok x → P x := by
  cases m <;> simp

theorem ends_of_forall {ε α : Type} {P : α → Prop} (h : ∀ x, P x) (m : Except ε α) : Ends P m :=
  ends_iff.mpr fun x _ => h x

theorem ends_mono {ε α : Type} {P Q : α → Prop} {m : Except ε α} (h : Ends Q m) (hq : ∀ x, Q x → P x) : Ends P m :=
  ends_iff.mpr fun x e => hq x (ends_iff.mp h x e)

theorem ends_ite {ε α : Type} {P : α → Prop} {c : Prop} [Decidable c] {m n : Except ε α} (hm : c → Ends P m)
    (hn : ¬c → Ends P n) : Ends P (if c then m else n) := by
  split
  · exact hm ‹_›
  · exact hn ‹_›

theorem ends_bind_iff {ε α β : Type} (P : β → Prop) (f : α → Except ε β) (m : Except ε α) :
    Ends P (m >>= f) ↔ Ends (fun x => Ends P (f x)) m := by
  cases m <;> rfl

/-- Two computations in order, where nothing is asked of the first's answer. -/
theorem ends_any {ε α β : Type} {P : β → Prop} {f : α → Except ε β} {m : Except ε α} (h : ∀ x, Ends P (f x)) :
    Ends P (m >>= f) := (ends_bind_iff P f m).mpr (ends_of_forall h m)

/-- Two computations in order, where what the first's answer satisfies serves the second. -/
theorem ends_seq {ε α β : Type} {Q : α → Prop} {P : β → Prop} {f : α → Except ε β} {m : Except ε α} (hm : Ends Q m)
    (h : ∀ x, Q x → Ends P (f x)) : Ends P (m >>= f) := (ends_bind_iff P f m).mpr (ends_mono hm h)

/-! ### The device's optional answers -/

theorem access_gives (d : Device) (line : Nat) : Gives (fun x => x.mem = d.mem) (d.access line) :=
  gives_iff.mpr fun _ h => access_mem h

theorem startRecall_gives (d : Device) (m : Nat) : Gives (fun x => x.mem = d.mem) (d.startRecall m) := by
  unfold Device.startRecall
  simp only [gives_map]
  exact gives_of_forall (fun _ => by simp) _

theorem startPreempt_gives (d : Device) (m : Nat) : Gives (fun x => x.mem = d.mem) (d.startPreempt m) := by
  unfold Device.startPreempt
  simp only [gives_map]
  refine gives_of_forall (fun g => ?_) _
  exact (foldl_mem _ (fun x v => preemptBlock_mem x v) _ _).trans (by simp)

theorem askConfirm_gives (d : Device) (b : Nat) : Gives (fun x => x.mem = d.mem) (d.askConfirm b) := by
  unfold Device.askConfirm
  simp only [gives_bind, gives_guardOpt]
  exact gives_of_forall (fun _ _ => by simp) _

theorem ackAsked_gives (d : Device) (dev src b : Nat) : Gives (fun x => x.mem = d.mem) (d.ackAsked dev src b) := by
  simp [Device.ackAsked]

theorem confirmAsked_gives (d : Device) (dev src b : Nat) : Gives (fun x => x.mem = d.mem) (d.confirmAsked dev src b) := by
  simp [Device.confirmAsked]

theorem dropGangRecord_gives (d : Device) (b origin : Nat) : Gives (fun x => x.mem = d.mem) (d.dropGangRecord b origin) := by
  unfold Device.dropGangRecord
  extract_lets mine
  split
  · simp
  · extract_lets recs atHead d1 d2 d3
    have h1 : d1.mem = d.mem := by unfold d1; split <;> simp
    have h2 : d2.mem = d.mem := by unfold d2; simpa using h1
    have h3 : d3.mem = d.mem := by unfold d3; simpa using h2
    split
    · simpa using h2
    · simp only [gives_some, noteCandidates_mem]
      split
      · simpa using h3
      · exact h3

theorem sendMail_gives (d : Device) (src dst : Nat) (m : Message) : Gives (fun x => x.mem = d.mem) (d.sendMail src dst m) := by
  simp [Device.sendMail]

theorem readMail_gives (d : Device) (dst src : Nat) : Gives (fun x => x.mem = d.mem) (d.readMail dst src) := by
  unfold Device.readMail
  dsimp only
  split <;> simp

theorem tableWrite_gives (d : Device) (f : Nat) (w : FirmWrite) : Gives (fun x => x.mem = d.mem) (d.tableWrite f w) := by
  unfold Device.tableWrite
  dsimp only
  split <;> simp

theorem moveAcl_gives (d : Device) (key peer : Nat) : Gives (fun x => x.mem = d.mem) (d.moveAcl key peer) := by
  unfold Device.moveAcl
  simp only [gives_bind, gives_guardOpt]
  exact gives_of_forall (fun _ _ => by simp) _

theorem traffic_gives (d : Device) (tenant line arrived : Nat) (fill : Bool) :
    Gives (fun x => x.mem = d.mem) (d.traffic tenant line arrived fill) := by
  unfold Device.traffic
  extract_lets sl lines fits next
  split
  · rw [gives_map]
    exact gives_mono (access_gives _ _) fun x h => by rw [← h]; rfl
  · exact gives_none _

theorem unpark_mem (d : Device) (b va : Nat) (cause : BitVec 8) (val : Word) : (d.unpark b va cause val).1.mem = d.mem := by
  unfold Device.unpark
  split
  · rfl
  · split
    · rfl
    · exact (foldl_mem _ (fun x a => by simp) _ _).trans ((foldl_mem _ (fun x p => by simp) _ _).trans (by simp))

theorem dropCopy_gives (d : Device) (dev src b : Nat) (h : Memory.wf d.mem = true) :
    Gives (fun x => Memory.wf x.mem = true) (d.dropCopy dev src b) := gives_iff.mpr fun _ he => dropCopy_wf h he

theorem gives_wf {d : Device} {o : Option Device} (h : Memory.wf d.mem = true) (ho : Gives (fun x => x.mem = d.mem) o) :
    Gives (fun x => Memory.wf x.mem = true) o := gives_mono ho fun x e => by rw [e]; exact h

theorem act_gives (d : Device) (a : Act) (h : Memory.wf d.mem = true) : Gives (fun x => Memory.wf x.mem = true) (d.act a) := by
  cases a
  case send src dst m => exact gives_wf h (sendMail_gives ..)
  case read dst src => exact gives_wf h (readMail_gives ..)
  case write f w => exact gives_wf h (tableWrite_gives ..)
  case aclMoved key peer => exact gives_wf h (moveAcl_gives ..)
  case traffic ten line arrived fill => exact gives_wf h (traffic_gives ..)
  case askConfirm b => exact gives_wf h (askConfirm_gives ..)
  case ackAsked dev src b => exact gives_wf h (ackAsked_gives ..)
  case confirmAsked dev src b => exact gives_wf h (confirmAsked_gives ..)
  case dropCopy dev src b => exact dropCopy_gives _ _ _ _ h
  case pcieLink up => cases up <;> simpa [Device.act] using h
  all_goals simp [Device.act, h]

/-! ## States whose memory is in its canonical form -/

/-- The device that the slots of an open bundle read has its memory in the canonical form. -/
def PreWhole (o : Option Bundle) : Prop := Gives (fun b => Memory.wf b.pre.mem = true) o

theorem memWhole_iff {s : State} : MemWhole s ↔ Memory.wf s.dev.mem = true ∧ PreWhole s.bundle :=
  and_congr Iff.rfl gives_iff.symm

@[simp] theorem preWhole_none : PreWhole none := trivial

@[simp] theorem preWhole_some (b : Bundle) : PreWhole (some b) ↔ Memory.wf b.pre.mem = true := Iff.rfl

/-- A state written out. -/
@[simp] theorem memWhole_mk (d : Device) (o : Option Bundle) (g : List Turn) (f n : Nat) (l : Result) :
    MemWhole ⟨d, o, g, f, n, l⟩ ↔ Memory.wf d.mem = true ∧ PreWhole o := memWhole_iff

@[simp] theorem wf_and_preWhole_iff (s : State) : (Memory.wf s.dev.mem = true ∧ PreWhole s.bundle) ↔ MemWhole s :=
  memWhole_iff.symm

theorem memWhole_dev {s : State} (h : MemWhole s) : Memory.wf s.dev.mem = true := h.1

theorem memWhole_pre {s : State} (h : MemWhole s) : PreWhole s.bundle := (memWhole_iff.mp h).2

theorem memWhole_before {s : State} (h : MemWhole s) : Memory.wf s.before.mem = true := by
  have hp := memWhole_pre h
  unfold State.before
  cases hb : s.bundle
  case none => exact memWhole_dev h
  case some b => rw [hb] at hp; exact hp

theorem bun_pre (s : State) : s.bun.pre = s.before := by
  unfold State.bun State.before
  cases s.bundle <;> rfl

/-- A state whose device is replaced by one with the same memory. -/
theorem memWhole_withDev {s : State} {d : Device} {n : Nat} {l : Result} (h : MemWhole s) (e : d.mem = s.dev.mem) :
    MemWhole { s with dev := d, free := n, last := l } := by
  simpa [e] using h

/-! ### The functions of the state that leave memory as it is -/

theorem updBun_whole {s : State} {f : Bundle → Bundle} (hf : (f s.bun).pre.mem = s.bun.pre.mem) :
    MemWhole (s.updBun f) ↔ MemWhole s := by
  unfold State.updBun
  rw [memWhole_mk, preWhole_some, hf, bun_pre]
  exact ⟨fun h => by
    refine memWhole_iff.mpr ⟨h.1, ?_⟩
    have h2 := h.2
    unfold State.before at h2
    cases hb : s.bundle
    case none => exact preWhole_none
    case some b => rw [hb] at h2; exact h2, fun h => ⟨memWhole_dev h, memWhole_before h⟩⟩

@[simp] theorem updMe_whole (s : State) (f : Ctx → Ctx) : MemWhole (s.updMe f) ↔ MemWhole s := by
  unfold State.updMe
  simp

@[simp] theorem updRegs_whole (s : State) (f : Regs → Regs) : MemWhole (s.updRegs f) ↔ MemWhole s := updMe_whole s _

@[simp] theorem updTask_whole (s : State) (f : Task → Task) : MemWhole (s.updTask f) ↔ MemWhole s := updMe_whole s _

@[simp] theorem draw_whole (s : State) : MemWhole s.draw.1 ↔ MemWhole s := Iff.rfl

@[simp] theorem drawN_whole (s : State) (n : Nat) : MemWhole (s.drawN n).1 ↔ MemWhole s := Iff.rfl

@[simp] theorem setS_whole (s : State) (n : BitVec 6) (v : Word) : MemWhole (s.setS n v) ↔ MemWhole s := updRegs_whole s _

@[simp] theorem setP_whole (s : State) (n : BitVec 3) (v : Bool) : MemWhole (s.setP n v) ↔ MemWhole s := updRegs_whole s _

@[simp] theorem setK_whole (s : State) (n : BitVec 3) (v : Word) : MemWhole (s.setK n v) ↔ MemWhole s := updRegs_whole s _

@[simp] theorem setV_whole (s : State) (n : BitVec 6) (v : VReg) : MemWhole (s.setV n v) ↔ MemWhole s := updMe_whole s _

@[simp] theorem raise_whole (s : State) (f : Flags) : MemWhole (s.raise f) ↔ MemWhole s := by
  unfold State.raise
  split
  · rfl
  · exact updBun_whole rfl

@[simp] theorem setSeed_whole (s : State) (x : BitVec 32) : MemWhole (s.setSeed x) ↔ MemWhole s := by
  unfold State.setSeed
  split
  · rfl
  · exact updBun_whole rfl

@[simp] theorem stampAt_whole (s : State) (st : Nat) : MemWhole (s.stampAt st) ↔ MemWhole s := by
  unfold State.stampAt
  simp

@[simp] theorem takeStamp_whole (s : State) (n : Nat) : MemWhole (s.takeStamp n).1 ↔ MemWhole s := stampAt_whole _ _

@[simp] theorem settleFar_whole (s : State) : MemWhole s.settleFar ↔ MemWhole s := updMe_whole s _

@[simp] theorem noteLoad_whole (s : State) (used : Map L1Line) (st len : Nat) (ps : List Piece) :
    MemWhole (s.noteLoad used st len ps) ↔ MemWhole s := by
  have ha : (ps.foldl (fun x p => x.askPeer (some s.blk) p.pa p.n) s.dev).mem = s.dev.mem :=
    foldl_mem _ (fun x p => askPeer_mem x _ _ _) _ _
  unfold State.noteLoad
  extract_lets core home asked d1
  have h1 : d1.mem = s.dev.mem := (foldl_mem _ (fun x l => by simp) _ _).trans ha
  split
  · next live copy _ =>
    have h2 : (live.foldl (fun x l => x.updCore core fun k => { k with l1 := mset k.l1 l (copy x l) }) d1).mem = s.dev.mem :=
      (foldl_mem _ (fun x l => by simp) _ _).trans h1
    simp [h2]
  · simp [h1]

@[simp] theorem startSld_whole (s : State) (p : Piece) (t : BitVec 6) (x : Nat) : MemWhole (s.startSld p t x) ↔ MemWhole s := by
  unfold State.startSld
  split
  · rfl
  · simp [issueSld_mem]

@[simp] theorem writeEls_whole (s : State) (d : BitVec 6) (w tag : Nat) (o : VOut) :
    MemWhole (s.writeEls d w tag o) ↔ MemWhole s := by
  simp [State.writeEls]

@[simp] theorem maskedEls_whole (s : State) (d : BitVec 6) (k : BitVec 3) (w tag : Nat) (f : Nat → BitVec 32 → Rounded) :
    MemWhole (s.maskedEls d k w tag f) ↔ MemWhole s := writeEls_whole ..

@[simp] theorem maskedCodes_whole (s : State) (d : BitVec 6) (k : BitVec 3) (w tag : Nat) (f : Nat → Nat) :
    MemWhole (s.maskedCodes d k w tag f) ↔ MemWhole s := maskedEls_whole ..

@[simp] theorem wholeLanes_whole (s : State) (d : BitVec 6) (tag : BitVec 4) (f : Nat → Nat) :
    MemWhole (s.wholeLanes d tag f) ↔ MemWhole s := setV_whole ..

@[simp] theorem onlyFirst_whole (s : State) (d : BitVec 6) (tag code : Nat) : MemWhole (s.onlyFirst d tag code) ↔ MemWhole s :=
  setV_whole ..

@[simp] theorem writeGroup_whole (s : State) (d : BitVec 6) (codes gs : List Nat) :
    MemWhole (s.writeGroup d codes gs) ↔ MemWhole s := by
  induction gs generalizing s codes with
  | nil => rfl
  | cons g r ih => exact (ih _ _).trans (setV_whole ..)

@[simp] theorem markCompared_whole (s : State) : MemWhole s.markCompared ↔ MemWhole s := by
  unfold State.markCompared
  split
  · exact updBun_whole rfl
  · rfl

@[simp] theorem updMine_whole (s : State) (h : Nat) (f : Mine → Mine) : MemWhole (s.updMine h f) ↔ MemWhole s := updMe_whole s _

@[simp] theorem orderAfter_whole (s : State) (st : Nat) : MemWhole (s.orderAfter st) ↔ MemWhole s := updMe_whole s _

@[simp] theorem waited_whole (s : State) (h : Nat) (b : Barrier) : MemWhole (s.waited h b) ↔ MemWhole s := by
  simp [State.waited]

@[simp] theorem setQueue_whole (s : State) (q : Nat) (x : StreamQ) : MemWhole (s.setQueue q x) ↔ MemWhole s := by
  simp [State.setQueue]

@[simp] theorem setFifo_whole (s : State) (up : Bool) (f : Fifo) : MemWhole (s.setFifo up f) ↔ MemWhole s := by
  simp [State.setFifo]

@[simp] theorem recount_whole (s : State) (w : Word) (l : List PutNote) : MemWhole (s.recount w l) ↔ MemWhole s := by
  unfold State.recount
  induction l.filter fun n => n.cyc == s.dev.cycle generalizing s with
  | nil => rfl
  | cons n r ih => exact (ih _).trans (by simp)

@[simp] theorem moveEntry_whole (s : State) : MemWhole s.moveEntry ↔ MemWhole s := by simp [State.moveEntry]

@[simp] theorem observe_whole (s : State) (e n : Nat) : MemWhole (s.observe e n) ↔ MemWhole s := by simp [State.observe]

@[simp] theorem updMyCore_whole (s : State) (f : Core → Core) : MemWhole (s.updMyCore f) ↔ MemWhole s := by
  simp [State.updMyCore]

@[simp] theorem setSlotTag_whole (s : State) (o tag : Nat) : MemWhole (s.setSlotTag o tag) ↔ MemWhole s := updMyCore_whole s _

@[simp] theorem setSlotTags_whole (s : State) (tag : Nat) (os : List Nat) :
    MemWhole (s.setSlotTags tag os) ↔ MemWhole s := by
  unfold State.setSlotTags
  induction os generalizing s with
  | nil => rfl
  | cons o r ih => exact (ih _).trans (setSlotTag_whole ..)

@[simp] theorem setBankTag_whole (s : State) (b tag : Nat) : MemWhole (s.setBankTag b tag) ↔ MemWhole s := updMyCore_whole s _

@[simp] theorem updTimeline_whole (s : State) (e : Nat) (f : Timeline → Timeline) :
    MemWhole (s.updTimeline e f) ↔ MemWhole s := updMe_whole s _

@[simp] theorem masterStamp_whole (s : State) : MemWhole s.masterStamp.1 ↔ MemWhole s := Iff.rfl

@[simp] theorem ackStamp_whole (s : State) : MemWhole s.ackStamp.1 ↔ MemWhole s := Iff.rfl

@[simp] theorem trapAfter_whole (s : State) (c : BitVec 8) (v : Word) : MemWhole (s.trapAfter c v) ↔ MemWhole s :=
  updBun_whole rfl

@[simp] theorem closeSpan_whole (s : State) : MemWhole s.closeSpan ↔ MemWhole s := by simp [State.closeSpan]

@[simp] theorem atSlot_whole (s : State) (ds : List Dec) (i : Nat) (d : Dec) : MemWhole (s.atSlot ds i d) ↔ MemWhole s :=
  updBun_whole rfl

@[simp] theorem noteDue_whole (s : State) (ds : List Dec) (leaf : Nat) : MemWhole (s.noteDue ds leaf) ↔ MemWhole s := by
  unfold State.noteDue
  extract_lets new
  split
  · rfl
  · exact updMe_whole s _

@[simp] theorem queueSegment_whole (s : State) (g : Datagram) : MemWhole (s.queueSegment g) ↔ MemWhole s := by
  simp [State.queueSegment]

@[simp] theorem joinRec_whole (s : State) (r : Rec) (g : Datagram) : MemWhole (s.joinRec r g) ↔ MemWhole s := by
  unfold State.joinRec
  split <;> simp

@[simp] theorem answer_whole (s : State) (v c p q : Byte) (b : List Byte) : MemWhole (s.answer v c p q b) ↔ MemWhole s := by
  simp [State.answer]

@[simp] theorem spdmError_whole (s : State) (c : Byte) : MemWhole (s.spdmError c) ↔ MemWhole s := answer_whole ..

@[simp] theorem agree_whole (s : State) (n : BitVec 2) : MemWhole (s.agree n) ↔ MemWhole s := Iff.rfl

theorem after_whole {s t : State} (n : Nat) (h : MemWhole s) (ht : MemWhole t) : MemWhole (s.after n t) := by
  unfold State.after
  split
  · simpa using h
  · exact ht

@[simp] theorem noncedAnswer_whole (s : State) (sign : Bool) (c p q : Byte) (r : SpdmRequest) (b m : List Byte) :
    MemWhole (s.noncedAnswer sign c p q r b m) ↔ MemWhole s := answer_whole ..

@[simp] theorem remoteLoad_whole (s : State) (r : RemoteAccess) (kid n : Nat) :
    MemWhole (s.remoteLoad r kid n) ↔ MemWhole s := by
  simp [State.remoteLoad, State.masterStamp, State.draw]

@[simp] theorem refuseRemote_whole (s : State) (r : RemoteAccess) : MemWhole (s.refuseRemote r) ↔ MemWhole s := by
  simp [State.refuseRemote]

@[simp] theorem takeRecord_whole (s : State) (r : ErrRec) (l : List ErrRec) : MemWhole (s.takeRecord r l).1 ↔ MemWhole s := by
  simp [State.takeRecord]

@[simp] theorem readReg_whole (s : State) (off : Nat) (o : Bool) : MemWhole (s.readReg off o).1 ↔ MemWhole s := by
  unfold State.readReg
  split <;> simp

@[simp] theorem afterClosing_whole (s : State) (a : Word) : MemWhole (s.afterClosing a).1 ↔ MemWhole s := by
  unfold State.afterClosing
  split <;> rfl

@[simp] theorem domainKey_whole (s : State) (dom : Nat) : MemWhole (s.domainKey dom) ↔ MemWhole s := by
  unfold State.domainKey State.draw
  split
  · rfl
  · dsimp only
    split
    · simp
    · rfl

@[simp] theorem startEntry_whole (s : State) (core : Nat) (m : MEntry) : MemWhole (s.startEntry core m) ↔ MemWhole s := by
  unfold State.startEntry State.draw
  dsimp only
  split
  · simp
  · split <;> simp
  · simp

@[simp] theorem runEntry_whole (s : State) (core : Nat) (m : MEntry) : MemWhole (s.runEntry core m).1 ↔ MemWhole s := by
  unfold State.runEntry State.draw
  dsimp only
  split
  · simp
  · split <;> simp
  · simp

@[simp] theorem bindBlock_whole (s : State) (m g : Nat) : MemWhole (s.bindBlock m g) ↔ MemWhole s := by
  have hf (l : List Nat) (x : Device) :
      (l.foldl (fun x c => x.updCell c fun e => { e with held := some m }) x).mem = x.mem :=
    foldl_mem _ (fun x c => Device.updCell_mem x c _) l x
  simp [State.bindBlock, State.masterStamp, State.draw, hf]

theorem pickOne_whole {s : State} (m : Nat) (lead : Bool) (h : MemWhole s) : MemWhole (s.pickOne m lead).1 := by
  unfold State.pickOne
  split
  · simpa using h
  · split
    · simpa using h
    · split
      · split
        next d hd => exact memWhole_withDev h (gives_iff.mp (startRecall_gives s.dev m) d hd)
        next =>
          cases hp : s.dev.startPreempt m
          case none => exact h
          case some d => exact memWhole_withDev h (gives_iff.mp (startPreempt_gives s.dev m) d hp)
      · exact h

theorem pickList_whole {s : State} (lead : Bool) (l : List Nat) (h : MemWhole s) : MemWhole (s.pickList lead l).1 := by
  induction l generalizing s lead with
  | nil => exact h
  | cons m r ih =>
    have hp := pickOne_whole m lead h
    unfold State.pickList
    split
    next t he => rw [he] at hp; exact hp
    next t he => rw [he] at hp; exact ih false hp

theorem pickLevels_whole {s : State} (top : Bool) (firsts : List Nat) (p : Nat) (h : MemWhole s) :
    MemWhole (s.pickLevels top firsts p).1 := by
  induction p generalizing s top firsts with
  | zero => exact h
  | succ p ih =>
    unfold State.pickLevels
    extract_lets l f
    have hp := pickList_whole top l h
    split
    next t m he => rw [he] at hp; exact hp
    next t he => rw [he] at hp; exact ih _ _ hp

@[simp] theorem wholeCopy_whole (s : State) (m : MigrationCopy) : MemWhole (s.wholeCopy m) ↔ MemWhole s := by
  simp [State.wholeCopy, State.draw]

theorem issuePoint_whole {s : State} (core : Nat) (h : MemWhole s) : MemWhole (s.issuePoint core) := by
  unfold State.issuePoint
  extract_lets d0 d1
  have h0 : d0.mem = s.dev.mem := by unfold d0; split <;> simp
  have h1 : d1.mem = s.dev.mem := by unfold d1; rw [passIssue_mem]; exact h0
  simpa [h1] using memWhole_dev h

/-! ### Slots that stop, and what follows a commit -/

theorem stopped_whole {s : State} (x : Stop) (h : MemWhole s) : MemWhole (s.stopped x) := by
  cases x
  case trap c v => simpa [State.stopped] using memWhole_before h
  case abort c v => simpa [State.stopped] using memWhole_before h
  case rewind => simpa [State.stopped] using memWhole_before h
  case block w =>
    have hp := memWhole_pre h
    unfold State.stopped
    dsimp only
    split
    next b hb =>
      rw [hb] at hp
      exact memWhole_iff.mpr ⟨memWhole_dev (s := s) h, hp⟩
    next hb => simpa [hb] using memWhole_dev h

theorem bfault_whole {s : State} (n : Nat) (h : MemWhole s) : MemWhole (s.bfault n) :=
  stopped_whole _ ((updBun_whole (by simp)).mpr ((updMe_whole s _).mpr h))

theorem efaultTrap_whole {s : State} (e n : Nat) (h : MemWhole s) : MemWhole (s.efaultTrap e n) :=
  stopped_whole _ ((updBun_whole (by simp)).mpr ((updMe_whole s _).mpr h))

theorem follow_whole {s : State} {d : Device} (w : Word) (h : Memory.wf d.mem = true) : MemWhole (s.follow d w) := by
  have ht : ∀ x : Device, (match s.bun.after with
      | some p => x.trapEntry s.me p.slot p.cause p.val w
      | none => x).mem = x.mem := by
    intro x
    split <;> simp
  unfold State.follow
  extract_lets trapped held last
  have hh : ∀ x, (held x).mem = x.mem := by
    intro x
    unfold held
    split
    · split <;> simp
    · rfl
  rw [memWhole_mk, hh]
  exact ⟨by rw [show (trapped d).mem = d.mem from ht d]; exact h, preWhole_none⟩

/-! ## The slots' shared operations -/

theorem whole_of_eq {α : Type} {p : State × α} {t : State} {a : α} (e : p = (t, a)) (h : MemWhole p.1) : MemWhole t := by
  rw [e] at h
  exact h

theorem ite_fst_whole {α : Type} {c : Prop} [Decidable c] {p q : State × α} (hp : MemWhole p.1) (hq : MemWhole q.1) :
    MemWhole (if c then p else q).1 := by
  split
  · exact hp
  · exact hq

theorem loadPieces_ends {s : State} (ps : List Piece) (h : MemWhole s) : Ends (fun r => MemWhole r.1) (s.loadPieces ps) := by
  unfold State.loadPieces State.draw
  dsimp only
  split
  · exact ends_error _ _
  · rw [ends_ok, noteLoad_whole]
    exact ite_fst_whole (by simpa using h) (by simpa using h)

theorem load_ends {s : State} (va : Word) (n : Nat) (h : MemWhole s) : Ends (fun r => MemWhole r.1) (s.load va n) :=
  ends_any fun ps => loadPieces_ends ps h

theorem holdOp_ends {s : State} (o : HeldOp) (h : MemWhole s) : Ends MemWhole (s.holdOp o) := by
  unfold State.holdOp
  dsimp only
  split
  · exact ends_trapWith _ _ _
  · simpa using h

theorem bufferAt_ends {s : State} (o : BufOp) (h : MemWhole s) : Ends MemWhole (s.bufferAt o) := by
  unfold State.bufferAt
  split
  · exact h
  · extract_lets t
    exact ends_ite (fun _ => ends_trapWith _ _ _) fun _ => (updTask_whole s _).mpr h

theorem putOp_ends {s : State} (kind : BitVec 2) (o : BufOp) (h : MemWhole s) : Ends MemWhole (s.putOp kind o) := by
  have hp : Ends MemWhole (if s.holding then s.holdOp (.mem o s.spanOpen) else s.bufferAt o) :=
    ends_ite (fun _ => holdOp_ends _ h) fun _ => bufferAt_ends _ h
  exact ends_ite (fun _ => ends_any fun _ => ends_any fun _ => hp) fun _ => hp

theorem putPieces_ends {s : State} (ps : List Piece) (bs : List Byte) (h : MemWhole s) : Ends MemWhole (s.putPieces ps bs) := by
  induction ps generalizing s bs with
  | nil => exact h
  | cons p r ih => exact ends_seq (putOp_ends _ _ h) fun t ht => ih _ ht

theorem store_ends {s : State} (va : Word) (bs : List Byte) (h : MemWhole s) : Ends MemWhole (s.store va bs) :=
  ends_any fun ps => putPieces_ends ps bs h

theorem pinAs_ends {s : State} (p : Pin) (h : MemWhole s) : Ends MemWhole (s.pinAs p) := by
  unfold State.pinAs
  split
  · exact h
  · split
    · exact ends_trapWith _ _ _
    · simpa using h

theorem pin_ends {s : State} (h : MemWhole s) : Ends MemWhole s.pin := pinAs_ends _ h

theorem spRead_ends {s : State} (a : Word) (ma : Bool) (n align : Nat) (h : MemWhole s) :
    Ends (fun r => MemWhole r.1) (s.spRead a ma n align) := by
  unfold State.spRead State.draw
  extract_lets own
  refine ends_any fun x => ?_
  dsimp only
  rw [ends_pure]
  repeat' split
  all_goals simpa using h

theorem spWrite_ends {s : State} (a : Word) (ma : Bool) (align : Nat) (bs : List Byte) (h : MemWhole s) :
    Ends MemWhole (s.spWrite a ma align bs) := by
  unfold State.spWrite
  extract_lets own
  refine ends_any fun x => ?_
  dsimp only
  split
  · exact holdOp_ends _ h
  · rw [ends_pure]
    split <;> simpa using h

theorem tret_ends {s : State} (h : MemWhole s) : Ends MemWhole s.tret := by
  have hj : MemWhole (s.updBun fun b => { b with jump := some (bundleAddr s.ctx0.trap.tepc) }) := (updBun_whole rfl).mpr h
  unfold State.tret
  dsimp only
  split
  · exact ends_error _ _
  · rw [ends_ok]
    split
    · simpa using hj
    · exact hj

theorem external_ends {s : State} (kind : Ext) (key : List Word) {perform : State → Except Stop (State × Given)}
    (hp : ∀ t, MemWhole t → Ends (fun r => MemWhole r.1) (perform t)) (h : MemWhole s) :
    Ends (fun r => MemWhole r.1) (s.external kind key perform) := by
  have hm : Ends (fun r => MemWhole r.1) (perform s.markCompared) := hp _ ((markCompared_whole s).mpr h)
  unfold State.external
  dsimp only
  split
  · split
    · split
      · simpa using h
      · exact ends_error _ _
    · split
      · exact ends_trapWith _ _ _
      · split
        · exact ends_error _ _
        next he => rw [he] at hm; simpa using hm
  · exact hm

theorem externalUnit_ends {s : State} (kind : Ext) (key : List Word) {perform : State → Except Stop State}
    (hp : ∀ t, MemWhole t → Ends MemWhole (perform t)) (h : MemWhole s) : Ends MemWhole (s.externalUnit kind key perform) :=
  ends_seq (external_ends kind key (fun t ht => ends_seq (hp t ht) fun _ hu => hu) h) fun _ hr => hr

theorem arriveAt_ends {s : State} (n : Nat) (b : Barrier) (h : MemWhole s) : Ends MemWhole (s.arriveAt n b) := by
  unfold State.arriveAt
  split
  · exact ends_blockOn _ _
  · refine ends_seq (pinAs_ends _ h) fun s1 h1 => ?_
    extract_lets s2 r s3
    have h3 : MemWhole s3 := by simpa [s3, r, s2] using h1
    simpa using h3

theorem putStamp_ends {s : State} (h : MemWhole s) : Ends (fun r => MemWhole r.1) s.putStamp :=
  ends_seq (pin_ends h) fun s1 h1 => by simpa using h1

theorem enqueueQ_ends {s : State} (q : Nat) (token : Bool) (v : VReg) (h : MemWhole s) :
    Ends MemWhole (s.enqueueQ q token v) := by
  unfold State.enqueueQ
  refine ends_any fun x => ?_
  split
  · exact ends_blockOn _ _
  · exact ends_seq (putStamp_ends h) fun r hr => by simpa using hr

theorem dequeueQ_ends {s : State} (q : Nat) (h : MemWhole s) : Ends (fun r => MemWhole r.1) (s.dequeueQ q) := by
  unfold State.dequeueQ
  refine ends_any fun x => ?_
  split
  · exact ends_blockOn _ _
  · exact ends_any fun _ => ends_seq (pin_ends h) fun s1 h1 => by simpa using h1

theorem fifoPut_ends {s : State} (d : BitVec 6) (v : VReg) (h : MemWhole s) : Ends (fun r => MemWhole r.1) (s.fifoPut d v) := by
  unfold State.fifoPut
  dsimp only
  split
  · exact ends_blockOn _ _
  · exact ends_seq (putStamp_ends h) fun r hr => by simpa using hr

theorem fifoGet_ends {s : State} (h : MemWhole s) : Ends (fun r => MemWhole r.1) s.fifoGet := by
  unfold State.fifoGet
  dsimp only
  split
  · exact ends_blockOn _ _
  · exact ends_seq (pin_ends h) fun r hr => by simpa using hr

theorem enqueueM_ends {s : State} (op : MOp) (h : MemWhole s) : Ends MemWhole (s.enqueueM op) := by
  unfold State.enqueueM
  split
  · exact ends_blockOn _ _
  · simpa using h

theorem readLibrary_ends {s : State} (va : Word) (h : MemWhole s) : Ends (fun r => MemWhole r.1) (s.readLibrary va) :=
  ends_any fun _ => ends_seq (load_ends _ _ h) fun _ h1 => ends_any fun _ => ends_any fun ps =>
    ends_seq (loadPieces_ends ps h1) fun _ h2 => ends_any fun _ => ends_any fun _ => h2

theorem issueOp_ends {s : State} (eng op e : Nat) (regs : EngRegs) (f : Form) (rs : List Rng) (h : MemWhole s) :
    Ends (fun r => MemWhole r.1) (s.issueOp eng op e regs f rs) := by
  refine ends_ite (fun _ => ends_blockOn _ _) fun _ => ?_
  split
  next s1 x he1 =>
  split
  next s2 y he2 =>
  have h1 : MemWhole s1 := whole_of_eq he1 (by simpa using h)
  have h2 : MemWhole s2 := whole_of_eq he2 (by simpa using h1)
  extract_lets lines late
  split
  next s3 st he3 =>
  have h3 : MemWhole s3 := whole_of_eq he3 (by simpa using h2)
  extract_lets s4 t s5 d
  have h5 : MemWhole s5 := by simpa [s5, s4] using h3
  have hd : d.mem = s5.dev.mem := by unfold d; split <;> simp
  exact memWhole_iff.mpr ⟨by rw [hd]; exact memWhole_dev h5, memWhole_pre (s := s5) h5⟩

theorem amoRemote_ends {s : State} (p : Piece) (f n b cmp : Nat) (h : MemWhole s) :
    Ends (fun r => MemWhole r.1) (s.amoRemote p f n b cmp) := by
  refine ends_any fun _ => ?_
  dsimp only
  split
  · exact ends_error _ _
  · simpa using h

theorem snapPerform_ends {s : State} (drain : Bool) (h : MemWhole s) : Ends (fun r => MemWhole r.1) (s.snapPerform drain) := by
  unfold State.snapPerform
  extract_lets b
  split
  · exact ends_trapWith _ _ _
  · refine ends_seq (pin_ends h) fun s1 h1 => ?_
    extract_lets r p d
    have hd : d.mem = s1.dev.mem := by
      unfold d
      split <;> simp [p, r, State.takeStamp, State.stampAt, State.draw, State.updMe]
    refine (updBun_whole rfl).mpr ?_
    rw [memWhole_mk, hd]
    exact memWhole_iff.mp h1

theorem snaprelPerform_ends {s : State} (n : Nat) (h : MemWhole s) : Ends MemWhole (s.snaprelPerform n) :=
  ends_any fun _ => ends_seq (pin_ends h) fun s1 h1 => by simpa using h1

theorem unhold_ends {s : State} (l : List HeldOp) (h : MemWhole s) : Ends MemWhole (s.unhold l) := by
  induction l generalizing s with
  | nil => exact h
  | cons o r ih =>
    cases o
    case sp => exact ih h
    case mem o b => exact ends_seq (bufferAt_ends o h) fun t ht => ih ht

theorem engSource_ends {s : State} (o : EngOp) (k : Binding) (w : EngWrite) (h : MemWhole s) :
    Ends (fun r => MemWhole r.1) (s.engSource o k w) := by
  refine ends_any fun ps => ends_any fun _ => ?_
  split
  · exact ends_error _ _
  · exact h
  · dsimp only
    split
    · exact ends_error _ _
    · simpa [State.draw] using h

theorem saveCell_gives {s : State} (b l : Nat) (h : MemWhole s) : Gives MemWhole (s.saveCell b l) := by
  unfold State.saveCell
  simp only [gives_bind, gives_guardOpt]
  exact gives_of_forall (fun k _ => by simpa using h) _

theorem beginAreas_gives {s : State} (g fresh : Nat) (owners : List Nat) (h : MemWhole s) :
    Gives MemWhole (s.beginAreas g fresh owners) := by
  unfold State.beginAreas
  simp only [gives_guardOpt]
  exact fun _ => by simpa using h

/-! ## What the state's shared operations write -/

/-- A state with a device whose memory is in the form. -/
theorem whole_withDev {s : State} {d : Device} {g : List Turn} {f n : Nat} {l : Result} (h : MemWhole s)
    (hd : Memory.wf d.mem = true) : MemWhole ⟨d, s.bundle, g, f, n, l⟩ :=
  (memWhole_mk ..).mpr ⟨hd, memWhole_pre h⟩

/-- A fold over the state keeps the canonical form where each of its steps does. -/
theorem foldl_whole {α : Type} (f : State → α → State) (hf : ∀ s x, MemWhole s → MemWhole (f s x)) (l : List α) {s : State}
    (h : MemWhole s) : MemWhole (l.foldl f s) := by
  induction l generalizing s with
  | nil => exact h
  | cons x r ih => exact ih (hf s x h)

/-! ### The end of a task -/

theorem standing_mem (s : State) : s.standing.mem = s.dev.mem := by simp [State.standing]

theorem commit_whole {s : State} (h : MemWhole s) : MemWhole s.commit :=
  follow_whole _ (by rw [standing_mem]; exact memWhole_dev h)

theorem commitTask_ends {s : State} (h : MemWhole s) :
    Ends (fun r => MemWhole r.1 ∧ Memory.wf r.2.mem = true) s.commitTask := by
  have hd : Memory.wf (s.draw.1.updBun fun b => { b with compared := true }).standing.mem = true := by
    rw [standing_mem]
    exact memWhole_dev (s := s) h
  unfold State.commitTask
  dsimp only
  split
  · exact ⟨h, hd⟩
  next t _ =>
    split
    · exact ends_error _ _
    next d _ he =>
      have hd' := commitTask_wf hd he
      rw [ends_ok]
      exact ⟨h, by simpa using hd'⟩

theorem endTask_ends {s : State} (r : RunState) (h : MemWhole s) : Ends MemWhole (s.endTask r) := by
  refine ends_any fun _ => ends_seq (commitTask_ends ((updBun_whole rfl).mpr h)) fun p hp => ?_
  obtain ⟨t, d⟩ := p
  obtain ⟨ht, hd⟩ := hp
  rw [ends_pure, memWhole_mk]
  refine ⟨?_, preWhole_none⟩
  split
  · simpa using hd
  · exact hd

/-! ### Engine operations -/

theorem engPut_whole {s : State} (o : EngOp) (ps : List Piece) (bs : List Byte) (st : Nat) (h : MemWhole s) :
    MemWhole (s.engPut o ps bs st).1 := by
  induction ps generalizing s bs st with
  | nil => exact h
  | cons p r ih =>
    unfold State.engPut
    split
    · exact ih _ _ (by simpa using h)
    · exact ih _ _ (whole_withDev h (wf_agentWrite _ _ _ _ _ _ _ _ (memWhole_dev h)))

theorem engWrite_ends {s : State} (o : EngOp) (k : Binding) (w : EngWrite) (st : Nat) (h : MemWhole s) :
    Ends (fun r => MemWhole r.1) (s.engWrite o k w st) := by
  unfold State.engWrite
  split
  · exact ends_ite (fun _ => by simpa using h) fun _ => ends_error _ _
  · refine ends_ite (fun _ => h) fun _ => ?_
    split
    · exact ends_error _ _
    · exact engPut_whole _ _ _ _ h

theorem engRun_whole {s : State} (o : EngOp) (k : Binding) (st n : Nat) (ws : List EngWrite) (h : MemWhole s) :
    MemWhole (s.engRun o k st n ws).s := by
  induction n generalizing s st ws with
  | zero => exact h
  | succ n ih =>
    cases ws
    case nil => exact h
    case cons w r =>
      have hs := ends_iff.mp (engSource_ends o k w h)
      unfold State.engRun
      split
      · exact h
      next u he => exact ih st r (hs _ he)
      next u x xs he =>
        have hu : MemWhole u := hs _ he
        have hw := ends_iff.mp (engWrite_ends o k x st hu)
        split
        · exact hu
        next t st' ht => exact ih st' _ (hw _ ht)

theorem engFinish_whole {s : State} (o : EngOp) (k : Binding) (h : MemWhole s) : MemWhole (s.engFinish o k).s := by
  unfold State.engFinish
  split
  · split
    · exact h
    · simpa using h
  · exact engRun_whole _ _ _ _ _ h

theorem engEnd_ends {s : State} (o : EngOp) (k : Binding) (st : Nat) (h : MemWhole s) : Ends MemWhole (s.engEnd o k st) := by
  unfold State.engEnd State.draw
  extract_lets es
  dsimp only
  split
  · exact ends_error _ _
  next d he =>
    have hd : Memory.wf d.mem = true := decrements_wf (by exact memWhole_dev h) he
    rw [ends_ok]
    refine whole_withDev h ?_
    split <;> simpa using hd

theorem engOutcome_whole {s : State} (o : EngOp) (k : Binding) (h : MemWhole s) : MemWhole (s.engOutcome o k).1 := by
  have hr := engFinish_whole o k h
  have he := ends_iff.mp (engEnd_ends o k (s.engFinish o k).st hr)
  unfold State.engOutcome
  extract_lets r held
  have hh : MemWhole held := whole_withDev hr (memWhole_dev hr)
  split
  · exact hh
  · split
    next t ht => exact he t ht
    · exact hh

theorem engineTurn_whole {s : State} (a e n : Nat) (h : MemWhole s) : MemWhole (s.engineTurn a e n) := by
  unfold State.engineTurn
  split
  · exact h
  next o _ =>
    split
    · exact h
    next k _ =>
      split
      · exact h
      · have hr := engRun_whole o k o.wst n o.work h
        refine whole_withDev hr ?_
        split
        · split
          · exact memWhole_dev hr
          · rw [askPage_mem]
            exact memWhole_dev hr
        · exact memWhole_dev hr

theorem engFault_whole {s : State} (o : EngOp) (m : Met) (h : MemWhole s) : MemWhole (s.engFault o m) := by
  unfold State.engFault
  split
  next s1 x he =>
  have h1 : MemWhole s1 := whole_of_eq he ((draw_whole s).mpr h)
  extract_lets st code met d0 ended clear d1 d2
  have hm : met.mem = s1.dev.mem := by
    unfold met
    split
    · exact remotePoison_mem ..
    · rfl
  have h0 : d0.mem = s1.dev.mem := hm
  have h2 : d2.mem = s1.dev.mem := by
    unfold d2
    split
    · split
      · split
        · exact h0
        · rw [abortTask_mem]
          exact h0
      · exact h0
    · rw [efault_mem]
      exact h0
  refine whole_withDev h1 ?_
  split
  · rw [barrierFault_mem, h2]
    exact memWhole_dev h1
  · rw [h2]
    exact memWhole_dev h1

/-! ### Writes of the agents -/

theorem linePut_whole {s : State} (agent : Nat) (kid : Option Nat) (n pa : Nat) (bs : List Byte) (h : MemWhole s) :
    MemWhole (State.linePut agent kid n pa bs s) := by
  induction n generalizing s pa bs with
  | zero => exact h
  | succ n ih =>
    unfold State.linePut
    split
    · exact h
    · exact ih _ _ (whole_withDev h (agentStore_wf _ _ _ (memWhole_dev h)))

theorem storeAll_whole {s : State} (l : List HeldWrite) (h : MemWhole s) : MemWhole (s.storeAll l) := by
  induction l generalizing s with
  | nil => exact h
  | cons w r ih =>
    unfold State.storeAll
    exact ih (whole_withDev h (agentStore_wf _ _ _ (memWhole_dev h)))

theorem retried_whole {s : State} (h : MemWhole s) : MemWhole s.retried := storeAll_whole _ (whole_withDev h (memWhole_dev h))

theorem agentPut_whole {s : State} (agent pa : Nat) (bs : List Byte) (h : MemWhole s) : MemWhole (s.agentPut agent pa bs) :=
  linePut_whole _ _ _ _ _ h

theorem cmdPut_whole {s : State} (q : Nat) (dev : Bool) (addr : Nat) (bs : List Byte) (h : MemWhole s) :
    MemWhole (s.cmdPut q dev addr bs) := by
  unfold State.cmdPut
  dsimp only
  split
  · exact agentPut_whole _ _ _ h
  · split
    · simpa using h
    · exact h

theorem complete_whole {s : State} (q : Nat) (seq : Word32) (type : Nat) (cpl : Bool) (status : Nat) (v : Word) (h : MemWhole s) :
    MemWhole (s.complete q seq type cpl status v) := by
  unfold State.complete
  extract_lets hq bits128 s1 d
  have h1 : MemWhole s1 := cmdPut_whole _ _ _ _ h
  split
  · exact h
  · split
    · simpa using h
    · split
      · exact h
      · split
        · simpa using h
        · refine whole_withDev h1 ?_
          split <;> simpa [d] using memWhole_dev h1

theorem finishPend_whole {s : State} (p : Pending) (status : Nat) (v : Word) (h : MemWhole s) :
    MemWhole (s.finishPend p status v) :=
  complete_whole _ _ _ _ _ _ (whole_withDev h (by simpa using memWhole_dev h))

theorem finishKind_whole {s : State} (p : PendKind → Bool) (status : Nat) (v : Word) (h : MemWhole s) :
    MemWhole (s.finishKind p status v) :=
  foldl_whole _ (fun _ x ht => finishPend_whole x status v ht) _ h

theorem failCommand_whole {s : State} (q type : Nat) (cpl : Bool) (st : Nat) (h : MemWhole s) :
    MemWhole (s.failCommand q type cpl st) :=
  complete_whole _ _ _ _ _ _ (whole_withDev h (by simpa using memWhole_dev h))

theorem bufferOverrun_whole {s : State} (q : Nat) (p : Packet) (h : MemWhole s) : MemWhole (s.bufferOverrun q p) := by
  have ht := failCommand_whole q (packetType p.head) (p.head.getLsbD 13) 11 h
  exact whole_withDev ht (by simpa using memWhole_dev ht)

theorem fetchFailed_whole {s : State} (q : Nat) (h : MemWhole s) : MemWhole (s.fetchFailed q) := by
  have ht := failCommand_whole q (bits (Config.freeWord s.free) 5 0) true 12 ((draw_whole s).mpr h)
  exact whole_withDev ht (by rw [updHq_mem]; exact memWhole_dev ht)

theorem dataFailed_gives {s : State} (q : Nat) (h : MemWhole s) : Gives MemWhole (s.dataFailed q) := by
  unfold State.dataFailed
  split
  · split
    · exact finishPend_whole _ _ _ h
    · exact gives_none _
  · split
    · simp only [gives_guardOpt]
      exact fun _ => failCommand_whole _ _ _ _ (by simpa using h)
    · exact gives_none _

theorem signalLocal_whole {s : State} (pa : Nat) (v : Word) (h : MemWhole s) : MemWhole (s.signalLocal pa v).1 :=
  whole_withDev h (agentStore_wf _ _ _ (memWhole_dev h))

theorem writeSave_whole {s : State} (b : Nat) (v : Saved) (h : MemWhole s) : MemWhole (s.writeSave b v) :=
  linePut_whole _ _ _ _ _ h

theorem queuePut_whole {s : State} (b agent pa : Nat) (bs : List Byte) (h : MemWhole s) : MemWhole (s.queuePut b agent pa bs) :=
  linePut_whole _ _ _ _ _ h

theorem suspended_whole {s : State} (b : Nat) (h : MemWhole s) : MemWhole (s.suspended b) := by
  unfold State.suspended
  split
  · exact finishKind_whole _ _ _ h
  · exact h

theorem preempted_whole {s : State} (b : Nat) (k : Binding) (h : MemWhole s) : MemWhole (s.preempted b k) := by
  have hw := writeSave_whole b (s.masterStamp.1.dev.saveOf b k) ((masterStamp_whole s).mpr h)
  refine suspended_whole _ (whole_withDev hw ?_)
  rw [mem_noteCandidates, setMstate_mem, Device.updBlock_mem, release_mem]
  exact memWhole_dev hw

/-! ### The service queues -/

theorem appendRec_whole {s : State} (b : Nat) (r : Rec) (h : MemWhole s) : MemWhole (s.appendRec b r) := by
  unfold State.appendRec
  extract_lets m unit
  split
  next s1 x he =>
  have h1 : MemWhole s1 := whole_of_eq he ((draw_whole s).mpr h)
  extract_lets st r1 e s2 s3 d
  have h3 : MemWhole s3 := queuePut_whole _ _ _ _ (whole_withDev h1 (memWhole_dev h1))
  have hd : d.mem = s3.dev.mem := rfl
  refine whole_withDev h3 ?_
  rw [mem_noteCandidates]
  split
  · rw [setMstate_mem, hd]
    exact memWhole_dev h3
  · exact memWhole_dev h3

theorem requestFor_whole {s : State} (b : Nat) (g : Datagram) (h : MemWhole s) : MemWhole (s.requestFor b g) := by
  unfold State.requestFor
  dsimp only
  split
  · simpa using h
  · simpa using appendRec_whole b (newRec g) h

theorem receive_whole {s : State} (g : Datagram) (h : MemWhole s) : MemWhole (s.receive g) := by
  unfold State.receive
  split
  · simpa using h
  · split
    · simpa using h
    · split
      · simpa using h
      · split
        · exact h
        · split
          · simpa using h
          · split
            · exact requestFor_whole _ _ h
            · split
              · simpa using h
              · exact h
            · simpa using h

theorem writeSegment_whole {s : State} (b i : Nat) (r : Rec) (g : Datagram) (plain : List Byte) (h : MemWhole s) :
    MemWhole (s.writeSegment b i r g plain) := by
  unfold State.writeSegment
  extract_lets m agent first s1 got r1 s2 d
  have h1 : MemWhole s1 := foldl_whole _ (fun _ e ht => queuePut_whole _ _ _ _ ht) _ h
  have h2 : MemWhole s2 := queuePut_whole _ _ _ _ h1
  refine whole_withDev h2 ?_
  split <;> simpa [d] using memWhole_dev h2

theorem verify_whole {s : State} (g : Datagram) (h : MemWhole s) : MemWhole (s.verify g) := by
  unfold State.verify
  split
  · exact h
  · split
    · simpa using h
    · split
      · split
        · simpa using h
        · exact writeSegment_whole _ _ _ _ _ h
      · simpa using h

theorem appendLaunch_whole {s : State} (b : Nat) (l : LaunchPacket) (h : MemWhole s) : MemWhole (s.appendLaunch b l) := by
  unfold State.appendLaunch
  split
  next s1 x he =>
  have h1 : MemWhole s1 := whole_of_eq he ((draw_whole s).mpr h)
  extract_lets m r s2 first s3 d
  have h3 : MemWhole s3 := foldl_whole _ (fun _ e ht => queuePut_whole _ _ _ _ ht) _ (appendRec_whole _ _ h1)
  exact whole_withDev h3 (by rw [copyChanges_mem]; exact memWhole_dev h3)

theorem enqueueEntry_gives {s : State} (b : Nat) (k : Binding) (unit : Nat) (h : MemWhole s) :
    Gives MemWhole (s.enqueueEntry b k unit) := by
  have bad (x : Device) (hx : x.mem = s.dev.mem) : MemWhole { s with dev := x } :=
    whole_withDev h (by rw [hx]; exact memWhole_dev h)
  unfold State.enqueueEntry
  dsimp only
  split
  · exact bad _ (mem_kDeliver ..)
  next w _ =>
    split
    · exact gives_none _
    · split
      · exact bad _ (mem_kDeliver ..)
      · split
        · exact bad _ (mem_kDeliver ..)
        · rw [gives_some]
          refine whole_withDev h ?_
          rw [mem_readyEnqueue]
          split
          · simpa using memWhole_dev h
          · exact foldl_wf _ (fun x z hx => poke_wf x _ _ hx) _ _ (touchRange_wf _ _ _ _ _ (memWhole_dev h))

theorem bindingSteps_gives {s : State} (b : Nat) (k : Binding) (h : MemWhole s) : Gives MemWhole (s.bindingSteps b k) := by
  have same (x : Device) (hx : x.mem = s.dev.mem) : MemWhole { s with dev := x } :=
    whole_withDev h (by rw [hx]; exact memWhole_dev h)
  unfold State.bindingSteps
  extract_lets d i run
  split
  · exact same _ (keyMissing_mem ..)
  · split
    · split
      · exact same _ (by simp [d])
      · extract_lets d1
        have h1 : d1.mem = s.dev.mem := by simp [d1, run, d]
        refine same _ ?_
        split
        · exact h1
        · rw [enterRunning_mem, h1]
    · split
      · split
        · rw [gives_map]
          refine gives_mono (enqueueEntry_gives b k _ (same _ (freshGroup_mem ..))) fun t ht => ?_
          exact whole_withDev ht (by simpa [run] using memWhole_dev ht)
        · exact gives_none _
      · exact gives_none _

/-! ### Pages and their retirement -/

theorem relist_whole {s : State} (agent b va size : Nat) (pte : Word) (h : MemWhole s) :
    MemWhole (s.relist agent b va size pte) := by
  have ht := agentPut_whole agent (s.dev.leafAddr b va) (toBytes pte.toNat 8) h
  exact whole_withDev ht (by simpa using memWhole_dev ht)

theorem copyHere_whole {s : State} (page size : Nat) (h : MemWhole s) : MemWhole (s.copyHere page size) := by
  unfold State.copyHere
  split
  · exact h
  next c _ =>
    extract_lets one t
    have ht : MemWhole t := by
      refine foldl_whole _ (fun u x hu => ?_) _ (whole_withDev h (by simpa using memWhole_dev h))
      unfold one
      split
      · split
        · exact relist_whole _ _ _ _ _ hu
        · exact hu
      · exact hu
    refine whole_withDev ht ?_
    split
    · simpa using memWhole_dev ht
    · exact memWhole_dev ht

theorem placePage_whole {s : State} (b va : Nat) (sz : BitVec 2) (pte : Word) (parts : List (Nat × List Byte))
    (h : MemWhole s) : MemWhole (s.placePage b va sz pte parts) := by
  unfold State.placePage
  extract_lets pa size kid mask s1 s2 d
  have h1 : MemWhole s1 := whole_withDev h (wipe_wf _ _ _ _ (memWhole_dev h))
  have h2 : MemWhole s2 := foldl_whole _ (fun _ _ ht => linePut_whole _ _ _ _ _ ht) _ h1
  split
  · refine copyHere_whole _ _ (whole_withDev h2 ?_)
    have hd : d.mem = s2.dev.mem := by simp [d]
    split
    · rw [hd]
      exact memWhole_dev h2
    · simpa [hd] using memWhole_dev h2
  · exact relist_whole _ _ _ _ _ h2

theorem fetched_gives {s : State} (f : Fetch) (sz : BitVec 2) (pte : Word) (res : FetchResult) (h : MemWhole s) :
    Gives MemWhole (s.fetched f sz pte res) := by
  unfold State.fetched
  extract_lets base size weights parts fits matches_ fail
  have hf (cls : Nat) : MemWhole (fail cls) := whole_withDev h (by simpa using memWhole_dev h)
  split
  · exact gives_none _
  · split
    · split
      · rw [gives_some]
        split
        · exact placePage_whole _ _ _ _ _ h
        · exact hf 3
      · exact gives_none _
    · split
      · exact hf 6
      · exact gives_none _
    · rw [gives_some]
      split
      · exact placePage_whole _ _ _ _ _ h
      · exact hf 3
    · exact hf 6
    · split
      · exact hf 3
      · exact gives_none _

theorem installLeaf_whole {s : State} (b va : Nat) (sz : BitVec 2) (p : Word) (h : MemWhole s) :
    MemWhole (s.installLeaf b va sz p) := by
  unfold State.installLeaf
  extract_lets base size d sdom ds d1 t
  have hd : Memory.wf d.mem = true := by simpa [d] using memWhole_dev h
  split
  · have ht : MemWhole t := by
      unfold t
      split
      · exact relist_whole _ _ _ _ _ (whole_withDev h (by simpa using hd))
      · exact whole_withDev h (by simpa [d1] using hd)
    exact whole_withDev ht (purge_wf _ (memWhole_dev ht))
  · exact whole_withDev h (purge_wf _ (by simpa using hd))

theorem endShootdown_whole {s : State} (p : Pending) (st : Nat) (h : MemWhole s) : MemWhole (s.endShootdown p st) := by
  unfold State.endShootdown
  split
  · exact whole_withDev h (by simpa using memWhole_dev h)
  · exact finishPend_whole _ _ _ h

theorem shootAcked_gives {s : State} (src st : Nat) (h : MemWhole s) : Gives MemWhole (s.shootAcked src st) := by
  unfold State.shootAcked
  rw [gives_bind]
  refine gives_of_forall (fun p => ?_) _
  rw [Option.pure_def, gives_some]
  exact finishPend_whole p 0 (word st) (whole_withDev h (memWhole_dev h))

theorem act_whole {s : State} (a : Act) (h : MemWhole s) : Gives MemWhole (s.act a) := by
  unfold State.act
  split
  · exact shootAcked_gives _ _ h
  · rw [gives_map]
    exact gives_mono (act_gives _ _ (memWhole_dev h)) fun x hx => whole_withDev h hx

theorem putLeaf_whole {s : State} (m : Mapping) (pte : Word) (h : MemWhole s) : MemWhole (s.putLeaf m pte) :=
  agentPut_whole _ _ _ h

theorem beginMapped_gives {s : State} (g fresh : Nat) (ms : List Mapping) (m : Mapping) (h : MemWhole s) :
    Gives MemWhole (s.beginMapped g fresh ms m) := by
  unfold State.beginMapped
  extract_lets size old owners t r d
  have ht : MemWhole t := foldl_whole _ (fun _ m hu => putLeaf_whole m _ hu) _ h
  have hd : d.mem = t.dev.mem := by
    unfold d
    rw [holdOwners_mem]
    exact foldl_mem _ (fun x m => shootMapping_mem x m) _ _
  have hr : Memory.wf d.mem = true := by
    rw [hd]
    exact memWhole_dev ht
  rw [gives_guardOpt]
  exact fun _ => whole_withDev ht hr

theorem endMapped_gives {s : State} (r : Retire) (m : Mapping) (h : MemWhole s) : Gives MemWhole (s.endMapped r m) := by
  unfold State.endMapped
  extract_lets size old owners page move over_ ask
  split
  next s1 x he =>
  have h1 : MemWhole s1 := whole_of_eq he ((ackStamp_whole s).mpr h)
  extract_lets t d bad d1 t' d2
  have hmove (u : State) (ab : Nat) (hu : MemWhole u) : MemWhole (move u ab) :=
    foldl_whole _ (fun _ m hv => putLeaf_whole m _ hv) _ hu
  rw [gives_guardOpt]
  intro _
  split
  · have ht : MemWhole t := hmove _ _ h1
    have hd : d.mem = t.dev.mem := (endRetire_mem ..).trans (moveCopy_mem ..)
    have hask (x : Device) (m : Mapping) : (ask x m).mem = x.mem := by
      unfold ask
      split
      · exact requestFetch_mem ..
      · rfl
    exact whole_withDev ht (quarantine_wf _ _ _ (by rw [foldl_mem ask hask, hd]; exact memWhole_dev ht))
  · have hd1 : Memory.wf d1.mem = true := by
      unfold d1
      rw [foldl_mem _ (fun x b => Device.updBlock_mem x b _)]
      exact copyPage_wf _ _ _ _ (memWhole_dev h1)
    have ht : MemWhole t' := hmove _ _ (whole_withDev h1 hd1)
    have hd2 : d2.mem = t'.dev.mem := (foldl_mem _ (fun x m => reported_mem x _ _ _) _ _).trans (endRetire_mem ..)
    exact whole_withDev ht (by rw [retired_mem]; exact quarantine_wf _ _ _ (by rw [hd2]; exact memWhole_dev ht))

theorem retable_whole {s : State} (b g fresh : Nat) (h : MemWhole s) : MemWhole (s.retable b g fresh) := by
  unfold State.retable
  extract_lets at_ root s1 fix
  refine foldl_whole _ (fun t e ht => ?_) _ (whole_withDev h (by simpa using memWhole_dev h))
  unfold fix
  split
  · exact agentPut_whole _ _ _ ht
  · exact ht

theorem retireTable_whole {s : State} (g fresh : Nat) (tabled : List Nat) (h : MemWhole s) :
    MemWhole (s.retireTable g fresh tabled) := by
  unfold State.retireTable
  extract_lets old put t
  have hp : MemWhole put := agentPut_whole _ _ _ (whole_withDev h (wipe_wf _ _ _ _ (memWhole_dev h)))
  have ht : MemWhole t := foldl_whole _ (fun _ b hu => retable_whole b g fresh hu) _ hp
  exact whole_withDev ht (by rw [retired_mem]; exact quarantine_wf _ _ _ (memWhole_dev ht))

theorem endAreas_gives {s : State} (r : Retire) (h : MemWhole s) : Gives MemWhole (s.endAreas r) := by
  unfold State.endAreas
  extract_lets old owners lo bad move d
  have hd : Memory.wf d.mem = true := by
    refine foldl_wf _ (fun x e hx => ?_) _ _ (memWhole_dev h)
    unfold move
    dsimp only
    rw [foldl_mem _ (fun y b => Device.updBlock_mem y b _)]
    exact copyPage_wf _ _ _ _ hx
  rw [gives_guardOpt]
  exact fun _ => whole_withDev h (by rw [retired_mem, endRetire_mem]; exact quarantine_wf _ _ _ hd)

theorem beginRetire_gives {s : State} (g fresh : Nat) (h : MemWhole s) : Gives MemWhole (s.beginRetire g fresh) := by
  unfold State.beginRetire
  split
  · exact beginMapped_gives _ _ _ _ h
  · dsimp only
    split
    · rw [gives_guardOpt]
      exact fun _ => retireTable_whole _ _ _ h
    · split
      · exact beginAreas_gives _ _ _ h
      · exact whole_withDev h (by simpa using memWhole_dev h)

/-! ### Drains, copies and migrations -/

theorem commitDrain_whole {s : State} (b n : Nat) (m : Allotment) (h : MemWhole s) : MemWhole (s.commitDrain b n m) := by
  unfold State.commitDrain
  extract_lets k sel other dseq c r f0 f d0 t
  have ht : MemWhole t := agentPut_whole _ _ _ (whole_withDev h (memWhole_dev h))
  exact whole_withDev ht (by simpa using memWhole_dev ht)

theorem layCopy_whole {s : State} (m : MigrationCopy) (h : MemWhole s) : MemWhole (s.layCopy m) := by
  unfold State.layCopy
  extract_lets stale s1 words d0 d
  have h1 : MemWhole s1 := foldl_whole _ (fun _ e ht => agentPut_whole _ _ _ ht) _ h
  have h0 : d0.mem = s1.dev.mem := rfl
  have hd : d.mem = s1.dev.mem := by
    unfold d
    split <;> exact h0
  exact whole_withDev h1 (by rw [foldl_mem _ (fun x e => Device.updSnap_mem x _ _ _), hd]; exact memWhole_dev h1)

theorem abortMigration_whole {s : State} (b : Nat) (g : Migration) (h : MemWhole s) : MemWhole (s.abortMigration b g) :=
  finishKind_whole _ _ _ (whole_withDev h (by simpa using memWhole_dev h))

theorem endLaunch_whole {s : State} (id st : Nat) (v : Word) (h : MemWhole s) : MemWhole (s.endLaunch id st v) :=
  finishKind_whole _ _ _ (whole_withDev h (by simpa using memWhole_dev h))

theorem replyBytes_whole {s : State} (x : Launch) (p : List Byte) (h : MemWhole s) : MemWhole (s.replyBytes x p) := by
  unfold State.replyBytes
  split
  · exact cmdPut_whole _ _ _ _ h
  · exact h

theorem failLaunches_whole {s : State} (h : MemWhole s) : MemWhole s.failLaunches :=
  foldl_whole _ (fun _ e ht => endLaunch_whole e.1 15 0 ht) _ h

theorem failMigrations_whole {s : State} (h : MemWhole s) : MemWhole s.failMigrations := by
  refine foldl_whole _ (fun t e ht => ?_) _ h
  split
  · exact abortMigration_whole _ _ ht
  · exact ht

theorem failUnreachable_whole {s : State} (h : MemWhole s) : MemWhole s.failUnreachable :=
  failMigrations_whole (failLaunches_whole h)

theorem linkLost_whole {s : State} (port : Nat) (h : MemWhole s) : MemWhole (s.linkLost port) :=
  failUnreachable_whole (whole_withDev h (by simpa using memWhole_dev h))

theorem takeLaunch_whole {s t : State} {l : LaunchPacket} (h : MemWhole s)
    (ht : s.takeLaunch l = .taken t ∨ s.takeLaunch l = .sent t) : MemWhole t := by
  unfold State.takeLaunch at ht
  extract_lets m at ht
  split at ht
  · split at ht
    · obtain ht | ht := ht
      · injection ht with ht
        exact ht ▸ appendLaunch_whole _ _ h
      · cases ht
    · obtain ht | ht := ht <;> cases ht
  · split at ht
    · split at ht
      · obtain ht | ht := ht
        · cases ht
        · injection ht with ht
          exact ht ▸ whole_withDev h (memWhole_dev h)
      · obtain ht | ht := ht <;> cases ht
    · obtain ht | ht := ht <;> cases ht

theorem launchArrives_whole {s : State} (l : LaunchPacket) (h : MemWhole s) : MemWhole (s.launchArrives l) := by
  unfold State.launchArrives
  extract_lets fail
  have hf (t : State) (ht : MemWhole t) (n : Nat) : MemWhole (fail t n) := whole_withDev ht (memWhole_dev ht)
  split
  · exact hf _ (whole_withDev h (by rw [denied_mem]; exact memWhole_dev h)) _
  · split
    next t he => exact takeLaunch_whole h (.inl he)
    next t he => exact takeLaunch_whole h (.inr he)
    · exact hf _ h _
    · exact hf _ h _

/-! ### Atomics, counts and transactions -/

theorem amoLocal_ends {s : State} (p : Piece) (f n b cmp : Nat) (h : MemWhole s) :
    Ends (fun r => MemWhole r.1) (s.amoLocal p f n b cmp) := by
  unfold State.amoLocal
  refine ends_ite (fun _ => ends_error _ _) fun _ => ?_
  split
  next s1 st he =>
  have h1 : MemWhole s1 := whole_of_eq he ((takeStamp_whole ..).mpr h)
  extract_lets old
  split
  · exact whole_withDev h1 (poke_wf _ _ _ (touchRange_wf _ _ _ _ _ (memWhole_dev h1)))
  · refine whole_withDev h1 ?_
    rw [published_mem]
    rw [foldl_mem _ (fun x l => Device.updLine_mem x l _)]
    exact memWhole_dev h1

theorem amoPerform_ends {s : State} (p : Piece) (f n b cmp : Nat) (h : MemWhole s) :
    Ends (fun r => MemWhole r.1) (s.amoPerform p f n b cmp) := by
  refine ends_seq (pin_ends h) fun s1 h1 => ?_
  have hr : Ends (fun r => MemWhole r.1) (if isRemote p.pa then s1.amoRemote p f n b cmp else s1.amoLocal p f n b cmp) :=
    ends_ite (fun _ => amoRemote_ends _ _ _ _ _ h1) fun _ => amoLocal_ends _ _ _ _ _ h1
  exact ends_ite (fun _ => ends_seq (amoRemote_ends _ _ _ _ _ h1) fun r hr => hr)
    fun _ => ends_seq (amoLocal_ends _ _ _ _ _ h1) fun r hr => hr

theorem count_ends {s : State} (va : Word) (p : Piece) (delta : Int) (h : MemWhole s) :
    Ends (fun r => MemWhole r.1) (s.count va p delta) := by
  unfold State.count
  extract_lets jp
  have hj (u : Unit) : Ends (fun r => MemWhole r.1) (jp u) := by
    unfold jp
    split
    next s0 x he0 =>
    have h0 : MemWhole s0 := whole_of_eq he0 ((draw_whole s).mpr h)
    split
    next s1 st he1 =>
    have h1 : MemWhole s1 := whole_of_eq he1 ((takeStamp_whole ..).mpr h0)
    refine ends_any fun bs => ?_
    dsimp only
    refine ends_ite (fun _ => ?_) fun _ => ?_
    · exact ends_ite (fun _ => whole_withDev h1 (changeCount_wf _ _ _ _ _ _ _ _ _ (memWhole_dev h1)))
        fun _ => ends_trapWith _ _ _
    · refine ends_seq (pin_ends h1) fun s2 h2 => whole_withDev h2 ?_
      split
      · rw [mem_readyEnqueue]
        exact changeCount_wf _ _ _ _ _ _ _ _ _ (memWhole_dev h2)
      · exact changeCount_wf _ _ _ _ _ _ _ _ _ (memWhole_dev h2)
  exact ends_ite (fun _ => ends_any fun u => hj u) fun _ => hj ()

theorem txcPerform_ends {s : State} (h : MemWhole s) : Ends (fun r => MemWhole r.1) s.txcPerform := by
  unfold State.txcPerform
  extract_lets ops lines r
  have hr : MemWhole r.1 := (takeStamp_whole ..).mpr h
  split
  · exact ends_error _ _
  · refine ends_ite (fun _ => hr) fun _ => ends_seq (pin_ends hr) fun s1 h1 => ?_
    simpa using whole_withDev (g := s1.agenda) (f := s1.focus) (n := s1.free) (l := s1.last) h1
      (publish_wf _ _ _ (memWhole_dev h1))

/-! ### The fabric's accesses -/

theorem remoteAtomic_whole {s : State} (r : RemoteAccess) (kid n op : Nat) (v w : Word) (h : MemWhole s) :
    MemWhole (s.remoteAtomic r kid n op v w) := by
  unfold State.remoteAtomic State.draw
  dsimp only
  split
  · exact whole_withDev h (by simpa using memWhole_dev h)
  · refine whole_withDev h ?_
    rw [Device.send_mem]
    split
    · exact remoteCount_wf _ _ _ _ _ (memWhole_dev h)
    · split
      · exact poke_wf _ _ _ (touchRange_wf _ _ _ _ _ (memWhole_dev h))
      · simpa using memWhole_dev h

theorem remotePublish_whole {s : State} (r : RemoteAccess) (ops : List BufOp) (h : MemWhole s) :
    MemWhole (s.remotePublish r ops) :=
  whole_withDev h (publish_wf _ _ _ (memWhole_dev h))

theorem remote_whole {s : State} (r : RemoteAccess) (h : MemWhole s) : MemWhole (s.remote r) := by
  unfold State.remote
  split
  · split
    · simpa using h
    · simpa using h
  · split
    · exact remoteAtomic_whole _ _ _ _ _ _ h
    · simpa using h
  · split
    · simpa using h
    · extract_lets here t
      have ht : MemWhole t := whole_withDev h (by simpa using memWhole_dev h)
      split
      · exact ht
      · exact remotePublish_whole _ _ ht

/-! ### Resets, kills and failures -/

theorem resetDevice_whole (s : State) : MemWhole s.resetDevice := (memWhole_mk ..).mpr ⟨reset_wf _, preWhole_none⟩

theorem powerDown_whole (s : State) (p : Power) : MemWhole (s.powerDown p) := (memWhole_mk ..).mpr ⟨rfl, preWhole_none⟩

theorem stackReset_whole {s : State} (stack : Nat) (h : MemWhole s) : MemWhole (s.stackReset stack) := by
  unfold State.stackReset
  extract_lets d again e0 d1 bound d2 ws t d3 d4 d5 d6
  have h2 : d2.mem = s.dev.mem := (foldl_mem _ (fun x b => resetBlock_mem x stack b) bound d1).trans rfl
  have ht : MemWhole t :=
    foldl_whole _ (fun _ m hu => putLeaf_whole m _ hu) ws (whole_withDev h (by rw [h2]; exact memWhole_dev h))
  have h3 : d3.mem = t.dev.mem := foldl_mem _ (fun x m => (requestFetch_mem ..).trans (rereadEnts_mem ..)) ws t.dev
  have h4 : Memory.wf d4.mem = true := wipe_wf _ _ _ _ (by rw [clearStack_mem, h3]; exact memWhole_dev ht)
  have h6 : d6.mem = d4.mem := (dropClaims_mem ..).trans (Device.updTab_mem ..)
  have hp : (if again then d6.post { cls := 7, rung := 6, agent := BitVec.ofNat 16 (512 * stack) } else d6).mem = d4.mem := by
    split
    · rw [post_mem, h6]
    · exact h6
  exact whole_withDev ht (by rw [hp]; exact h4)

theorem actOn_whole {s : State} (r : ErrRec) (h : MemWhole s) : MemWhole (s.actOn r) := by
  unfold State.actOn
  dsimp only
  split
  · exact h
  · split
    · exact resetDevice_whole _
    · split
      · exact failMigrations_whole (failLaunches_whole (stackReset_whole _ (whole_withDev h (by simpa using memWhole_dev h))))
      · split
        · exact whole_withDev h (by simpa using memWhole_dev h)
        · exact h

theorem killed_whole {s : State} (b : Nat) (h : MemWhole s) : MemWhole (s.killed b) := by
  unfold State.killed
  extract_lets d
  refine finishKind_whole _ _ _ (finishKind_whole _ _ _ (whole_withDev h ?_))
  rw [killBlock_mem]
  unfold d
  split
  · simpa using memWhole_dev h
  · exact memWhole_dev h

theorem silence_whole {s : State} (f : Nat) (h : MemWhole s) : MemWhole (s.silence f) := by
  unfold State.silence
  dsimp only
  split
  · exact resetDevice_whole _
  · exact whole_withDev h (by simpa using memWhole_dev h)

/-! ## Outcomes -/

/-- The state that an outcome gives, if it gives one, has its memory in the canonical form. -/
def Keeps : Host.Outcome State Fault Refusal → Prop
  | .next t => MemWhole t
  | _ => True

@[simp] theorem keeps_next (t : State) : Keeps (.next t) ↔ MemWhole t := Iff.rfl

theorem keeps_iff {o : Host.Outcome State Fault Refusal} : Keeps o ↔ ∀ t, o = .next t → MemWhole t := by
  cases o <;> simp [Keeps]

theorem keeps_ite {c : Prop} [Decidable c] {o p : Host.Outcome State Fault Refusal} (ho : c → Keeps o) (hp : ¬c → Keeps p) :
    Keeps (if c then o else p) := by
  split
  · exact ho ‹_›
  · exact hp ‹_›

theorem slot_keeps {s : State} {m : Except Stop State} (h : MemWhole s) (hm : Ends MemWhole m) : Keeps (s.slot m) := by
  cases m
  case error x => exact stopped_whole x h
  case ok t => exact hm

theorem event_keeps {s : State} {o : Option State} (h : MemWhole s) (ho : Gives MemWhole o) : Keeps (s.event o) := by
  cases o
  case none => exact whole_withDev h (memWhole_dev h)
  case some t => exact whole_withDev (s := t) ho (memWhole_dev (s := t) ho)

theorem eventSome_keeps {s t : State} (h : MemWhole t) : Keeps (s.event (some t)) := whole_withDev h (memWhole_dev h)

theorem gives_ite {α : Type} {P : α → Prop} {c : Prop} [Decidable c] {o p : Option α} (ho : c → Gives P o)
    (hp : ¬c → Gives P p) : Gives P (if c then o else p) := by
  split
  · exact ho ‹_›
  · exact hp ‹_›

/-- Two optional answers in order, where what the first satisfies serves the second. -/
theorem gives_seq {α β : Type} {Q : α → Prop} {P : β → Prop} {f : α → Option β} {o : Option α} (ho : Gives Q o)
    (h : ∀ x, Q x → Gives P (f x)) : Gives P (o >>= f) := (gives_bind ..).mpr (gives_mono ho h)

/-- An event of the device alone that leaves memory as it is. -/
theorem devEvent_keeps {s : State} {o : Option Device} (h : MemWhole s) (ho : Gives (fun d => Memory.wf d.mem = true) o) :
    Keeps (s.devEvent o) :=
  event_keeps h ((gives_map ..).mpr (gives_mono ho fun _ hd => whole_withDev h hd))

theorem devSame_keeps {s : State} {o : Option Device} (h : MemWhole s) (ho : Gives (fun d => d.mem = s.dev.mem) o) :
    Keeps (s.devEvent o) := devEvent_keeps h (gives_wf (memWhole_dev h) ho)

theorem drawEvent_keeps {s : State} {f : Nat → Option Device} (h : MemWhole s)
    (ho : Gives (fun d => d.mem = s.dev.mem) (f s.free)) : Keeps (s.drawEvent f) :=
  event_keeps h ((gives_map ..).mpr (gives_mono ho fun _ hd => memWhole_withDev h hd))

theorem arrival_keeps {s : State} {o : Option State} (h : MemWhole s) (ho : Gives MemWhole o) : Keeps (s.arrival o) :=
  event_keeps h ((gives_map ..).mpr (gives_mono ho fun t ht =>
    whole_withDev ht (by rw [copyChanges_mem]; exact memWhole_dev ht)))

/-! ### Slots of one kind -/

theorem scalarOp_keeps {s : State} (f : Word → Word → Word) (d a b : BitVec 6) (h : MemWhole s) :
    Keeps (scalarOp f d a b s) := (setS_whole ..).mpr h

theorem scalarUn_keeps {s : State} (f : Word → Word) (d a : BitVec 6) (h : MemWhole s) : Keeps (scalarUn f d a s) :=
  (setS_whole ..).mpr h

theorem scalarImm_keeps {s : State} (f : Word → Word → Word) (d a : BitVec 6) (imm : BitVec 9) (h : MemWhole s) :
    Keeps (scalarImm f d a imm s) := (setS_whole ..).mpr h

theorem predOp_keeps {s : State} (d : BitVec 3) (v : Bool) (h : MemWhole s) : Keeps (predOp d v s) := (setP_whole ..).mpr h

theorem laneOp_keeps {s : State} (f : Nat → Nat → Nat) (d a b : BitVec 6) (k : BitVec 3) (h : MemWhole s) :
    Keeps (laneOp f d a b k s) := (maskedCodes_whole ..).mpr h

theorem scalarLoad_keeps {s : State} (t base : BitVec 6) (off : BitVec 8) (n : Nat) (signed : Bool) (h : MemWhole s) :
    Keeps (scalarLoad t base off n signed s) :=
  slot_keeps h (ends_any fun _ => ends_seq (load_ends _ _ h) fun _ hr => (setS_whole ..).mpr hr)

theorem scalarStore_keeps {s : State} (t base : BitVec 6) (off : BitVec 8) (n : Nat) (h : MemWhole s) :
    Keeps (scalarStore t base off n s) := slot_keeps h (ends_any fun _ => store_ends _ _ h)

theorem csrWriteOp_keeps {s : State} (csr : BitVec 12) (v : Word) (h : MemWhole s) : Keeps (csrWriteOp csr v s) := by
  have h1 : MemWhole (s.updMe fun x => x.setCsr csr v) := (updMe_whole ..).mpr h
  refine slot_keeps h (ends_any fun _ => ?_)
  dsimp only
  rw [ends_pure]
  split
  · exact (updBun_whole rfl).mpr h1
  · exact h1

theorem ego_keeps {s : State} (eng op : Nat) (form : State → EngRegs → Form) (d : BitVec 6) (e : BitVec 3) (h : MemWhole s) :
    Keeps (ego eng op form d e s) := by
  refine slot_keeps h ?_
  dsimp only
  split
  · exact ends_trapWith _ _ _
  · exact ends_any fun _ => ends_seq (external_ends _ _ (fun t ht => issueOp_ends _ _ _ _ _ _ ht) h) fun _ hr =>
      (setS_whole ..).mpr hr

theorem redOp_keeps {s : State} (n : Nat) (k : Word → BufKind) (a b : BitVec 6) (h : MemWhole s) : Keeps (redOp n k a b s) :=
  slot_keeps h (ends_any fun _ => ends_any fun _ => putOp_ends _ _ h)

theorem amoOp_keeps {s : State} (f n : Nat) (d a b : BitVec 6) (h : MemWhole s) : Keeps (amoOp f n d a b s) :=
  slot_keeps h (ends_any fun _ => ends_any fun p =>
    ends_seq (external_ends _ _ (fun _ ht => amoPerform_ends p f n _ _ ht) h) fun _ hr => (setS_whole ..).mpr hr)

theorem countOp_keeps {s : State} (kind : Ext) (a : BitVec 6) (delta : Word) (h : MemWhole s) :
    Keeps (countOp kind a delta s) := by
  refine slot_keeps h (ends_any fun _ => ends_any fun p =>
    ends_seq (external_ends _ _ (fun _ ht => count_ends _ p _ ht) h) fun r hr => ?_)
  rw [ends_pure]
  split
  · exact (trapAfter_whole ..).mpr hr
  · exact hr

theorem fpOp_keeps {s : State} (acc : Bool) (f : Nat → Val → Val → Val → Val × Flags) (d a b : BitVec 6) (k : BitVec 3)
    (h : MemWhole s) : Keeps (fpOp acc f d a b k s) := by
  have hm (w t : Nat) (g : Nat → BitVec 32 → Rounded) : MemWhole (s.maskedEls d k w t g) := (maskedEls_whole ..).mpr h
  exact slot_keeps h (ends_any fun _ => ends_ite (fun _ => ends_any fun _ => hm _ _ _) fun _ => ends_any fun _ => hm _ _ _)

theorem fpUnary_keeps {s : State} (f : Fmt → Nat → BitVec 32 → Nat → Rounded) (d a : BitVec 6) (k : BitVec 3)
    (h : MemWhole s) : Keeps (fpUnary f d a k s) := slot_keeps h (ends_any fun _ => (maskedEls_whole ..).mpr h)

theorem laneUnary_keeps {s : State} (f tag : Nat → Nat) (d a : BitVec 6) (k : BitVec 3) (h : MemWhole s) :
    Keeps (laneUnary f tag d a k s) := slot_keeps h (ends_any fun _ => (maskedCodes_whole ..).mpr h)

theorem redExtreme_keeps {s : State} (max : Bool) (d a : BitVec 6) (k : BitVec 3) (h : MemWhole s) :
    Keeps (redExtreme max d a k s) := slot_keeps h (ends_any fun _ => (onlyFirst_whole ..).mpr h)

theorem intOp_keeps {s : State} (acc : Bool) (f : Int → Int → Int → Int) (d a b : BitVec 6) (k : BitVec 3)
    (h : MemWhole s) : Keeps (intOp acc f d a b k s) := by
  have hm (w t : Nat) (g : Nat → BitVec 32 → Rounded) : MemWhole (s.maskedEls d k w t g) := (maskedEls_whole ..).mpr h
  exact slot_keeps h (ends_any fun _ => ends_ite (fun _ => ends_any fun _ => hm _ _ _) fun _ => ends_any fun _ => hm _ _ _)

theorem shiftOp_keeps {s : State} (f : Nat → Nat → Nat → Nat) (d a b : BitVec 6) (k : BitVec 3) (h : MemWhole s) :
    Keeps (shiftOp f d a b k s) := slot_keeps h (ends_any fun _ => (maskedCodes_whole ..).mpr h)

theorem cmpOp_keeps {s : State} (c : Cond) (kd : BitVec 3) (a b : BitVec 6) (k : BitVec 3) (h : MemWhole s) :
    Keeps (cmpOp c kd a b k s) := slot_keeps h (ends_any fun _ => (setK_whole ..).mpr h)

/-! ### The slots that have no kind of their own -/

theorem execSpl_keeps {s : State} (t base : BitVec 6) (off : BitVec 8) (ma : Bool) (h : MemWhole s) :
    Keeps (execSpl t base off ma s) :=
  slot_keeps h (ends_seq (spRead_ends _ _ _ _ h) fun _ hr => (setS_whole ..).mpr hr)

theorem execSps_keeps {s : State} (t base : BitVec 6) (off : BitVec 8) (ma : Bool) (h : MemWhole s) :
    Keeps (execSps t base off ma s) := slot_keeps h (spWrite_ends _ _ _ _ h)

theorem execVldp_keeps {s : State} (t base : BitVec 6) (tag off : BitVec 4) (ma : Bool) (h : MemWhole s) :
    Keeps (execVldp t base tag off ma s) :=
  slot_keeps h (ends_seq (spRead_ends _ _ _ _ h) fun _ hr => (setV_whole ..).mpr hr)

theorem execVstp_keeps {s : State} (t base : BitVec 6) (off : BitVec 8) (ma : Bool) (h : MemWhole s) :
    Keeps (execVstp t base off ma s) := slot_keeps h (spWrite_ends _ _ _ _ h)

theorem execVld_keeps {s : State} (t base : BitVec 6) (tag off : BitVec 4) (h : MemWhole s) :
    Keeps (execVld t base tag off s) :=
  slot_keeps h (ends_any fun _ => ends_seq (load_ends _ _ h) fun _ hr => (setV_whole ..).mpr hr)

theorem execVst_keeps {s : State} (t base : BitVec 6) (off : BitVec 4) (h : MemWhole s) : Keeps (execVst t base off s) :=
  slot_keeps h (ends_any fun _ => store_ends _ _ h)

theorem execVlds_keeps {s : State} (t base : BitVec 6) (st tag : BitVec 4) (h : MemWhole s) :
    Keeps (execVlds t base st tag s) :=
  slot_keeps h (ends_any fun _ => ends_seq (loadPieces_ends _ h) fun _ hr => (setV_whole ..).mpr hr)

theorem execVsts_keeps {s : State} (t base : BitVec 6) (st : BitVec 4) (h : MemWhole s) : Keeps (execVsts t base st s) :=
  slot_keeps h (ends_any fun _ => putPieces_ends _ _ h)

theorem execSld_keeps {s : State} (t base : BitVec 6) (tag off : BitVec 4) (h : MemWhole s) :
    Keeps (execSld t base tag off s) := by
  unfold execSld
  extract_lets va
  split
  · exact stopped_whole _ h
  next p _ =>
    have h1 : MemWhole s.draw.1 := (draw_whole s).mpr h
    have hl := ends_iff.mp (loadPieces_ends [p] h1)
    dsimp only
    split
    next r hr => exact (setV_whole ..).mpr ((startSld_whole ..).mpr (hl r hr))
    · refine stopped_whole _ ((updBun_whole ?_).mpr h1)
      dsimp only
      split
      · rfl
      · rw [issueSld_mem, bun_pre]

theorem execTrans_keeps {s : State} (d a b : BitVec 6) (h : MemWhole s) : Keeps (execTrans d a b s) :=
  slot_keeps h (ends_any fun _ => (setS_whole ..).mpr h)

theorem execPref_keeps {s : State} (a b : BitVec 6) (h : MemWhole s) : Keeps (execPref a b s) := by
  refine memWhole_withDev h ?_
  split
  · rfl
  next e _ =>
    split
    · split
      next d he => exact repair_present he
      next d he => exact repair_parked he
    · split
      · rfl
      · exact prefetch_mem ..

theorem execCsrr_keeps {s : State} (d : BitVec 6) (csr : BitVec 12) (h : MemWhole s) : Keeps (execCsrr d csr s) := by
  refine slot_keeps h (ends_any fun _ => ?_)
  refine (setS_whole ..).mpr ?_
  split
  · exact (updMe_whole ..).mpr h
  · exact h

theorem execBarr_keeps {s : State} (n : BitVec 8) (h : MemWhole s) : Keeps (execBarr n s) :=
  slot_keeps h (ends_any fun b => externalUnit_ends _ _ (fun _ ht => arriveAt_ends _ b ht) h)

theorem execBwait_keeps {s : State} (n : BitVec 8) (h : MemWhole s) : Keeps (execBwait n s) := by
  refine keeps_ite (fun _ => bfault_whole _ h) fun _ => ?_
  refine slot_keeps h (ends_any fun b => externalUnit_ends _ _ (fun t ht => ?_) h)
  exact ends_ite (fun _ => ht) fun _ => ends_ite (fun _ => ends_blockOn _ _) fun _ => (waited_whole ..).mpr ht

theorem execBarw_keeps {s : State} (n : BitVec 8) (h : MemWhole s) : Keeps (execBarw n s) := by
  refine keeps_ite (fun _ => bfault_whole _ h) fun _ => ?_
  refine slot_keeps h (ends_any fun b => externalUnit_ends _ _ (fun t ht => ?_) h)
  refine ends_seq (arriveAt_ends _ b ht) fun u hu => ends_any fun b' => ?_
  rw [ends_pure]
  split
  · exact (updBun_whole rfl).mpr hu
  · exact (waited_whole ..).mpr hu

theorem execQput_keeps {s : State} (q b : BitVec 6) (h : MemWhole s) : Keeps (execQput q b s) :=
  slot_keeps h (ends_any fun _ => externalUnit_ends _ _ (fun _ ht => enqueueQ_ends _ _ _ ht) h)

theorem execQeos_keeps {s : State} (q : BitVec 6) (h : MemWhole s) : Keeps (execQeos q s) :=
  slot_keeps h (ends_any fun _ => externalUnit_ends _ _ (fun _ ht => enqueueQ_ends _ _ _ ht) h)

theorem execQget_keeps {s : State} (d q : BitVec 6) (h : MemWhole s) : Keeps (execQget d q s) := by
  refine slot_keeps h (ends_any fun _ => ends_seq (external_ends _ _ (fun _ ht => dequeueQ_ends _ ht) h) fun r hr => ?_)
  rw [ends_pure]
  split
  · split
    · exact (setP_whole ..).mpr hr
    · exact hr
  · exact (setV_whole ..).mpr hr

theorem execVfput_keeps {s : State} (d b : BitVec 6) (h : MemWhole s) : Keeps (execVfput d b s) :=
  slot_keeps h (ends_any fun _ => ends_seq (external_ends _ _ (fun _ ht => fifoPut_ends _ _ ht) h) fun _ hr =>
    (setS_whole ..).mpr hr)

theorem execVfget_keeps {s : State} (d : BitVec 6) (h : MemWhole s) : Keeps (execVfget d s) :=
  slot_keeps h (ends_any fun _ => ends_seq (external_ends _ _ (fun _ ht => fifoGet_ends ht) h) fun _ hr =>
    (setV_whole ..).mpr hr)

theorem execTlw_keeps {s : State} (e : BitVec 3) (a : BitVec 6) (h : MemWhole s) : Keeps (execTlw e a s) := by
  unfold execTlw
  dsimp only
  split
  · exact stopped_whole _ h
  · split
    · exact efaultTrap_whole _ _ h
    · exact (observe_whole ..).mpr h

theorem execTlr_keeps {s : State} (d : BitVec 6) (e : BitVec 3) (h : MemWhole s) : Keeps (execTlr d e s) := by
  unfold execTlr
  dsimp only
  split
  · exact efaultTrap_whole _ _ h
  · exact (setS_whole ..).mpr ((observe_whole ..).mpr h)

theorem execMcallMm_keeps {s : State} (acc : BitVec 1) (sa sb : BitVec 6) (h : MemWhole s) :
    Keeps (execMcallMm acc sa sb s) := by
  refine slot_keeps h (ends_any fun _ => ends_any fun _ => ends_any fun _ => ends_any fun _ => ends_any fun _ => ?_)
  split
  · exact ends_trapWith _ _ _
  · exact ends_ite (fun _ => ends_seq (enqueueM_ends _ h) fun _ ht => (setBankTag_whole ..).mpr ht)
      fun _ => ends_trapWith _ _ _

theorem execMcallAccout_keeps {s : State} (acc : BitVec 1) (sa : BitVec 6) (h : MemWhole s) :
    Keeps (execMcallAccout acc sa s) :=
  slot_keeps h (ends_any fun _ => ends_any fun _ => ends_seq (enqueueM_ends _ h) fun _ ht => (setSlotTags_whole ..).mpr ht)

theorem execMcallAccld_keeps {s : State} (acc : BitVec 1) (sa : BitVec 6) (h : MemWhole s) :
    Keeps (execMcallAccld acc sa s) :=
  slot_keeps h (ends_any fun _ => ends_seq (enqueueM_ends _ h) fun _ ht => (setBankTag_whole ..).mpr ht)

theorem execMcallAccadd_keeps {s : State} (acc : BitVec 1) (sa : BitVec 6) (h : MemWhole s) :
    Keeps (execMcallAccadd acc sa s) :=
  slot_keeps h (ends_any fun _ => ends_seq (enqueueM_ends _ h) fun _ ht => (setBankTag_whole ..).mpr ht)

theorem execMcallTransp_keeps {s : State} (sa sb : BitVec 6) (h : MemWhole s) : Keeps (execMcallTransp sa sb s) :=
  slot_keeps h (ends_any fun _ => ends_any fun _ => ends_any fun _ => ends_any fun _ =>
    ends_seq (enqueueM_ends _ h) fun _ ht => (setSlotTag_whole ..).mpr ht)

theorem execOclm_keeps {s : State} (o : BitVec 6) (h : MemWhole s) : Keeps (execOclm o s) :=
  slot_keeps h (ends_any fun _ => (updMyCore_whole ..).mpr h)

theorem execOrel_keeps {s : State} (o : BitVec 6) (h : MemWhole s) : Keeps (execOrel o s) :=
  slot_keeps h (ends_any fun _ => (updMyCore_whole ..).mpr h)

theorem execOld_keeps {s : State} (o a : BitVec 6) (tag : BitVec 4) (h : MemWhole s) : Keeps (execOld o a tag s) :=
  slot_keeps h (ends_any fun _ => ends_seq (enqueueM_ends _ h) fun _ ht => (setSlotTag_whole ..).mpr ht)

theorem execOst_keeps {s : State} (o a : BitVec 6) (h : MemWhole s) : Keeps (execOst o a s) :=
  slot_keeps h (ends_any fun _ => enqueueM_ends _ h)

theorem execMacz_keeps {s : State} (acc : BitVec 1) (h : MemWhole s) : Keeps (execMacz acc s) :=
  slot_keeps h (ends_seq (enqueueM_ends _ h) fun _ ht => (setBankTag_whole ..).mpr ht)

theorem execMupld_keeps {s : State} (a : BitVec 6) (h : MemWhole s) : Keeps (execMupld a s) :=
  slot_keeps h (ends_any fun _ => ends_seq (readLibrary_ends _ h) fun _ hr =>
    (updBun_whole rfl).mpr (whole_withDev hr (memWhole_dev hr)))

theorem execEdep_keeps {s : State} (e : BitVec 3) (a : BitVec 6) (h : MemWhole s) : Keeps (execEdep e a s) :=
  slot_keeps h (ends_any fun _ => ends_any fun _ => ends_any fun _ =>
    externalUnit_ends _ _ (fun _ ht => ends_any fun _ => (updTimeline_whole ..).mpr ht) h)

theorem execEbar_keeps {s : State} (e : BitVec 3) (a : BitVec 6) (h : MemWhole s) : Keeps (execEbar e a s) :=
  slot_keeps h (ends_any fun _ => externalUnit_ends _ _ (fun _ ht => (updTimeline_whole ..).mpr ht) h)

theorem execEcan_keeps {s : State} (e : BitVec 3) (a : BitVec 6) (h : MemWhole s) : Keeps (execEcan e a s) :=
  slot_keeps h (externalUnit_ends _ _ (fun _ ht => memWhole_withDev ht (cancelOps_mem ..)) h)

theorem execTspawn_keeps {s : State} (a : BitVec 6) (h : MemWhole s) : Keeps (execTspawn a s) :=
  slot_keeps h (ends_any fun _ => ends_any fun _ => ends_any fun _ => (updTask_whole ..).mpr h)

theorem execNtr_keeps {s : State} (h : MemWhole s) : Keeps (execNtr s) := by
  refine slot_keeps h (ends_any fun _ => ends_seq (commitTask_ends h) fun p hp => ?_)
  obtain ⟨hu, hd⟩ := hp
  dsimp only
  split
  · exact (memWhole_mk ..).mpr ⟨hd, preWhole_none⟩
  · exact follow_whole _ (by simpa using hd)

theorem execTxb_keeps {s : State} (h : MemWhole s) : Keeps (execTxb s) :=
  slot_keeps h (ends_any fun _ => ends_any fun _ => (updTask_whole ..).mpr ((takeStamp_whole ..).mpr h))

theorem execTxc_keeps {s : State} (d : BitVec 6) (h : MemWhole s) : Keeps (execTxc d s) :=
  slot_keeps h (ends_any fun _ => ends_seq (external_ends _ _ (fun _ ht => txcPerform_ends ht) h) fun _ hr =>
    (setS_whole ..).mpr ((closeSpan_whole _).mpr hr))

theorem execTxa_keeps {s : State} (h : MemWhole s) : Keeps (execTxa s) :=
  slot_keeps h (ends_any fun _ => (closeSpan_whole s).mpr h)

theorem execSnap_keeps {s : State} (d : BitVec 6) (drain : Bool) (h : MemWhole s) : Keeps (execSnap d drain s) :=
  slot_keeps h (ends_any fun _ => ends_seq (external_ends _ _ (fun _ ht => snapPerform_ends _ ht) h) fun _ hr =>
    (setS_whole ..).mpr hr)

theorem execSnaprel_keeps {s : State} (a : BitVec 6) (h : MemWhole s) : Keeps (execSnaprel a s) :=
  slot_keeps h (externalUnit_ends _ _ (fun _ ht => snaprelPerform_ends _ ht) h)

theorem execSnapsel_keeps {s : State} (a : BitVec 6) (h : MemWhole s) : Keeps (execSnapsel a s) :=
  slot_keeps h (ends_any fun _ => ends_ite (fun _ => (updTask_whole ..).mpr h) fun _ =>
    ends_any fun _ => (updTask_whole ..).mpr h)

theorem execTgt_keeps {s : State} (leaf : BitVec 3) (off : BitVec 18) (h : MemWhole s) : Keeps (execTgt leaf off s) := by
  refine (keeps_next _).mpr ?_
  split
  · exact (updBun_whole rfl).mpr h
  · exact h

theorem execLoop_keeps {s : State} (d : BitVec 6) (imm : BitVec 15) (h : MemWhole s) : Keeps (execLoop d imm s) :=
  slot_keeps h (ends_any fun _ => ends_ite (fun _ => (updBun_whole rfl).mpr ((afterClosing_whole ..).mpr h)) fun _ =>
    (updRegs_whole ..).mpr h)

theorem execSloop_keeps {s : State} (d : BitVec 3) (q : BitVec 6) (imm : BitVec 9) (h : MemWhole s) :
    Keeps (execSloop d q imm s) :=
  slot_keeps h (ends_any fun _ => (setP_whole ..).mpr ((updRegs_whole ..).mpr h))

theorem execYield_keeps {s : State} (h : MemWhole s) : Keeps (execYield s) := by
  have hc := commit_whole h
  refine (keeps_next _).mpr ?_
  split
  · exact memWhole_withDev hc (leave_mem ..)
  · exact hc

theorem execRdv_keeps {s : State} (n : BitVec 6) (h : MemWhole s) : Keeps (execRdv n s) :=
  slot_keeps h (ends_any fun _ => ends_any fun _ => ends_ite (fun _ => ends_blockOn _ _) fun _ => h)

theorem execSegb_keeps {s : State} (h : MemWhole s) : Keeps (execSegb s) :=
  slot_keeps h (ends_any fun _ => ends_ite (fun _ => (updMe_whole ..).mpr h) fun _ =>
    ends_any fun _ => (updMe_whole ..).mpr h)

theorem execSege_keeps {s : State} (h : MemWhole s) : Keeps (execSege s) :=
  slot_keeps h (ends_any fun _ => ends_any fun _ =>
    ends_seq (unhold_ends _ ((updBun_whole rfl).mpr ((updMe_whole ..).mpr h))) fun _ ht =>
      whole_withDev ht (memWhole_dev ht))

theorem execVshuf_keeps {s : State} (d a b : BitVec 6) (k : BitVec 3) (h : MemWhole s) : Keeps (execVshuf d a b k s) :=
  slot_keeps h (ends_any fun _ => (maskedCodes_whole ..).mpr h)

theorem execVgather_keeps {s : State} (d a b : BitVec 6) (k : BitVec 3) (h : MemWhole s) : Keeps (execVgather d a b k s) :=
  slot_keeps h (ends_any fun _ => ends_ite (fun _ => (setV_whole ..).mpr h) fun _ =>
    ends_seq (loadPieces_ends _ h) fun _ hr => (setV_whole ..).mpr hr)

theorem execVscat_keeps {s : State} (d a b : BitVec 6) (k : BitVec 3) (h : MemWhole s) : Keeps (execVscat d a b k s) :=
  slot_keeps h (ends_any fun _ => putPieces_ends _ _ h)

theorem execTrap_keeps {s : State} (n : BitVec 15) (h : MemWhole s) : Keeps (execTrap n s) :=
  commit_whole ((updBun_whole rfl).mpr h)

theorem execTret_keeps {s : State} (h : MemWhole s) : Keeps (execTret s) := slot_keeps h (ends_any fun _ => tret_ends h)

theorem execWfe_keeps {s : State} (h : MemWhole s) : Keeps (execWfe s) :=
  slot_keeps h (ends_any fun _ => ends_ite (fun _ => (updMe_whole ..).mpr h) fun _ => ends_blockOn _ _)

theorem execHalt_keeps {s : State} (h : MemWhole s) : Keeps (execHalt s) :=
  slot_keeps h (ends_any fun _ => endTask_ends _ h)

theorem execVclass_keeps {s : State} (d a : BitVec 6) (k : BitVec 3) (h : MemWhole s) : Keeps (execVclass d a k s) :=
  slot_keeps h (ends_any fun _ => (maskedCodes_whole ..).mpr h)

theorem execVredsum_keeps {s : State} (d a : BitVec 6) (k : BitVec 3) (h : MemWhole s) : Keeps (execVredsum d a k s) := by
  refine slot_keeps h (ends_any fun _ => ends_ite (fun _ => ?_) fun _ => ?_)
  · simpa using h
  · simpa using h

theorem execVredarg_keeps {s : State} (d a : BitVec 6) (k : BitVec 3) (h : MemWhole s) : Keeps (execVredarg d a k s) :=
  slot_keeps h (ends_any fun _ => (onlyFirst_whole ..).mpr h)

theorem execVscan_keeps {s : State} (d a : BitVec 6) (k : BitVec 3) (h : MemWhole s) : Keeps (execVscan d a k s) :=
  slot_keeps h (ends_any fun _ => ends_ite (fun _ => (writeEls_whole ..).mpr h) fun _ => (writeEls_whole ..).mpr h)

theorem execVsel_keeps {s : State} (d a b : BitVec 6) (k : BitVec 3) (h : MemWhole s) : Keeps (execVsel d a b k s) :=
  slot_keeps h (ends_any fun _ => (wholeLanes_whole ..).mpr h)

theorem execVcvt_keeps {s : State} (d a : BitVec 6) (u : BitVec 4) (k : BitVec 3) (h : MemWhole s) :
    Keeps (execVcvt d a u k s) :=
  slot_keeps h (ends_any fun _ => ends_ite (fun _ => (maskedCodes_whole ..).mpr h) fun _ => (writeEls_whole ..).mpr h)

theorem execVqnt_keeps {s : State} (d a : BitVec 6) (u : BitVec 4) (h : MemWhole s) : Keeps (execVqnt d a u s) :=
  slot_keeps h (ends_any fun _ => (setV_whole ..).mpr ((writeEls_whole ..).mpr h))

theorem execVdqnt_keeps {s : State} (d a b : BitVec 6) (h : MemWhole s) : Keeps (execVdqnt d a b s) := by
  refine slot_keeps h (ends_any fun _ => ends_any fun _ => ?_)
  simpa using h

theorem execVpackts_keeps {s : State} (d a b : BitVec 6) (k : BitVec 3) (h : MemWhole s) : Keeps (execVpackts d a b k s) :=
  slot_keeps h (ends_any fun _ => ends_any fun _ => (maskedEls_whole ..).mpr h)

theorem execVdot_keeps {s : State} (d a b : BitVec 6) (k : BitVec 3) (h : MemWhole s) : Keeps (execVdot d a b k s) :=
  slot_keeps h (ends_any fun _ => ends_any fun _ => (maskedEls_whole ..).mpr h)

/-! ### Events of the device -/

theorem whole_same {s : State} {d : Device} {g : List Turn} {f n : Nat} {l : Result} (h : MemWhole s)
    (e : d.mem = s.dev.mem) : MemWhole ⟨d, s.bundle, g, f, n, l⟩ := whole_withDev h (by rw [e]; exact memWhole_dev h)

theorem ite_mem {c : Prop} [Decidable c] {d x y : Device} (hx : x.mem = d.mem) (hy : y.mem = d.mem) :
    (if c then x else y).mem = d.mem := by
  split
  · exact hx
  · exact hy

theorem execEngineOpComplete_keeps {s : State} (agent e : Nat) (h : MemWhole s) : Keeps (execEngineOpComplete agent e s) := by
  refine event_keeps h ?_
  rw [gives_bind]
  refine gives_of_forall (fun o => ?_) _
  rw [gives_bind]
  refine gives_of_forall (fun k => ?_) _
  have ho := engOutcome_whole o k h
  split
  next t he => exact whole_of_eq he ho
  · exact gives_none _

theorem execEngineFault_keeps {s : State} (agent e : Nat) (cause : EngineCause) (h : MemWhole s) :
    Keeps (execEngineFault agent e cause s) := by
  refine event_keeps h ?_
  rw [gives_bind]
  refine gives_of_forall (fun o => ?_) _
  rw [gives_bind]
  refine gives_of_forall (fun k => ?_) _
  have ho := engOutcome_whole o k h
  split
  next t m he =>
    split
    · exact engFault_whole _ _ (whole_of_eq he ho)
    · exact gives_none _
  · exact gives_none _

theorem execTaskTake_keeps {s : State} (agent : Nat) (h : MemWhole s) : Keeps (execTaskTake agent s) := by
  refine drawEvent_keeps h ?_
  simp only [gives_bind, gives_guardOpt]
  exact gives_of_forall (fun b => gives_of_forall (fun k => gives_of_forall (fun r _ => by simp) _) _) _

theorem execContextUnblock_keeps {s : State} (agent : Nat) (h : MemWhole s) : Keeps (execContextUnblock agent s) := by
  refine devSame_keeps h ?_
  simp only [gives_bind]
  refine gives_of_forall (fun b => gives_of_forall (fun k => ?_) _) _
  split
  · simp
  · exact gives_none _

theorem execTaskPublicationComplete_keeps {s : State} (blk : Nat) (h : MemWhole s) :
    Keeps (execTaskPublicationComplete blk s) := by
  refine devSame_keeps h ?_
  simp only [gives_bind, gives_some]
  exact gives_of_forall (fun k => gives_of_forall (fun r => by simp) _) _

theorem execDeferredEnqueue_keeps {s : State} (cluster : Nat) (h : MemWhole s) : Keeps (execDeferredEnqueue cluster s) := by
  refine devSame_keeps h ?_
  simp only [gives_bind, gives_guardOpt]
  exact gives_of_forall (fun b => gives_of_forall (fun k => gives_of_forall (fun r _ => by simp) _) _) _

theorem execRqfullTimeout_keeps {s : State} (blk : Nat) (h : MemWhole s) : Keeps (execRqfullTimeout blk s) := by
  refine devSame_keeps h ?_
  simp only [gives_bind, gives_guardOpt]
  exact gives_of_forall (fun k _ => by simp) _

theorem execNtRotation_keeps {s : State} (agent : Nat) (h : MemWhole s) : Keeps (execNtRotation agent s) := by
  refine devSame_keeps h ?_
  split <;> simp

theorem execQueueEnlarge_keeps {s : State} (blk : Nat) (h : MemWhole s) : Keeps (execQueueEnlarge blk s) := by
  refine devSame_keeps h ?_
  simp only [gives_bind, gives_guardOpt]
  refine gives_of_forall (fun k => gives_of_forall (fun q _ => ?_) _) _
  split <;> simp

theorem execPoolPageZeroed_keeps {s : State} (core page : Nat) (h : MemWhole s) : Keeps (execPoolPageZeroed core page s) :=
  devSame_keeps h (by simp)

theorem execKDeliveryTaskStart_keeps {s : State} (blk : Nat) (h : MemWhole s) : Keeps (execKDeliveryTaskStart blk s) := by
  refine drawEvent_keeps h ?_
  simp only [gives_bind, gives_guardOpt]
  exact gives_of_forall (fun k => gives_of_forall (fun r => gives_of_forall (fun a _ => by simp) _) _) _

theorem execKDeliveryTimeout_keeps {s : State} (blk : Nat) (h : MemWhole s) : Keeps (execKDeliveryTimeout blk s) := by
  refine devSame_keeps h ?_
  simp only [gives_bind, gives_guardOpt]
  exact gives_of_forall (fun k => gives_of_forall (fun x _ => by simp) _) _

theorem execStampRaise_keeps {s : State} (h : MemWhole s) : Keeps (execStampRaise s) := devSame_keeps h rfl

theorem execSnapReturn_keeps {s : State} (agent : Nat) (h : MemWhole s) : Keeps (execSnapReturn agent s) :=
  devSame_keeps h (by simp)

theorem execHarbourmasterPick_keeps {s : State} (h : MemWhole s) : Keeps (execHarbourmasterPick s) := by
  have hp := pickLevels_whole true [] 8 h
  unfold execHarbourmasterPick
  split
  next t bound firsts he =>
    rw [he] at hp
    exact eventSome_keeps (s := s) (whole_same hp (countFirsts_mem ..))

theorem execCandidateHeld_keeps {s : State} (blk : Nat) (h : MemWhole s) : Keeps (execCandidateHeld blk s) :=
  devSame_keeps h (by simp)

theorem execRecallGraceExpiry_keeps {s : State} (blk : Nat) (h : MemWhole s) : Keeps (execRecallGraceExpiry blk s) := by
  refine devSame_keeps h ?_
  simp only [gives_bind, gives_guardOpt]
  refine gives_of_forall (fun g => gives_of_forall (fun t _ => ?_) _) _
  exact (foldl_mem _ (fun x b => preemptBlock_mem x b) _ _).trans (by simp)

theorem execEntryTaskEnqueue_keeps {s : State} (blk : Nat) (h : MemWhole s) : Keeps (execEntryTaskEnqueue blk s) := by
  refine event_keeps h ?_
  rw [gives_bind]
  refine gives_of_forall (fun k => ?_) _
  split
  · exact gives_none _
  · split
    next t he => exact gives_iff.mp (bindingSteps_gives blk k h) t he
    · split
      · split
        · exact whole_same h (askPage_mem ..)
        · exact gives_none _
      · exact gives_none _

theorem execBindingRecordTimeout_keeps {s : State} (blk : Nat) (h : MemWhole s) : Keeps (execBindingRecordTimeout blk s) := by
  refine devSame_keeps h ?_
  simp only [gives_bind, gives_guardOpt]
  exact gives_of_forall (fun k => gives_of_forall (fun r _ => by simp) _) _

theorem execBindingEnd_keeps {s : State} (blk : Nat) (h : MemWhole s) : Keeps (execBindingEnd blk s) := by
  refine event_keeps h ?_
  simp only [gives_bind, gives_guardOpt]
  exact gives_of_forall (fun k _ => suspended_whole _ (whole_same h (by simp))) _

theorem execPreemptionComplete_keeps {s : State} (blk : Nat) (h : MemWhole s) : Keeps (execPreemptionComplete blk s) := by
  refine event_keeps h ?_
  simp only [gives_bind, gives_guardOpt]
  exact gives_of_forall (fun k _ => preempted_whole _ _ h) _

theorem execPreemptionTimeout_keeps {s : State} (blk : Nat) (h : MemWhole s) : Keeps (execPreemptionTimeout blk s) := by
  have hd (l : List Nat) (lost : Nat → Bool) (x : Device) :
      (l.foldl (fun y a => if lost a then y.discardCtx blk a else y) x).mem = x.mem := by
    refine foldl_mem _ (fun y a => ?_) _ _
    split
    · exact discardCtx_mem ..
    · rfl
  refine event_keeps h ?_
  simp only [gives_bind]
  refine gives_of_forall (fun k => gives_of_forall (fun p => ?_) _) _
  dsimp only [State.draw]
  rw [gives_guardOpt]
  intro _
  split
  · exact preempted_whole _ _ (whole_same h ((postDev_mem ..).trans (hd ..)))
  · exact whole_same h ((postDev_mem ..).trans (hd ..))

theorem execReplyCounterExhausted_keeps {s : State} (rkid : Nat) (h : MemWhole s) :
    Keeps (execReplyCounterExhausted rkid s) := by
  refine devSame_keeps h ?_
  simp only [gives_bind, gives_guardOpt]
  exact gives_of_forall (fun k _ => by simp) _

theorem execEthernetLinkChange_keeps {s : State} (port : Nat) (up : Bool) (h : MemWhole s) :
    Keeps (execEthernetLinkChange port up s) := devSame_keeps h (by simp)

theorem execKeyLoad_keeps {s : State} (kid : Nat) (key : BitVec 256) (ctr : Nat) (h : MemWhole s) :
    Keeps (execKeyLoad kid key ctr s) := devSame_keeps h (by simp)

theorem execPilotFetchComplete_keeps {s : State} (blk va : Nat) (res : FetchResult) (h : MemWhole s) :
    Keeps (execPilotFetchComplete blk va res s) := by
  have h1 : MemWhole { s with dev := s.dev.startFetches 64 } := whole_same h (startFetches_mem ..)
  refine event_keeps h ?_
  rw [gives_bind]
  refine gives_of_forall (fun f => ?_) _
  have hend (t : State) (ht : MemWhole t) : MemWhole { t with dev := t.dev.startFetches 64 } :=
    whole_same ht (startFetches_mem ..)
  dsimp only
  split
  · exact gives_none _
  · exact gives_ite (fun _ => gives_seq (fetched_gives _ _ _ _ h1) hend) fun _ => hend _ (whole_same h (by simp))

theorem execFirmwareLeafAnswer_keeps {s : State} (blk va : Nat) (leaf : Option (Nat × BitVec 64)) (h : MemWhole s) :
    Keeps (execFirmwareLeafAnswer blk va leaf s) := by
  unfold execFirmwareLeafAnswer
  split
  next pa pte =>
    have ht : MemWhole (s.agentPut agMemory pa (toBytes pte.toNat 8)) := agentPut_whole _ _ _ h
    refine event_keeps h ?_
    dsimp only
    split
    · rw [gives_guardOpt]
      exact fun _ => installLeaf_whole _ _ _ _ ht
    · rw [gives_guardOpt]
      exact fun _ => ht
  · refine devSame_keeps h ?_
    split
    · exact gives_none _
    · have hu := unpark_mem (s.dev.unmappable blk va) blk va cNOMAP (va57 va)
      split
      next d he =>
        rw [he] at hu
        exact hu.trans (unmappable_mem ..)
      · split
        · simp
        · exact gives_none _

theorem execFirmwareMemoryWrite_keeps {s : State} (agent pa : Nat) (bytes : List (BitVec 8)) (h : MemWhole s) :
    Keeps (execFirmwareMemoryWrite agent pa bytes s) :=
  keeps_ite (fun _ => whole_same h rfl) fun _ => keeps_ite (fun _ => trivial) fun _ =>
    event_keeps h (agentPut_whole _ _ _ h)

theorem execWeightSramPlacement_keeps {s : State} (page size : Nat) (mask : BitVec 4) (h : MemWhole s) :
    Keeps (execWeightSramPlacement page size mask s) := devSame_keeps h (by simp)

theorem execShootdownAck_keeps {s : State} (blk : Nat) (h : MemWhole s) : Keeps (execShootdownAck blk s) := by
  have h1 : MemWhole s.ackStamp.1 := (ackStamp_whole s).mpr h
  refine event_keeps h ?_
  rw [gives_bind]
  refine gives_of_forall (fun p => ?_) _
  dsimp only
  rw [gives_guardOpt]
  exact fun _ => endShootdown_whole _ _ (whole_same h1 (by simp))

theorem execShootdownTimeout_keeps {s : State} (blk : Nat) (h : MemWhole s) : Keeps (execShootdownTimeout blk s) := by
  refine devSame_keeps h ?_
  simp only [gives_bind, gives_guardOpt]
  exact gives_of_forall (fun k _ => by simp) _

theorem execQqfsWrite_keeps {s : State} (v : BitVec 64) (h : MemWhole s) : Keeps (execQqfsWrite v s) :=
  devEvent_keeps h (quarantine_wf _ _ _ (memWhole_dev h))

theorem execQuarantineRelease_keeps {s : State} (h : MemWhole s) : Keeps (execQuarantineRelease s) := by
  refine event_keeps h ?_
  split
  · exact gives_none _
  · dsimp only
    rw [gives_guardOpt]
    exact fun _ => retried_whole (whole_withDev h (releaseHead_wf _ _ _ (by rw [noteQsc_mem]; exact memWhole_dev h)))

theorem execQuarantineHeadTimeout_keeps {s : State} (h : MemWhole s) : Keeps (execQuarantineHeadTimeout s) := by
  refine devSame_keeps h ?_
  split
  · simp
  · exact gives_none _

theorem execPendingClearDone_keeps {s : State} (page : Nat) (h : MemWhole s) : Keeps (execPendingClearDone page s) :=
  devSame_keeps h ((gives_map ..).mpr (gives_of_forall (fun _ => rfl) _))

theorem execDredgeReclaim_keeps {s : State} (line : Nat) (h : MemWhole s) : Keeps (execDredgeReclaim line s) := by
  refine event_keeps h ?_
  rw [gives_guardOpt]
  exact fun _ => retried_whole (whole_same h (by simp))

theorem execVheapParkRelease_keeps {s : State} (blk : Nat) (h : MemWhole s) : Keeps (execVheapParkRelease blk s) := by
  refine devSame_keeps h ?_
  simp only [gives_bind, gives_guardOpt]
  exact gives_of_forall (fun k => gives_of_forall (fun r _ => by simp) _) _

theorem execPageRetirement_keeps {s : State} (gran fresh : Nat) (h : MemWhole s) : Keeps (execPageRetirement gran fresh s) := by
  refine event_keeps h ?_
  split
  · split
    · exact gives_none _
    · split
      · exact endMapped_gives _ _ h
      · exact endAreas_gives _ h
  · dsimp only
    split
    · exact beginRetire_gives _ _ (whole_same h rfl)
    · exact gives_none _
  · exact gives_none _

theorem execDrainCommit_keeps {s : State} (blk : Nat) (m : Allotment) (h : MemWhole s) : Keeps (execDrainCommit blk m s) := by
  refine event_keeps h ?_
  rw [gives_bind]
  refine gives_of_forall (fun n => ?_) _
  split
  · exact gives_none _
  · split
    · rw [gives_guardOpt]
      exact fun _ => whole_same h (endDrain_mem ..)
    · rw [gives_guardOpt]
      exact fun _ => commitDrain_whole _ _ _ h

theorem execDrainFail_keeps {s : State} (blk : Nat) (why : DrainFault) (h : MemWhole s) : Keeps (execDrainFail blk why s) := by
  refine devSame_keeps h ?_
  simp only [gives_bind, gives_guardOpt]
  exact gives_of_forall (fun n _ => by simp) _

theorem execMigrationCopyReceive_keeps {s : State} (m : MigrationCopy) (h : MemWhole s) :
    Keeps (execMigrationCopyReceive m s) := by
  have hl := layCopy_whole m h
  refine event_keeps h ?_
  rw [gives_guardOpt]
  intro _
  split
  · exact (wholeCopy_whole ..).mpr hl
  · exact hl

theorem execCutoverConfirmReceive_keeps {s : State} (blk : Nat) (h : MemWhole s) : Keeps (execCutoverConfirmReceive blk s) :=
  devSame_keeps h ((gives_map ..).mpr (gives_of_forall (fun _ => by simp) _))

theorem execUnconfirmedCopyDrop_keeps {s : State} (blk : Nat) (h : MemWhole s) : Keeps (execUnconfirmedCopyDrop blk s) := by
  refine devEvent_keeps h ?_
  simp only [gives_bind, gives_guardOpt]
  exact gives_of_forall (fun t _ => by rw [dropPairs_mem]; exact freeBlock_wf _ _ (memWhole_dev h)) _

theorem execMigrationCutover_keeps {s : State} (blk dst : Nat) (h : MemWhole s) : Keeps (execMigrationCutover blk dst s) := by
  refine event_keeps h ?_
  rw [gives_map]
  refine gives_of_forall (fun g => finishKind_whole _ _ _ (whole_withDev h ?_)) _
  simp only [forwardShoots_mem, Device.send_mem, Device.updOut_mem]
  exact freeBlock_wf _ _ (by simpa using memWhole_dev h)

theorem execMigrationAbort_keeps {s : State} (blk : Nat) (h : MemWhole s) : Keeps (execMigrationAbort blk s) :=
  event_keeps h ((gives_map ..).mpr (gives_of_forall (fun g => abortMigration_whole blk g h) _))

theorem execMigrationAckTimeout_keeps {s : State} (blk : Nat) (h : MemWhole s) : Keeps (execMigrationAckTimeout blk s) := by
  refine event_keeps h ?_
  rw [gives_bind]
  refine gives_of_forall (fun g => ?_) _
  split
  · exact abortMigration_whole _ _ h
  · rw [gives_guardOpt]
    exact fun _ => whole_same h (queryCopy_mem ..)

theorem execBuoyExpiry_keeps {s : State} (blk : Nat) (h : MemWhole s) : Keeps (execBuoyExpiry blk s) :=
  devSame_keeps h (by simp)

theorem execServiceDatagramReceive_keeps {s : State} (g : Datagram) (h : MemWhole s) :
    Keeps (execServiceDatagramReceive g s) :=
  arrival_keeps h ((gives_guardOpt ..).mpr fun _ => receive_whole g h)

theorem execSegmentVerify_keeps {s : State} (h : MemWhole s) : Keeps (execSegmentVerify s) := by
  refine arrival_keeps h ?_
  split
  · exact gives_none _
  · exact verify_whole _ (whole_same h rfl)

theorem execRecordAbandon_keeps {s : State} (blk slot : Nat) (h : MemWhole s) : Keeps (execRecordAbandon blk slot s) := by
  refine arrival_keeps h ?_
  rw [gives_bind]
  refine gives_of_forall (fun r => ?_) _
  dsimp only
  rw [gives_guardOpt]
  intro _
  refine whole_same h ?_
  rw [mem_noteCandidates]
  repeat' split
  all_goals simp

theorem execCalswWrite_keeps {s : State} (hbm : Nat) (v : BitVec 64) (h : MemWhole s) : Keeps (execCalswWrite hbm v s) :=
  devSame_keeps h (by simp)

theorem execCalendarExchange_keeps {s : State} (hbm : Nat) (h : MemWhole s) : Keeps (execCalendarExchange hbm s) := by
  refine devSame_keeps h ?_
  rw [gives_guardOpt]
  intro _
  split <;> simp

theorem execChannelSlotStart_keeps {s : State} (hbm pch slot : Nat) (h : MemWhole s) :
    Keeps (execChannelSlotStart hbm pch slot s) := by
  refine event_keeps h ?_
  rw [gives_guardOpt]
  exact fun _ => whole_same h (by rw [slotStart_mem]; rfl)

theorem execForcedRefreshEnd_keeps {s : State} (hbm pch : Nat) (h : MemWhole s) : Keeps (execForcedRefreshEnd hbm pch s) := by
  refine devSame_keeps h ?_
  simp only [gives_bind, gives_guardOpt]
  exact gives_of_forall (fun e _ => by simp) _

theorem execHotRowWindowEnd_keeps {s : State} (hbm : Nat) (h : MemWhole s) : Keeps (execHotRowWindowEnd hbm s) :=
  devSame_keeps h (by simp)

theorem execHighRangeEntry_keeps {s : State} (hbm : Nat) (h : MemWhole s) : Keeps (execHighRangeEntry hbm s) := by
  refine devSame_keeps h ?_
  rw [gives_guardOpt]
  intro _
  split <;> simp

theorem execHighRangeExit_keeps {s : State} (hbm : Nat) (h : MemWhole s) : Keeps (execHighRangeExit hbm s) :=
  devSame_keeps h (by simp)

theorem execSldReturn_keeps {s : State} (agent : Nat) (h : MemWhole s) : Keeps (execSldReturn agent s) :=
  devSame_keeps h ((gives_map ..).mpr (gives_of_forall (fun _ => by simp) _))

theorem execLaunchPacketReceive_keeps {s : State} (l : LaunchPacket) (h : MemWhole s) : Keeps (execLaunchPacketReceive l s) :=
  event_keeps h (launchArrives_whole l h)

theorem execLaunchReplyReceive_keeps {s : State} (id : Nat) (payload : List (BitVec 8)) (final : Bool)
    (refused : Option (BitVec 16)) (h : MemWhole s) : Keeps (execLaunchReplyReceive id payload final refused s) := by
  refine event_keeps h ?_
  rw [gives_bind]
  refine gives_of_forall (fun x => ?_) _
  split
  · rw [gives_guardOpt]
    intro _
    split
    · exact endLaunch_whole _ _ _ h
    · exact endLaunch_whole _ _ _ h
  · have ht := replyBytes_whole x payload h
    dsimp only
    split
    · exact endLaunch_whole _ _ _ ht
    · exact whole_same ht rfl

theorem execGangAckReceive_keeps {s : State} (id dev : Nat) (h : MemWhole s) : Keeps (execGangAckReceive id dev s) := by
  refine event_keeps h ?_
  rw [gives_bind]
  refine gives_of_forall (fun p => ?_) _
  obtain ⟨base, x, i⟩ := p
  dsimp only
  rw [gives_bind]
  refine gives_of_forall (fun m => ?_) _
  rw [gives_guardOpt]
  intro _
  split
  · exact endLaunch_whole _ _ _ (whole_same h (ite_mem (by simp) (by simp)))
  · exact whole_same h (ite_mem (by simp) (by simp))

theorem execGangAckTimeout_keeps {s : State} (id : Nat) (h : MemWhole s) : Keeps (execGangAckTimeout id s) := by
  refine event_keeps h ?_
  simp only [gives_bind, gives_guardOpt]
  exact gives_of_forall (fun x => gives_of_forall (fun e _ => endLaunch_whole _ _ _ (whole_same h (by simp))) _) _

theorem execGangConfirmReceive_keeps {s : State} (blk : Nat) (h : MemWhole s) : Keeps (execGangConfirmReceive blk s) := by
  refine devSame_keeps h ?_
  simp only [gives_bind, gives_some]
  exact gives_of_forall (fun g => (foldl_mem _ (fun x y => emit_mem x _ y) _ _).trans (by simp)) _

theorem execGangAbortReceive_keeps {s : State} (blk origin : Nat) (h : MemWhole s) :
    Keeps (execGangAbortReceive blk origin s) :=
  devSame_keeps h (gives_ite (fun _ => gangAbort_mem ..) fun _ => dropGangRecord_gives ..)

theorem execGangMemberTimeout_keeps {s : State} (blk : Nat) (h : MemWhole s) : Keeps (execGangMemberTimeout blk s) := by
  refine devSame_keeps h ?_
  rw [gives_bind]
  refine gives_of_forall (fun g => ?_) _
  have hend (d : Device) (hd : d.mem = s.dev.mem) :
      Gives (fun d => d.mem = s.dev.mem) (guardOpt (decide (g.since + cyclesMs 1 ≤ s.dev.cycle)) d) :=
    (gives_guardOpt ..).mpr fun _ => hd
  exact gives_ite (fun _ => gives_seq (Q := fun d => d.mem = s.dev.mem) ((gives_some ..).mpr (gangAbort_mem ..)) hend)
    fun _ => gives_seq (dropGangRecord_gives ..) hend

theorem execLinkTraining_keeps {s : State} (port : Nat) (h : MemWhole s) : Keeps (execLinkTraining port s) :=
  event_keeps h ((gives_guardOpt ..).mpr fun _ => whole_same h rfl)

theorem execDeviceNumbering_keeps {s : State} (devno : BitVec 9) (routes : List (Nat × List Nat)) (h : MemWhole s) :
    Keeps (execDeviceNumbering devno routes s) :=
  event_keeps h ((gives_guardOpt ..).mpr fun _ => failUnreachable_whole (whole_same h rfl))

theorem execFlitError_keeps {s : State} (port : Nat) (h : MemWhole s) : Keeps (execFlitError port s) := by
  refine event_keeps h ((gives_guardOpt ..).mpr fun _ => ?_)
  split
  · exact linkLost_whole _ h
  · exact whole_same h rfl

theorem execLinkDown_keeps {s : State} (port : Nat) (h : MemWhole s) : Keeps (execLinkDown port s) :=
  event_keeps h ((gives_guardOpt ..).mpr fun _ => linkLost_whole _ h)

theorem execRemoteAccessReceive_keeps {s : State} (r : RemoteAccess) (h : MemWhole s) : Keeps (execRemoteAccessReceive r s) :=
  event_keeps h ((gives_guardOpt ..).mpr fun _ => remote_whole _ h)

theorem execRemoteAccessTimeout_keeps {s : State} (agent : Nat) (h : MemWhole s) : Keeps (execRemoteAccessTimeout agent s) := by
  refine devSame_keeps h ?_
  split <;> simp

theorem execLockstepCompare_keeps {s : State} (agent : Nat) (same : Bool) (synd : BitVec 32) (h : MemWhole s) :
    Keeps (execLockstepCompare agent same synd s) := by
  refine devSame_keeps h ?_
  rw [gives_bind]
  refine gives_of_forall (fun p => ?_) _
  dsimp only
  rw [gives_guardOpt]
  intro _
  split <;> simp

theorem execRewindReissue_keeps {s : State} (agent : Nat) (h : MemWhole s) : Keeps (execRewindReissue agent s) := by
  refine devSame_keeps h ?_
  simp only [gives_bind, gives_guardOpt]
  exact gives_of_forall (fun t _ => by simp) _

theorem execEccErrorDetect_keeps {s : State} (e : EccEvent) (h : MemWhole s) : Keeps (execEccErrorDetect e s) := by
  refine devSame_keeps h ?_
  rw [gives_guardOpt]
  intro _
  repeat' split
  all_goals simp

theorem execPatrolRead_keeps {s : State} (line : PatrolLine) (bad : Bool) (h : MemWhole s) :
    Keeps (execPatrolRead line bad s) := by
  refine devSame_keeps h ?_
  rw [gives_bind]
  refine gives_of_forall (fun _ => ?_) _
  have hend (d : Device) (hd : d.mem = s.dev.mem) :
      Gives (fun d => d.mem = s.dev.mem) (pure (if bad then d.patrolError line.site line.num else d)) := by
    rw [Option.pure_def, gives_some]
    split
    · rw [patrolError_mem]
      exact hd
    · exact hd
  exact gives_ite (fun _ => gives_seq (access_gives ..) hend) fun _ => hend _ rfl

theorem execStackResetComplete_keeps {s : State} (stack : Nat) (h : MemWhole s) : Keeps (execStackResetComplete stack s) :=
  devSame_keeps h ((gives_map ..).mpr (gives_of_forall (fun _ => rfl) _))

theorem execRailFault_keeps {s : State} (h : MemWhole s) : Keeps (execRailFault s) := event_keeps h (powerDown_whole _ _)

theorem execThermalTrip_keeps {s : State} (h : MemWhole s) : Keeps (execThermalTrip s) := event_keeps h (powerDown_whole _ _)

theorem execWatchdogReset_keeps {s : State} (h : MemWhole s) : Keeps (execWatchdogReset s) :=
  event_keeps h ((gives_guardOpt ..).mpr fun _ => resetDevice_whole _)

theorem execPowerOn_keeps {s : State} (h : MemWhole s) : Keeps (execPowerOn s) :=
  event_keeps h ((gives_guardOpt ..).mpr fun _ => resetDevice_whole _)

theorem execRstNReset_keeps {s : State} (h : MemWhole s) : Keeps (execRstNReset s) :=
  event_keeps h ((gives_guardOpt ..).mpr fun _ => resetDevice_whole _)

theorem execPcieReset_keeps {s : State} (h : MemWhole s) : Keeps (execPcieReset s) := devSame_keeps h rfl

theorem execStandby_keeps {s : State} (h : MemWhole s) : Keeps (execStandby s) :=
  event_keeps h ((gives_guardOpt ..).mpr fun _ => powerDown_whole _ _)

theorem execErrorRecordTake_keeps {s : State} (h : MemWhole s) : Keeps (execErrorRecordTake s) := by
  refine event_keeps h ?_
  split
  · exact gives_none _
  next r rest _ => exact actOn_whole _ ((takeRecord_whole s r rest).mpr h)

theorem execCurrentCeilingWrite_keeps {s : State} (core : Nat) (v : BitVec 16) (h : MemWhole s) :
    Keeps (execCurrentCeilingWrite core v s) := devSame_keeps h (by simp)

theorem execUgreqWrite_keeps {s : State} (w : Nat) (v : BitVec 64) (h : MemWhole s) : Keeps (execUgreqWrite w v s) :=
  devSame_keeps h (by simp)

theorem execUpperGateApply_keeps {s : State} (cell : Nat) (h : MemWhole s) : Keeps (execUpperGateApply cell s) :=
  devSame_keeps h (by simp)

theorem execUpperUngateComplete_keeps {s : State} (cell : Nat) (h : MemWhole s) : Keeps (execUpperUngateComplete cell s) :=
  devSame_keeps h (by simp)

theorem execCoffWrite_keeps {s : State} (w : Nat) (v : BitVec 64) (h : MemWhole s) : Keeps (execCoffWrite w v s) :=
  devSame_keeps h (by simp)

theorem execRegisterWrite_keeps {s : State} (off : Nat) (v : BitVec 64) (h : MemWhole s) : Keeps (execRegisterWrite off v s) :=
  event_keeps h ((gives_guardOpt ..).mpr fun _ => retried_whole (whole_withDev h (writeReg_wf _ _ _ (memWhole_dev h))))

theorem execFaqpopRead_keeps {s : State} (h : MemWhole s) : Keeps (execFaqpopRead s) := devSame_keeps h (by simp)

theorem execBpaddWrite_keeps {s : State} (v : BitVec 64) (h : MemWhole s) : Keeps (execBpaddWrite v s) :=
  devSame_keeps h (by simp)

theorem execDoorbellWrite_keeps {s : State} (fn q : Nat) (wptr : BitVec 32) (h : MemWhole s) :
    Keeps (execDoorbellWrite fn q wptr s) := devSame_keeps h (by simp)

theorem execMatrixEntryStart_keeps {s : State} (core : Nat) (path : MatrixPath) (h : MemWhole s) :
    Keeps (execMatrixEntryStart core path s) := by
  refine event_keeps h ?_
  rw [gives_bind]
  exact gives_of_forall (fun p => (gives_guardOpt ..).mpr fun _ => (startEntry_whole ..).mpr h) _

theorem execMatrixEntryComplete_keeps {s : State} (core : Nat) (path : MatrixPath) (h : MemWhole s) :
    Keeps (execMatrixEntryComplete core path s) := by
  refine event_keeps h ?_
  rw [gives_map]
  refine gives_of_forall (fun m => ?_) _
  have hr : MemWhole (s.runEntry core m).1 := (runEntry_whole ..).mpr h
  exact whole_same hr (endEntry_mem ..)

theorem execFreezeCycle_keeps {s : State} (core : Nat) (h : MemWhole s) : Keeps (execFreezeCycle core s) := by
  have ht := issuePoint_whole core h
  exact event_keeps h ((gives_guardOpt ..).mpr fun _ => whole_same ht (freezeCore_mem ..))

theorem execHandoverLapse_keeps {s : State} (h : MemWhole s) : Keeps (execHandoverLapse s) := devSame_keeps h (by simp)

theorem execOwnerChannelLost_keeps {s : State} (h : MemWhole s) : Keeps (execOwnerChannelLost s) := by
  refine devSame_keeps h ?_
  simp only [gives_bind, gives_guardOpt]
  exact gives_of_forall (fun a _ => by simp) _

theorem execFirstBeacon_keeps {s : State} (fn : Nat) (h : MemWhole s) : Keeps (execFirstBeacon fn s) := by
  refine event_keeps h ?_
  split
  · rw [gives_guardOpt]
    refine fun _ => finishKind_whole _ _ _ (whole_same h ?_)
    rw [flush_mem]
    exact (foldl_mem _ (fun x w => firmWrite_mem x w) _ _).trans (by simp)
  · exact (gives_guardOpt ..).mpr fun _ => whole_same h (by simp)

theorem execFwActivateTimeout_keeps {s : State} (fn : Nat) (h : MemWhole s) : Keeps (execFwActivateTimeout fn s) := by
  refine event_keeps h ?_
  split
  · exact (gives_guardOpt ..).mpr fun _ => finishKind_whole _ _ _ (whole_same h (by simp))
  · exact (gives_guardOpt ..).mpr fun _ => whole_same h (by simp)

theorem execBeaconRaise_keeps {s : State} (fn : Nat) (h : MemWhole s) : Keeps (execBeaconRaise fn s) :=
  devSame_keeps h (by simp)

theorem execFirmwareSilent_keeps {s : State} (fn : Nat) (h : MemWhole s) : Keeps (execFirmwareSilent fn s) :=
  event_keeps h ((gives_guardOpt ..).mpr fun _ => silence_whole _ h)

theorem execMailboxFullTimeout_keeps {s : State} (src dst : Nat) (h : MemWhole s) : Keeps (execMailboxFullTimeout src dst s) :=
  event_keeps h ((gives_guardOpt ..).mpr fun _ => silence_whole _ (whole_same h (by simp)))

theorem execFuseChange_keeps {s : State} (cfg : List (BitVec 8)) (h : MemWhole s) : Keeps (execFuseChange cfg s) :=
  devSame_keeps h (by simp)

theorem execGetVersion_keeps {s : State} (r : SpdmRequest) (h : MemWhole s) : Keeps (execGetVersion r s) :=
  event_keeps h ((answer_whole ..).mpr ((agree_whole ..).mpr h))

theorem execGetCapabilities_keeps {s : State} (r : SpdmRequest) (h : MemWhole s) : Keeps (execGetCapabilities r s) :=
  eventSome_keeps (s := s) (after_whole _ h ((answer_whole ..).mpr ((agree_whole ..).mpr ((drawN_whole ..).mpr h))))

theorem execNegotiateAlgorithms_keeps {s : State} (r : SpdmRequest) (h : MemWhole s) : Keeps (execNegotiateAlgorithms r s) :=
  eventSome_keeps (s := s) (after_whole _ h ((answer_whole ..).mpr ((agree_whole ..).mpr ((draw_whole ..).mpr h))))

theorem execGetDigests_keeps {s : State} (r : SpdmRequest) (h : MemWhole s) : Keeps (execGetDigests r s) :=
  eventSome_keeps (s := s) (after_whole _ h ((answer_whole ..).mpr h))

theorem execGetCertificate_keeps {s : State} (r : SpdmRequest) (h : MemWhole s) : Keeps (execGetCertificate r s) := by
  refine eventSome_keeps (s := s) (after_whole _ h ?_)
  split
  · exact (answer_whole ..).mpr h
  · exact (spdmError_whole ..).mpr h

theorem execChallenge_keeps {s : State} (r : SpdmRequest) (h : MemWhole s) : Keeps (execChallenge r s) := by
  refine eventSome_keeps (s := s) (after_whole _ h ?_)
  split
  · exact (spdmError_whole ..).mpr h
  · dsimp only
    split
    · exact (spdmError_whole ..).mpr h
    · split
      · exact (spdmError_whole ..).mpr h
      · exact (noncedAnswer_whole ..).mpr h

theorem execGetMeasurements_keeps {s : State} (r : SpdmRequest) (h : MemWhole s) : Keeps (execGetMeasurements r s) := by
  refine eventSome_keeps (s := s) (after_whole _ h ?_)
  split
  · exact (spdmError_whole ..).mpr h
  · split
    · exact (spdmError_whole ..).mpr h
    · exact (noncedAnswer_whole ..).mpr h

theorem execRingOverrunTimeout_keeps {s : State} (q : Nat) (h : MemWhole s) : Keeps (execRingOverrunTimeout q s) := by
  refine event_keeps h ?_
  simp only [gives_bind, gives_guardOpt]
  refine gives_of_forall (fun t => gives_of_forall (fun p _ => ?_) _) _
  exact whole_same (failCommand_whole q _ _ 11 h) (updHq_mem ..)

theorem execHostAccessFail_keeps {s : State} (q : Nat) (kind : HostAccess) (h : MemWhole s) :
    Keeps (execHostAccessFail q kind s) := by
  refine event_keeps h ?_
  split
  · exact (gives_guardOpt ..).mpr fun _ => fetchFailed_whole _ h
  · split
    · exact dataFailed_gives _ h
    · exact gives_none _
  · exact (gives_guardOpt ..).mpr fun _ => whole_same h (updHq_mem ..)

theorem execAtsInvalidation_keeps {s : State} (pasid : Nat) (h : MemWhole s) : Keeps (execAtsInvalidation pasid s) :=
  devSame_keeps h (foldl_mem _ (fun x q => orphan_mem x q) _ _)

theorem execFunctionLevelReset_keeps {s : State} (fn : Nat) (h : MemWhole s) : Keeps (execFunctionLevelReset fn s) :=
  devSame_keeps h ((gives_guardOpt ..).mpr fun _ => foldl_mem _ (fun x q => orphan_mem x q) _ _)

theorem execWaitSatisfied_keeps {s : State} (q : Nat) (h : MemWhole s) : Keeps (execWaitSatisfied q s) :=
  event_keeps h ((gives_map ..).mpr (gives_of_forall (fun p => finishPend_whole p 0 0 (whole_same h rfl)) _))

theorem execWaitTimeout_keeps {s : State} (q : Nat) (h : MemWhole s) : Keeps (execWaitTimeout q s) :=
  event_keeps h ((gives_map ..).mpr (gives_of_forall (fun p => finishPend_whole p 13 0 h) _))

theorem execCbReleaseComplete_keeps {s : State} (blk : Nat) (h : MemWhole s) : Keeps (execCbReleaseComplete blk s) :=
  event_keeps h ((gives_guardOpt ..).mpr fun _ =>
    finishKind_whole _ _ _ (whole_withDev h (freeBlock_wf _ _ (by rw [noteQsc_mem]; exact memWhole_dev h))))

/-! ### Commands -/

/-- What a command ends with is a state whose memory is in the canonical form. -/
def CmdWhole : CmdEnd → Prop
  | .done t _ _ => MemWhole t
  | .under t _ => MemWhole t

theorem cmdWhole_ite {c : Prop} [Decidable c] {p q : CmdEnd} (hp : c → CmdWhole p) (hq : ¬c → CmdWhole q) :
    CmdWhole (if c then p else q) := by
  split
  · exact hp ‹_›
  · exact hq ‹_›

theorem command_keeps {s : State} {c : Cmd} {type : Nat} {fields : Bool} {w : Who} {perform : State → CmdEnd}
    (h : MemWhole s) (hp : ∀ t, MemWhole t → CmdWhole (perform t)) : Keeps (s.command c type fields w perform) := by
  unfold State.command
  extract_lets seq s1 fin
  have h1 : MemWhole s1 := whole_same h (by simp)
  have hf (r : CmdEnd) (hr : CmdWhole r) : MemWhole (fin r) := by
    cases r
    case done t st v => exact complete_whole _ _ _ _ _ _ hr
    case under t k => exact whole_withDev (s := t) hr (memWhole_dev (s := t) hr)
  exact keeps_ite (fun _ => whole_same h rfl) fun _ => keeps_ite (fun _ => hf (.done s1 1 0) h1) fun _ =>
    keeps_ite (fun _ => hf (.done s1 2 0) h1) fun _ => hf _ (hp _ h1)

theorem onBlock_whole {s : State} {c : Cmd} {f : Nat → CmdEnd} (h : MemWhole s) (hf : ∀ b, CmdWhole (f b)) :
    CmdWhole (onBlock c s f) := cmdWhole_ite (fun _ => h) fun _ => cmdWhole_ite (fun _ => h) fun _ => hf _

theorem execCmdNop_keeps {s : State} (c : Cmd) (h : MemWhole s) : Keeps (execCmdNop c s) := command_keeps h fun _ ht => ht

theorem execIndirect_keeps {s : State} (c : Cmd) (h : MemWhole s) : Keeps (execIndirect c s) :=
  command_keeps h fun _ ht => cmdWhole_ite (fun _ => ht) fun _ => cmdWhole_ite (fun _ => ht) fun _ =>
    whole_same ht (updHq_mem ..)

theorem execSignal_keeps {s : State} (c : Cmd) (h : MemWhole s) : Keeps (execSignal c s) :=
  command_keeps h fun t ht => cmdWhole_ite (fun _ => ht) fun _ =>
    cmdWhole_ite (fun _ => cmdPut_whole _ _ _ _ ((masterStamp_whole t).mpr ht)) fun _ =>
    cmdWhole_ite (fun _ => signalLocal_whole _ _ ht) fun _ =>
    cmdWhole_ite (fun _ => cmdWhole_ite (fun _ => whole_same ((masterStamp_whole t).mpr ht) (emit_mem ..)) fun _ => ht)
      fun _ => ht

theorem execWait_keeps {s : State} (c : Cmd) (h : MemWhole s) : Keeps (execWait c s) :=
  command_keeps h fun _ ht => cmdWhole_ite (fun _ => ht) fun _ => cmdWhole_ite (fun _ => ht) fun _ =>
    cmdWhole_ite (fun _ => whole_same ht rfl) fun _ => whole_same ht rfl

theorem execCbCreate_keeps {s : State} (c : Cmd) (h : MemWhole s) : Keeps (execCbCreate c s) :=
  command_keeps h fun _ ht => onBlock_whole ht fun _ => cmdWhole_ite (fun _ => ht) fun _ => cmdWhole_ite (fun _ => ht) fun _ =>
    whole_same ht rfl

theorem execCbWrite_keeps {s : State} (c : Cmd) (h : MemWhole s) : Keeps (execCbWrite c s) := by
  refine command_keeps h fun t ht => onBlock_whole ht fun b => ?_
  refine cmdWhole_ite (fun _ => ht) fun _ => cmdWhole_ite (fun _ => ht) fun _ => cmdWhole_ite (fun _ => ht) fun _ => ?_
  refine whole_withDev ht ?_
  rw [mem_noteCandidates]
  split
  · exact memWhole_dev ht
  · exact purge_wf _ (by rw [unmap_mem]; exact memWhole_dev ht)

theorem execCbRead_keeps {s : State} (c : Cmd) (h : MemWhole s) : Keeps (execCbRead c s) :=
  command_keeps h fun _ ht => onBlock_whole ht fun _ => cmdPut_whole _ _ _ _ ht

theorem execCbSuspend_keeps {s : State} (c : Cmd) (h : MemWhole s) : Keeps (execCbSuspend c s) :=
  command_keeps h fun _ ht => onBlock_whole ht fun _ => cmdWhole_ite (fun _ => whole_same ht (by simp)) fun _ =>
    cmdWhole_ite (fun _ => whole_same ht (requestPreempt_mem ..)) fun _ => ht

theorem execCbResume_keeps {s : State} (c : Cmd) (h : MemWhole s) : Keeps (execCbResume c s) :=
  command_keeps h fun _ ht => onBlock_whole ht fun _ => cmdWhole_ite (fun _ => ht) fun _ => whole_same ht (by simp)

theorem execCbKill_keeps {s : State} (c : Cmd) (h : MemWhole s) : Keeps (execCbKill c s) :=
  command_keeps h fun _ ht => onBlock_whole ht fun _ => cmdWhole_ite (fun _ => ht) fun _ => killed_whole _ ht

theorem execCbRelease_keeps {s : State} (c : Cmd) (h : MemWhole s) : Keeps (execCbRelease c s) :=
  command_keeps h fun _ ht => onBlock_whole ht fun _ => cmdWhole_ite (fun _ => ht) fun _ =>
    cmdWhole_ite (fun _ => whole_withDev ht (freeBlock_wf _ _ (by rw [noteQsc_mem]; exact memWhole_dev ht))) fun _ => ht

theorem execCbMigrate_keeps {s : State} (c : Cmd) (h : MemWhole s) : Keeps (execCbMigrate c s) :=
  command_keeps h fun _ ht => onBlock_whole ht fun _ => cmdWhole_ite (fun _ => ht) fun _ => cmdWhole_ite (fun _ => ht) fun _ =>
    cmdWhole_ite (fun _ => ht) fun _ => cmdWhole_ite (fun _ => ht) fun _ => whole_same ht (by simp)

theorem execEvent_keeps {s : State} (c : Cmd) (h : MemWhole s) : Keeps (execEvent c s) := by
  refine command_keeps h fun t ht => onBlock_whole ht fun b => ?_
  split
  · exact whole_same ht (foldl_mem _ (fun x a => Device.updCtx_mem x a _) _ _)
  · exact ht

theorem execImgInstall_keeps {s : State} (c : Cmd) (h : MemWhole s) : Keeps (execImgInstall c s) := by
  refine command_keeps h fun t ht => cmdWhole_ite (fun _ => ht) fun _ => ?_
  split
  · exact whole_same ((domainKey_whole ..).mpr ht) (by simp)
  · exact ht

theorem execImgRetire_keeps {s : State} (c : Cmd) (h : MemWhole s) : Keeps (execImgRetire c s) :=
  command_keeps h fun _ ht => whole_same ht (by simp)

theorem execHashSet_keeps {s : State} (c : Cmd) (h : MemWhole s) : Keeps (execHashSet c s) :=
  command_keeps h fun _ ht => cmdWhole_ite (fun _ => ht) fun _ => cmdWhole_ite (fun _ => whole_same ht rfl) fun _ =>
    whole_same ht rfl

theorem execResvWrite_keeps {s : State} (c : Cmd) (h : MemWhole s) : Keeps (execResvWrite c s) :=
  command_keeps h fun _ ht => cmdWhole_ite (fun _ => ht) fun _ => whole_same ht (by simp)

theorem execPolicyRgrace_keeps {s : State} (c : Cmd) (h : MemWhole s) : Keeps (execPolicyRgrace c s) :=
  command_keeps h fun _ ht => cmdWhole_ite (fun _ => ht) fun _ => whole_same ht rfl

theorem execPolicyWclk_keeps {s : State} (c : Cmd) (h : MemWhole s) : Keeps (execPolicyWclk c s) :=
  command_keeps h fun _ ht => cmdWhole_ite (fun _ => ht) fun _ => whole_same ht rfl

theorem execShootdown_keeps {s : State} (c : Cmd) (h : MemWhole s) : Keeps (execShootdown c s) :=
  command_keeps h fun t ht => onBlock_whole ht fun _ => cmdWhole_ite (fun _ => whole_same ht (beginShoot_mem ..)) fun _ =>
    cmdWhole_ite (fun _ => ht) fun _ => (ackStamp_whole t).mpr ht

theorem execDevsnapTake_keeps {s : State} (c : Cmd) (h : MemWhole s) : Keeps (execDevsnapTake c s) := by
  refine keeps_ite (fun _ => whole_same h rfl) fun _ => command_keeps h fun t ht => ?_
  split
  · exact ht
  · exact whole_same ht rfl

theorem execDevsnapRelease_keeps {s : State} (c : Cmd) (h : MemWhole s) : Keeps (execDevsnapRelease c s) :=
  command_keeps h fun _ ht => cmdWhole_ite (fun _ => ht) fun _ => cmdWhole_ite (fun _ => ht) fun _ =>
    whole_same ht (releaseSnap_mem ..)

theorem execCheckpoint_keeps {s : State} (c : Cmd) (h : MemWhole s) : Keeps (execCheckpoint c s) :=
  command_keeps h fun _ ht => cmdWhole_ite (fun _ => ht) fun _ => cmdWhole_ite (fun _ => ht) fun _ =>
    whole_same ht (startDrain_mem ..)

theorem execMeterRead_keeps {s : State} (c : Cmd) (h : MemWhole s) : Keeps (execMeterRead c s) :=
  command_keeps h fun _ ht => cmdWhole_ite (fun _ => ht) fun _ => cmdWhole_ite (fun _ => ht) fun _ =>
    cmdPut_whole _ _ _ _ ht

theorem execMeterReport_keeps {s : State} (c : Cmd) (h : MemWhole s) : Keeps (execMeterReport c s) :=
  command_keeps h fun t ht => cmdWhole_ite (fun _ => ht) fun _ => cmdWhole_ite (fun _ => ht) fun _ =>
    cmdPut_whole _ _ _ _ (whole_same ((masterStamp_whole t).mpr ht) rfl)

theorem execDiagRead_keeps {s : State} (c : Cmd) (h : MemWhole s) : Keeps (execDiagRead c s) :=
  command_keeps h fun _ ht => onBlock_whole ht fun _ => cmdWhole_ite (fun _ => ht) fun _ => cmdPut_whole _ _ _ _ ht

theorem execOwnerClaim_keeps {s : State} (c : Cmd) (h : MemWhole s) : Keeps (execOwnerClaim c s) :=
  keeps_ite (fun _ => whole_same h rfl) fun _ => command_keeps h fun _ ht =>
    cmdWhole_ite (fun _ => whole_same ht (by simp)) fun _ => whole_same ht (by simp)

theorem execOwnerHandover_keeps {s : State} (c : Cmd) (h : MemWhole s) : Keeps (execOwnerHandover c s) :=
  command_keeps h fun _ ht => cmdWhole_ite (fun _ => ht) fun _ => whole_same ht (by simp)

theorem execOwnerAccept_keeps {s : State} (c : Cmd) (h : MemWhole s) : Keeps (execOwnerAccept c s) :=
  command_keeps h fun _ ht => cmdWhole_ite (fun _ => ht) fun _ => whole_same ht (by simp)

theorem execRegRead_keeps {s : State} (c : Cmd) (h : MemWhole s) : Keeps (execRegRead c s) :=
  command_keeps h fun _ ht => cmdWhole_ite (fun _ => ht) fun _ => (readReg_whole ..).mpr ht

theorem execRegWrite_keeps {s : State} (c : Cmd) (h : MemWhole s) : Keeps (execRegWrite c s) :=
  command_keeps h fun _ ht => cmdWhole_ite (fun _ => ht) fun _ =>
    retried_whole (whole_withDev ht (writeReg_wf _ _ _ (memWhole_dev ht)))

theorem execAclWrite_keeps {s : State} (c : Cmd) (h : MemWhole s) : Keeps (execAclWrite c s) :=
  command_keeps h fun _ ht => cmdWhole_ite (fun _ => ht) fun _ => whole_same ht (by simp)

theorem execSysLaunch_keeps {s : State} (c : Cmd) (h : MemWhole s) : Keeps (execSysLaunch c s) :=
  command_keeps h fun t ht => onBlock_whole ht fun _ => cmdWhole_ite (fun _ => ht) fun _ => cmdWhole_ite (fun _ => ht) fun _ =>
    cmdWhole_ite (fun _ => ht) fun _ => appendRec_whole _ _ ((draw_whole t).mpr ht)

theorem execFwStage_keeps {s : State} (c : Cmd) (h : MemWhole s) : Keeps (execFwStage c s) :=
  command_keeps h fun _ ht => cmdWhole_ite (fun _ => ht) fun _ => cmdWhole_ite (fun _ => ht) fun _ =>
    cmdWhole_ite (fun _ => whole_same ht (by simp)) fun _ => whole_same ht (by simp)

theorem execFwActivate_keeps {s : State} (c : Cmd) (h : MemWhole s) : Keeps (execFwActivate c s) :=
  command_keeps h fun _ ht => cmdWhole_ite (fun _ => ht) fun _ => cmdWhole_ite (fun _ => ht) fun _ =>
    whole_same ht (by simp)

theorem sendLaunch_whole {s t : State} {dev : Nat} {l : LaunchPacket} (h : MemWhole s)
    (ht : s.sendLaunch dev l = .taken t ∨ s.sendLaunch dev l = .sent t) : MemWhole t := by
  unfold State.sendLaunch at ht
  split at ht
  · exact takeLaunch_whole h ht
  · split at ht
    · obtain ht | ht := ht
      · cases ht
      · injection ht with ht
        exact ht ▸ whole_same h rfl
    · obtain ht | ht := ht <;> cases ht

theorem launchPerform_whole {s : State} (c : Cmd) (h : MemWhole s) : CmdWhole (launchPerform c s) := by
  refine cmdWhole_ite (fun _ => h) fun _ => ?_
  split
  next t he => exact whole_same (sendLaunch_whole h (.inl he)) rfl
  next t he => exact whole_same (sendLaunch_whole h (.inr he)) rfl
  · exact h
  · exact h

theorem gangPerform_whole {s : State} (c : Cmd) (h : MemWhole s) : CmdWhole (gangPerform c s) := by
  unfold gangPerform
  extract_lets ms id send x t
  refine cmdWhole_ite (fun _ => h) fun _ => ?_
  have ht : MemWhole t := by
    refine foldl_whole _ (fun u e hu => ?_) _ h
    unfold send
    dsimp only
    split
    next v he => exact sendLaunch_whole hu (.inl he)
    next v he => exact sendLaunch_whole hu (.inr he)
    · exact hu
    · exact hu
  exact whole_same ht rfl

theorem execLaunch_keeps {s : State} (c : Cmd) (h : MemWhole s) : Keeps (execLaunch c s) :=
  keeps_ite (fun _ => whole_same h rfl) fun _ => command_keeps h fun _ ht => launchPerform_whole c ht

theorem execGangLaunch_keeps {s : State} (c : Cmd) (h : MemWhole s) : Keeps (execGangLaunch c s) :=
  keeps_ite (fun _ => whole_same h rfl) fun _ => command_keeps h fun _ ht => gangPerform_whole c ht

/-! ## The issue of a bundle -/

/-- A meaning of the instructions that keeps the canonical form. -/
def Sound (ex : Meaning) : Prop := ∀ i s, MemWhole s → Keeps (ex i s)

theorem noMeaning_sound : Sound noMeaning := fun _ _ h => h

theorem andThen_keeps {o : Host.Outcome State Fault Refusal} {f : State → Host.Outcome State Fault Refusal} (ho : Keeps o)
    (hf : ∀ t, MemWhole t → Keeps (f t)) : Keeps (andThen o f) := by
  cases o
  case next t => exact keeps_ite (fun _ => ho) fun _ => hf t ho
  case fault => trivial
  case refused => trivial

section
variable {ex : Meaning} (hex : Sound ex) (ds : List Dec) (leaf : Nat)
include hex

theorem runLast_keeps (k : Last) (l : List (Dec × Nat)) {s : State} (h : MemWhole s) : Keeps (runLast ex ds leaf k l s) := by
  induction l generalizing s with
  | nil => exact h
  | cons e r ih =>
    unfold runLast
    split
    · exact ih h
    · exact keeps_ite (fun _ => andThen_keeps (hex _ _ ((atSlot_whole ..).mpr h)) fun _ ht => ih ht) fun _ => ih h

theorem lowestStop_keeps (lower : List (Dec × Nat)) {s t : State} (h : MemWhole s) (ht : MemWhole t) :
    Keeps (lowestStop ex ds leaf lower s t) := by
  have hr := runLast_keeps hex ds leaf .gather lower h
  unfold lowestStop
  split
  next u he =>
    rw [he] at hr
    exact keeps_ite (fun _ => hr) fun _ => ht
  · exact hr

theorem runSlots_keeps (lower l : List (Dec × Nat)) {s : State} (h : MemWhole s) :
    Keeps (runSlots ex ds leaf lower l s) := by
  induction l generalizing s lower with
  | nil => exact h
  | cons e r ih =>
    have h1 : MemWhole (s.atSlot ds e.2 e.1) := (atSlot_whole ..).mpr h
    unfold runSlots
    split
    · exact ih _ h
    next ins _ =>
      dsimp only
      split
      · exact ih _ h
      · split
        · exact ih _ h1
        · exact lowestStop_keeps hex ds leaf lower h (stopped_whole _ h1)
      · have he := hex ins _ h1
        split
        next t ho =>
          rw [ho] at he
          exact keeps_ite (fun _ => lowestStop_keeps hex ds leaf lower h he) fun _ => ih _ he
        · exact he

theorem finish_keeps {s : State} (h : MemWhole s) : Keeps (finish ex ds leaf s) := by
  refine andThen_keeps (runLast_keeps hex ds leaf .gather _ h) fun t ht => ?_
  refine keeps_ite (fun _ => stopped_whole _ ((updBun_whole rfl).mpr ht)) fun _ => ?_
  split
  · exact (memWhole_mk ..).mpr ⟨by rw [leave_mem]; exact memWhole_before ht, preWhole_none⟩
  · exact andThen_keeps (runLast_keeps hex ds leaf .ending _ ((noteDue_whole ..).mpr ht)) fun u hu => commit_whole hu

theorem runBundle_keeps {s : State} (h : MemWhole s) : Keeps (s.runBundle ex ds leaf) := by
  unfold State.runBundle
  extract_lets c fail wordAt
  have hf (i : Nat) (cause : BitVec 8) (val : Word) : Keeps (fail i cause val) :=
    stopped_whole _ ((updBun_whole rfl).mpr h)
  split
  · exact hf _ _ _
  · split
    · exact hf _ _ _
    · split
      · exact hf _ _ _
      · exact andThen_keeps (runSlots_keeps hex ds leaf [] _ h) fun t ht => finish_keeps hex ds leaf ht

omit hex in
theorem whole_open {s : State} {b : Bundle} {d : Device} {g : List Turn} {f n : Nat} {l : Result} (h : MemWhole s)
    (hd : d.mem = s.dev.mem) (hb : b.pre = d) : MemWhole ⟨d, some b, g, f, n, l⟩ := by
  rw [memWhole_mk, preWhole_some, hb, hd]
  exact ⟨memWhole_dev h, memWhole_dev h⟩

theorem issueAt_keeps {s : State} (a b : Nat) (h : MemWhole s) : Keeps (s.issueAt ex a b) := by
  unfold State.issueAt
  extract_lets c pc open1
  split
  · exact stopped_whole _ (whole_open h (firstIssue_mem ..) rfl)
  next ws _ =>
    extract_lets ds shut leaf' d opens
    refine keeps_ite (fun _ => whole_same h rfl) fun _ => keeps_ite (fun _ => whole_same h (freezeCore_mem ..)) fun _ => ?_
    exact runBundle_keeps hex _ _ (whole_open h (by simp [d]) rfl)

theorem issue_keeps {s : State} (core : Nat) (h : MemWhole s) : Keeps (s.issue ex core) := by
  unfold State.issue
  extract_lets d0 d1 a d c t
  have h0 : d0.mem = s.dev.mem := by
    unfold d0
    split
    · exact tick_mem ..
    · rfl
  have hd : d.mem = s.dev.mem := by simpa [d, d1] using h0
  have ht : MemWhole t := (memWhole_mk ..).mpr ⟨by rw [hd]; exact memWhole_dev h, preWhole_none⟩
  split
  · exact whole_same ht rfl
  next k _ =>
    refine keeps_ite (fun _ => whole_same ht rfl) fun _ => ?_
    split
    · exact whole_same ht (trapDeliver_mem ..)
    · have hi := issueAt_keeps hex a k.blk ht
      split
      next u he =>
        rw [he] at hi
        exact whole_same hi (stopIfDue_mem ..)
      · exact hi

theorem issueNext_keeps {s : State} (core : Nat) (h : MemWhole s) : Keeps (s.issueNext ex core) := by
  have hi := issue_keeps hex core h
  refine keeps_ite (fun _ => trivial) fun _ => ?_
  split
  next t he =>
    rw [he] at hi
    refine (keeps_next _).mpr ?_
    split
    · exact whole_same hi (tick_mem ..)
    · exact hi
  · exact hi

theorem happen_keeps {s : State} (e : Instr) (h : MemWhole s) : Keeps (s.happen ex e) :=
  keeps_ite (fun _ => hex e s h) fun _ => whole_same h rfl
end

theorem faultingIssue_keeps {s : State} (agent : Nat) (p : Except Stop (List Word32) → Bool) (h : MemWhole s) :
    Keeps (s.faultingIssue agent p) := by
  have ht := issuePoint_whole (coreOf agent) h
  unfold State.faultingIssue
  extract_lets t
  split
  next a b r _ =>
    refine keeps_ite (fun _ => ?_) fun _ => whole_same h rfl
    have hi := issueAt_keeps noMeaning_sound a b ht
    split
    next u he =>
      rw [he] at hi
      exact whole_same hi (stopIfDue_mem ..)
    · exact hi
  · exact whole_same h rfl

/-! ## Every instruction -/

theorem exec_keeps {s : State} (i : Instr) (h : MemWhole s) : Keeps (exec i s) := by
  cases i
  all_goals dsimp only [exec]
  case nop | wide => exact h
  case add | sub | and | or | xor | andn | mul | mulh | mulhu | div | divu | rem | remu | shl | shr | sra | min | max |
      minu | maxu | bfx | bfi | sel => exact scalarOp_keeps _ _ _ _ h
  case clz | ctz | popc | mov | shli | shri | srai => exact scalarUn_keeps _ _ _ h
  case cmpEq | cmpNe | cmpLt | cmpGe | cmpLtu | cmpGeu | pand | por | pnot | cmpiEq | cmpiNe | cmpiLt | cmpiGe |
      cmpiLtu | cmpiGeu => exact predOp_keeps _ _ h
  case addi | andi | ori | xori => exact scalarImm_keeps _ _ _ _ h
  case li | lih | vext | kpop => exact (setS_whole ..).mpr h
  case tree | jmp | call | ret => exact (updBun_whole rfl).mpr h
  case tgt => exact execTgt_keeps _ _ h
  case loop => exact execLoop_keeps _ _ h
  case sloop => exact execSloop_keeps _ _ _ h
  case endTask => exact slot_keeps h (endTask_ends _ h)
  case yield => exact execYield_keeps h
  case rdv => exact execRdv_keeps _ h
  case segb => exact execSegb_keeps h
  case sege => exact execSege_keeps h
  case brk => exact stopped_whole _ h
  case ldb | ldbz | ldh | ldhz | ldw | ldwz | ldd => exact scalarLoad_keeps _ _ _ _ _ h
  case stb | sth | stw | std => exact scalarStore_keeps _ _ _ _ h
  case spl => exact execSpl_keeps _ _ _ _ h
  case sps => exact execSps_keeps _ _ _ _ h
  case vldp => exact execVldp_keeps _ _ _ _ _ h
  case vstp => exact execVstp_keeps _ _ _ _ h
  case vld => exact execVld_keeps _ _ _ _ h
  case vst => exact execVst_keeps _ _ _ h
  case vlds => exact execVlds_keeps _ _ _ _ h
  case vsts => exact execVsts_keeps _ _ _ h
  case sld => exact execSld_keeps _ _ _ _ h
  case trans => exact execTrans_keeps _ _ _ h
  case pref => exact execPref_keeps _ _ h
  case fence => exact (settleFar_whole s).mpr h
  case amoadd | amomin | amomax | amominu | amoand | amoor | amoxor | amoswp | amoaddW | amominW | amomaxW | amominuW |
      amoandW | amoorW | amoxorW | amoswpW | amocas | amocasW => exact amoOp_keeps _ _ _ _ _ h
  case redAdd | redMin | redMax | redFadd => exact redOp_keeps _ _ _ _ h
  case tspawn => exact execTspawn_keeps _ h
  case tdec | tadd => exact countOp_keeps _ _ _ h
  case ntr => exact execNtr_keeps h
  case barr => exact execBarr_keeps _ h
  case bwait => exact execBwait_keeps _ h
  case barw => exact execBarw_keeps _ h
  case qput => exact execQput_keeps _ _ h
  case qget => exact execQget_keeps _ _ h
  case qeos => exact execQeos_keeps _ h
  case vfput => exact execVfput_keeps _ _ h
  case vfget => exact execVfget_keeps _ h
  case tlw => exact execTlw_keeps _ _ h
  case tlr => exact execTlr_keeps _ _ h
  case txb => exact execTxb_keeps h
  case txc => exact execTxc_keeps _ h
  case txa => exact execTxa_keeps h
  case snap => exact execSnap_keeps _ _ h
  case snaprel => exact execSnaprel_keeps _ h
  case snapsel => exact execSnapsel_keeps _ h
  case vadd | vsub | vmul | vfma | vfms | vmin | vmax => exact fpOp_keeps _ _ _ _ _ _ h
  case vneg | vabs | vrcp | vrsq | vsqrt | vexp | vlog | vtanh => exact fpUnary_keeps _ _ _ _ h
  case vclass => exact execVclass_keeps _ _ _ h
  case vnot | vmovs | vhash => exact laneUnary_keeps _ _ _ _ _ h
  case vredsum => exact execVredsum_keeps _ _ _ h
  case vredmax | vredmin => exact redExtreme_keeps _ _ _ _ h
  case vredarg => exact execVredarg_keeps _ _ _ h
  case vscan => exact execVscan_keeps _ _ _ h
  case viadd | visub | vimul | vimad | vimin | vimax => exact intOp_keeps _ _ _ _ _ _ h
  case vshl | vshr | vsra => exact shiftOp_keeps _ _ _ _ _ h
  case vand | vor | vxor => exact laneOp_keeps _ _ _ _ _ h
  case vcmpEq | vcmpNe | vcmpLt | vcmpLe | vcmpGt | vcmpGe | vcmpUn => exact cmpOp_keeps _ _ _ _ _ h
  case vsel => exact execVsel_keeps _ _ _ _ h
  case vcvt => exact execVcvt_keeps _ _ _ _ h
  case vqnt => exact execVqnt_keeps _ _ _ h
  case vdqnt => exact execVdqnt_keeps _ _ _ h
  case vpackts => exact execVpackts_keeps _ _ _ _ h
  case vshuf => exact execVshuf_keeps _ _ _ _ h
  case vrot | vslide | vbcast | vins => exact (wholeLanes_whole ..).mpr h
  case vgather => exact execVgather_keeps _ _ _ _ h
  case vscat => exact execVscat_keeps _ _ _ _ h
  case vdot => exact execVdot_keeps _ _ _ _ h
  case kand | kor | knot => exact (setK_whole ..).mpr h
  case mcallMm => exact execMcallMm_keeps _ _ _ h
  case mcallAccout => exact execMcallAccout_keeps _ _ h
  case mcallAccld => exact execMcallAccld_keeps _ _ h
  case mcallAccadd => exact execMcallAccadd_keeps _ _ h
  case mcallTransp => exact execMcallTransp_keeps _ _ h
  case mpar | eset => exact (updMe_whole ..).mpr h
  case oclm => exact execOclm_keeps _ h
  case orel => exact execOrel_keeps _ h
  case old => exact execOld_keeps _ _ _ h
  case ost => exact execOst_keeps _ _ h
  case macz => exact execMacz_keeps _ h
  case mlim => exact (updMyCore_whole ..).mpr h
  case mupld => exact execMupld_keeps _ h
  case egoCopyMove | egoCopyFill | egoCopyMove2d | egoGatherGath | egoGatherScat | egoHashSha384 | egoCryptoSeal |
      egoCryptoOpen | egoCollBcast | egoCollSumf | egoCollSumi | egoNetPart |
      egoNetReply => exact ego_keeps _ _ _ _ _ h
  case edep => exact execEdep_keeps _ _ h
  case ebar => exact execEbar_keeps _ _ h
  case ecan => exact execEcan_keeps _ _ h
  case csrr => exact execCsrr_keeps _ _ h
  case csrw | csrs | csrc => exact csrWriteOp_keeps _ _ h
  case trap => exact execTrap_keeps _ h
  case tret => exact execTret_keeps h
  case wfe => exact execWfe_keeps h
  case halt => exact execHalt_keeps h
  case taskTake => exact execTaskTake_keeps _ h
  case contextUnblock => exact execContextUnblock_keeps _ h
  case taskPublicationComplete => exact execTaskPublicationComplete_keeps _ h
  case deferredEnqueue => exact execDeferredEnqueue_keeps _ h
  case rqfullTimeout => exact execRqfullTimeout_keeps _ h
  case ntRotation => exact execNtRotation_keeps _ h
  case queueEnlarge => exact execQueueEnlarge_keeps _ h
  case serviceDatagramReceive => exact execServiceDatagramReceive_keeps _ h
  case segmentVerify => exact execSegmentVerify_keeps h
  case recordAbandon => exact execRecordAbandon_keeps _ _ h
  case harbourmasterPick => exact execHarbourmasterPick_keeps h
  case candidateHeld => exact execCandidateHeld_keeps _ h
  case recallGraceExpiry => exact execRecallGraceExpiry_keeps _ h
  case entryTaskEnqueue => exact execEntryTaskEnqueue_keeps _ h
  case bindingRecordTimeout => exact execBindingRecordTimeout_keeps _ h
  case bindingEnd => exact execBindingEnd_keeps _ h
  case preemptionComplete => exact execPreemptionComplete_keeps _ h
  case preemptionTimeout => exact execPreemptionTimeout_keeps _ h
  case pilotFetchComplete => exact execPilotFetchComplete_keeps _ _ _ h
  case firmwareLeafAnswer => exact execFirmwareLeafAnswer_keeps _ _ _ h
  case shootdownAck => exact execShootdownAck_keeps _ h
  case shootdownTimeout => exact execShootdownTimeout_keeps _ h
  case qqfsWrite => exact execQqfsWrite_keeps _ h
  case quarantineRelease => exact execQuarantineRelease_keeps h
  case quarantineHeadTimeout => exact execQuarantineHeadTimeout_keeps h
  case pendingClearDone => exact execPendingClearDone_keeps _ h
  case poolPageZeroed => exact execPoolPageZeroed_keeps _ _ h
  case calswWrite => exact execCalswWrite_keeps _ _ h
  case calendarExchange => exact execCalendarExchange_keeps _ h
  case channelSlotStart => exact execChannelSlotStart_keeps _ _ _ h
  case forcedRefreshEnd => exact execForcedRefreshEnd_keeps _ _ h
  case hotRowWindowEnd => exact execHotRowWindowEnd_keeps _ h
  case highRangeEntry => exact execHighRangeEntry_keeps _ h
  case sldReturn => exact execSldReturn_keeps _ h
  case stampRaise => exact execStampRaise_keeps h
  case dredgeReclaim => exact execDredgeReclaim_keeps _ h
  case snapReturn => exact execSnapReturn_keeps _ h
  case drainCommit => exact execDrainCommit_keeps _ _ h
  case drainFail => exact execDrainFail_keeps _ _ h
  case engineOpComplete => exact execEngineOpComplete_keeps _ _ h
  case engineFault => exact execEngineFault_keeps _ _ _ h
  case kDeliveryTaskStart => exact execKDeliveryTaskStart_keeps _ h
  case kDeliveryTimeout => exact execKDeliveryTimeout_keeps _ h
  case replyCounterExhausted => exact execReplyCounterExhausted_keeps _ h
  case matrixEntryStart => exact execMatrixEntryStart_keeps _ _ h
  case matrixEntryComplete => exact execMatrixEntryComplete_keeps _ _ h
  case lockstepCompare => exact execLockstepCompare_keeps _ _ _ h
  case rewindReissue => exact execRewindReissue_keeps _ h
  case eccErrorDetect => exact execEccErrorDetect_keeps _ h
  case patrolRead => exact execPatrolRead_keeps _ _ h
  case errorRecordTake => exact execErrorRecordTake_keeps h
  case stackResetComplete => exact execStackResetComplete_keeps _ h
  case railFault => exact execRailFault_keeps h
  case thermalTrip => exact execThermalTrip_keeps h
  case watchdogReset => exact execWatchdogReset_keeps h
  case powerOn => exact execPowerOn_keeps h
  case rstNReset => exact execRstNReset_keeps h
  case pcieReset => exact execPcieReset_keeps h
  case standby => exact execStandby_keeps h
  case currentCeilingWrite => exact execCurrentCeilingWrite_keeps _ _ h
  case ugreqWrite => exact execUgreqWrite_keeps _ _ h
  case upperGateApply => exact execUpperGateApply_keeps _ h
  case upperUngateComplete => exact execUpperUngateComplete_keeps _ h
  case coffWrite => exact execCoffWrite_keeps _ _ h
  case faqpopRead => exact execFaqpopRead_keeps h
  case bpaddWrite => exact execBpaddWrite_keeps _ h
  case pageRetirement => exact execPageRetirement_keeps _ _ h
  case vheapParkRelease => exact execVheapParkRelease_keeps _ h
  case doorbellWrite => exact execDoorbellWrite_keeps _ _ _ h
  case registerWrite => exact execRegisterWrite_keeps _ _ h
  case cmdNop => exact execCmdNop_keeps _ h
  case indirect => exact execIndirect_keeps _ h
  case signal => exact execSignal_keeps _ h
  case wait => exact execWait_keeps _ h
  case waitSatisfied => exact execWaitSatisfied_keeps _ h
  case waitTimeout => exact execWaitTimeout_keeps _ h
  case cbCreate => exact execCbCreate_keeps _ h
  case cbWrite => exact execCbWrite_keeps _ h
  case cbRead => exact execCbRead_keeps _ h
  case cbSuspend => exact execCbSuspend_keeps _ h
  case cbResume => exact execCbResume_keeps _ h
  case cbKill => exact execCbKill_keeps _ h
  case cbRelease => exact execCbRelease_keeps _ h
  case cbReleaseComplete => exact execCbReleaseComplete_keeps _ h
  case cbMigrate => exact execCbMigrate_keeps _ h
  case event => exact execEvent_keeps _ h
  case imgInstall => exact execImgInstall_keeps _ h
  case imgRetire => exact execImgRetire_keeps _ h
  case hashSet => exact execHashSet_keeps _ h
  case resvWrite => exact execResvWrite_keeps _ h
  case policyRgrace => exact execPolicyRgrace_keeps _ h
  case policyWclk => exact execPolicyWclk_keeps _ h
  case shootdown => exact execShootdown_keeps _ h
  case devsnapTake => exact execDevsnapTake_keeps _ h
  case devsnapRelease => exact execDevsnapRelease_keeps _ h
  case checkpoint => exact execCheckpoint_keeps _ h
  case meterRead => exact execMeterRead_keeps _ h
  case meterReport => exact execMeterReport_keeps _ h
  case diagRead => exact execDiagRead_keeps _ h
  case ownerClaim => exact execOwnerClaim_keeps _ h
  case ownerHandover => exact execOwnerHandover_keeps _ h
  case ownerAccept => exact execOwnerAccept_keeps _ h
  case handoverLapse => exact execHandoverLapse_keeps h
  case ownerChannelLost => exact execOwnerChannelLost_keeps h
  case fwStage => exact execFwStage_keeps _ h
  case fwActivate => exact execFwActivate_keeps _ h
  case firstBeacon => exact execFirstBeacon_keeps _ h
  case fwActivateTimeout => exact execFwActivateTimeout_keeps _ h
  case firmwareSilent => exact execFirmwareSilent_keeps _ h
  case mailboxFullTimeout => exact execMailboxFullTimeout_keeps _ _ h
  case regRead => exact execRegRead_keeps _ h
  case regWrite => exact execRegWrite_keeps _ h
  case aclWrite => exact execAclWrite_keeps _ h
  case sysLaunch => exact execSysLaunch_keeps _ h
  case launch => exact execLaunch_keeps _ h
  case gangLaunch => exact execGangLaunch_keeps _ h
  case ringOverrunTimeout => exact execRingOverrunTimeout_keeps _ h
  case hostAccessFail => exact execHostAccessFail_keeps _ _ h
  case atsInvalidation => exact execAtsInvalidation_keeps _ h
  case functionLevelReset => exact execFunctionLevelReset_keeps _ h
  case getVersion => exact execGetVersion_keeps _ h
  case getCapabilities => exact execGetCapabilities_keeps _ h
  case negotiateAlgorithms => exact execNegotiateAlgorithms_keeps _ h
  case getDigests => exact execGetDigests_keeps _ h
  case getCertificate => exact execGetCertificate_keeps _ h
  case challenge => exact execChallenge_keeps _ h
  case getMeasurements => exact execGetMeasurements_keeps _ h
  case deviceNumbering => exact execDeviceNumbering_keeps _ _ h
  case linkTraining => exact execLinkTraining_keeps _ h
  case flitError => exact execFlitError_keeps _ h
  case linkDown => exact execLinkDown_keeps _ h
  case remoteAccessReceive => exact execRemoteAccessReceive_keeps _ h
  case remoteAccessTimeout => exact execRemoteAccessTimeout_keeps _ h
  case launchPacketReceive => exact execLaunchPacketReceive_keeps _ h
  case launchReplyReceive => exact execLaunchReplyReceive_keeps _ _ _ _ h
  case gangAckReceive => exact execGangAckReceive_keeps _ _ h
  case gangConfirmReceive => exact execGangConfirmReceive_keeps _ h
  case gangAckTimeout => exact execGangAckTimeout_keeps _ h
  case gangAbortReceive => exact execGangAbortReceive_keeps _ _ h
  case gangMemberTimeout => exact execGangMemberTimeout_keeps _ h
  case migrationCutover => exact execMigrationCutover_keeps _ _ h
  case migrationAckTimeout => exact execMigrationAckTimeout_keeps _ h
  case buoyExpiry => exact execBuoyExpiry_keeps _ h
  case freezeCycle => exact execFreezeCycle_keeps _ h
  case illegalEncoding | instructionFetchFault => exact faultingIssue_keeps _ _ h
  case beaconRaise => exact execBeaconRaise_keeps _ h
  case keyLoad => exact execKeyLoad_keeps _ _ _ h
  case fuseChange => exact execFuseChange_keeps _ h
  case highRangeExit => exact execHighRangeExit_keeps _ h
  case ethernetLinkChange => exact execEthernetLinkChange_keeps _ _ h
  case migrationAbort => exact execMigrationAbort_keeps _ h
  case migrationCopyReceive => exact execMigrationCopyReceive_keeps _ h
  case cutoverConfirmReceive => exact execCutoverConfirmReceive_keeps _ h
  case unconfirmedCopyDrop => exact execUnconfirmedCopyDrop_keeps _ h
  case firmwareMemoryWrite => exact execFirmwareMemoryWrite_keeps _ _ _ h
  case weightSramPlacement => exact execWeightSramPlacement_keeps _ _ _ h

theorem exec_sound : Sound exec := fun i _ h => exec_keeps i h

/-! ## A step -/

theorem runCommand_gives {s : State} (type : Nat) (c : Cmd) (h : MemWhole s) : Gives Keeps (runCommand type c s) := by
  have yes {b : Prop} [Decidable b] {o p : Option (Host.Outcome State Fault Refusal)} (ho : Gives Keeps o)
      (hp : Gives Keeps p) : Gives Keeps (if b then o else p) := gives_ite (fun _ => ho) fun _ => hp
  unfold runCommand
  dsimp only
  split
  · exact execCmdNop_keeps c h
  · exact execIndirect_keeps c h
  · exact execSignal_keeps c h
  · exact execWait_keeps c h
  · exact execCbCreate_keeps c h
  · exact execCbWrite_keeps c h
  · exact execCbRead_keeps c h
  · exact yes (execCbSuspend_keeps c h) (yes (execCbResume_keeps c h) (yes (execCbKill_keeps c h)
      (yes (execCbRelease_keeps c h) trivial)))
  · exact execCbMigrate_keeps c h
  · exact execEvent_keeps c h
  · exact execImgInstall_keeps c h
  · exact execImgRetire_keeps c h
  · exact execHashSet_keeps c h
  · exact execResvWrite_keeps c h
  · exact yes (execPolicyWclk_keeps c h) (execPolicyRgrace_keeps c h)
  · exact execShootdown_keeps c h
  · exact yes (execDevsnapTake_keeps c h) (execDevsnapRelease_keeps c h)
  · exact execCheckpoint_keeps c h
  · exact execMeterRead_keeps c h
  · exact execMeterReport_keeps c h
  · exact execDiagRead_keeps c h
  · exact yes (execOwnerClaim_keeps c h) (yes (execOwnerHandover_keeps c h) (yes (execOwnerAccept_keeps c h) trivial))
  · exact execFwStage_keeps c h
  · exact execFwActivate_keeps c h
  · exact execRegRead_keeps c h
  · exact execRegWrite_keeps c h
  · exact execAclWrite_keeps c h
  · exact execSysLaunch_keeps c h
  · exact execLaunch_keeps c h
  · exact execGangLaunch_keeps c h
  · trivial

theorem runPacket_keeps {t s : State} (type : Nat) (c : Cmd) (ht : MemWhole t) (hs : MemWhole s) :
    Keeps (t.runPacket s type c) := by
  have hr := runCommand_gives type c ht
  unfold State.runPacket
  split
  · exact keeps_ite (fun _ => whole_same (failCommand_whole _ _ _ _ ht) rfl) fun _ => whole_same hs rfl
  next u he =>
    rw [he] at hr
    refine (keeps_next _).mpr ?_
    split
    · exact whole_same hs rfl
    · exact hr
  next o _ he =>
    rw [he] at hr
    exact hr

theorem channelPacket_keeps {s : State} (agent : Nat) (head : Word32) (ws : List Word32) (h : MemWhole s) :
    Keeps (s.channelPacket agent head ws) :=
  keeps_ite (fun _ => whole_same h rfl) fun _ => runPacket_keeps _ _ h h

theorem nextCommand_keeps {s : State} (q : Nat) (h : MemWhole s) : Keeps (s.nextCommand q) := by
  unfold State.nextCommand
  refine keeps_ite (fun _ => whole_same h rfl) fun _ => ?_
  split
  · exact whole_same h rfl
  next p _ =>
    refine keeps_ite (fun _ => ?_) fun _ => ?_
    · exact keeps_ite (fun _ => bufferOverrun_whole q p h) fun _ => whole_same h (updHq_mem ..)
    · extract_lets t c
      have ht : MemWhole t := whole_same h (updHq_mem ..)
      exact keeps_ite (fun _ => whole_same (failCommand_whole _ _ _ _ ht) rfl) fun _ => runPacket_keeps _ _ ht h

/-- A turn keeps the canonical form where the instructions do. -/
theorem turn_keeps {ex : Meaning} (hex : Sound ex) {s : State} (h : MemWhole s) : Keeps (s.turn ex) := by
  unfold State.turn
  split
  · exact issueNext_keeps hex _ h
  next t r hr =>
    clear hr
    extract_lets s1
    have h1 : MemWhole s1 := (memWhole_mk ..).mpr ⟨memWhole_dev h, preWhole_none⟩
    cases t
    case issue c => exact keeps_ite (fun _ => trivial) fun _ => issue_keeps hex c h1
    case event e => exact happen_keeps hex e h1
    case command q => exact keeps_ite (fun _ => whole_same h1 rfl) fun _ => nextCommand_keeps q h1
    case packet a hd ws => exact keeps_ite (fun _ => whole_same h1 rfl) fun _ => channelPacket_keeps a hd ws h1
    case act a => exact keeps_ite (fun _ => whole_same h1 rfl) fun _ => event_keeps h1 (act_whole a h1)
    case engine a e n => exact engineTurn_whole a e n h1
    case saveCell b l =>
      have hg := saveCell_gives b l h1
      refine (keeps_next _).mpr ?_
      cases he : s1.saveCell b l
      case none => exact whole_same h1 rfl
      case some u =>
        rw [he] at hg
        exact hg
    case pass n => exact whole_same h1 (pass_mem ..)

theorem step_keeps {s : State} (h : MemWhole s) : Keeps (step s) := turn_keeps exec_sound h

theorem memWhole_reset : MemWhole State.reset := memWhole_iff.mpr ⟨rfl, preWhole_none⟩

/-! ## What each operation leaves at every address -/

theorem mget_eq_mfind {α : Type} (z : α) (m : Map α) (k : Nat) : mget z m k = (mfind m k).getD z := by
  induction m with
  | nil => rfl
  | cons e r ih =>
    by_cases h : e.1 = k
    · simp [mget, mfind, h]
    · simp [mget, mfind, h, ih]

theorem mfind_eq_none {α : Type} {m : Map α} {k : Nat} (h : ∀ e ∈ m, e.1 ≠ k) : mfind m k = none := by
  induction m with
  | nil => rfl
  | cons e r ih =>
    rw [mfind, if_neg (h e List.mem_cons_self)]
    exact ih fun x hx => h x (List.mem_cons_of_mem _ hx)

theorem wrBytes_at (m : List Host.Cell) (pa : Nat) (bs : List Byte) {i : Nat} (h : i < bs.length) :
    rdByte (wrBytes m pa bs) (pa + i) = bs.getD i 0 := by
  rw [rdByte_wrBytes, if_pos (by omega), Nat.add_sub_cancel_left]

theorem agentWrite_at (d : Device) (agent n least : Nat) (blk : Option Nat) (kid pa : Nat) (bs : List Byte) {i : Nat}
    (h : i < bs.length) : rdByte (d.agentWrite agent n least blk kid pa bs).mem (pa + i) = bs.getD i 0 := wrBytes_at _ _ _ h

theorem agentWrite_out (d : Device) (agent n least : Nat) (blk : Option Nat) (kid pa : Nat) (bs : List Byte) {a : Nat}
    (h : a / 64 < pa / 64 ∨ (pa + bs.length - 1) / 64 < a / 64) :
    rdByte (d.agentWrite agent n least blk kid pa bs).mem a = rdByte d.mem a := by
  have hout : a < pa ∨ pa + bs.length ≤ a := by omega
  refine (rdByte_wrBytes_out _ _ _ _ hout).trans (touchRange_out _ _ _ _ _ _ fun hm => ?_)
  obtain ⟨-, hlo, hhi⟩ := mem_linesOf hm
  omega

/-- What a buffered operation leaves is as long as the bytes it is for. -/
theorem length_apply (k : BufKind) (old : List Byte) : (k.apply old).length = k.len := by
  cases k <;> simp [BufKind.apply, BufKind.len, length_toBytes]

theorem line_mem_linesOf {pa n a : Nat} (h : pa ≤ a) (g : a < pa + n) : a / 64 ∈ linesOf pa n := by
  unfold linesOf span
  rw [if_neg (by omega)]
  exact List.mem_map.mpr ⟨a / 64 - pa / 64, List.mem_range.mpr (by omega), by omega⟩

theorem applyOp_out (d : Device) (o : BufOp) {a : Nat} (h : a / 64 ∉ linesOf o.pa o.kind.len) :
    rdByte (d.applyOp o).mem a = rdByte d.mem a := by
  unfold Device.applyOp
  split
  · rfl
  · refine rdByte_wrBytes_out _ _ _ _ ?_
    rw [length_apply]
    by_contra hin
    exact h (line_mem_linesOf (by omega) (by omega))

theorem foldl_applyOp_out (ops : List BufOp) (d : Device) {a : Nat} (h : ∀ o ∈ ops, a / 64 ∉ linesOf o.pa o.kind.len) :
    rdByte (ops.foldl (fun x o => x.applyOp o) d).mem a = rdByte d.mem a := by
  induction ops generalizing d with
  | nil => rfl
  | cons o r ih =>
    exact (ih _ fun x hx => h x (List.mem_cons_of_mem _ hx)).trans (applyOp_out d o (h o List.mem_cons_self))

/-- A publication leaves every byte alone that lies in none of the lines it writes. -/
theorem publish_out (d : Device) (w : Writer) (ops : List BufOp) {a : Nat} (h : a / 64 ∉ bufLines ops) :
    rdByte (d.publish w ops).mem a = rdByte d.mem a := by
  rw [publish_mem]
  unfold Device.applied
  extract_lets lines
  have hl : a / 64 ∉ lines := fun hm => h (List.mem_filter.mp hm).1
  have hn : lines.Nodup := (nodup_uniq _).filter _
  rw [foldl_applyOp_out ops _ fun o ho hm => h (mem_bufLines.mpr ⟨o, ho, hm⟩), rdByte_foldl_rekey _ _ hn, if_neg hl]

theorem wipe_byte (d : Device) (pa size : Nat) (keep : Nat → Bool) (a : Nat) :
    rdByte (d.wipe pa size keep).mem a = if pa ≤ a ∧ a < pa + size ∧ keep a = false then 0 else rdByte d.mem a := by
  unfold Device.wipe
  dsimp only
  rw [unplaced_mem, rdByte, mget_filter (fun k => !(decide (pa ≤ k ∧ k < pa + size) && !keep k))]
  by_cases h : pa ≤ a ∧ a < pa + size ∧ keep a = false
  · simp [h]
  · rw [if_neg h, if_pos]
    · rfl
    · grind

/-- Cells of one place written at another: each byte there is its cell's, or as before where it has none. -/
theorem rdByte_moved (old fresh : Nat) (l m : List Host.Cell) (hw : Memory.wf l = true) (ho : ∀ c ∈ l, old ≤ c.1) (a : Nat) :
    rdByte (l.foldl (fun m c => mput 0 m (c.1 - old + fresh) c.2) m) a =
      if fresh ≤ a then (mfind l (a - fresh + old)).getD (rdByte m a) else rdByte m a := by
  induction l generalizing m with
  | nil => simp [mfind]
  | cons c r ih =>
    obtain ⟨-, hlt, hr⟩ := (mwf_cons _ _ _).mp hw
    have hc := ho c List.mem_cons_self
    have hput : rdByte (mput 0 m (c.1 - old + fresh) c.2) a = if a = c.1 - old + fresh then c.2 else rdByte m a :=
      mget_mput ..
    rw [List.foldl_cons, ih _ hr fun x hx => ho x (List.mem_cons_of_mem _ hx), hput, mfind]
    by_cases ha : a = c.1 - old + fresh
    · have hk : c.1 = a - fresh + old := by omega
      rw [if_pos (by omega), if_pos ha, if_pos (by omega), if_pos hk,
        mfind_eq_none fun x hx => by have := hlt x hx; omega]
      rfl
    · rw [if_neg ha]
      split
      · rw [if_neg (by omega)]
      · rfl

section
variable (d : Device) (old fresh size : Nat)

/-- The cells of a page that a copy of it finds, the new page having been wiped. -/
def pageCells : List Host.Cell :=
  (d.wipe fresh size fun _ => false).mem.filter fun c => decide (old ≤ c.1 ∧ c.1 < old + size)

theorem mem_pageCells {c : Host.Cell} (h : c ∈ pageCells d old fresh size) : old ≤ c.1 ∧ c.1 < old + size :=
  of_decide_eq_true (List.mem_filter.mp h).2

theorem copyPage_byte (h : Memory.wf d.mem = true) (a : Nat) :
    rdByte (d.copyPage old fresh size).mem a =
      if fresh ≤ a then
        (mfind (pageCells d old fresh size) (a - fresh + old)).getD (rdByte (d.wipe fresh size fun _ => false).mem a)
      else rdByte (d.wipe fresh size fun _ => false).mem a :=
  rdByte_moved old fresh _ _ (mwf_filter _ _ _ (wipe_wf d fresh size _ h)) (fun _ hc => (mem_pageCells _ _ _ _ hc).1) a

theorem copyPage_at (h : Memory.wf d.mem = true) (hd : old + size ≤ fresh ∨ fresh + size ≤ old) {i : Nat} (hi : i < size) :
    rdByte (d.copyPage old fresh size).mem (fresh + i) = rdByte d.mem (old + i) := by
  have hzero : rdByte (d.wipe fresh size fun _ => false).mem (fresh + i) = 0 := by
    rw [wipe_byte, if_pos ⟨by omega, by omega, rfl⟩]
  have hcell : mget 0 (pageCells d old fresh size) (old + i) = rdByte (d.wipe fresh size fun _ => false).mem (old + i) := by
    rw [pageCells, mget_filter (fun k => decide (old ≤ k ∧ k < old + size)), if_pos (by simpa using hi)]
    rfl
  rw [copyPage_byte d old fresh size h, if_pos (by omega), hzero, ← mget_eq_mfind,
    show fresh + i - fresh + old = old + i by omega, hcell, wipe_byte, if_neg (by omega)]

theorem copyPage_out (h : Memory.wf d.mem = true) {a : Nat} (ha : a < fresh ∨ fresh + size ≤ a) :
    rdByte (d.copyPage old fresh size).mem a = rdByte d.mem a := by
  have hkeep : rdByte (d.wipe fresh size fun _ => false).mem a = rdByte d.mem a := by rw [wipe_byte, if_neg (by omega)]
  rw [copyPage_byte d old fresh size h, hkeep]
  split
  · rw [mfind_eq_none fun c hc => by have := mem_pageCells _ _ _ _ hc; omega]
    rfl
  · rfl
end

theorem rekey_at (d : Device) (line kid : Nat) {i : Nat} (h : i < 64) :
    rdByte (d.rekey line kid).mem (64 * line + i) = d.byteUnder kid (64 * line + i) := by
  rw [rdByte_rekey, if_pos (by omega)]

/-- Settles O60: every function of the model that changes memory keeps its canonical form, so every instruction, every
event and every step does; and what each operation leaves at every address. -/
theorem memoryOperationsKeepTheCanonicalForm : Obligations.MemoryOperationsKeepTheCanonicalForm := by
  refine ⟨fun i s t h => keeps_iff.mp (exec_keeps i h) t, fun s t h => keeps_iff.mp (step_keeps h) t, memWhole_reset,
    fun d h => ⟨?_, ?_, ?_, ?_, ?_, ?_⟩⟩
  · exact fun pa bs => ⟨poke_wf d pa bs h, fun i hi => wrBytes_at _ _ _ hi, fun a ha => rdByte_wrBytes_out _ _ _ _ ha⟩
  · exact fun line kid => ⟨rekey_wf d line kid h, fun i hi => rekey_at d line kid hi, fun a ha => rekey_out d line kid a ha⟩
  · exact fun agent n least blk kid pa bs => ⟨wf_agentWrite _ _ _ _ _ _ _ _ h, fun i hi => agentWrite_at _ _ _ _ _ _ _ _ hi,
      fun a ha => agentWrite_out _ _ _ _ _ _ _ _ ha⟩
  · exact fun w ops => ⟨publish_wf d w ops h, fun a ha => publish_out d w ops (by simpa using ha)⟩
  · exact fun pa size keep => ⟨wipe_wf d pa size keep h, wipe_byte d pa size keep⟩
  · exact fun old fresh size hd => ⟨copyPage_wf d old fresh size h, fun i hi => copyPage_at d old fresh size h hd hi,
      fun a ha => copyPage_out d old fresh size h ha⟩

end Sys2Proof.Proofs

/-! PROOF. The memory calendar (O47; R104, R107, R109, R113, R114, R374, R451, R453): placing reads anew changes nothing but
reads in flight and claims; what a slot's start makes of a pseudo-channel; and what each event of the calendar leaves. -/

namespace Sys2Proof.Proofs

open Sys2Proof Sys2Proof.Machine Sys2Proof.Safety Sys2Proof.Laws

/-! ## Pseudo-channels after updates -/

theorem chan_updChan (h : Hbm) (c j : Nat) (f : Chan → Chan) :
    (h.updChan c f).chan j = if j = c then f (h.chan c) else h.chan j := mget_mset ({} : Chan) h.chans c j _

@[simp] theorem hbm_updHbm_same (d : Device) (n : Nat) (f : Hbm → Hbm) : (d.updHbm n f).hbm n = f (d.hbm n) :=
  mget_mset_same ..

theorem hbm_updHbm_other (d : Device) (n m : Nat) (f : Hbm → Hbm) (h : m ≠ n) : (d.updHbm n f).hbm m = d.hbm m :=
  mget_mset_other _ _ _ _ _ h

@[simp] theorem chan_updChan_same (h : Hbm) (c : Nat) (f : Chan → Chan) : (h.updChan c f).chan c = f (h.chan c) :=
  mget_mset_same ..

/-! ## Reads placed anew (R107, R109, R113) -/

/-- A controller after reads of it are placed: only claims of its pseudo-channels have changed. -/
def OnlyClaims (x y : Hbm) : Prop :=
  (∃ m, y = { x with chans := m }) ∧ ∀ c, ∃ l, y.chan c = { x.chan c with claims := l }

theorem OnlyClaims.refl (x : Hbm) : OnlyClaims x x := ⟨⟨x.chans, rfl⟩, fun c => ⟨(x.chan c).claims, rfl⟩⟩

theorem OnlyClaims.trans {x y z : Hbm} (h : OnlyClaims x y) (g : OnlyClaims y z) : OnlyClaims x z := by
  obtain ⟨⟨m, hm⟩, hc⟩ := h
  obtain ⟨⟨m', hm'⟩, gc⟩ := g
  refine ⟨⟨m', by rw [hm', hm]⟩, fun c => ?_⟩
  obtain ⟨l, hl⟩ := hc c
  obtain ⟨l', hl'⟩ := gc c
  exact ⟨l', by rw [hl', hl]⟩

theorem onlyClaims_updChan (h : Hbm) (c : Nat) (f : Chan → Chan) (hf : ∃ l, f (h.chan c) = { h.chan c with claims := l }) :
    OnlyClaims h (h.updChan c f) := by
  refine ⟨⟨_, rfl⟩, fun j => ?_⟩
  rw [chan_updChan]
  split
  next hj => exact hj ▸ hf
  next => exact ⟨(h.chan j).claims, rfl⟩

theorem OnlyClaims.plan {x y : Hbm} (h : OnlyClaims x y) : y.plan = x.plan := by obtain ⟨⟨m, rfl⟩, -⟩ := h; rfl
theorem OnlyClaims.idle {x y : Hbm} (h : OnlyClaims x y) : y.idle = x.idle := by obtain ⟨⟨m, rfl⟩, -⟩ := h; rfl
theorem OnlyClaims.calsw {x y : Hbm} (h : OnlyClaims x y) : y.calsw = x.calsw := by obtain ⟨⟨m, rfl⟩, -⟩ := h; rfl
theorem OnlyClaims.high {x y : Hbm} (h : OnlyClaims x y) : y.high = x.high := by obtain ⟨⟨m, rfl⟩, -⟩ := h; rfl

/-- What the placing of slotted reads can change of contexts and controllers: reads in flight, and claims. -/
def Placed (d e : Device) : Prop :=
  (∀ a, ∃ l, e.ctx a = { d.ctx a with slds := l }) ∧ ∀ n, OnlyClaims (d.hbm n) (e.hbm n)

theorem placed_of_eq {d e : Device} (hc : e.ctxs = d.ctxs) (hh : e.hbms = d.hbms) : Placed d e := by
  have ctx : ∀ a, e.ctx a = d.ctx a := fun a => congrArg (mget ({} : Ctx) · a) hc
  have hbm : ∀ n, e.hbm n = d.hbm n := fun n => congrArg (mget ({} : Hbm) · n) hh
  exact ⟨fun a => ⟨(d.ctx a).slds, ctx a⟩, fun n => hbm n ▸ OnlyClaims.refl _⟩

theorem Placed.refl (d : Device) : Placed d d := placed_of_eq rfl rfl

theorem Placed.trans {d e f : Device} (h : Placed d e) (g : Placed e f) : Placed d f := by
  refine ⟨fun a => ?_, fun n => (h.2 n).trans (g.2 n)⟩
  obtain ⟨l, hl⟩ := h.1 a
  obtain ⟨l', hl'⟩ := g.1 a
  exact ⟨l', by rw [hl', hl]⟩

theorem Placed.foldl {α : Type} (f : Device → α → Device) (h : ∀ d x, Placed d (f d x)) (l : List α) (d : Device) :
    Placed d (l.foldl f d) := by
  induction l generalizing d with
  | nil => exact .refl d
  | cons x r ih => exact (h d x).trans (ih _)

theorem Placed.regs {d e : Device} (h : Placed d e) (a : Nat) :
    (e.ctx a).regs = (d.ctx a).regs ∧ (e.ctx a).v = (d.ctx a).v := by
  obtain ⟨l, hl⟩ := h.1 a
  rw [hl]
  exact ⟨rfl, rfl⟩

theorem placed_updChan (d : Device) (hb c : Nat) (f : Chan → Chan) (hf : ∀ x, ∃ l, f x = { x with claims := l }) :
    Placed d (d.updHbm hb fun h => h.updChan c f) := by
  refine ⟨fun a => ⟨(d.ctx a).slds, rfl⟩, fun n => ?_⟩
  rw [Device.hbm_updHbm]
  split
  next hn => exact hn ▸ onlyClaims_updChan _ _ _ (hf _)
  next => exact .refl _

theorem placed_updSlds (d : Device) (a : Nat) (f : List PendSld → List PendSld) :
    Placed d (d.updCtx a fun x => { x with slds := f x.slds }) := by
  refine ⟨fun b => ?_, fun n => .refl _⟩
  rw [Device.ctx_updCtx]
  split
  next hb => exact hb ▸ ⟨_, rfl⟩
  next => exact ⟨(d.ctx b).slds, rfl⟩

theorem placed_placeSld (d : Device) (core from_ : Nat) (q : PendSld) : Placed d (d.placeSld core from_ q).1 := by
  unfold Device.placeSld
  extract_lets hb c h ch owns put
  have hput : ∀ o i t, Placed d (put o i t).1 := fun _ _ _ => placed_updChan d hb c _ fun _ => ⟨_, rfl⟩
  split
  · exact hput ..
  · split
    · exact hput ..
    · exact .refl d

theorem placed_moveSld (d : Device) (at_ : Nat) (e : Nat × PendSld) : Placed d (d.moveSld at_ e) :=
  (placed_placeSld d _ _ _).trans (placed_updSlds _ e.1 _)

theorem placed_replaceSlds (d : Device) (hb c i : Nat) : Placed d (d.replaceSlds hb c i) :=
  (placed_updChan d hb c _ fun _ => ⟨_, rfl⟩).trans (Placed.foldl _ (fun x e => placed_moveSld x (18 * i) e) _ _)

theorem placed_replaceAll (d : Device) (hb i : Nat) : Placed d (d.replaceAll hb i) :=
  Placed.foldl _ (fun x c => placed_replaceSlds x hb c i) _ d

theorem placed_post (d : Device) (r : ErrRec) : Placed d (d.post r) := by
  obtain ⟨e, he⟩ := post_spec d r
  rw [he]
  exact placed_of_eq rfl rfl

theorem placed_noteRefbal (d : Device) (hb c i : Nat) : Placed d (d.noteRefbal hb c i) := by
  unfold Device.noteRefbal
  extract_lets bal note
  exact ⟨fun a => ⟨_, mget_map ({} : Ctx) (fun x => { x with slds := x.slds.map note }) rfl d.ctxs a⟩, fun n => .refl _⟩

/-! ## A pseudo-channel at the start of a slot (R104, R113, R451) -/

/-- Balance, pointer and forced refresh of a pseudo-channel. -/
def Stands (x : Chan) (bal : Int) (ptr : BitVec 4) (forced : Option Nat) : Prop :=
  x.bal = bal ∧ x.ptr = ptr ∧ x.forced = forced

theorem Stands.refl (x : Chan) : Stands x x.bal x.ptr x.forced := ⟨rfl, rfl, rfl⟩

/-- Counting an access changes nothing but the counts of the rows, the hot rows, and those to be refreshed. -/
theorem count_spec (x : Chan) (line i : Nat) :
    ∃ n h t, x.count line i = { x with counts := n, hot := h, targeted := t } := by
  unfold Chan.count
  dsimp only
  split <;> exact ⟨_, _, _, rfl⟩

theorem serve_spec (x : Chan) (i : Nat) : ∃ n h t, x.serve i = { x with counts := n, hot := h, targeted := t } := by
  have fold : ∀ (l : List Claim) (y : Chan),
      ∃ n h t, l.foldl (fun z e => z.count e.line i) y = { y with counts := n, hot := h, targeted := t } := by
    intro l
    induction l with
    | nil => exact fun y => ⟨y.counts, y.hot, y.targeted, rfl⟩
    | cons e r ih =>
      intro y
      obtain ⟨n, h, t, he⟩ := count_spec y e.line i
      obtain ⟨n', h', t', hr⟩ := ih (y.count e.line i)
      exact ⟨n', h', t', by rw [List.foldl_cons, hr, he]⟩
  exact fold _ _

theorem refreshSlot_forces (c : Chan) (i : Nat) (h8 : c.bal + 1 = 8) :
    (c.refreshSlot i).1 = { c with bal := c.bal + 1, forced := some (18 * i + 630) } := by
  unfold Chan.refreshSlot
  dsimp only
  rw [if_pos h8]

theorem refreshSlot_targets (c : Chan) (i r : Nat) (rest : List Nat) (h8 : c.bal + 1 ≠ 8) (ht : c.targeted = r :: rest) :
    (c.refreshSlot i).1 = { c with bal := c.bal + 1, targeted := rest } := by
  simp [Chan.refreshSlot, h8, ht]

theorem refreshSlot_bank (c : Chan) (i : Nat) (h8 : c.bal + 1 ≠ 8) (ht : c.targeted = []) :
    (c.refreshSlot i).1 =
      if 0 < c.bal + 1 ∧ c.conflict i = false then { c with ptr := c.ptr + 1 } else { c with bal := c.bal + 1 } := by
  simp [Chan.refreshSlot, Chan.refresh, Chan.conflict, h8, ht]

/-- A refresh slot (R113 steps 1 to 3 and 5). -/
theorem refreshSlot_stands (c : Chan) (i : Nat) :
    let x := (c.refreshSlot i).1
    (c.bal + 1 = 8 → Stands x 8 c.ptr (some (18 * i + 630))) ∧
    (c.bal + 1 ≠ 8 → c.targeted ≠ [] ∨ c.bal < 0 ∨ c.conflict i = true → Stands x (c.bal + 1) c.ptr c.forced) ∧
    (c.bal + 1 ≠ 8 → c.targeted = [] → 0 ≤ c.bal → c.conflict i = false → Stands x c.bal (c.ptr + 1) c.forced) := by
  refine ⟨fun h8 => ?_, fun h8 why => ?_, fun h8 ht h0 hc => ?_⟩
  · rw [refreshSlot_forces _ _ h8]
    exact ⟨h8, rfl, rfl⟩
  · cases ht : c.targeted with
    | cons r rest =>
      rw [refreshSlot_targets _ _ _ _ h8 ht]
      exact ⟨rfl, rfl, rfl⟩
    | nil =>
      have hheld : ¬(0 < c.bal + 1 ∧ c.conflict i = false) := by
        rintro ⟨hpos, hfree⟩
        rcases why with h | h | h
        · exact h ht
        · omega
        · simp [h] at hfree
      rw [refreshSlot_bank _ _ h8 ht, if_neg hheld]
      exact ⟨rfl, rfl, rfl⟩
  · rw [refreshSlot_bank _ _ h8 ht, if_pos ⟨by omega, hc⟩]
    exact ⟨rfl, rfl, rfl⟩

/-- What slot index `i` makes of a pseudo-channel `c` (R113), as far as the choices of other traffic leave it fixed. -/
def SlotFollows (c x : Chan) (refresh : Bool) (i : Nat) : Prop :=
  (c.forced.isSome = true → Stands x c.bal c.ptr c.forced) ∧
  (c.forced = none → refresh = true →
    (c.bal + 1 = 8 → Stands x 8 c.ptr (some (18 * i + 630))) ∧
    (c.bal + 1 ≠ 8 → c.targeted ≠ [] ∨ c.bal < 0 ∨ c.conflict i = true → Stands x (c.bal + 1) c.ptr none) ∧
    (c.bal + 1 ≠ 8 → c.targeted = [] → 0 ≤ c.bal → c.conflict i = false → Stands x c.bal (c.ptr + 1) none)) ∧
  (c.forced = none → refresh = false → Stands x c.bal c.ptr none ∨
    (c.claims.any fun e => e.slot == i) = false ∧ -8 < c.bal ∧ c.conflict i = false ∧ Stands x (c.bal - 1) (c.ptr + 1) none)

theorem slot_forced (c : Chan) (refresh busy : Bool) (i : Nat) (h : c.forced.isSome = true) :
    c.slot refresh busy i = (c, false) := if_pos h

theorem slot_refresh (c : Chan) (busy : Bool) (i : Nat) (h : c.forced = none) : c.slot true busy i = c.refreshSlot i := by
  simp [Chan.slot, h]

/-- A slot that is no refresh slot serves its reads, or is idle and refreshes the pointer's bank, or carries other traffic
(R113 steps 4 and 5). -/
theorem slot_other (c : Chan) (busy : Bool) (i : Nat) (h : c.forced = none) :
    (c.slot false busy i).1 = c.serve i ∨ (c.slot false busy i).1 = c ∨
      (c.claims.any fun e => e.slot == i) = false ∧ -8 < c.bal ∧ c.conflict i = false ∧
        (c.slot false busy i).1 = c.refresh := by
  unfold Chan.slot
  rw [h, if_neg (by simp), if_neg (by simp)]
  split
  next => exact .inl rfl
  next hnone =>
    split
    next hidle => exact .inr (.inr ⟨by simpa using hnone, hidle.2.1, by simpa using hidle.2.2, rfl⟩)
    next => exact .inr (.inl rfl)

theorem slot_follows (c : Chan) (refresh busy : Bool) (i : Nat) : SlotFollows c (c.slot refresh busy i).1 refresh i := by
  refine ⟨fun h => ?_, fun h hr => ?_, fun h hr => ?_⟩
  · rw [slot_forced _ _ _ _ h]
    exact .refl c
  · rw [hr, slot_refresh _ _ _ h, ← h]
    exact refreshSlot_stands c i
  · rw [hr, ← h]
    obtain hs | hs | ⟨hnone, hbal, hconf, hs⟩ := slot_other c busy i h
    · obtain ⟨n, r, t, e⟩ := serve_spec c i
      rw [hs, e]
      exact .inl ⟨rfl, rfl, rfl⟩
    · rw [hs]
      exact .inl (.refl c)
    · rw [hs]
      exact .inr ⟨hnone, hbal, hconf, rfl, rfl, rfl⟩

theorem refreshSlot_begun (c : Chan) (i : Nat) : (c.refreshSlot i).1.begun = c.begun := by
  by_cases h8 : c.bal + 1 = 8
  · rw [refreshSlot_forces _ _ h8]
  · cases ht : c.targeted with
    | cons r rest => rw [refreshSlot_targets _ _ _ _ h8 ht]
    | nil => rw [refreshSlot_bank _ _ h8 ht]; split <;> rfl

/-- A slot's start notes nothing of how many slots have begun. -/
theorem slot_begun (c : Chan) (refresh busy : Bool) (i : Nat) : (c.slot refresh busy i).1.begun = c.begun := by
  cases h : c.forced with
  | some e => rw [slot_forced _ _ _ _ (by simp [h])]
  | none =>
    cases refresh with
    | true => rw [slot_refresh _ _ _ h, refreshSlot_begun]
    | false =>
      obtain hs | hs | ⟨-, -, -, hs⟩ := slot_other c busy i h
      · obtain ⟨n, r, t, e⟩ := serve_spec c i
        rw [hs, e]
      · rw [hs]
      · rw [hs]; rfl

theorem settle_begun (c : Chan) (n i : Nat) : Chan.settle { c with begun := n } i = { c.settle i with begun := n } := by
  unfold Chan.settle
  cases h : c.forced with
  | none => simp only [h]
  | some e => by_cases ended : e ≤ 18 * i <;> simp only [h, ended, if_true, if_false]

/-- A pseudo-channel as slot index `i` finds it: a forced refresh that is over has ended, and the claims of other traffic
in earlier slots are done. -/
def chanBefore (d : Device) (hb c i : Nat) : Chan := (((d.hbm hb).chan c).settle i).pass i

/-- Whether slot index `i` is a refresh slot of a pseudo-channel (R453). -/
def refreshDue (d : Device) (hb c i : Nat) : Bool :=
  entryRefresh (planEntry ((d.hbm hb).planAt i) c (i % 16)) || (d.hbm hb).extraRefresh c == some (i % 16)

/-- A slot's start, but for reads in flight, claims and error records, is its start in its pseudo-channel. -/
theorem placed_slotStart (d : Device) (hb c i : Nat) (busy : Bool) :
    Placed (d.updHbm hb fun h => h.updChan c fun _ => ((chanBefore d hb c i).slot (refreshDue d hb c i) busy i).1)
      (d.slotStart hb c i busy) := by
  unfold Device.slotStart chanBefore refreshDue
  extract_lets h ch refresh
  split
  next ch1 forced hs =>
  rw [hs]
  have note := placed_noteRefbal (d.updHbm hb fun h => h.updChan c fun _ => ch1) hb c i
  have moved := fun j => note.trans (placed_replaceSlds _ hb c j)
  split
  · split
    · split
      · exact (moved i).trans (placed_post ..)
      · exact moved i
    · exact moved i
  · split
    · exact note
    · exact moved (i + 1)

/-- The device once slot index `i` of a pseudo-channel is noted as begun. -/
def noteBegun (d : Device) (hb c i : Nat) : Device := d.updHbm hb fun h => h.updChan c fun x => { x with begun := i + 1 }

theorem chanBefore_noteBegun (d : Device) (hb c i : Nat) :
    chanBefore (noteBegun d hb c i) hb c i = { chanBefore d hb c i with begun := i + 1 } := by
  unfold chanBefore noteBegun
  rw [hbm_updHbm_same, chan_updChan_same, settle_begun]
  rfl

theorem refreshDue_noteBegun (d : Device) (hb c i : Nat) :
    refreshDue (noteBegun d hb c i) hb c i = refreshDue d hb c i := by
  unfold refreshDue noteBegun
  rw [hbm_updHbm_same]
  rfl

theorem slotStart_follows (d : Device) (hb c i : Nat) (busy : Bool) :
    let x := (((noteBegun d hb c i).slotStart hb c i busy).hbm hb).chan c
    x.begun = i + 1 ∧ SlotFollows (chanBefore d hb c i) x (refreshDue d hb c i) i := by
  obtain ⟨l, hl⟩ := ((placed_slotStart (noteBegun d hb c i) hb c i busy).2 hb).2 c
  rw [hbm_updHbm_same, chan_updChan_same, chanBefore_noteBegun, refreshDue_noteBegun] at hl
  dsimp only
  rw [hl]
  exact ⟨slot_begun .., slot_follows { chanBefore d hb c i with begun := i + 1 } _ busy i⟩

/-! ## The return of a slotted read (R109, R114) -/

/-- Its context after a slotted read has returned. -/
def afterReturn (d : Device) (p : PendSld) (c : Ctx) : Ctx :=
  { c with slds := c.slds.erase p, slat := c.slat + word p.late
           refbal := if p.chan.isSome && p.notBefore c.refAt then d.sldRefbal p c.refbal else c.refbal
           refAt := if p.chan.isSome && p.notBefore c.refAt then p.key else c.refAt }

theorem chargeRead_ctxs (d : Device) (a : Nat) (p : PendSld) : (d.chargeRead a p).ctxs = d.ctxs := by
  unfold Device.chargeRead
  split <;> rfl

theorem returnSld_ctx (d : Device) (a b : Nat) (p : PendSld) :
    (d.returnSld a p).ctx b = if b = a then afterReturn d p (d.ctx a) else d.ctx b := by
  have charge : ∀ n, (d.chargeRead a p).ctx n = d.ctx n := fun n => congrArg (mget ({} : Ctx) · n) (chargeRead_ctxs d a p)
  have update : (d.returnSld a p).ctx b = ((d.chargeRead a p).updCtx a (afterReturn d p)).ctx b := by
    unfold Device.returnSld
    extract_lets newest d1
    split <;> rfl
  rw [update, Device.ctx_updCtx, charge, charge]

/-! ## The events -/

section
variable (s : State) (h : Nat)

theorem happens_calswWrite (hh : h < 8) (v : Word) : Happens (.calswWrite h v) s fun t => Apart s t ∧
    (t.dev.hbm h).calsw = (if v.getLsbD 0 then 1 else (s.dev.hbm h).calsw) ∧ ∀ i, i ≠ h → t.dev.hbm i = s.dev.hbm i := by
  refine happens_guard_dev rfl (decide_eq_true hh) ⟨apart_of rfl rfl, ?_, fun i hi => hbm_updHbm_other _ _ _ _ hi⟩
  dsimp only
  rw [hbm_updHbm_same]
  unfold Hbm.writeCalsw
  split <;> rfl

/-- What an event that may place reads anew leaves alone: memory and registers. -/
def MemRegsSame (s t : State) : Prop :=
  MemSame s t ∧ ∀ a, (t.dev.ctx a).regs = (s.dev.ctx a).regs ∧ (t.dev.ctx a).v = (s.dev.ctx a).v

theorem memRegsSame_of {s t : State} {d : Device} (p : Placed d t.dev) (hc : d.ctxs = s.dev.ctxs)
    (m : t.dev.mem = s.dev.mem) : MemRegsSame s t := by
  refine ⟨memSame_of m, fun a => ?_⟩
  have ctx : d.ctx a = s.dev.ctx a := congrArg (mget ({} : Ctx) · a) hc
  exact ctx ▸ p.regs a

theorem happens_calendarExchange (hh : h < 8) (hy : s.dev.cycle % 288 = 0) (hp : (s.dev.hbm h).calsw = 1) :
    ((s.dev.hbm h).refuses = true → Happens (.calendarExchange h) s fun t => Apart s t ∧ (t.dev.hbm h).calsw = 3 ∧
      (t.dev.hbm h).plan = (s.dev.hbm h).plan) ∧
    ((s.dev.hbm h).refuses = false → Happens (.calendarExchange h) s fun t => MemRegsSame s t ∧ (t.dev.hbm h).calsw = 0 ∧
      (t.dev.hbm h).plan = (s.dev.hbm h).idle ∧ (t.dev.hbm h).idle = (s.dev.hbm h).plan) := by
  have guard : decide (h < 8 ∧ s.dev.cycle % 288 = 0 ∧ (s.dev.hbm h).calsw = 1) = true := decide_eq_true ⟨hh, hy, hp⟩
  constructor
  · intro hr
    refine happens_guard_dev rfl guard ?_
    rw [if_pos hr]
    exact ⟨apart_of rfl rfl, by simp, by simp [Hbm.plan]⟩
  · intro hr
    refine happens_guard_dev rfl guard ?_
    rw [if_neg (by simp [hr])]
    have placed := placed_replaceAll (s.dev.updHbm h fun x => x.exchange (s.dev.cycle / 18)) h (s.dev.cycle / 18)
    have same := placed.2 h
    rw [hbm_updHbm_same] at same
    refine ⟨memRegsSame_of placed rfl (by simp), same.calsw, same.plan.trans ?_, same.idle.trans ?_⟩
    · cases hf : (s.dev.hbm h).force1 <;> simp [Hbm.plan, Hbm.idle, Hbm.exchange, hf]
    · cases hf : (s.dev.hbm h).force1 <;> simp [Hbm.plan, Hbm.idle, Hbm.exchange, hf]

theorem happens_channelSlotStart (pch i : Nat) (hh : h < 8) (hpch : pch < 512) (hy : s.dev.cycle = 18 * i + 54)
    (hb : ((s.dev.hbm h).chan pch).begun ≤ i) :
    Happens (.channelSlotStart h pch (i % 16)) s fun t => MemRegsSame s t ∧ ((t.dev.hbm h).chan pch).begun = i + 1 ∧
      SlotFollows (chanBefore s.dev h pch i) ((t.dev.hbm h).chan pch) (refreshDue s.dev h pch i) i := by
  have index : slotsBegun s.dev.cycle - 1 = i := by
    unfold slotsBegun transit
    rw [if_neg (by omega)]
    omega
  refine happens_guard rfl (decide_eq_true ⟨hh, hpch, ?_, by omega, by rw [index], by rwa [index]⟩) ?_
  · unfold transit; omega
  · rw [index]
    have placed := placed_slotStart (noteBegun s.dev h pch i) h pch i
    exact ⟨memRegsSame_of (placed _) rfl (by simp), slotStart_follows s.dev h pch i _⟩

theorem happens_forcedRefreshEnd (pch e : Nat) (hf : ((s.dev.hbm h).chan pch).forced = some e) (he : e + 54 ≤ s.dev.cycle) :
    Happens (.forcedRefreshEnd h pch) s fun t => Apart s t ∧
      let c := (t.dev.hbm h).chan pch
      c.bal = 0 ∧ c.forced = none ∧ c.lastForced = some e ∧ c.ptr = ((s.dev.hbm h).chan pch).ptr := by
  have ends := congrArg (Option.bind · fun e => guardOpt (decide (e + transit ≤ s.dev.cycle))
    (s.dev.updHbm h fun x => x.updChan pch fun c => { c with bal := 0, forced := none, lastForced := some e })) hf
  exact happens_dev rfl (ends.trans (if_pos (decide_eq_true he))) ⟨apart_of rfl rfl, by simp⟩

/-- A controller whose counts and hot rows are cleared (R451). -/
def clearRows (x : Hbm) : Hbm := { x with chans := x.chans.map fun e => (e.1, { e.2 with counts := [], hot := [] }) }

theorem chan_clearRows (x : Hbm) (c : Nat) : (clearRows x).chan c = { x.chan c with counts := [], hot := [] } :=
  mget_map ({} : Chan) (fun y => { y with counts := [], hot := [] }) rfl x.chans c

theorem happens_hotRowWindowEnd (hh : h < 8) (hy : s.dev.cycle % 57600000 = 0) :
    Happens (.hotRowWindowEnd h) s fun t => MemRegsSame s t ∧
      ∀ c, ((t.dev.hbm h).chan c).counts = [] ∧ ((t.dev.hbm h).chan c).hot = [] := by
  have placed := placed_replaceAll (s.dev.updHbm h clearRows) h (slotsBegun s.dev.cycle)
  refine happens_guard_dev rfl (decide_eq_true ⟨hh, hy⟩) ⟨memRegsSame_of placed rfl (by simp), fun c => ?_⟩
  obtain ⟨l, hl⟩ := (placed.2 h).2 c
  rw [hbm_updHbm_same, chan_clearRows] at hl
  exact ⟨congrArg Chan.counts hl, congrArg Chan.hot hl⟩

/-- A controller that has entered the high range (R374, R453). -/
def enterHigh (x : Hbm) : Hbm := { x with high := true, extra := true }

theorem happens_highRangeEntry (hh : h < 8) (hl : (s.dev.hbm h).high = false) :
    Happens (.highRangeEntry h) s fun t => MemRegsSame s t ∧ (t.dev.hbm h).high = true := by
  have guard : (decide (h < 8) && !(s.dev.hbm h).high) = true := by simp [hh, hl]
  have placed := placed_replaceAll (s.dev.updHbm h enterHigh) h (slotsBegun s.dev.cycle)
  have entered : ∀ {t : State}, Placed (s.dev.updHbm h enterHigh) t.dev → t.dev.mem = s.dev.mem →
      MemRegsSame s t ∧ (t.dev.hbm h).high = true := fun p m =>
    ⟨memRegsSame_of p rfl m, (p.2 h).high.trans (by rw [hbm_updHbm_same]; rfl)⟩
  refine happens_guard_dev rfl guard ?_
  split
  · exact entered placed (by simp)
  · exact entered (placed.trans (placed_post ..)) (by simp)

theorem happens_highRangeExit (hh : h < 8) (hl : (s.dev.hbm h).high = true) :
    Happens (.highRangeExit h) s fun t => Apart s t ∧ (t.dev.hbm h).high = false :=
  happens_guard_dev rfl (by simp [hh, hl]) ⟨apart_of rfl rfl, by simp⟩

theorem happens_sldReturn (agent : Nat) (p : PendSld) (hp : (s.dev.ctx agent).slds.find? s.dev.sldDue = some p) :
    Happens (.sldReturn agent) s fun t => ApartFrom s t agent ∧
      t.dev.ctx agent = afterReturn s.dev p (s.dev.ctx agent) := by
  refine happens_dev rfl (congrArg (Option.map _) hp) ⟨⟨fun x hx => ?_, memSame_of (by simp)⟩, ?_⟩
  · exact (returnSld_ctx ..).trans (if_neg hx)
  · exact (returnSld_ctx ..).trans (if_pos rfl)

end

/-- Settles O47: each event of the calendar, from what a slot's start makes of a pseudo-channel and what the placing of
reads anew leaves alone. -/
theorem calendarEventsHappen : Obligations.CalendarEventsHappen := by
  unfold Obligations.CalendarEventsHappen
  refine fun s h pch hh => ⟨happens_calswWrite s h hh, happens_calendarExchange s h hh,
    fun i hpch hy hb => happens_channelSlotStart s h pch i hh hpch hy hb, happens_forcedRefreshEnd s h pch,
    happens_hotRowWindowEnd s h hh, happens_highRangeEntry s h hh, happens_highRangeExit s h hh, fun agent p hp => ?_⟩
  obtain ⟨t, ht, hdone, hapart, hctx⟩ := happens_sldReturn s agent p hp
  refine ⟨t, ht, hdone, hapart, ?_⟩
  rw [hctx]
  exact ⟨rfl, rfl, rfl, rfl⟩

end Sys2Proof.Proofs

/-! PROOF. Transactions and snapshots (O27, O28, O29; R97, R138, R142, R145, R268 to R270). A span may hold stores of a restored
binding whose addresses are still to be translated again (R97): its `TXC` aborts, where the statements on transactions have it
complete. -/

namespace Sys2Proof.Proofs

open Sys2Proof Sys2Proof.Machine Sys2Proof.Safety Sys2Proof.Laws

/-! ## External operations outside a protected segment (R403) -/

/-- Which context is at hand depends on the open bundle, the core at focus and the contexts' run states alone. -/
theorem me_congr {s u : State} (hb : u.bundle = s.bundle) (hf : u.focus = s.focus)
    (hr : ∀ a, (u.dev.ctx a).run = (s.dev.ctx a).run) : u.me = s.me := by
  unfold State.me
  rw [hb, hf]
  cases s.bundle with
  | none => exact issuer_congr hr _
  | some b => rfl

theorem before_updBun (s : State) (f : Bundle → Bundle) (h : (f s.bun).pre = s.bun.pre) :
    (s.updBun f).before = s.before := by
  refine h.trans ?_
  unfold State.bun State.before
  cases s.bundle <;> rfl

/-- A bundle marked as compared is the same bundle of the same context, and nothing else has changed. -/
theorem markCompared_spec (s : State) : s.markCompared.dev = s.dev ∧ s.markCompared.me = s.me ∧
    s.markCompared.before = s.before := by
  unfold State.markCompared
  split
  · exact ⟨rfl, updBun_me s _ rfl, before_updBun s _ rfl⟩
  · exact ⟨rfl, rfl, rfl⟩

theorem markCompared_ctx (s : State) : s.markCompared.ctx = s.ctx := by
  obtain ⟨hd, hme, -⟩ := markCompared_spec s
  unfold State.ctx
  rw [hd, hme]

/-- Outside a protected segment an external operation is simply performed. -/
theorem external_eq {s : State} (h : s.holding = false) (kind : Ext) (key : List Word)
    (perform : State → Except Stop (State × Given)) : s.external kind key perform = perform s.markCompared := by
  unfold State.external
  rw [h]
  rfl

theorem externalUnit_eq {s : State} (h : s.holding = false) (kind : Ext) (key : List Word)
    (perform : State → Except Stop State) : s.externalUnit kind key perform = perform s.markCompared := by
  unfold State.externalUnit
  rw [external_eq h]
  show (do let r ← (do let u ← perform s.markCompared; pure (u, ({} : Given))); pure r.1) = _
  cases perform s.markCompared <;> rfl

/-! ## A transaction whose stores are still to be translated (R97, R268) -/

theorem spanOpen_eq {s : State} {k : Task} (hk : s.ctx.task = some k) : s.spanOpen = k.span.isSome := by
  unfold State.spanOpen
  rw [hk]

theorem spanOps_eq {s : State} {k : Task} {q : Span} (hk : s.ctx.task = some k) (hq : k.span = some q)
    (hs : s.ctx.seg.held = []) : s.spanOps = q.buf := by
  unfold State.spanOps
  simp only [hk, hs, hq]
  rfl

/-- `TXC` aborts at the first store of the span whose address has not been translated again. -/
theorem txc_stale {s : State} {k : Task} {q : Span} {o : BufOp} (d : BitVec 6) (hh : s.holding = false)
    (hk : s.ctx.task = some k) (hs : s.ctx.seg.held = []) (hq : k.span = some q) (ho : q.buf.find? (·.stale) = some o) :
    exec (.txc d) s = .next (s.stopped (.abort cABSENT (word o.va))) := by
  have hops : s.markCompared.spanOps = q.buf := spanOps_eq (by rwa [markCompared_ctx]) hq (by rwa [markCompared_ctx])
  have hp : s.markCompared.txcPerform = .error (.abort cABSENT (word o.va)) := by
    unfold State.txcPerform
    rw [hops]
    simp only [ho]
  show execTxc d s = _
  unfold execTxc
  rw [spanOpen_eq hk, hq, external_eq hh, hp]
  rfl

/-- A transaction of a restored task that holds one store, whose address is still to be translated again (R97). -/
def restoredSpan : Span := { sx := 1, buf := [{ va := 0x20000, pa := 0x20000, kind := .store [7], stale := true }] }

def restoredTask : Task := { blk := 0, span := some restoredSpan }

/-- Block 0 runs, with the restored task on context 0; its window does not hold the page of the store. -/
def restored : State :=
  { dev := { cells := [(0, { held := some 0 })]
             ctxs := [(0, { run := .issuing, task := some restoredTask })]
             tab := { blocks := [(0, ({} : Block).set fState sRunning)]
                      bindings := [(0, { gbase := 0, running := true })] } } }

theorem restored_aborts : exec (.txc 1) restored = .next (restored.stopped (.abort cABSENT (word 0x20000))) :=
  txc_stale (k := restoredTask) (q := restoredSpan) (o := { va := 0x20000, pa := 0x20000, kind := .store [7], stale := true })
    1 (by decide) rfl rfl rfl rfl

theorem restored_pinnable : Pinnable restored := by
  intro k hk
  cases (show some restoredTask = some k from hk)
  exact ⟨rfl, rfl⟩

/-- The abort leaves the context without its task. -/
theorem restored_unloaded : ((restored.stopped (.abort cABSENT (word 0x20000))).dev.ctx 0).task = none := by decide

/-- Refutes O27: a `TXC` of an open transaction that would pass its validation aborts all the same, where a store of the
transaction is still to be translated again after a restore and its page is absent (R97). -/
theorem not_transactionsOpenAndClose : ¬ Obligations.TransactionsOpenAndClose := by
  unfold Obligations.TransactionsOpenAndClose
  intro h
  obtain ⟨-, hopen⟩ := h restored 1 restoredTask rfl (by decide) rfl
  obtain ⟨-, -, hcommits⟩ := hopen restoredSpan rfl
  obtain ⟨t, ht, -, k', hk', -⟩ := hcommits (by decide) restored_pinnable
  rw [restored_aborts] at ht
  cases ht
  exact absurd (restored_unloaded.symm.trans hk') (by simp)

/-- Refutes O28: such a `TXC` publishes nothing, where the statement has the store in memory. -/
theorem not_committedTransactionsAreVisible : ¬ Obligations.CommittedTransactionsAreVisible := by
  unfold Obligations.CommittedTransactionsAreVisible
  intro h
  obtain ⟨t, ht, -, hmem⟩ := h restored 1 restoredTask restoredSpan rfl (by decide) rfl rfl restored_pinnable (by decide)
  rw [restored_aborts] at ht
  cases ht
  have hkept : (restored.stopped (.abort cABSENT (word 0x20000))).dev.mem = [] := abortOr_mem ..
  rw [hkept] at hmem
  exact absurd hmem (by decide)

/-! ## Pins and stamps beside registers (R117, R257) -/

/-- A task that may be pinned is, and nothing of its context changes but the task. -/
theorem pin_pinnable {s : State} (h : Pinnable s) : ∃ u k, s.pin = .ok u ∧ OnlyCtx s u { s.ctx with task := k } := by
  unfold State.pin State.pinAs
  cases hk : s.ctx.task with
  | none => exact ⟨s, none, rfl, by rw [← hk]; exact .refl s⟩
  | some k =>
    obtain ⟨hbuf, hheld⟩ := h k hk
    have hheld' : heldVersioned s.ctx.seg.held = false := hheld
    refine ⟨_, s.ctx.task.map fun t => { t with pin := t.pin.join .firm }, ?_,
      (OnlyCtx.refl s).updMe rfl fun c => { c with task := c.task.map fun t => { t with pin := t.pin.join .firm } }⟩
    simp only [hbuf, hheld', Bool.or_self, Bool.false_eq_true, if_false]
    rfl

/-- A scalar written once the context at hand has its registers as before. -/
theorem scalarIs_setS {s u : State} (d : BitVec 6) (v : Word) (hme : u.me = s.me)
    (hr : (u.dev.ctx s.me).regs = (s.dev.ctx s.me).regs) : ScalarIs s (u.setS d v) d v := by
  have h : ((u.setS d v).dev.ctx s.me).regs = (s.dev.ctx s.me).regs.setS d v := by
    rw [State.setS_dev, hme, Device.ctx_updCtx_same, hr]
  unfold ScalarIs
  rw [h]
  exact ⟨fun r => Regs.sreg_setS .., Regs.setS_rest ..⟩

theorem takeStamp_ctx (s : State) (least : Nat) :
    (s.takeStamp least).1.me = s.me ∧ (s.takeStamp least).1.dev.ctx s.me = s.ctx.atStamp (s.takeStamp least).2 := by
  obtain ⟨-, -, h⟩ := takeStamp_spec s least
  rw [h]
  refine ⟨me_congr rfl rfl fun a =>
    run_updCtx s.dev s.me a (fun c => c.atStamp (s.takeStamp least).2) fun _ => rfl, ?_⟩
  show (s.dev.updCtx s.me fun c => c.atStamp (s.takeStamp least).2).ctx s.me = _
  exact Device.ctx_updCtx_same ..

/-! ## Snapshot handles taken (R142, R147, R269) -/

theorem snap_takeSnap (d : Device) (b h st : Nat) :
    (d.takeSnap b h st).1.snap b h = { st := st, gen := mget 0 d.tab.snapGen b + 1, state := 1 } := by
  unfold Device.takeSnap
  dsimp only
  rw [Device.snap_updSnap, if_pos rfl]

theorem snap_startDrain (d : Device) (b h : Nat) : (d.startDrain b h).snap b h = { d.snap b h with state := 2 } := by
  show (d.updSnap b h fun x => { x with state := 2 }).snap b h = _
  rw [Device.snap_updSnap, if_pos rfl]

/-- The device with handle `h` of table `b` taken at stamp `st`, and its drain requested with `drain`. -/
def withSnap (d : Device) (b h st : Nat) (drain : Bool) : Device :=
  if drain then (d.takeSnap b h st).1.startDrain b h else (d.takeSnap b h st).1

theorem withSnap_rest (d : Device) (b h st : Nat) (drain : Bool) :
    (withSnap d b h st drain).ctxs = d.ctxs ∧ (withSnap d b h st drain).mem = d.mem := by
  cases drain <;> exact ⟨rfl, rfl⟩

theorem snap_withSnap (d : Device) (b h st : Nat) (drain : Bool) : (withSnap d b h st drain).snap b h =
    { st := st, gen := mget 0 d.tab.snapGen b + 1, state := if drain then 2 else 1 } := by
  cases drain
  · exact snap_takeSnap ..
  · exact (snap_startDrain ..).trans (by rw [snap_takeSnap]; rfl)

/-- What `SNAP` answers: the next generation of the context's table beside the handle. -/
def snapWord (s : State) (h : Nat) : Word := word ((mget 0 s.dev.tab.snapGen s.snapTable + 1).toNat * 2 ^ 32 + h)

theorem snapPerform_eq {s u : State} {h : Nat} (drain : Bool) (hf : s.dev.freeHandle s.snapTable = some h)
    (hu : s.pin = .ok u) : s.snapPerform drain =
      let r := u.takeStamp u.dev.top
      .ok (({ r.1 with dev := withSnap r.1.dev s.snapTable h r.2 drain } : State).updBun fun x =>
          { x with waits := x.waits ++ [Wait.snapshot] },
        ⟨word ((mget 0 r.1.dev.tab.snapGen s.snapTable + 1).toNat * 2 ^ 32 + h), {}⟩) := by
  unfold State.snapPerform
  simp only [hf, hu]
  rfl

/-- A handle taken: a stamp above the context's own, and neither the registers nor memory have changed. -/
theorem snapPerform_spec {s : State} {h : Nat} (drain : Bool) (hp : Pinnable s) (hf : s.dev.freeHandle s.snapTable = some h) :
    ∃ u st, s.snapPerform drain = .ok (u, ⟨snapWord s h, {}⟩) ∧ u.me = s.me ∧ (u.dev.ctx s.me).regs = s.ctx.regs ∧
      u.dev.mem = s.dev.mem ∧ Above st s.ctx.stamp ∧ u.dev.snap s.snapTable h =
        { st := st, gen := mget 0 s.dev.tab.snapGen s.snapTable + 1, state := if drain then 2 else 1 } := by
  obtain ⟨u, k, hu, hc⟩ := pin_pinnable hp
  have hume : u.me = s.me := hc.me rfl
  have huctx : u.ctx = { s.ctx with task := k } := hc.ctx rfl
  obtain ⟨habove, -, hr⟩ := takeStamp_spec u u.dev.top
  obtain ⟨hme, hctx⟩ := takeStamp_ctx u u.dev.top
  have hperf := snapPerform_eq drain hf hu
  dsimp only at hperf
  generalize u.takeStamp u.dev.top = r at habove hr hme hctx hperf
  obtain ⟨⟨c, rfl⟩, -, -⟩ := hc
  have hgen : r.1.dev.tab.snapGen = s.dev.tab.snapGen := by rw [hr]; rfl
  have hmem : r.1.dev.mem = s.dev.mem := by rw [hr]; rfl
  obtain ⟨hctxs, hmem'⟩ := withSnap_rest r.1.dev s.snapTable h r.2 drain
  have hctx' (a : Nat) : (withSnap r.1.dev s.snapTable h r.2 drain).ctx a = r.1.dev.ctx a := by
    unfold Device.ctx
    rw [hctxs]
  refine ⟨_, r.2, hperf.trans (by rw [hgen]; rfl), ?_, ?_, hmem'.trans hmem, ?_, ?_⟩
  · refine (updBun_me _ _ rfl).trans (Eq.trans (me_congr (s := r.1) rfl rfl fun a => ?_) (hme.trans hume))
    exact congrArg Ctx.run (hctx' a)
  · rw [State.updBun_dev, hctx', ← hume, hctx, huctx]
    rfl
  · rw [huctx] at habove
    exact habove
  · rw [State.updBun_dev, snap_withSnap, hgen]

theorem snapTable_markCompared (s : State) : s.markCompared.snapTable = s.snapTable := by
  obtain ⟨-, hme, hb⟩ := markCompared_spec s
  unfold State.snapTable State.mode State.blk State.ctx0
  rw [hme, hb]

theorem pinnable_markCompared {s : State} (h : Pinnable s) : Pinnable s.markCompared := by
  obtain ⟨hd, hme, -⟩ := markCompared_spec s
  unfold Pinnable
  rw [hd, hme]
  exact h

/-- `SNAP` outside a protected segment, of a task that may be pinned. -/
theorem completes_snap {s : State} {h : Nat} (d : BitVec 6) (drain : Bool) (hh : s.holding = false) (hp : Pinnable s)
    (hm : (drain && s.mode == 2) = false) (hf : s.dev.freeHandle s.snapTable = some h) :
    Completes (exec (.snap d drain) s) fun t => MemSame s t ∧ ScalarIs s t d (snapWord s h) ∧
      ∃ st, Above st (s.dev.ctx s.me).stamp ∧ t.dev.snap s.snapTable h =
        { st := st, gen := mget 0 s.dev.tab.snapGen s.snapTable + 1, state := if drain then 2 else 1 } := by
  obtain ⟨hd, hme, -⟩ := markCompared_spec s
  have htab := snapTable_markCompared s
  have hctx := markCompared_ctx s
  obtain ⟨u, st, hperf, hume, hregs, hmem, habove, hsnap⟩ :=
    snapPerform_spec (s := s.markCompared) drain (pinnable_markCompared hp) (by rw [hd, htab]; exact hf)
  have hw : snapWord s.markCompared h = snapWord s h := by unfold snapWord; rw [hd, htab]
  rw [hme] at hume hregs
  rw [hctx] at hregs habove
  rw [hd] at hmem
  rw [hd, htab] at hsnap
  refine completes_slot (t := u.setS d (snapWord s h)) ?_ ⟨fun a => ?_, scalarIs_setS d _ hume hregs, st, habove, hsnap⟩
  · rw [hm, external_eq hh, hperf, hw]
    rfl
  · rw [State.setS_dev, Device.updCtx_mem, hmem]

/-! ## Snapshot handles released and selected (R144, R145, R270) -/

theorem handleOf_eq (w : Word) : handleOf w = w.toNat % 16 := by
  simp [handleOf, bits]

theorem ctx_releaseSnap (d : Device) (b h a : Nat) : (d.releaseSnap b h).ctx a = (d.ctx a).unselect b h :=
  mget_map ({} : Ctx) (fun c => c.unselect b h) rfl d.ctxs a

theorem unselect_regs (c : Ctx) (b h : Nat) : (c.unselect b h).regs = c.regs := by
  unfold Ctx.unselect
  split <;> rfl

/-- `SNAPREL` outside a protected segment, of a handle that is HELD or DRAINING. -/
theorem completes_snaprel {s : State} {n : Nat} (a : BitVec 6) (hh : s.holding = false) (hp : Pinnable s)
    (hn : n = (s.sreg a).toNat % 16) (h0 : n ≠ 0)
    (hst : (s.dev.snap s.snapTable n).state = 1 ∨ (s.dev.snap s.snapTable n).state = 2) :
    Completes (exec (.snaprel a) s) fun t => MemSame s t ∧ RegsSame s t ∧ (t.dev.snap s.snapTable n).state =
      if (s.dev.snap s.snapTable n).state = 1 then 0 else 3 := by
  obtain ⟨hd, hme, -⟩ := markCompared_spec s
  have htab := snapTable_markCompared s
  obtain ⟨u, k, hu, hc⟩ := pin_pinnable (pinnable_markCompared hp)
  have hctx : u.dev.ctx s.me = { s.ctx with task := k } := by rw [← hme, hc.2.2, markCompared_ctx]
  obtain ⟨c, hc⟩ := hc.1
  have hsnap : u.dev.snap s.snapTable n = s.dev.snap s.snapTable n := by rw [hc, hd]; rfl
  have hmem : u.dev.mem = s.dev.mem := by rw [hc, hd]
  have hguard : (n != 0 && ((s.dev.snap s.snapTable n).state == 1 || (s.dev.snap s.snapTable n).state == 2)) = true := by
    rcases hst with h | h <;> simp [h0, h]
  have hperf : s.markCompared.snaprelPerform n = .ok { u with dev := u.dev.releaseSnap s.snapTable n } := by
    unfold State.snaprelPerform
    dsimp only
    rw [htab, hd, hguard, hu]
    rfl
  refine completes_slot (t := { u with dev := u.dev.releaseSnap s.snapTable n }) ?_ ⟨fun x => ?_, ?_, ?_⟩
  · rw [externalUnit_eq hh, handleOf_eq, ← hn, hperf]
  · show rdByte u.dev.mem x = _
    rw [hmem]
  · show ((u.dev.releaseSnap s.snapTable n).ctx s.me).regs = _
    rw [ctx_releaseSnap, unselect_regs, hctx]
    rfl
  · show ((u.dev.releaseSnap s.snapTable n).snap s.snapTable n).state = _
    rw [snap_releaseSnap, hsnap]
    rcases hst with h | h <;> simp [h]

theorem onlyMe_updTask (s : State) (f : Task → Task) : OnlyMe s (s.updTask f) :=
  ⟨fun _ h => Device.ctx_updCtx_other _ _ _ _ h, rfl, fun _ => rfl, rfl⟩

theorem updTask_ctx (s : State) (f : Task → Task) :
    (s.updTask f).dev.ctx s.me = { s.dev.ctx s.me with task := (s.dev.ctx s.me).task.map f } := Device.ctx_updCtx_same ..

/-- A selection made: the task of the context at hand has it, and nothing else has changed. -/
theorem selects_updTask (s : State) (x : Option Selection) : OnlyMe s (s.updTask fun t => { t with sel := x }) ∧
    RegsSame s (s.updTask fun t => { t with sel := x }) ∧
    ∀ k, ((s.updTask fun t => { t with sel := x }).dev.ctx s.me).task = some k → k.sel = x := by
  unfold RegsSame
  rw [updTask_ctx]
  refine ⟨onlyMe_updTask .., rfl, fun k hk => ?_⟩
  obtain ⟨t, -, rfl⟩ := Option.map_eq_some_iff.mp hk
  rfl

/-- `SNAPSEL` with no transaction open, of no handle or of one that is HELD or DRAINING. -/
theorem completes_snapsel {s : State} {n : Nat} (a : BitVec 6) (hs : s.spanOpen = false) (hn : n = (s.sreg a).toNat % 16)
    (hst : n = 0 ∨ (s.dev.snap s.snapTable n).state = 1 ∨ (s.dev.snap s.snapTable n).state = 2) :
    Completes (exec (.snapsel a) s) fun t => OnlyMe s t ∧ RegsSame s t ∧ ∀ k, (t.dev.ctx s.me).task = some k →
      k.sel = if n = 0 then none else some { dev := s.mode == 2, handle := n } := by
  show Completes (execSnapsel a s) _
  unfold execSnapsel
  dsimp only
  rw [hs, handleOf_eq, ← hn]
  by_cases h0 : n = 0
  · rw [if_pos h0, if_pos h0]
    exact completes_slot rfl (selects_updTask s none)
  · have hguard : ((s.dev.snap s.snapTable n).state == 1 || (s.dev.snap s.snapTable n).state == 2) = true := by
      rcases hst with h | h | h
      · exact absurd h h0
      · simp [h]
      · simp [h]
    rw [if_neg h0, if_neg h0, hguard]
    exact completes_slot rfl (selects_updTask s (some { dev := s.mode == 2, handle := n }))

/-- Settles O29: what each of the three instructions leaves, for the table of the context's mode. -/
theorem snapshotsTakeAndRelease : Obligations.SnapshotsTakeAndRelease := by
  unfold Obligations.SnapshotsTakeAndRelease
  intro s d a h hh hp b n
  refine ⟨fun hf => ⟨?_, fun hm => ?_⟩, fun h0 hst => ?_, fun h0 hst => ?_, fun hs hst => completes_snapsel a hs rfl hst⟩
  · obtain ⟨t, ht, hmem, hd, st, habove, hsnap⟩ := completes_snap d false hh hp rfl hf
    have hst : Above (t.dev.snap b h).st (s.dev.ctx s.me).stamp := (congrArg Snap.st hsnap).symm ▸ habove
    exact ⟨t, ht, hmem, congrArg Snap.state hsnap, congrArg Snap.gen hsnap, hst, hd⟩
  · obtain ⟨t, ht, hmem, hd, st, -, hsnap⟩ := completes_snap d true hh hp (by simpa using hm) hf
    exact ⟨t, ht, hmem, congrArg Snap.state hsnap, congrArg Snap.gen hsnap, hd⟩
  · obtain ⟨t, ht, hmem, hregs, hstate⟩ := completes_snaprel a hh hp rfl h0 (.inl hst)
    exact ⟨t, ht, hmem, hregs, hstate.trans (if_pos hst)⟩
  · obtain ⟨t, ht, hmem, hregs, hstate⟩ := completes_snaprel a hh hp rfl h0 (.inr hst)
    exact ⟨t, ht, hmem, hregs, hstate.trans (if_neg (by rw [show (s.dev.snap s.snapTable n).state = 2 from hst]; decide))⟩

end Sys2Proof.Proofs

/-! PROOF. Engine operations, matrix queues, issue and lockstep pairs (O48; R128, R185, R300, R303, R312, R320, R402, R404, R406,
R431, R437). -/

namespace Sys2Proof.Proofs

open Sys2Proof Sys2Proof.Machine Sys2Proof.Safety Sys2Proof.Laws

/-! ## Engine operations (R128, R320, R437) -/

/-- The operation that may run is one of its engine context. -/
theorem runnable_is {d : Device} {a e : Nat} {o : EngOp} (h : d.runnable a e = some o) : o.agent = a ∧ o.e = e := by
  unfold Device.runnable at h
  dsimp only at h
  split at h
  · contradiction
  · split at h
    · rename_i hf
      split at h
      · contradiction
      · cases h
        have := List.find?_some hf
        simp only [EngOp.is, Bool.and_eq_true, beq_iff_eq] at this
        exact this.1
    · contradiction

theorem exec_engineOpComplete {s u : State} {agent e : Nat} {o : EngOp} {k : Binding} (ho : s.dev.runnable agent e = some o)
    (hk : s.dev.binding o.blk = some k) (h : s.engOutcome o k = (u, none)) :
    exec (.engineOpComplete agent e) s = .next { u with last := .done } := by
  show execEngineOpComplete agent e s = _
  unfold execEngineOpComplete
  simp only [ho, hk, Option.bind_eq_bind, Option.bind_some, h]
  rfl

theorem exec_engineFault {s u : State} {agent e : Nat} {o : EngOp} {k : Binding} {m : Met}
    (ho : s.dev.runnable agent e = some o) (hk : s.dev.binding o.blk = some k) (h : s.engOutcome o k = (u, some m))
    (hf : u.dev.faults o m = true) : exec (.engineFault agent e m.1) s =
      .next { u.engFault { o with wst := (u.dev.runnable agent e).elim o.wst (·.wst) } m with last := .done } := by
  show execEngineFault agent e m.1 s = _
  unfold execEngineFault
  simp only [ho, hk, Option.bind_eq_bind, Option.bind_some, h, hf, and_self, if_true]
  rfl

/-- A number that a timeline has completed is no longer live. -/
theorem finish_live (t : Timeline) (n st : Nat) (f : BitVec 6) : n ∉ (t.finish n st f).live := by
  show n ∉ t.live.filter (· != n)
  simp

/-- An operation that is gone is none of those that are left. -/
theorem dropOp_gone (d : Device) (o : EngOp) : ∀ x ∈ (d.dropOp o).ops, x.is o.agent o.e o.num = false := by
  intro x hx
  simpa using (List.mem_filter.mp hx).2

/-- Operation `o` has completed on its timeline and is gone, with the event flag of its context set (R128, R238). -/
def OpDone (s t : State) (o : EngOp) : Prop :=
  MemSame s t ∧ (∀ x ∈ t.dev.ops, x.is o.agent o.e o.num = false) ∧ (t.dev.ctx o.agent).event = true ∧
    o.num ∉ (mget ({} : Timeline) (t.dev.ctx o.agent).tls o.e).live

/-- An operation with nothing left to write, to decrement or to arrive at completes. -/
theorem engOutcome_idle (s : State) {o : EngOp} (k : Binding) (hw : o.work = []) (hs : o.succ = []) (hb : o.bar = none)
    (he : o.eng ≠ 5) : ∃ u, s.engOutcome o k = (u, none) ∧ OpDone s u o := by
  have hfin : s.engFinish o k = { s := s, left := [], st := o.wst } := by
    unfold State.engFinish
    rw [if_neg he, hw]
    rfl
  have hend : ∃ u, s.engEnd o k o.wst = .ok u ∧ OpDone s u o := by
    unfold State.engEnd
    rw [hs, hb]
    refine ⟨_, rfl, fun a => ?_, fun x hx => dropOp_gone _ o x hx, ?_, ?_⟩
    · simp
    · rw [Device.ctx_updCtx_same]
    · rw [Device.ctx_updCtx_same]
      dsimp only
      rw [mget_mset_same]
      exact finish_live _ _ _ _
  obtain ⟨u, hu, hd⟩ := hend
  refine ⟨u, ?_, hd⟩
  unfold State.engOutcome
  simp only [hfin, hu]

theorem remotePoison_ctxs (d : Device) (a pa : Nat) : (d.remotePoison a pa).ctxs = d.ctxs := by
  unfold Device.remotePoison
  split
  · split
    · unfold Device.meetPoison
      dsimp only
      split <;> rfl
    · rfl
  · split
    · obtain ⟨m, h⟩ := faqPush_spec d 4 2 (pa / 64)
      rw [h]
    · obtain ⟨e, h⟩ := postDev_spec d 6 0 a 0
      rw [h]

/-- Operation `o` has a fault marked on its timeline and is gone (R437). -/
def FaultMarked (t : State) (o : EngOp) (code : BitVec 8) : Prop :=
  (o.num, code) ∈ (mget ({} : Timeline) (t.dev.ctx o.agent).tls o.e).fault ∧ ∀ x ∈ t.dev.ops, x.is o.agent o.e o.num = false

/-- A fault of an operation of a firmly pinned task, with no barrier, aborts nothing: it is marked on the timeline. -/
theorem engFault_pinned {s : State} {o : EngOp} {m : Met} {t : Task} (hb : o.bar = none) (ht : o.tasked = true)
    (hk : (s.dev.ctx o.agent).task = some t) (hp : t.pin = .firm) : FaultMarked (s.engFault o m) o (engineCode m.1) := by
  unfold State.engFault
  split
  rename_i s1 n hdraw
  cases hdraw
  extract_lets st code met d0 ended clear d1 d2
  rw [hb]
  have hmet : met.ctxs = s.dev.ctxs := by
    unfold met
    split
    · exact remotePoison_ctxs ..
    · rfl
  have hctx : d1.ctx o.agent = ended (s.dev.ctx o.agent) := by
    refine (Device.ctx_updCtx_same ..).trans (congrArg ended ?_)
    exact congrArg (mget ({} : Ctx) · o.agent) hmet
  have htask : (d1.ctx o.agent).task = some t := (congrArg Ctx.task hctx).trans hk
  have hruns : d1.issuerRuns o = true := by
    unfold Device.issuerRuns
    rw [ht, htask]
    rfl
  have hd2 : d2 = d1 := by
    unfold d2
    rw [if_pos hruns]
    simp only [htask, hp, if_true]
  rw [hd2]
  refine ⟨?_, fun x hx => dropOp_gone _ o x hx⟩
  show _ ∈ (mget ({} : Timeline) (d1.ctx o.agent).tls o.e).fault
  rw [hctx]
  show _ ∈ (mget ({} : Timeline) (mset _ o.e _) o.e).fault
  rw [mget_mset_same]
  exact List.mem_append_right _ List.mem_cons_self

/-! ## The matrix queue (R300, R303) -/

theorem nextEntry_mem {path : MatrixPath} {mq before b : List MEntry} {m : MEntry} (h : nextEntry path before mq = some (b, m)) :
    m ∈ mq := by
  induction mq generalizing before with
  | nil => cases h
  | cons x r ih =>
    unfold nextEntry at h
    split at h
    · cases h
      exact List.mem_cons_self
    · exact List.mem_cons_of_mem _ (ih h)

theorem spWrite_mq (k : Core) (off : Nat) (bs : List Byte) : (k.spWrite off bs).mq = k.mq := by
  induction bs generalizing k off with
  | nil => rfl
  | cons b r ih => exact ih ..

theorem spStore_mq (d : Device) (prot : Bool) (core off n : Nat) (bs : List Byte) :
    ((d.spStore prot core off bs).core n).mq = (d.core n).mq := by
  have one (d : Device) (c : Nat) : ((d.updCore c fun k => k.spWrite off bs).core n).mq = (d.core n).mq := by
    rw [Device.core_updCore]
    split
    · rename_i h
      rw [spWrite_mq, h]
    · rfl
  unfold Device.spStore
  cases prot
  · exact one ..
  · exact (one ..).trans (one ..)

theorem spStore_ctxs (d : Device) (prot : Bool) (core off : Nat) (bs : List Byte) :
    (d.spStore prot core off bs).ctxs = d.ctxs := by
  obtain ⟨c, h⟩ := spStore_spec d prot core off bs
  rw [h]

/-- A change of a context that leaves its registers leaves those of every context. -/
theorem regs_updCtx (d : Device) (a b : Nat) (f : Ctx → Ctx) (h : ∀ c, (f c).regs = c.regs) :
    ((d.updCtx a f).ctx b).regs = (d.ctx b).regs := by
  rw [Device.ctx_updCtx]
  split
  · rename_i e
    rw [h, e]
  · rfl

/-- Entry `m` of a queue marked started. -/
def Marked (m : MEntry) (q : List MEntry) : Prop := ∃ x ∈ q, x.ctx = m.ctx ∧ x.e = m.e ∧ x.num = m.num ∧ x.started = true

theorem regs_startEntry (d : Device) (core : Nat) (m : MEntry) (cap : List Byte) (a : Nat) :
    ((d.startEntry core m cap).ctx a).regs = (d.ctx a).regs := by
  unfold Device.startEntry
  dsimp only
  split
  · refine (regs_updCtx _ _ _ _ fun c => ?_).trans rfl
    split <;> rfl
  · rfl

/-- What the start of `m` makes of an entry of its queue. -/
def asStarted (m : MEntry) (cap : List Byte) (x : MEntry) : MEntry :=
  if x.ctx = m.ctx ∧ x.e = m.e ∧ x.num = m.num then { x with started := true, due := m.cycles, cap := cap } else x

theorem startEntry_mq (d : Device) (core : Nat) (m : MEntry) (cap : List Byte) :
    ((d.startEntry core m cap).core core).mq = (d.core core).mq.map (asStarted m cap) := by
  have h : (d.startEntry core m cap).cores =
      (d.updCore core fun k => { k with mq := k.mq.map (asStarted m cap) }).cores := by
    unfold Device.startEntry
    dsimp only
    split <;> rfl
  exact congrArg Core.mq ((congrArg (mget ({} : Core) · core) h).trans (Device.core_updCore_same ..))

theorem marked_startEntry (d : Device) (core : Nat) (m : MEntry) (cap : List Byte) (h : m ∈ (d.core core).mq) :
    Marked m ((d.startEntry core m cap).core core).mq := by
  rw [startEntry_mq]
  exact ⟨_, List.mem_map_of_mem h, by simp [asStarted]⟩

/-- Entry `m` of a core's queue has started, and neither memory nor a register has changed. -/
def EntryStarted (s t : State) (core : Nat) (m : MEntry) : Prop :=
  MemSame s t ∧ (∀ a, (t.dev.ctx a).regs = (s.dev.ctx a).regs) ∧ Marked m (t.dev.core core).mq

theorem entryStarted_of {s t : State} {core : Nat} {m : MEntry} {cap : List Byte} (h : m ∈ (s.dev.core core).mq)
    (hm : t.dev.mem = s.dev.mem) (hc : t.dev.ctxs = (s.dev.startEntry core m cap).ctxs)
    (hq : (t.dev.core core).mq = ((s.dev.startEntry core m cap).core core).mq) : EntryStarted s t core m := by
  refine ⟨fun a => by rw [hm], fun a => ?_, ?_⟩
  · exact (congrArg Ctx.regs (congrArg (mget ({} : Ctx) · a) hc)).trans (regs_startEntry ..)
  · rw [hq]
    exact marked_startEntry _ _ _ _ h

theorem entryStarted_startEntry (s : State) (core : Nat) (m : MEntry) (h : m ∈ (s.dev.core core).mq) :
    EntryStarted s (s.startEntry core m) core m := by
  unfold State.startEntry
  split
  · exact entryStarted_of h (startEntry_mem ..) rfl rfl
  · dsimp only
    split
    · exact entryStarted_of (cap := []) h (by simp) (spStore_ctxs ..) (spStore_mq ..)
    · exact entryStarted_of (cap := []) h (startEntry_mem ..) rfl rfl
  · exact entryStarted_of h (startEntry_mem ..) rfl rfl

theorem happens_matrixEntryStart {s : State} {core : Nat} {path : MatrixPath} {before : List MEntry} {m : MEntry}
    (hn : nextEntry path [] (s.dev.core core).mq = some (before, m)) (hf : m.free before = true)
    (hi : m.issued + 2 ≤ s.dev.cycle) (hc : (s.dev.core core).issued = false) :
    Happens (.matrixEntryStart core path) s fun t => EntryStarted s t core m := by
  refine happens_event (m := some (s.startEntry core m)) ?_ rfl (entryStarted_startEntry s core m (nextEntry_mem hn))
  show execMatrixEntryStart core path s = _
  unfold execMatrixEntryStart
  simp only [hn, Option.bind_eq_bind, Option.bind_some, hf, hi, hc, decide_true, Bool.not_false, Bool.and_self, guardOpt_true]

/-- What an entry leaves changes no context and no byte of memory. -/
theorem runEntry_rest (s : State) (core : Nat) (m : MEntry) :
    (s.runEntry core m).1.dev.ctxs = s.dev.ctxs ∧ (s.runEntry core m).1.dev.mem = s.dev.mem := by
  unfold State.runEntry
  split
  · exact ⟨rfl, rfl⟩
  · split
    · exact ⟨spStore_ctxs .., spStore_mem ..⟩
    · exact ⟨rfl, rfl⟩
  · exact ⟨rfl, rfl⟩

theorem runEntry_macz (s : State) (core : Nat) (m : MEntry) (acc : Nat) (h : m.op = .macz acc) :
    (((s.runEntry core m).1.dev.core core).bank acc).data = 0 := by
  unfold State.runEntry Core.runArray
  simp only [h]
  rw [Device.core_setCore, if_pos rfl]
  exact congrArg Bank.data (mget_mset_same ..)

theorem endEntry_core (d : Device) (core : Nat) (m : MEntry) (f : Flags) : (d.endEntry core m f).core core =
    { d.core core with mq := (d.core core).mq.filter fun x => !(x.ctx == m.ctx && x.e == m.e && x.num == m.num) } :=
  Device.core_updCore_same d core fun k =>
    { k with mq := k.mq.filter fun x => !(x.ctx == m.ctx && x.e == m.e && x.num == m.num) }

theorem endEntry_ctx (d : Device) (core : Nat) (m : MEntry) (f : Flags) (a : Nat) :
    ((d.endEntry core m f).ctx a).regs = (d.ctx a).regs := regs_updCtx _ _ _ _ fun _ => rfl

theorem happens_matrixEntryComplete {s : State} {core : Nat} {path : MatrixPath} {m : MEntry}
    (hm : (s.dev.core core).doneEntry path = some m) :
    Happens (.matrixEntryComplete core path) s fun t => MemSame s t ∧ (∀ a, (t.dev.ctx a).regs = (s.dev.ctx a).regs) ∧
      (∀ x ∈ (t.dev.core core).mq, x.ctx ≠ m.ctx ∨ x.e ≠ m.e ∨ x.num ≠ m.num) ∧
      m.num ∉ (mget ({} : Timeline) (t.dev.ctx m.ctx).tls m.e).live ∧
      t.dev = (s.runEntry core m).1.dev.endEntry core m (s.runEntry core m).2 ∧
      ∀ acc, m.op = .macz acc → ((t.dev.core core).bank acc).data = 0 := by
  obtain ⟨hctxs, hmem⟩ := runEntry_rest s core m
  refine happens_event (show exec (.matrixEntryComplete core path) s = s.event _ from rfl) (by rw [hm]; rfl)
    ⟨fun a => ?_, fun a => ?_, fun x hx => ?_, ?_, rfl, fun acc hop => ?_⟩
  · show rdByte (s.runEntry core m).1.dev.mem a = _
    rw [hmem]
  · refine (endEntry_ctx ..).trans ?_
    unfold Device.ctx
    rw [hctxs]
  · have hx' : x ∈ (((s.runEntry core m).1.dev.endEntry core m (s.runEntry core m).2).core core).mq := hx
    rw [endEntry_core] at hx'
    have hne := (List.mem_filter.mp hx').2
    rw [Bool.not_eq_true', Bool.and_eq_false_iff, Bool.and_eq_false_iff] at hne
    simpa [or_assoc] using hne
  · show m.num ∉ (mget ({} : Timeline) (((s.runEntry core m).1.dev.endEntry core m _).ctx m.ctx).tls m.e).live
    unfold Device.endEntry
    dsimp only
    rw [Device.ctx_updCtx_same]
    dsimp only
    rw [mget_mset_same]
    exact finish_live _ _ _ _
  · show ((((s.runEntry core m).1.dev.endEntry core m _).core core).bank acc).data = 0
    rw [endEntry_core]
    exact runEntry_macz s core m acc hop

/-! ## Freeze cycles (R312) -/

/-- The cores, and every context's registers and vectors, are as before. -/
def Delays (d e : Device) : Prop := e.cores = d.cores ∧ ∀ a, (e.ctx a).regs = (d.ctx a).regs ∧ (e.ctx a).v = (d.ctx a).v

theorem Delays.trans {d e f : Device} (h : Delays d e) (g : Delays e f) : Delays d f :=
  ⟨g.1.trans h.1, fun a => ⟨(g.2 a).1.trans (h.2 a).1, (g.2 a).2.trans (h.2 a).2⟩⟩

theorem delays_updCtx (d : Device) (a cycle : Nat) : Delays d (d.updCtx a fun c => c.delay cycle) := by
  refine ⟨rfl, fun b => ?_⟩
  rw [Device.ctx_updCtx]
  split
  · rename_i h
    rw [h]
    exact ⟨rfl, rfl⟩
  · exact ⟨rfl, rfl⟩

/-- A frozen cycle delays results that are due, and changes nothing of the contexts else. -/
theorem delays_freezeCore (d : Device) (core : Nat) : Delays (d.updCore core Core.freeze) (d.freezeCore core) := by
  unfold Device.freezeCore
  extract_lets late
  have one (x : Device) (i : Nat) : Delays x (late x i) := by
    unfold late
    split
    · exact ⟨rfl, fun _ => ⟨rfl, rfl⟩⟩
    · exact delays_updCtx ..
  exact (one _ 0).trans ((one _ 1).trans ((one _ 2).trans (one _ 3)))

/-- A cycle of core `core` has been frozen (R312). -/
def CycleFrozen (u t : State) (core : Nat) : Prop :=
  MemSame u t ∧ (t.dev.core core).frzcnt = (u.dev.core core).frzcnt + 1 ∧ (t.dev.core core).frozen = true ∧
    ∀ a, (t.dev.ctx a).regs = (u.dev.ctx a).regs ∧ (t.dev.ctx a).v = (u.dev.ctx a).v

theorem cycleFrozen_freezeCore {u t : State} {core : Nat} (h : t.dev = u.dev.freezeCore core) : CycleFrozen u t core := by
  obtain ⟨hcores, hctx⟩ := delays_freezeCore u.dev core
  have hcore : (u.dev.freezeCore core).core core = (u.dev.core core).freeze :=
    (congrArg (mget ({} : Core) · core) hcores).trans (Device.core_updCore_same ..)
  unfold CycleFrozen MemSame
  rw [h, hcore, freezeCore_mem]
  exact ⟨fun _ => rfl, rfl, rfl, hctx⟩

theorem happens_freezeCycle {s : State} {core : Nat}
    (hz : ((s.issuePoint core).dev.core core).freezes ((s.issuePoint core).nextWeight core) = true)
    (hi : ((s.issuePoint core).dev.core core).issued = false) :
    Happens (.freezeCycle core) s fun t => CycleFrozen (s.issuePoint core) t core := by
  show Completes (execFreezeCycle core s) _
  unfold execFreezeCycle
  generalize s.issuePoint core = u at hz hi ⊢
  dsimp only
  rw [hz, hi]
  exact completes_event rfl (cycleFrozen_freezeCore rfl)

/-! ## Bundles that cannot be decoded or fetched (R185, R431) -/

theorem exec_faultingIssue {s : State} {agent b : Nat} {r : Except Stop (List Word32)} {p : Except Stop (List Word32) → Bool}
    (h : (s.issuePoint (coreOf agent)).nextBundle (coreOf agent) = some (agent, b, r)) (hp : p r = true) {u : State}
    (hu : (s.issuePoint (coreOf agent)).issueAt noMeaning agent b = .next u) :
    s.faultingIssue agent p = .next { u with dev := u.dev.stopIfDue agent } := by
  unfold State.faultingIssue
  simp only [h, hp, hu, and_self, if_true]

/-- The issue of a bundle that cannot be fetched stops as its fetch does. -/
theorem issueAt_unfetched {u : State} {a b : Nat} {x : Stop} (ex : Meaning) (h : u.fetch b (u.dev.ctx a).regs.pc = .error x) :
    ∃ v : State, u.issueAt ex a b = .next (v.stopped x) := by
  unfold State.issueAt
  simp only [h]
  exact ⟨_, rfl⟩

theorem completes_instructionFetchFault {s : State} {agent b : Nat} {x : Stop} {r : Result}
    (h : (s.issuePoint (coreOf agent)).nextBundle (coreOf agent) = some (agent, b, .error x))
    (hr : ∀ v : State, (v.stopped x).last = r) : Completes (exec (.instructionFetchFault agent) s) fun t => t.last = r := by
  obtain ⟨-, hf, -⟩ := nextBundle_some h
  obtain ⟨v, hv⟩ := issueAt_unfetched noMeaning hf.symm
  exact ⟨_, exec_faultingIssue h rfl hv, hr v⟩

theorem nextWeight_eq {u : State} {core a b : Nat} {ws : List Word32} (h : u.nextBundle core = some (a, b, .ok ws))
    (hi : (u.dev.ctx a).interlocked u.dev.cycle (openBundle u a b ws).bun.leaf (ws.map decWord) = false)
    (hh : State.farHeld { u with bundle := some (shutBundle u a ws) } (openBundle u a b ws).bun.leaf (ws.map decWord) = false) :
    u.nextWeight core = bundleWeight (openBundle u a b ws).bun.leaf (ws.map decWord) := by
  unfold openBundle shutBundle at hi hh ⊢
  simp only [State.bun] at hi hh ⊢
  simp only [State.nextWeight, h, hi, hh, Bool.or_false, Bool.false_eq_true, if_false]

/-- A bundle that fails its encoding checks traps at the lowest slot at fault. -/
theorem runBundle_illegal (ex : Meaning) (v : State) (ds : List Dec) (leaf : Nat)
    (h : (encodingFault (!isUpper (coreOf v.me)) ds).isSome = true) :
    ∃ t : State, v.runBundle ex ds leaf = .next t ∧ t.last = .trapped 0x01 := by
  obtain ⟨i, hi⟩ := Option.isSome_iff_exists.mp h
  simp only [State.runBundle, hi]
  exact ⟨_, rfl, rfl⟩

theorem completes_illegalEncoding {s : State} {agent b : Nat} {ws : List Word32}
    (h : (s.issuePoint (coreOf agent)).nextBundle (coreOf agent) = some (agent, b, .ok ws))
    (he : (encodingFault (!isUpper (coreOf agent)) (ws.map decWord)).isSome = true)
    (hi : ((s.issuePoint (coreOf agent)).dev.ctx agent).interlocked (s.issuePoint (coreOf agent)).dev.cycle
      (openBundle (s.issuePoint (coreOf agent)) agent b ws).bun.leaf (ws.map decWord) = false)
    (hh : State.farHeld { s.issuePoint (coreOf agent) with bundle := some (shutBundle (s.issuePoint (coreOf agent)) agent ws) }
      (openBundle (s.issuePoint (coreOf agent)) agent b ws).bun.leaf (ws.map decWord) = false)
    (hz : ((s.issuePoint (coreOf agent)).dev.core (coreOf agent)).freezes
      ((s.issuePoint (coreOf agent)).nextWeight (coreOf agent)) = false) :
    Completes (exec (.illegalEncoding agent) s) fun t => t.last = .trapped 0x01 := by
  obtain ⟨-, hf, -⟩ := nextBundle_some h
  rw [nextWeight_eq h hi hh] at hz
  obtain ⟨t, ht, hlast⟩ := runBundle_illegal noMeaning (openBundle (s.issuePoint (coreOf agent)) agent b ws) (ws.map decWord)
    (openBundle (s.issuePoint (coreOf agent)) agent b ws).bun.leaf he
  rw [← issueAt_runs noMeaning _ agent b ws hf.symm hi hh hz] at ht
  exact ⟨_, exec_faultingIssue h he ht, hlast⟩

/-! ## Lockstep pairs (R402 to R406) -/

theorem exec_lockstepCompare {s : State} {agent b : Nat} {k : Binding} (hk : s.dev.taskBinding agent = some (b, k))
    (hp : k.prot = true) (hl : k.follower (cellOf (coreOf agent)) = false) (same : Bool) (synd : BitVec 32) :
    exec (.lockstepCompare agent same synd) s = s.devEvent (some (if same then
      s.dev.updCtx agent fun c => { c with lastPc := none }
      else (s.dev.mismatchRecord agent (s.dev.ctx agent).comparing synd).rewind agent s.dev.nextSeq)) := by
  show execLockstepCompare agent same synd s = _
  unfold execLockstepCompare
  simp only [hk, hp, hl, Option.bind_eq_bind, Option.bind_some, Bool.not_false, Bool.and_self, guardOpt_true]

/-- A mismatch's record changes nothing but the error state. -/
theorem mismatchRecord_spec (d : Device) (a : Nat) (pc : Word) (synd : BitVec 32) :
    ∃ e, d.mismatchRecord a pc synd = { d with err := e } := post_spec d _

theorem rewind_rewound {d : Device} {a : Nat} (seq : Word) (h : (d.ctx a).rewound = true) : d.rewind a seq = d := by
  unfold Device.rewind
  dsimp only
  rw [if_pos h]

theorem rewind_fails {d : Device} {a : Nat} (seq : Word) (h : (d.ctx a).rewound = false)
    (hr : (d.ctx a).segOpen = false ∨ (d.ctx a).seg.matrix = true ∨ 2 ≤ (d.ctx a).seg.rewinds) :
    d.rewind a seq = d.failTask a seq := by
  unfold Device.rewind
  dsimp only
  rw [if_neg (by simp [h]), if_neg]
  rintro ⟨-, ho, hm, hn⟩
  rcases hr with h1 | h1 | h1
  · simp [h1] at ho
  · simp [h1] at hm
  · omega

/-- Context `x` is context `c` put back by a rewind to the entry of its open segment (R404). -/
def Rewound (c x : Ctx) (cycle : Nat) : Prop :=
  x.regs = c.seg.entry ∧ x.v = c.seg.entryV ∧ x.mp = c.seg.entryMp ∧ x.seg.held = [] ∧ x.seg.replay = some 0 ∧
    x.seg.rewinds = c.seg.rewinds + 1 ∧ x.seg.stopped = some cycle

/-- Entries withdrawn from the matrix queue change only the timelines of their context. -/
theorem ctx_withdraw (d : Device) (a : Nat) : ∃ tls, (d.withdraw a).ctx a = { d.ctx a with tls := tls } := by
  have fold (l : List MEntry) (x : Device) : ∃ tls, (l.foldl (fun x m => x.updCtx a fun c =>
      { c with tls := mset c.tls m.e ((mget {} c.tls m.e).drop m.num) }) x).ctx a = { x.ctx a with tls := tls } := by
    induction l generalizing x with
    | nil => exact ⟨_, rfl⟩
    | cons m r ih =>
      obtain ⟨tls, h⟩ := ih (x.updCtx a fun c => { c with tls := mset c.tls m.e ((mget {} c.tls m.e).drop m.num) })
      exact ⟨tls, h.trans (by rw [Device.ctx_updCtx_same])⟩
  exact fold _ _

theorem taskBinding_some {d : Device} {a b : Nat} {k : Binding} (h : d.taskBinding a = some (b, k)) :
    d.blockOf a = some b ∧ d.binding b = some k := by
  unfold Device.taskBinding at h
  simp only [Option.bind_eq_bind, Option.bind_eq_some_iff] at h
  obtain ⟨t, ht, k', hk, h⟩ := h
  cases h
  refine ⟨?_, hk⟩
  unfold Device.blockOf
  rw [ht]

/-- A detection in an open segment that may rewind puts its context back to the segment's entry. -/
theorem rewind_rewinds {d : Device} {a b : Nat} {k : Binding} (seq : Word) (hk : d.taskBinding a = some (b, k))
    (hp : k.prot = true) (ho : (d.ctx a).segOpen = true) (hm : (d.ctx a).seg.matrix = false)
    (hn : (d.ctx a).seg.rewinds < 2) (hs : (d.ctx a).seg.stopped = none) :
    Rewound (d.ctx a) ((d.rewind a seq).ctx a) d.cycle := by
  obtain ⟨hblk, hb⟩ := taskBinding_some hk
  obtain ⟨tls, hw⟩ := ctx_withdraw d a
  have hr : (d.ctx a).rewound = false := by
    unfold Ctx.rewound
    rw [hs, Option.isSome_none, Bool.and_false]
  unfold Device.rewind
  extract_lets c prot d1 d2
  have hprot : prot = true := by
    unfold prot
    simp only [hblk, hb, hp]
  rw [if_neg (by rw [hr]; decide), if_pos ⟨hprot, ho, by rw [hm]; rfl, hn⟩]
  have hd2 : d2.ctx a = d1.ctx a := by
    unfold d2
    rw [hblk]
    exact ctx_updBinding ..
  have hctx := hd2.trans (Device.ctx_updCtx_same ..)
  rw [hw] at hctx
  show Rewound c (d2.ctx a) d.cycle
  rw [hctx]
  exact ⟨rfl, rfl, rfl, rfl, rfl, rfl, rfl⟩

theorem lockstepCompare_mismatch {s : State} {agent b : Nat} {k : Binding} (hk : s.dev.taskBinding agent = some (b, k))
    (hp : k.prot = true) (hl : k.follower (cellOf (coreOf agent)) = false) (synd : BitVec 32) {d : Device}
    (hd : (s.dev.mismatchRecord agent (s.dev.ctx agent).comparing synd).rewind agent s.dev.nextSeq = d) :
    Becomes (.lockstepCompare agent false synd) s d := by
  refine becomes_dev (exec_lockstepCompare hk hp hl false synd) ?_
  rw [hd]
  rfl

/-- A mismatch in the open segment of a pair that may rewind. -/
theorem happens_lockstepCompare_rewinds {s : State} {agent b : Nat} {k : Binding}
    (hk : s.dev.taskBinding agent = some (b, k)) (hp : k.prot = true) (hl : k.follower (cellOf (coreOf agent)) = false)
    (synd : BitVec 32) (ho : (s.dev.ctx agent).segOpen = true) (hm : (s.dev.ctx agent).seg.matrix = false)
    (hn : (s.dev.ctx agent).seg.rewinds < 2) (hs : (s.dev.ctx agent).seg.stopped = none) :
    Happens (.lockstepCompare agent false synd) s fun t =>
      MemSame s t ∧ Rewound (s.dev.ctx agent) (t.dev.ctx agent) s.dev.cycle := by
  refine ⟨_, lockstepCompare_mismatch hk hp hl synd rfl, rfl, fun a => ?_, ?_⟩
  · dsimp only
    rw [rewind_mem, mismatchRecord_mem]
  · dsimp only
    obtain ⟨e, he⟩ := mismatchRecord_spec s.dev agent (s.dev.ctx agent).comparing synd
    rw [he]
    exact rewind_rewinds (d := { s.dev with err := e }) _ hk hp ho hm hn hs

/-- The events of a pair of context `agent`, whose task's binding is in protected mode and whose cell leads. -/
theorem lockstep_events {s : State} {agent b : Nat} {k : Binding} (synd : BitVec 32)
    (hk : s.dev.taskBinding agent = some (b, k)) (hp : k.prot = true) (hl : k.follower (cellOf (coreOf agent)) = false) :
    let c := s.dev.ctx agent
    let record := s.dev.mismatchRecord agent c.comparing synd
    Becomes (.lockstepCompare agent true synd) s (s.dev.updCtx agent fun c => { c with lastPc := none }) ∧
      (c.segOpen = true → c.seg.stopped.isSome = true → Becomes (.lockstepCompare agent false synd) s record) ∧
      (c.segOpen = false ∨ c.seg.stopped = none ∧ (c.seg.matrix = true ∨ 2 ≤ c.seg.rewinds) →
        Becomes (.lockstepCompare agent false synd) s (record.failTask agent s.dev.nextSeq)) := by
  intro c record
  obtain ⟨e, he⟩ := mismatchRecord_spec s.dev agent c.comparing synd
  have hctx : record.ctx agent = c := by
    unfold record
    rw [he]
    rfl
  refine ⟨becomes_dev (exec_lockstepCompare hk hp hl true synd) rfl, fun ho hs => ?_, fun h => ?_⟩
  · refine lockstepCompare_mismatch hk hp hl synd (rewind_rewound _ ?_)
    show (record.ctx agent).rewound = true
    rw [hctx]
    unfold Ctx.rewound
    rw [ho, hs]
    rfl
  · have hr : c.rewound = false := by
      unfold Ctx.rewound
      rcases h with h | ⟨h, -⟩ <;> rw [h]
      · rfl
      · exact Bool.and_false _
    refine lockstepCompare_mismatch hk hp hl synd (rewind_fails _ ?_ ?_)
    · show (record.ctx agent).rewound = false
      rw [hctx, hr]
    · show (record.ctx agent).segOpen = false ∨ (record.ctx agent).seg.matrix = true ∨ 2 ≤ (record.ctx agent).seg.rewinds
      rw [hctx]
      exact h.imp id And.right

theorem happens_rewindReissue {s : State} {agent t0 : Nat} (hs : (s.dev.ctx agent).seg.stopped = some t0)
    (ho : (s.dev.ctx agent).segOpen = true) (ht : t0 + 40 ≤ s.dev.cycle) :
    Happens (.rewindReissue agent) s fun t => ApartFrom s t agent ∧
      t.dev.ctx agent = { s.dev.ctx agent with seg := { (s.dev.ctx agent).seg with stopped := none } } := by
  refine happens_dev (d := s.dev.updCtx agent fun c => { c with seg := { c.seg with stopped := none } })
    (show exec (.rewindReissue agent) s = s.devEvent _ from rfl) ?_ ⟨⟨fun x hx => ?_, fun _ => rfl⟩, ?_⟩
  · simp only [hs, ho, ht, Option.bind_eq_bind, Option.bind_some, decide_true, Bool.and_self, guardOpt_true]
  · exact Device.ctx_updCtx_other _ _ _ _ hx
  · exact Device.ctx_updCtx_same ..

/-! ## The obligation -/

/-- The events of the operation that may run in an engine context (R320, R437). -/
theorem engine_events {s u : State} {agent e : Nat} {o : EngOp} {k : Binding} (ho : s.dev.runnable agent e = some o)
    (hk : s.dev.binding o.blk = some k) :
    (s.engOutcome o k = (u, none) → exec (.engineOpComplete agent e) s = .next { u with last := .done }) ∧
    (o.work = [] → o.succ = [] → o.bar = none → o.eng ≠ 5 → Happens (.engineOpComplete agent e) s fun t => OpDone s t o) ∧
    (∀ m x, s.engOutcome o k = (u, some m) → u.dev.faults o m = true → o.bar = none → o.tasked = true →
      (u.dev.ctx o.agent).task = some x → x.pin = .firm →
      Happens (.engineFault agent e m.1) s fun t => FaultMarked t o (engineCode m.1)) := by
  refine ⟨exec_engineOpComplete ho hk, fun hw hs hb he => ?_, fun m x hm hf hb ht hx hp => ?_⟩
  · obtain ⟨v, hv, hd⟩ := engOutcome_idle s k hw hs hb he
    exact ⟨_, exec_engineOpComplete ho hk hv, rfl, hd⟩
  · exact ⟨_, exec_engineFault ho hk hm hf, rfl,
      engFault_pinned (o := { o with wst := (u.dev.runnable agent e).elim o.wst (·.wst) }) hb ht hx hp⟩

/-- Settles O48: the events of engines, of matrix queues, of issue and of pairs, each by its own lemma above. -/
theorem coreAndEngineEventsHappen : Obligations.CoreAndEngineEventsHappen := by
  unfold Obligations.CoreAndEngineEventsHappen
  intro s agent core
  refine ⟨fun e o k u ho hk => ?_, fun path before m hn hf hi hc => ?_, fun path m hm => happens_matrixEntryComplete hm,
    fun hz hi => happens_freezeCycle hz hi, ⟨fun b ws hb he hi hh hz => ?_, fun b cause x hb => ?_, fun b cause x hb => ?_⟩,
    fun b k synd hk hp hl => ?_, fun t0 hs ho ht => happens_rewindReissue hs ho ht⟩
  · obtain ⟨rfl, rfl⟩ := runnable_is ho
    obtain ⟨hcomplete, hidle, hfault⟩ := engine_events (u := u) ho hk
    exact ⟨hcomplete, hidle, fun m hm hf => ⟨exec_engineFault ho hk hm hf, fun x hb ht hx hp => hfault m x hm hf hb ht hx hp⟩⟩
  · exact happens_matrixEntryStart hn hf hi hc
  · exact completes_illegalEncoding hb he hi hh hz
  · exact completes_instructionFetchFault hb fun _ => rfl
  · exact completes_instructionFetchFault hb fun _ => rfl
  · obtain ⟨hsame, hagain, hfails⟩ := lockstep_events synd hk hp hl
    exact ⟨hsame, fun ho hm hn hs => happens_lockstepCompare_rewinds hk hp hl synd ho hm hn hs, hagain, hfails⟩

end Sys2Proof.Proofs

/-! PROOF. Vector registers written element by element, and the flags that a bundle raises (R151, R152, R162, R163, R165, R177,
R205, R273): what every masked vector instruction leaves. -/

namespace Sys2Proof.Proofs

open Sys2Proof Sys2Proof.Machine Sys2Proof.Safety Sys2Proof.Laws

/-! ## Elements of a register (R151, R152) -/

theorem elCode_eq (v : Vec) (w i : Nat) : elCode v w i = v.toNat / 2 ^ (w * i) % 2 ^ w := by
  rw [elCode, BitVec.extractLsb'_toNat, Nat.shiftRight_eq_div_pow]

theorem elCode_lt (v : Vec) (w i : Nat) : elCode v w i < 2 ^ w := BitVec.isLt _

/-- The codes of a list are the digits of the number that they make. -/
theorem packed_digit (w : Nat) (codes : List Nat) (i : Nat) (h : i < codes.length) :
    codes.foldr (fun c acc => c % 2 ^ w + 2 ^ w * acc) 0 / 2 ^ (w * i) % 2 ^ w = codes[i] % 2 ^ w := by
  induction codes generalizing i with
  | nil => exact absurd h (Nat.not_lt_zero i)
  | cons c r ih =>
    rw [List.foldr_cons]
    cases i with
    | zero => simp
    | succ i =>
      have hc : c % 2 ^ w / 2 ^ w = 0 := Nat.div_eq_of_lt (Nat.mod_lt _ (Nat.two_pow_pos w))
      rw [Nat.mul_succ, Nat.add_comm (w * i), Nat.pow_add, ← Nat.div_div_eq_div_mul,
        Nat.add_mul_div_left _ _ (Nat.two_pow_pos w), hc, Nat.zero_add, List.getElem_cons_succ]
      exact ih i (Nat.lt_of_succ_lt_succ h)

theorem toNat_ofNat_digit (n : Nat) {v a w : Nat} (h : a + w ≤ v) :
    (BitVec.ofNat v n).toNat / 2 ^ a % 2 ^ w = n / 2 ^ a % 2 ^ w := by
  rw [BitVec.toNat_ofNat]
  refine Nat.eq_of_testBit_eq fun j => ?_
  simp only [Nat.testBit_mod_two_pow, Nat.testBit_div_two_pow]
  by_cases hj : j < w
  · simp [show j + a < v by omega]
  · simp [hj]

/-- An element of a register reads as the code that was packed at its place. -/
theorem elCode_packEls {w : Nat} {codes : List Nat} (hw : w * codes.length ≤ 2048) {i : Nat} (h : i < codes.length) :
    elCode (packEls w codes) w i = codes[i] % 2 ^ w := by
  have hi : w * i + w ≤ 2048 := (Nat.mul_le_mul_left w h).trans hw
  rw [elCode_eq, packEls, toNat_ofNat_digit _ hi, packed_digit w codes i h]

/-! ## Loops over elements (R163, R165) -/

/-- Each element of a loop is computed from some seed, and the loop raises the flags of its elements. -/
theorem runEls_spec (f : Nat → BitVec 32 → Rounded) (l : List Nat) (hl : l.Nodup) (sd : BitVec 32) :
    ∃ sds : Nat → BitVec 32, (runEls f l sd).codes = l.map (fun i => (f i (sds i)).code) ∧
      ∀ j, (runEls f l sd).flags.getLsbD j = true ↔ ∃ i ∈ l, (f i (sds i)).flags.getLsbD j = true := by
  induction l generalizing sd with
  | nil => exact ⟨fun _ => sd, rfl, fun j => by simp [runEls]⟩
  | cons i r ih =>
    obtain ⟨hi, hr⟩ := List.nodup_cons.mp hl
    obtain ⟨sds, hcodes, hflags⟩ := ih hr (f i sd).seed
    have hother : ∀ x ∈ r, Function.update sds i sd x = sds x := fun x hx =>
      Function.update_of_ne (ne_of_mem_of_not_mem hx hi) _ _
    refine ⟨Function.update sds i sd, ?_, fun j => ?_⟩
    · rw [List.map_cons, Function.update_self, List.map_congr_left fun x hx => by rw [hother x hx], ← hcodes, runEls]
    · rw [runEls, BitVec.getLsbD_or, Bool.or_eq_true, hflags, List.exists_mem_cons_iff, Function.update_self]
      exact or_congr_right (exists_congr fun x => and_congr_right fun hx => by rw [hother x hx])

/-! ## Flags and seeds of the bundle at hand (R163, R165, R177) -/

section
variable (s : State)

@[simp] theorem raise_dev (f : Flags) : (s.raise f).dev = s.dev := by
  unfold State.raise
  split <;> rfl

@[simp] theorem setSeed_dev (x : BitVec 32) : (s.setSeed x).dev = s.dev := by
  unfold State.setSeed
  split <;> rfl

@[simp] theorem raise_me (f : Flags) : (s.raise f).me = s.me := by
  unfold State.raise
  split
  · rfl
  · exact updBun_me s _ rfl

@[simp] theorem setSeed_me (x : BitVec 32) : (s.setSeed x).me = s.me := by
  unfold State.setSeed
  split
  · rfl
  · exact updBun_me s _ rfl

@[simp] theorem raise_flags (f : Flags) : (s.raise f).bun.flags = s.bun.flags ||| f := by
  unfold State.raise
  split
  · rename_i h
    rw [h]
    exact BitVec.or_zero.symm
  · rfl

@[simp] theorem setSeed_flags (x : BitVec 32) : (s.setSeed x).bun.flags = s.bun.flags := by
  unfold State.setSeed
  split <;> rfl

@[simp] theorem setV_me (d : BitVec 6) (v : VReg) : (s.setV d v).me = s.me :=
  ((OnlyCtx.refl s).updMe rfl fun c => c.setV d v).me rfl

@[simp] theorem setV_flags (d : BitVec 6) (v : VReg) : (s.setV d v).bun.flags = s.bun.flags := by
  unfold State.bun
  rw [State.setV_bundle]
  cases s.bundle <;> rfl

variable {s}

theorem bun_of_bundle {b : Bundle} (h : s.bundle = some b) : s.bun = b := by
  rw [State.bun, h]

theorem raise_bundle (f : Flags) {b : Bundle} (h : s.bundle = some b) :
    (s.raise f).bundle = some { b with flags := b.flags ||| f } := by
  unfold State.raise
  split
  · rename_i hf
    rw [h, hf, show b.flags ||| (0 : Flags) = b.flags from BitVec.or_zero]
  · rw [State.updBun_bundle, bun_of_bundle h]

theorem setSeed_bundle (x : BitVec 32) {b : Bundle} (h : s.bundle = some b) :
    ∃ y, (s.setSeed x).bundle = some { b with seed := y } := by
  unfold State.setSeed
  split
  · exact ⟨b.seed, h⟩
  · rw [State.updBun_bundle, bun_of_bundle h]
    exact ⟨_, rfl⟩

end

/-! ## The flags of a bundle in `fcsr` (R162, R177) -/

theorem loopCheck0_fcsr (r : Regs) (bstart next : Word) : (r.loopCheck0 bstart next).1.fcsr = r.fcsr := by
  unfold Regs.loopCheck0
  split <;> rfl

theorem loopCheck_fcsr (r : Regs) (bstart next : Word) : (r.loopCheck bstart next).1.fcsr = r.fcsr := by
  unfold Regs.loopCheck
  split
  · split
    · split
      · rfl
      · exact loopCheck0_fcsr ..
    · rfl
  · exact loopCheck0_fcsr ..

theorem closeLevels_fcsr (r : Regs) (bstart target : Word) : (r.closeLevels bstart target).fcsr = r.fcsr := by
  unfold Regs.closeLevels
  split
  · rfl
  · split <;> rfl

theorem continue_fcsr (b : Bundle) (trapMode : Bool) (r : Regs) : (b.continue trapMode r).1.fcsr = r.fcsr := by
  unfold Bundle.continue
  extract_lets check
  have hcheck : check.1.fcsr = r.fcsr := by
    unfold check
    split
    · rfl
    · exact loopCheck_fcsr ..
  split
  · exact hcheck
  · split
    · exact hcheck
    · split
      · exact closeLevels_fcsr ..
      · rfl

/-- The bits of `fcsr` below the seed at a bundle's commit: the ones that stood there and the flags that it raises. -/
theorem fcsr_commit (b : Bundle) (fcsr : Word) {j : Nat} (h : j < 6) :
    (b.fcsr fcsr).getLsbD (7 + j) = (fcsr.getLsbD (7 + j) || b.flags.getLsbD j) := by
  have hraise : (raiseFlags fcsr b.flags).getLsbD (7 + j) = (fcsr.getLsbD (7 + j) || b.flags.getLsbD j) := by
    simp [raiseFlags, show 7 + j < 64 by omega]
  unfold Bundle.fcsr
  extract_lets f
  split
  · split
    · exact hraise
    · rw [getLsbD_setBits _ _ _ _ _ (by omega) (by omega), if_neg (by omega)]
      exact hraise
  · exact hraise

theorem passIssue_regs (d : Device) (a b : Nat) : ((d.passIssue a).ctx b).regs = (d.ctx b).regs := by
  unfold Device.passIssue
  extract_lets core order
  split
  · rfl
  · split
    · rw [Device.ctx_updCtx]
      split
      · rename_i hb
        rw [hb]
      · rfl
    · rfl

theorem leave_regs (d : Device) (a : Nat) (r : RunState) : ((d.leave a r).ctx a).regs = (d.ctx a).regs := by
  have h : ((d.updCtx a fun c => { c with run := r }).ctx a).regs = (d.ctx a).regs := by rw [Device.ctx_updCtx_same]
  unfold Device.leave
  extract_lets was d1
  split
  · exact (passIssue_regs ..).trans h
  · exact h

theorem trapEntry_fcsr (d : Device) (a slot : Nat) (cause : BitVec 8) (val epc : Word) :
    ((d.trapEntry a slot cause val epc).ctx a).regs.fcsr = (d.ctx a).regs.fcsr := by
  unfold Device.trapEntry
  extract_lets p
  split
  · rw [leave_regs]
  · split
    · rw [Device.ctx_updCtx_same]
      rfl
    · unfold Device.enterRoutine
      rw [Device.ctx_updCtx_same]
      rfl

/-- What follows a commit keeps the context's `fcsr` (R51, R205, R262). -/
theorem follow_fcsr (s : State) (d : Device) (cont : Word) :
    ((s.follow d cont).dev.ctx s.me).regs.fcsr = (d.ctx s.me).regs.fcsr := by
  unfold State.follow
  extract_lets trapped held last
  have htrap : ((trapped d).ctx s.me).regs.fcsr = (d.ctx s.me).regs.fcsr := by
    unfold trapped
    split
    · exact trapEntry_fcsr ..
    · rfl
  show ((held (trapped d)).ctx s.me).regs.fcsr = _
  rw [← htrap]
  unfold held
  split
  · split
    · rw [leave_regs, Device.ctx_updCtx_same]
    · rfl
  · rfl

/-- The commit of a bundle sets the flags that it raises in bits 12:7 of `fcsr`. -/
theorem commit_flags (s : State) {j : Nat} (h : j < 6) : (s.commit.dev.ctx s.me).regs.fcsr.getLsbD (7 + j) =
    ((s.dev.ctx s.me).regs.fcsr.getLsbD (7 + j) || s.bun.flags.getLsbD j) := by
  have hstand : (s.standing.ctx s.me).regs.fcsr = s.bun.fcsr (s.bun.continue (s.mode == 1) s.ctx.regs).1.fcsr := by
    unfold State.standing
    rw [Device.ctx_setCtx_same]
    rfl
  unfold State.commit
  rw [follow_fcsr, hstand, continue_fcsr, fcsr_commit _ _ h]
  rfl

/-! ## A vector register written by elements (R163, R273) -/

section
variable (s : State) (d : BitVec 6) (w tag : Nat) (o : VOut)

theorem writeEls_dev : (s.writeEls d w tag o).dev =
    s.dev.updCtx s.me fun c => c.setV d ⟨packEls w o.codes, BitVec.ofNat 4 tag⟩ := by
  simp [State.writeEls]

theorem vnew_writeEls : vnew s (s.writeEls d w tag o) d = ⟨packEls w o.codes, BitVec.ofNat 4 tag⟩ := by
  rw [vnew, writeEls_dev, Device.ctx_updCtx_same, Ctx.vreg_setV, if_pos rfl]

theorem onlyVector_writeEls : OnlyVector s (s.writeEls d w tag o) d := by
  unfold OnlyVector MemSame
  rw [writeEls_dev]
  refine ⟨fun _ h => Device.ctx_updCtx_other _ _ _ _ h, rfl, fun _ => rfl, ?_, fun r h => ?_, fun b hb => ?_⟩
  · rw [Device.ctx_updCtx_same]
    rfl
  · rw [Device.ctx_updCtx_same, Ctx.vreg_setV, if_neg h]
  · obtain ⟨y, hy⟩ := setSeed_bundle o.seed
      (raise_bundle (s := s.setV d ⟨packEls w o.codes, BitVec.ofNat 4 tag⟩) o.flags hb)
    refine ⟨_, hy, rfl, BitVec.eq_of_getLsbD_eq fun i hi => ?_⟩
    rw [BitVec.getLsbD_and, BitVec.getLsbD_or]
    cases b.flags.getLsbD i <;> simp

theorem raises_writeEls {fl : Nat → Prop} (h : ∀ j, j < 6 → (o.flags.getLsbD j = true ↔ fl j)) :
    Raises s (s.writeEls d w tag o) fl := by
  have hme : (s.writeEls d w tag o).me = s.me := by simp [State.writeEls]
  have hflags : (s.writeEls d w tag o).bun.flags = s.bun.flags ||| o.flags := by simp [State.writeEls]
  intro j hj
  refine ⟨?_, hme ▸ commit_flags _ hj⟩
  rw [hflags, BitVec.getLsbD_or, Bool.or_eq_true, h j hj]

end

/-- A masked loop over elements: each active one is computed from some seed, and the flags of the active ones are raised. -/
theorem maskedEls_spec (s : State) (d : BitVec 6) (k : BitVec 3) (w : Nat) {tag : Nat} (ht : tag < 16)
    (f : Nat → BitVec 32 → Rounded) : ∃ sds : Nat → BitVec 32,
      MaskedLanes s (s.maskedEls d k w tag f) d k w tag (fun i c => c = (f i (sds i)).code % 2 ^ w) ∧
      Raises s (s.maskedEls d k w tag f) (SomeLane s k w fun i => (f i (sds i)).flags) := by
  unfold State.maskedEls
  extract_lets old m
  let g (i : Nat) (sd : BitVec 32) : Rounded := if laneOn m w i then f i sd else ⟨elCode old w i, 0, sd⟩
  obtain ⟨sds, hcodes, hflags⟩ := runEls_spec g (List.range (nelOf w)) List.nodup_range s.seed
  refine ⟨sds, ⟨onlyVector_writeEls .., ?_, fun i hi => ?_⟩, raises_writeEls _ _ _ _ _ fun j _ => (hflags j).trans ?_⟩
  · rw [vnew_writeEls]
    exact Nat.mod_eq_of_lt ht
  · have hlen : (runEls g (List.range (nelOf w)) s.seed).codes.length = nelOf w := by simp [hcodes]
    have hcode : elCode (packEls w (runEls g (List.range (nelOf w)) s.seed).codes) w i = (g i (sds i)).code % 2 ^ w := by
      rw [elCode_packEls (by rw [hlen]; exact Nat.mul_div_le 2048 w) (by rw [hlen]; exact hi)]
      simp [hcodes]
    rw [vnew_writeEls, hcode]
    by_cases hon : (s.kreg k).getLsbD (i * w / 32) = true
    · rw [if_pos hon]
      exact congrArg (fun r : Rounded => r.code % 2 ^ w) (if_pos hon)
    · rw [if_neg hon]
      exact (congrArg (fun r : Rounded => r.code % 2 ^ w) (if_neg hon)).trans (Nat.mod_eq_of_lt (elCode_lt _ _ _))
  · refine exists_congr fun i => ?_
    rw [List.mem_range]
    refine and_congr_right fun _ => ?_
    by_cases hon : (s.kreg k).getLsbD (i * w / 32) = true
    · rw [show g i (sds i) = f i (sds i) from if_pos hon]
      exact (and_iff_right hon).symm
    · rw [show g i (sds i) = ⟨elCode old w i, 0, sds i⟩ from if_neg hon]
      simp [hon]

/-- What holds of the active elements may be weakened. -/
theorem maskedLanes_imp {s t : State} {d : BitVec 6} {k : BitVec 3} {w tag : Nat} {p q : Nat → Nat → Prop}
    (h : MaskedLanes s t d k w tag p) (hpq : ∀ i c, p i c → q i c) : MaskedLanes s t d k w tag q := by
  obtain ⟨honly, htag, hels⟩ := h
  refine ⟨honly, htag, fun i hi => ?_⟩
  have hel := hels i hi
  split at hel
  · rename_i hon
    rw [if_pos hon]
    exact hpq _ _ hel
  · rename_i hon
    rwa [if_neg hon]

/-- A masked loop of codes raises no flag. -/
theorem maskedCodes_spec (s : State) (d : BitVec 6) (k : BitVec 3) (w : Nat) {tag : Nat} (ht : tag < 16) (f : Nat → Nat) :
    MaskedLanes s (s.maskedCodes d k w tag f) d k w tag (fun i c => c = f i % 2 ^ w) ∧
      Raises s (s.maskedCodes d k w tag f) fun _ => False := by
  obtain ⟨sds, hels, hraises⟩ := maskedEls_spec s d k w ht fun i sd => ⟨f i, 0, sd⟩
  have hnone : SomeLane s k w (fun _ => 0) = fun _ => False := by
    funext j
    simp [SomeLane]
  exact ⟨hels, hnone ▸ hraises⟩

end Sys2Proof.Proofs

/-! PROOF. Integer arithmetic and shifts on vectors (O35; R154, R168, R272, R274, R278, R279). -/

namespace Sys2Proof.Proofs

open Sys2Proof Sys2Proof.Machine Sys2Proof.Safety Sys2Proof.Laws

/-! ## Integers in range, clamped and wrapped (R154, R168, R272) -/

theorem intCode_toInt (w : Nat) (x : Int) : (intCode w x : Int) = x % 2 ^ w := by
  rw [intCode, BitVec.toNat_ofInt, Int.toNat_of_nonneg (Int.emod_nonneg _ (by positivity))]
  norm_cast

theorem intRange_le (t : Nat) : (intRange t).1 ≤ (intRange t).2 := by
  unfold intRange
  split <;> decide

theorem clamp_eq {r : Int × Int} (h : r.1 ≤ r.2) (x : Int) : clamp r x = max r.1 (min r.2 x) := by
  unfold clamp
  split
  · omega
  · split <;> omega

theorem satInt_value (t : Nat) (sat : Bool) (x : Int) :
    (satInt t sat x).1 = if sat then max (intRange t).1 (min (intRange t).2 x) else x := by
  rw [← clamp_eq (intRange_le t)]
  unfold satInt
  extract_lets c
  split
  · rename_i hc
    rw [show clamp (intRange t) x = x from hc, ite_self]
  · split <;> rfl

theorem satInt_flags (t : Nat) (sat : Bool) (x : Int) :
    (satInt t sat x).2 = if sat = true ∧ (x < (intRange t).1 ∨ (intRange t).2 < x) then fSf else 0 := by
  have hin : clamp (intRange t) x = x ↔ ¬(x < (intRange t).1 ∨ (intRange t).2 < x) := by
    rw [clamp_eq (intRange_le t)]
    have := intRange_le t
    omega
  unfold satInt
  extract_lets c
  split
  · rename_i hc
    rw [if_neg fun h => hin.mp hc h.2]
  · rename_i hc
    have hout := not_not.mp (mt hin.mpr hc)
    cases sat with
    | false => rfl
    | true => exact (if_pos (And.intro rfl hout)).symm

/-! ## The instructions (R278, R279) -/

theorem checkTag_ok {s : State} {r : BitVec 6} {ok : List Nat} (h : s.tagOf r ∈ ok) : s.checkTag r ok = .ok () := by
  unfold State.checkTag
  rw [show ok.contains (s.vreg r).tag.toNat = true from List.contains_iff_mem.mpr h, require_true]

theorem sameTags_ok {s : State} {a b : BitVec 6} {ok : List Nat} (ha : s.tagOf a ∈ ok) (hb : s.tagOf b = s.tagOf a) :
    s.sameTags a b ok = .ok () := by
  unfold State.sameTags
  rw [checkTag_ok ha]
  exact checkTag_ok (by rw [hb]; exact List.mem_singleton_self _)

theorem intTag_lt : ∀ {t : Nat}, t ∈ [1, 2, 3, 4, 13] → t < 16 := by decide

section
variable {s : State} {d a b : BitVec 6} (k : BitVec 3) {t : Nat} (ht : t ∈ [1, 2, 3, 4, 13]) (ha : s.tagOf a = t)
  (hb : s.tagOf b = t)
include ht ha hb

theorem sameIntTags : s.sameTags a b [1, 2, 3, 4, 13] = .ok () :=
  sameTags_ok (ha.symm ▸ ht) (hb.trans ha.symm)

/-- An integer instruction gives each active element the exact result through `sat_int`, and no flag but `sf`. -/
theorem intOp_gives (acc : Bool) (hd : acc = true → s.tagOf d = t) (f : Int → Int → Int → Int) :
    let num (r : BitVec 6) (i : Nat) : Int := intOf t (elCode (s.vreg r).bits (elWidth t) i)
    let exact (i : Nat) : Int := f (num a i) (num b i) (num d i)
    Completes (intOp acc f d a b k s) fun u =>
      MaskedLanes s u d k (elWidth t) t (fun i c =>
        (c : Int) = (if s.sat then max (intRange t).1 (min (intRange t).2 (exact i)) else exact i) % 2 ^ elWidth t) ∧
      Raises s u (SomeLane s k (elWidth t) fun i =>
        if s.sat = true ∧ (exact i < (intRange t).1 ∨ (intRange t).2 < exact i) then fSf else 0) := by
  intro num exact
  obtain ⟨sds, hels, hraises⟩ := maskedEls_spec s d k (elWidth t) (intTag_lt ht) fun i sd =>
    ⟨intCode (elWidth t) (satInt t s.sat (exact i)).1, (satInt t s.sat (exact i)).2, sd⟩
  refine completes_slot ?_ ⟨maskedLanes_imp hels fun i c hc => ?_, ?_⟩
  · rw [sameIntTags ht ha hb]
    subst ha
    cases acc with
    | false => rfl
    | true =>
      dsimp only [bind, Except.bind, if_true]
      rw [checkTag_ok (List.mem_singleton.mpr (hd rfl))]
      rfl
  · rw [hc.trans (Nat.mod_eq_of_lt (BitVec.isLt _)), intCode_toInt, satInt_value]
  · simpa only [satInt_flags] using hraises

/-- A shift gives each active element its code shifted by the count modulo the width, and no flag. -/
theorem shiftOp_gives (f : Nat → Nat → Nat → Nat) (hf : ∀ x n, x < 2 ^ elWidth t → f (elWidth t) x n < 2 ^ elWidth t) :
    Completes (shiftOp f d a b k s) fun u =>
      MaskedLanes s u d k (elWidth t) t (fun i c => c =
        f (elWidth t) (elCode (s.vreg a).bits (elWidth t) i) (elCode (s.vreg b).bits (elWidth t) i % elWidth t)) ∧
      Raises s u fun _ => False := by
  obtain ⟨hels, hraises⟩ := maskedCodes_spec s d k (elWidth t) (intTag_lt ht) fun i =>
    f (elWidth t) (elCode (s.vreg a).bits (elWidth t) i) (elCode (s.vreg b).bits (elWidth t) i % elWidth t)
  refine completes_slot ?_ ⟨maskedLanes_imp hels fun i c hc => hc.trans (Nat.mod_eq_of_lt (hf _ _ (elCode_lt _ _ _))), hraises⟩
  rw [sameIntTags ht ha hb]
  subst ha
  rfl

end

/-- The integer formats of the statement are the model's (R151, R154). -/
theorem intFormat {t w : Nat} {lo hi : Int}
    (h : (t, w, lo, hi) ∈ [(1, 8, -128, 127), (2, 8, 0, 255), (3, 16, -32768, 32767), (4, 32, -2147483648, 2147483647),
      ((13 : Nat), (4 : Nat), (-8 : Int), (7 : Int))]) :
    t ∈ [1, 2, 3, 4, 13] ∧ w = elWidth t ∧ lo = (intRange t).1 ∧ hi = (intRange t).2 := by
  simp only [List.mem_cons, Prod.mk.injEq, List.not_mem_nil, or_false] at h
  rcases h with h | h | h | h | h
  all_goals
    obtain ⟨rfl, rfl, rfl, rfl⟩ := h
    decide

/-- Settles O35: each integer instruction is `intOp` with its exact result, each shift `shiftOp` with its own code. -/
theorem vectorIntegers : Obligations.VectorIntegers := by
  unfold Obligations.VectorIntegers
  intro s d a b k t w lo hi hmem ha hb num sat gives shifts
  obtain ⟨ht, rfl, rfl, rfl⟩ := intFormat hmem
  have int (acc : Bool) (hd : acc = true → s.tagOf d = t) (f : Int → Int → Int → Int) (ins : Instr)
      (hins : exec ins s = intOp acc f d a b k s) : gives ins fun i => f (num a i) (num b i) (num d i) := by
    unfold gives
    rw [hins]
    exact intOp_gives k ht ha hb acc hd f
  have two (f : Int → Int → Int → Int) := int false (fun h => absurd h Bool.false_ne_true) f
  have shift (f : Nat → Nat → Nat → Nat) (ins : Instr) (hins : exec ins s = shiftOp f d a b k s)
      (hf : ∀ x n, x < 2 ^ elWidth t → f (elWidth t) x n < 2 ^ elWidth t) : shifts ins (f (elWidth t)) := by
    unfold shifts
    rw [hins]
    exact shiftOp_gives k ht ha hb f hf
  refine ⟨two (fun x y _ => x + y) _ rfl, two (fun x y _ => x - y) _ rfl, two (fun x y _ => x * y) _ rfl,
    ?_, ?_, fun hd => ?_, ?_, ?_, ?_⟩
  · simp only [min_def_lt']
    exact two (fun x y _ => if y < x then y else x) _ rfl
  · simp only [max_def_lt]
    exact two (fun x y _ => if x < y then y else x) _ rfl
  · exact int true (fun _ => hd) (fun x y z => z + x * y) _ rfl
  · exact shift (fun w x n => x * 2 ^ n % 2 ^ w) _ rfl fun _ _ _ => Nat.mod_lt _ (Nat.two_pow_pos _)
  · exact shift (fun _ x n => x / 2 ^ n) _ rfl fun _ _ hx => (Nat.div_le_self ..).trans_lt hx
  · exact shift (fun w x n => ((BitVec.ofNat w x).sshiftRight n).toNat) _ rfl fun _ _ _ => BitVec.isLt _

end Sys2Proof.Proofs
